-- ==== Sys2Proof/Word.lean ====
section
/-!
DEFINITION. The words of the module: bytes, the 32- and 64-bit words of its registers, device addresses, and the
one shape in which sparse numbered things are held (`KMap`).
-/

namespace Sys2Proof

/-- One byte. -/
abbrev Byte := BitVec 8
/-- A 32-bit word: a 32-bit register, a step number, an execution index. -/
abbrev Word32 := BitVec 32
/-- A 64-bit word: a 64-bit register, an x register, a descriptor word. -/
abbrev Word64 := BitVec 64

/-- Sparse data by number: (number, value) pairs, numbers strictly rising. What an unlisted number stands for is
said by the map's own default, and no entry equals that default. -/
abbrev KMap (α : Type) := List (Nat × α)

/-- Device memory: the bytes that differ from zero, by device address, addresses strictly rising (R15, R16). An
unlisted address holds zero: the module zero-fills the hot tier and the warm tier at start-up (Table 15.7). -/
abbrev Memory := List Host.Cell

end Sys2Proof
end

