-- ==== Sys2Proof/Syntax.lean ====
section
/-!
DEFINITION. The commands of the module: what reaches it from the host, the fabric, the pins and the memories, and the
steps its own units take. One constructor for each row of spec/opcode_table.json; the table gives the rows no bits.
-/

namespace Sys2Proof

/-- The AMO and LR/SC operations of RV64A (R36, R38). -/
inductive AmoOp where
  | lr | sc | swap | add | xor | and | or | min | max | minu | maxu
  deriving DecidableEq, Repr

/-- What the surroundings decide of an execution: words of SRAM in which its reads found a single-bit error (R78),
cycles it waited for a bank (R176, R199), run-ahead data that came late, and the bytes a lender returned where it read a neighbour window (R499). -/
structure Obs where
  /-- Single-bit errors corrected. -/
  ce : Nat
  /-- Cycles of waiting for a bank. -/
  stall : Nat
  /-- Run-ahead fetches it used that had not arrived yet (Table 2.11). -/
  late : Nat
  deriving DecidableEq, Repr

/-- A unit of a plot with a queue of executions (R51). -/
inductive UnitSel where
  | dma | mat | vec | send | recv
  deriving DecidableEq, Repr


/-- A memory unit with rows that wear: an HBM pseudo-channel of a stack (3 × die + stack of the die), or a DDR5 channel
(4 × Iaqua + channel). -/
inductive MemUnit where
  | hbm (stack : Fin 12) (pc : Fin 64)
  | ddr (channel : Fin 16)
  deriving DecidableEq, Repr

/-- A unit that EVACUATE and the return of parts name (Table 7.15): pseudo-channel 64 × stack + number, DIMM channel,
cartridge bay, neighbour window of a loan. -/
inductive EvacUnit where
  | hbm (pc : Fin 768)
  | dimm (channel : Fin 16)
  | cart (bay : Fin 4)
  | loan (window : Fin 16)
  deriving DecidableEq, Repr

/-- Where a chunk of a collective comes from: the oldest SEND of a plot, a submission of a spine core or the scheduler core, or the
oldest message of another member. -/
inductive CollSource where
  | plot
  | core (slot : Fin 4096) (bytes : List Byte)
  | fabric
  deriving DecidableEq, Repr

/-- A word whose count of consumed entries the module reads again: CQ_HEAD of a ring, EV_HEAD, the log ring's word. -/
inductive HeadWord where
  | cq (ring : Fin 256)
  | event
  | log
  deriving DecidableEq, Repr

/-- A device read of host memory that fails: one that a descriptor needed, of a descriptor, of an SQ_TAIL word, of a
consumption word. -/
inductive HostRead where
  | data (desc : Nat)
  | descriptor (ring : Fin 256)
  | tail (ring : Fin 256)
  | count
  deriving DecidableEq, Repr

/-- A stage of start-up (Table 15.7) with what it found: the link's rate and width; domains that failed to come up; pseudo-channels (64 ×
stack + number) and stacks that failed training; DIMMs fitted with their GiB, channels that failed, Iaquas that failed; cartridges
found, with their erase blocks, whether they are ZPX-FC15 and whether this module initialised them. -/
inductive StartStage where
  | bootRom
  | link (rate width : Nat)
  | firmware
  | domains (failed : List (Fin 30))
  | plots
  | hbm (pcs : List (Fin 768)) (stks : List (Fin 12))
  | ddr (fitted : List (Fin 16 × Nat)) (failed : List (Fin 16)) (iaquas : List (Fin 4))
  | flash (found : List (Fin 4 × Nat × Bool × Bool))
  | journals
  | fabric
  | engine
  deriving DecidableEq, Repr

/-- The commands: one constructor for each row of the opcode table, with the row's operands. -/
inductive Instr where
  /-- FSTART (R68): Control-core instruction that starts the sequencer at an entry with a mode word; the issuing thread becomes the owner, and SWITCH in single use is refused. -/
  | fstart (plot : Fin 4352) (thread : Fin 8) (rd rs1 rs2 : Fin 32)
  /-- FSTOP (R69): Control-core instruction that stops furrow issue while in-flight furrows complete, and returns the status. -/
  | fstop (plot : Fin 4352) (thread : Fin 8) (rd : Fin 32)
  /-- FREADY (R69): Control-core instruction that marks a FREE half of the furrow table READY. -/
  | fready (plot : Fin 4352) (thread : Fin 8) (rs1 : Fin 32)
  /-- FLOAD (R70): Control-core instruction that starts a 64 KiB plot-DMA load from a DA into a half of the furrow table. -/
  | fload (plot : Fin 4352) (thread : Fin 8) (rs1 rs2 : Fin 32)
  /-- LOAD_DONE (R70): Completion of an FLOAD, delivered to the owner as the LOAD_DONE event. -/
  | loadDone (plot : Fin 4352)
  /-- FWAIT (R41): Control-core instruction that parks its thread until an event in the mask is pending, and returns the event word. -/
  | fwait (plot : Fin 4352) (thread : Fin 8) (rd rs1 : Fin 32)
  /-- FTOK (R56): Control-core instruction that atomically adds a signed value to a token counter and returns the old value. -/
  | ftok (plot : Fin 4352) (thread : Fin 8) (rd rs1 rs2 : Fin 32)
  /-- FSTAT (R140): Control-core instruction that returns a selected status word, including ACC_STAT of an accumulator tile. -/
  | fstat (plot : Fin 4352) (thread : Fin 8) (rd rs1 : Fin 32)
  /-- FWORK (R102): Control-core instruction that requests a furrow block from the work queue and parks its thread until a grant. -/
  | fwork (plot : Fin 4352) (thread : Fin 8) (rd : Fin 32)
  /-- ILLEGAL_INSTRUCTION (R39): A custom-0 instruction with non-zero funct7 raises an illegal-instruction exception. -/
  | illegalInstruction (plot : Fin 4352) (thread : Fin 8) (word : Word32)
  /-- DEVICE_LOAD (R41): A control-core load from device memory parks its thread, and a seventh parked access is held. -/
  | deviceLoad (plot : Fin 4352) (thread : Fin 8) (rd rs1 : Fin 32) (imm : BitVec 12) (log2w : Fin 4) (signed short : Bool)
  /-- DEVICE_STORE (R41): A control-core store to device memory is posted. -/
  | deviceStore (plot : Fin 4352) (thread : Fin 8) (rs1 rs2 : Fin 32) (imm : BitVec 12) (log2w : Fin 4) (short : Bool)
  /-- DEVICE_ACCESS_COMPLETION (R43): The completion token of a device load or store arrives, and the parked thread becomes runnable within 2 C-cycles. -/
  | deviceAccessCompletion (plot : Fin 4352) (thread : Fin 8) (store : Bool)
  /-- AMO_LRSC (R38): An AMO or LR/SC instruction runs on own plot SRAM or a hot-tier DA, and faults on any other address. -/
  | amoLrsc (plot : Fin 4352) (thread : Fin 8) (op : AmoOp) (dword : Bool) (rd rs1 rs2 : Fin 32)
  /-- FENCE_INSTRUCTION (R41): A FENCE parks its thread until every posted store of that thread is acknowledged. -/
  | fenceInstruction (plot : Fin 4352) (thread : Fin 8)
  /-- THREAD_START_WORD (R40): A write of a thread's start word in plot control starts that hardware thread. -/
  | threadStartWord (plot : Fin 4352) (thread target : Fin 8) (rs2 : Fin 32)
  /-- FURROW_STORE_WRITE (R70): A store into the furrow store takes effect in a FREE or READY half, and is refused with EV_FURROW_STORE_BUSY in an ACTIVE half. -/
  | furrowStoreWrite (plot : Fin 4352) (thread : Fin 8) (rs1 rs2 : Fin 32) (imm : BitVec 12) (log2w : Fin 4) (short : Bool)
  /-- FURROW_ISSUE (R49): The sequencer reads the next record whole and issues one execution once its token wait, SYNC or PHASE condition, queue room and hazard conditions hold. -/
  | furrowIssue (plot : Fin 4352) (replay : Option (Fin 4352)) (stall : Nat)
  /-- IDLE (R45): An IDLE furrow holds the sequencer for the given number of A-cycles and completes when they expire. -/
  | idle (plot : Fin 4352)
  /-- MOVE (R81): A MOVE execution copies rows, converting format, turning 32x32 blocks or compressing and expanding masks as its control asks. -/
  | move (plot : Fin 4352) (obs : Obs)
  /-- GATHER (R228): A GATHER execution reads one slice per index-list entry as of its target into SRAM, with a status in each slice. -/
  | gather (plot : Fin 4352) (obs : Obs) (fails : List (Nat × Bool))
  /-- GATHER_RUN_AHEAD (R86): The plot DMA issues a run-ahead fetch for later index-list entries within the table's bounds, or drops it. -/
  | gatherRunAhead (plot : Fin 4352)
  /-- STREAM_RUN_AHEAD (R87): The plot DMA issues a run-ahead fetch for later executions of a MOVE from DA, within what they will demand. -/
  | streamRunAhead (plot : Fin 4352)
  /-- POOL (R170): A POOL execution sums the gathered slices of each bag exactly in ACC3 and writes each bag rounded once, or as a wide pooled record. -/
  | pool (plot : Fin 4352) (obs : Obs)
  /-- MATMUL (R137): A MATMUL execution forms exact products over KBLK blocks into an accumulator tile and drains it when DRAIN is set. -/
  | matmul (plot : Fin 4352) (obs : Obs)
  /-- VCHAIN (R184): A VCHAIN execution runs up to eight FP32 stages on a block or vector and converts the result into OP3's format. -/
  | vchain (plot : Fin 4352) (obs : Obs)
  /-- REDUCE (R190): A REDUCE execution adds the lines of a tile exactly into the wide reduction registers, or writes presence bits for NZMAP. -/
  | reduce (plot : Fin 4352) (obs : Obs)
  /-- SEND (R74): A SEND takes the credit of its destination channel and then sends a message of up to 4,096 bytes. -/
  | send (plot : Fin 4352) (obs : Obs)
  /-- MESSAGE_ARRIVAL (R73): A message arrives whole in receive channel CHAN of the destination logical plot. -/
  | messageArrival (src dest : Fin 4096) (chan : Fin 8)
  /-- CHANNEL_CREDIT_RETURN (R74): A consumed message returns its channel credit to the first waiting sender. -/
  | channelCreditReturn (dest : Fin 4096) (chan : Fin 8)
  /-- RECV (R77): A RECV waits for a message on its channel and writes the payload and a 16-byte receipt. -/
  | recv (plot : Fin 4352)
  /-- SIGNAL (R76): A SIGNAL furrow adds to a token counter of this or another plot, or decrements a work-queue dependency slot. -/
  | signal (plot : Fin 4352)
  /-- SIGNAL_DELIVERY (R76): A SIGNAL reaches another plot after every earlier SEND from this plot to it, and adds to the token counter. -/
  | signalDelivery (src dest : Fin 4096)
  /-- SOW (R320): A SOW execution delivers its gradient contributions to the gradient stage of the named table. -/
  | sow (plot : Fin 4352) (obs : Obs)
  /-- FINGERPRINT (R45): A FINGERPRINT execution computes CRC-64/XZ over a region and writes the 8-byte result. -/
  | fingerprint (plot : Fin 4352) (obs : Obs)
  /-- MILESTONE_FURROW (R58): A MILESTONE furrow reports the plot's step work done and holds further issue until a release. -/
  | milestoneFurrow (plot : Fin 4352)
  /-- CAL_SLOT (R59): A CAL furrow runs queued calibration or pattern content within BUDGET, or completes in 1 C-cycle when nothing is queued. -/
  | calSlot (plot : Fin 4352) (calib : Option (Nat × Nat × Nat)) (pass : Bool)
  /-- FURROW_COMPLETE (R54): A furrow completes when all its executions have completed, and signals STOK when SEN is set. -/
  | furrowComplete (plot : Fin 4352)
  /-- HALF_SWITCH_RESUME (R68): A sequencer waiting at the headland under SWITCH resumes when the other half becomes READY. -/
  | halfSwitchResume (plot : Fin 4352) (cycles : Nat)
  /-- FURROW_FAULT (R57): A demand fault ends the furrow without its signal, stops issue and delivers a FAULT event naming entry and execution. -/
  | furrowFault (plot : Fin 4352) (ue : Option (UnitSel × Nat))
  /-- CLKA_DIVIDER_SWITCH (R560): A plot switches its CLK_A between divide-by-8 and divide-by-16 at the end of an execution after the power core's order. -/
  | clkaDividerSwitch (plot : Fin 4352)
  /-- WORK_QUEUE_GRANT (R101): The work queue grants the next block to a waiting plot, first from its own die's share. -/
  | workQueueGrant (plot : Fin 4096)
  /-- BLOCK_COMPLETE (R105): A block completes, decrements its done slot, and the step's work done is reported once every block has completed. -/
  | blockComplete (plot : Fin 4096)
  /-- PHASE_JOIN (R372): The scheduler core joins the phase once every training plot has issued its PHASE furrow, old-phase blocks are done and PHASE tokens have arrived. -/
  | phaseJoin
  /-- PLOT_REMAP (R99): A quadrant controller copies a plot's SRAM and furrow store to a spare between blocks and changes the plot map. -/
  | plotRemap (plot : Fin 4096)
  /-- COALESCE_INDEX (R235): A coalescer takes one index per M-cycle and adds it to its window, spilling a sorted run when the window is full. -/
  | coalesceIndex (step : Word32) (table : Fin 4096) (row : BitVec 40)
  /-- COALESCE_MERGE (R236): At the end of a step's input, the coalescer merges its runs into the final distinct list. -/
  | coalesceMerge (coal : Fin 16)
  /-- ROW_READ (R215): A read of a row resolves its record as of the target, following PREVLINK into the journal while the tag is newer. -/
  | rowRead (table : Fin 4096) (row : BitVec 40) (target : Word32) (whole training : Bool)
  /-- VERSION_FREE (R225): The previous version and its memory are freed once it has no pins, its switch step is CLEARED and no warm update for it remains. -/
  | versionFree (table : Fin 4096)
  /-- TIER_TRANSACTION_TIMEOUT (R294): A transaction whose tier has not answered within its timeout ends with TIER_TIMEOUT. -/
  | tierTransactionTimeout (table : Fin 4096) (row : BitVec 40)
  /-- PATROL_SCRUB (R265): The patrol scrub reads every backed hot and warm location once per SCRUBH hours and writes corrections back. -/
  | patrolScrub (warm : Bool) (ce : Nat)
  /-- LENT_COLD_TAG_CHECK (R351): The tier engine checks each lent and cold record's tag at least once every 2^28 steps and promotes those due a refresh. -/
  | lentColdTagCheck (cold : Bool) (loc : Nat)
  /-- HBM_CORRECTION (R263): System ECC corrects a single-symbol error in an HBM access and counts it. -/
  | hbmCorrection (stack : Fin 12) (pc : Fin 64) (row : Nat)
  /-- HBM_UE (R264): An uncorrectable HBM error ends a record read with TIER_ERROR and restores the record, or faults another access. -/
  | hbmUe (da : BitVec 56) (who : Option (Fin 4352 × UnitSel))
  /-- SOFT_PPR (R266): A DRAM row with ROWCE corrections in a scrub period is repaired by soft post-package repair. -/
  | softPpr (unit : MemUnit) (row : Nat) (da : BitVec 56)
  /-- HBM_PC_SPARE (R267): A pseudo-channel past PCCE corrections per hour, or out of repair rows, is copied to a spare and made fallow. -/
  | hbmPcSpare (stack : Fin 12) (pc : Fin 64) (exhausted : Bool)
  /-- HARD_PPR_TEST (R268): A fallow pseudo-channel receives hard repair and a test, and becomes a spare if it passes. -/
  | hardPprTest (stack : Fin 12) (pc : Fin 64) (pass : Bool)
  /-- HBM_DIE_REFORM (R269): With no spare left, the die is re-formed with three fewer logical pseudo-channels and its range rewritten. -/
  | hbmDieReform (stack : Fin 12) (pc : Fin 64) (exhausted : Bool) (pages : Nat)
  /-- HBM_PC_LOST (R270): A pseudo-channel that stops answering aborts the step, marks the soft band lost, restores records and re-forms the die. -/
  | hbmPcLost (stack : Fin 12) (pc : Fin 64)
  /-- DDR_CORRECTION (R275): Iaqua ECC corrects a single-device error in a DDR5 access and counts it. -/
  | ddrCorrection (channel : Fin 16) (row : Nat)
  /-- DDR_UE (R275): An uncorrectable DDR5 error raises EV_DDR_UE and is treated as an HBM uncorrectable error. -/
  | ddrUe (da : BitVec 56) (who : Option (Fin 4352 × UnitSel))
  /-- DDR_CHANNEL_FALLOW (R276): A DDR5 channel past PCCE corrections per hour, or that stops answering, is made fallow by evacuation. -/
  | ddrChannelFallow (channel : Fin 16) (dead : Bool)
  /-- EXTENT_MOVE (R273): An Iaqua copies an extent to another channel and switches its extent table in one operation. -/
  | extentMove (iaqua : Fin 4) (extent : Nat) (dst : Fin 4)
  /-- FLASH_WRITE (R281): A flash write is acknowledged once its data and map-journal entry are programmed. -/
  | flashWrite (bay : Fin 4) (block : Nat) (closes : Bool)
  /-- WEAR_LEVEL (R282): When the erase-count spread passes WLDELTA, the least-worn full blocks are moved at SC2. -/
  | wearLevel (bay : Fin 4)
  /-- READ_DISTURB_REFRESH (R283): An erase block read past its read-disturb limit has its valid data rewritten elsewhere. -/
  | readDisturbRefresh (bay : Fin 4) (eblock : Nat)
  /-- FLASH_UE (R284): A flash read that stays uncorrectable ends its request with TIER_ERROR, and failing blocks are retired. -/
  | flashUe (bay : Fin 4) (block : BitVec 36) (uncorrectable : Bool) (retire : Option Nat)
  /-- GARBAGE_COLLECTION (R285): When free erase blocks fall below GCLOW, the blocks with the fewest valid pages are collected. -/
  | garbageCollection (bay : Fin 4)
  /-- CART_LOST (R286): A cartridge removed without evacuation or failed has its rows restored from cairns and invalidates cairns on it. -/
  | cartLost (bay : Fin 4)
  /-- LOAN_REVOKE_RECEIVED (R289): A borrower told of a revocation raises EV_LOAN_REVOKE and moves the loan's records out before the deadline. -/
  | loanRevokeReceived (window : Fin 16) (deadline : Word64)
  /-- LOAN_AUTO_REVOKE (R289): A lender revokes a loan by itself when its pool falls below 1 % free or an evacuation needs the pages. -/
  | loanAutoRevoke
  /-- LENT_LIMIT_ENFORCE (R290): While a warm pool is below its low watermark, records in one lender's loan are held to 4 GiB per cartridge. -/
  | lentLimitEnforce (window : Fin 16)
  /-- EVICTION (R296): A pool below its low watermark evicts victims chosen by clock hand until it reaches its high watermark. -/
  | eviction (pool : Fin 8)
  /-- WARM_COPY_CLEAN (R300): The cleaner creates or refreshes warm copies of the coldest hot rows outside application windows, within BUDGET. -/
  | warmCopyClean
  /-- TIER_MOVE (R304): A promotion, eviction or relocation sets STATE, copies and verifies the record, then switches the row-map entry. -/
  | tierMove (table : Fin 4096) (row : BitVec 40)
  /-- MOVE_SWITCH (R305): At the switch the engine compares STEPTAG and FPRINT with those read, and voids and restarts a changed copy. -/
  | moveSwitch (table : Fin 4096) (row : BitVec 40)
  /-- MOVE_FAIL (R309): A failed or late source read ends the move, leaves the row at its source and ends waiting requests. -/
  | moveFail (table : Fin 4096) (row : BitVec 40) (late write : Bool)
  /-- TIER_REBUILD (R311): After a link reset without KEEP_HOT, the row maps are rebuilt from warm and cold slot ledgers and lost rows listed. -/
  | tierRebuild
  /-- MARGIN_SAMPLE (R312): A second sampler measures each memory pin's margin on live error-free reads. -/
  | marginSample (pin : Nat) (left right : Nat)
  /-- DELAY_ADJUST (R313): A pin whose margins differ by 2 or more taps moves 1 tap toward the centre at the next refresh boundary. -/
  | delayAdjust (pin : Nat) (unit : MemUnit)
  /-- MEM_MARGIN_LOW (R314): A pin below MINMARGIN raises EV_MEM_MARGIN_LOW and makes its channel a candidate for sparing or fallow. -/
  | memMarginLow (pin : Nat) (unit : MemUnit)
  /-- EVACUATION_COMPLETE (R315): An evacuation ends with EV_EVACUATE_DONE, or with an error status naming what remains. -/
  | evacuationComplete (unit : EvacUnit)
  /-- UNIT_RETURN (R318): A new DIMM or cartridge is checked, trained, initialised under the module key and added to capacity. -/
  | unitReturn (unit : Fin 20)
  /-- GRADIENT_STAGE_CLOSE (R325): When a step's contributions are complete, each entry is rounded once to its row gradient g and routed by tier. -/
  | gradientStageClose (step : Word32)
  /-- MILESTONE_APPLICATION_START (R341): At the start of a milestone's application the module reads SELWORD, validates a newly selected bank and writes milestone records. -/
  | milestoneApplicationStart (step : Word32)
  /-- HOT_UPDATE_APPLY (R330): The sow engine of a die applies step n's staged updates to its hot rows at milestone n. -/
  | hotUpdateApply (die : Fin 4) (rows : Nat) (torn : Option Nat)
  /-- IAQUA_UPDATE_APPLY (R330): An Iaqua applies the updates of step n-D to its warm rows once its start condition holds. -/
  | iaquaUpdateApply (iaqua : Fin 4) (rows : Nat) (torn : Option Nat)
  /-- WRITER_RECOVERY (R360): A restarting update writer recovers its region, rewriting torn records and resuming an OPEN milestone. -/
  | writerRecovery (engine : Fin 8) (afterLinkReset : Bool)
  /-- READY_SEND (R379): A module sends READY(n) once blocks, updates, the checking hold and the gate allow, or with NOGO on a cause. -/
  | readySend
  /-- READY_RECEIVE (R380): The leader collects READY tokens and, once all N are in, sends COMMIT, ABORT, ROLLBACK or HOLD. -/
  | readyReceive (token : BitVec 512)
  /-- READYTMO_EXPIRY (R381): When READYTMO passes with READYs missing, the leader queries the missing modules. -/
  | readytmoExpiry
  /-- QUERY_TIMEOUT (R381): A queried module that does not answer within READYTMO makes the leader abort with MODULE_LOST and the job halt. -/
  | queryTimeout
  /-- STATUS_RECEIVE (R381): A STATUS answer is collected by the leader or deputy and contributes its cause or commit knowledge. -/
  | statusReceive (token : BitVec 512)
  /-- QUERY_RECEIVE (R389): A QUERY is answered with STATUS, or with DEPUTY set makes the receiver take the leader's role once. -/
  | queryReceive (token : BitVec 512)
  /-- COMMITTMO_EXPIRY (R389): When COMMITTMO passes with no decision, a module queries the next deputy candidate, or takes the role itself. -/
  | committmoExpiry
  /-- HOLD_RESEND (R380): While it holds, the leader sends HOLD again every COMMITTMO / 2. -/
  | holdResend
  /-- HOLD_RECEIVE (R420): A module that receives HOLD restarts COMMITTMO, rebuilds replicated rows from the journal and recomputes digests. -/
  | holdReceive (token : BitVec 512)
  /-- DIGEST_REVOTE_SEND (R420): Once its digests are recomputed and any FDIGEST rewritten, the module sends READY(n) again. -/
  | digestRevoteSend
  /-- COMMIT_RECEIVE (R382): On COMMIT(n) a module marks milestone records COMMITTED, clears steps up to MARK, applies deferred changes and releases plots. -/
  | commitReceive (token : BitVec 512)
  /-- ABORT_RECEIVE (R384): On ABORT(n) the step becomes ABORTED and is undone from the journals, with warm updates pending again. -/
  | abortReceive (token : BitVec 512)
  /-- ROLLBACK_RECEIVE (R385): A ROLLBACK undoes steps n down to MARK newest first, or is refused and halts when a step is already cleared. -/
  | rollbackReceive (token : BitVec 512)
  /-- STEP_RERUN (R386): After an undo the module re-runs from the oldest undone step with a new attempt, or halts the job. -/
  | stepRerun
  /-- PHASE_TOKEN_RECEIVE (R372): A PHASE token from another module counts toward the job-wide phase join. -/
  | phaseTokenReceive (token : BitVec 512)
  /-- DECIDE_POLL (R383): With a host leader, the module reads DECIDE of the step record every 1 µs while it waits. -/
  | decidePoll
  /-- HOST_LEADER_TIMEOUT (R383): With HOSTLEAD, a module whose COMMITTMO passes raises EV_MS_HOST_TIMEOUT and goes on waiting. -/
  | hostLeaderTimeout
  /-- GATE_TIMEOUT (R377): With CLIPGATE, GATE not set within COMMITTMO of the last block sends READY with NOGO. -/
  | gateTimeout
  /-- MODULE_REJOIN (R391): A restarted module with intact tiers recovers its journals and sends STATUS, and the leader rolls back to a common step. -/
  | moduleRejoin
  /-- CAIRN_SWEEP (R396): The sweeper reads each row not yet copied as of the cairn's step and writes it to the cairn. -/
  | cairnSweep (step : Word32) (rows : Nat)
  /-- DENSE_COW_COPY (R397): After every block of step c completes, the dense regions are copied into the COW buffer before the plots are released. -/
  | denseCowCopy (step : Word32)
  /-- CAIRN_VOID (R398): A full COW buffer, a ROLLBACK covering c or a reset before sealing makes the cairn VOID. -/
  | cairnVoid (step : Word32)
  /-- CAIRN_SEAL (R399): Once rows and dense regions are programmed, step c is CLEARED and any mirror is ready, the manifest is sealed. -/
  | cairnSeal (step : Word32) (mirror : Bool)
  /-- REPLAY_STREAM_RECEIVE (R408): A replay plot checks ICRC of a received shadow stream, discards a bad sample and replays a good one. -/
  | replayStreamReceive (plot sampled : Fin 4352) (fid index : Nat) (icrcOk : Bool) (fp : Word64)
  /-- REPLAY_COMPARE (R410): The replay's OFP is compared with the sampled plot's, and a mismatch sends the stream to a third plot. -/
  | replayCompare (sampled : Fin 4352) (fid index : Nat) (third : Fin 4352)
  /-- VOTE_SETTLE (R410): With three fingerprints the odd plot is found and the vote settles by Table 10.5. -/
  | voteSettle (sampled : Fin 4352) (fid index : Nat)
  /-- EXPRESS_SAMPLE_FORWARD (R403): An express plot's sampled stream is sent for replay once the lookup's completion is posted. -/
  | expressSampleForward (sampled : Fin 4352) (fid index : Nat) (tag : Nat) (replay : Fin 4352)
  /-- PACK_RUN (R411): An odd plot, after finishing its work, runs every plot case of the active pack and passes only if all match. -/
  | packRun (plot : Fin 4352) (fails : Nat)
  /-- UPDATE_CHECK (R414): A sampled row update is rebuilt on a second engine from its journal entry and compared with the home record. -/
  | updateCheck (table : Fin 4096) (row : BitVec 40) (step : Word32) (checker third : Option (List Byte))
  /-- PACK_OVERDUE (R425): A plot that has not completed the pack within PACKHRS raises EV_PACK_OVERDUE and runs the rest between blocks. -/
  | packOverdue (plot : Fin 4352)
  /-- ENGINE_PACK_RUN (R426): The scheduler core runs update-engine cases on each engine outside application windows at least once per PACKHRS. -/
  | enginePackRun (engine : Fin 8) (fails : Nat)
  /-- FALLOW_HOURLY_PACK (R429): A fallow plot runs the pack every hour and returns as a healthy spare after RETHRS passes. -/
  | fallowHourlyPack (plot : Fin 4352) (fails : Nat)
  /-- QUADRANT_CYCLE (R431): After three convictions in a quadrant, the quadrant's domain is cycled at the next COMMIT with its state saved and restored. -/
  | quadrantCycle (quad : Fin 16)
  /-- BAR0_BAD_ACCESS (R436): A BAR0 access that is not 4 or 8 bytes naturally aligned completes with Unsupported Request. -/
  | bar0BadAccess (off : BitVec 26) (size : Nat)
  /-- REGISTER_WRITE (R441): A BAR0 write to a register without behaviour of its own sets the field before lock and is ignored afterwards unless W1C or WA. -/
  | registerWrite (off : BitVec 26) (wide : Bool) (value : Word64)
  /-- BAR2_READ (R437): A host read through BAR2 reads device memory, or completes with Unsupported Request on a faulting DA. -/
  | bar2Read (off : BitVec 36) (n : Nat)
  /-- BAR2_WRITE (R437): A host write through BAR2 writes device memory, or is dropped on a faulting DA. -/
  | bar2Write (off : BitVec 36) (data : List Byte)
  /-- HIF_SETUP_DONE (R440): A write of 1 locks every RWL field, runs every chapter's setup checks and sets LOCKED. -/
  | hifSetupDone (value : Word32)
  /-- KICK_SQ (R448): A kick makes the module read SQ_TAIL of each named enabled ring and fetch the descriptors below it. -/
  | kickSq (g : Fin 4) (rings : Word64) (tails : List (Fin 256 × Word32))
  /-- SQ_POLL (R448): A ring with POLL set has its SQ_TAIL read at each polling period. -/
  | sqPoll (ring : Fin 256) (tail : Word32)
  /-- DESCRIPTOR_FETCH (R451): A descriptor whose SEQ matches is copied whole, checked and begun in ring order. -/
  | descriptorFetch (ring : Fin 256) (entry : BitVec 512)
  /-- DESCRIPTOR_RUN_AHEAD (R449): The host interface reads ring entries beyond SQ_TAIL within the ring window. -/
  | descriptorRunAhead (ring : Fin 256) (number : Word32) (entry : BitVec 512)
  /-- SEQ_MISMATCH_RECHECK (R449): An entry whose SEQ does not match is read again, and the ring stops if it still mismatches after 2 µs. -/
  | seqMismatchRecheck (ring : Fin 256) (entry : BitVec 512)
  /-- KICK_RESTART (R450): A write of KICK_RESTART restarts a stopped ring at the given descriptor number. -/
  | kickRestart (ring : Fin 256) (pos : Word32)
  /-- EXPRESS_LOOKUP (R466): An express lookup reads its rows as of the target taken at the doorbell on the express plots and writes slices or bags to host memory. -/
  | expressLookup (desc : Nat) (idx : List Word64) (bags weights : List Word32) (fails : List (Nat × Bool))
  /-- STEP_RUN (R455): A STEP_RUN queues the next consecutive step of the job with its input and plan. -/
  | stepRun (desc : Nat)
  /-- STEP_INPUT_READ (R616): The module reads a step's input when preparation begins, and a failed read makes the step end ABORTED with INPUT_READ. -/
  | stepInputRead (step : Word32) (ok : Bool) (plan : List (Nat × Nat × Nat))
  /-- TABLE_CREATE (R456): TABLE_CREATE checks the image and writes a table descriptor with a row map of ABSENT entries. -/
  | tableCreate (desc : Nat) (image : List Byte)
  /-- TABLE_IMPORT (R457): TABLE_IMPORT writes shard records into the current or a pending version, rejecting bad records. -/
  | tableImport (desc : Nat) (recs : List Byte)
  /-- SHARD_EXPORT (R458): SHARD_EXPORT writes one shard record for a row range, live or from a cairn. -/
  | shardExport (desc : Nat)
  /-- VERSION_SWITCH (R459): VERSION_SWITCH accepts a switch to the pending version, or a change of the current version's fields, for the next COMMIT. -/
  | versionSwitch (desc : Nat)
  /-- CAIRN_WRITE (R395): CAIRN_WRITE names a future step c at which a cairn of every row and the named dense regions begins. -/
  | cairnWrite (desc : Nat) (dlist : List Byte)
  /-- CAIRN_RESTORE_JOB (R393): CAIRN_RESTORE of scope JOB rebuilds descriptors, rows and dense regions from cairn c and empties the journals. -/
  | cairnRestoreJob (desc : Nat) (served : Option (List (List Byte) × List (Nat × List Byte) × List (Nat × List Byte)))
  /-- CAIRN_RESTORE_ROWS (R394): CAIRN_RESTORE of scope ROWS restores the rows listed as lost from the newest sealed cairn. -/
  | cairnRestoreRows (desc : Nat)
  /-- COPY (R461): COPY writes LEN bytes or a repeated pattern between host memory and device memory. -/
  | copy (desc : Nat) (host : List Byte)
  /-- FENCE (R477): A FENCE holds later descriptors of its ring until its RING, ALL, APPLIED or CLEARED condition holds. -/
  | fence (desc : Nat)
  /-- EVACUATE (R315): EVACUATE starts emptying an HBM pseudo-channel, DIMM channel, cartridge or loan at SC2. -/
  | evacuate (desc : Nat)
  /-- EVENT_RING_SET (R478): EVENT_RING_SET places a new event ring, with its masks and vector, for every record not yet posted. -/
  | eventRingSet (desc : Nat)
  /-- COMPLETION_POST (R472): A completion is written to its ring once an entry is known consumed, or held when the ring is full. -/
  | completionPost (slow : Bool)
  /-- CQ_COALESCE_TIMER (R473): A completion ring sends its MSI-X message COALUS µs after the first unsignalled completion. -/
  | cqCoalesceTimer (cq : Fin 256)
  /-- HOST_READ_FAILURE (R435): A failed device read of host memory ends the descriptor with HOST_READ_ERROR, or stops the ring, or keeps the old count. -/
  | hostReadFailure (read : HostRead) (addr : Word64)
  /-- EVENT_RECORD_POST (R478): A raised event is posted to the event ring in SEQ order when enabled and room exists, or held or dropped. -/
  | eventRecordPost
  /-- SC1_SHARE_CHECK (R471): At each management tick a spine whose SC1 share fell short raises EV_SC1_SHARE_SHORT. -/
  | sc1ShareCheck (spine : Fin 4) (shortfall : Nat)
  /-- FUNCTION_LEVEL_RESET (R479): An FLR resets the HIF, RING and KICK setup, abandons host writes of earlier descriptors and unlocks the host interface. -/
  | functionLevelReset
  /-- FRAME_RECEIVE (R483): A received frame is checked for LCRC and sequence, accepted or discarded with a negative acknowledgement. -/
  | frameReceive (port : Fin 16) (bytes : List Byte) (fec : Nat)
  /-- FRAME_REPLAY (R483): A negative acknowledgement makes the sender resend from the first frame not acknowledged. -/
  | frameReplay (port : Fin 16) (acked : BitVec 12)
  /-- LINK_CREDIT (R482): A LINK frame returns channel credits to the sender. -/
  | linkCredit (port : Fin 16) (cls : Fin 5) (dl : Bool) (n : Nat)
  /-- IDENT_FRAME (R490): At link-up an IDENT frame is checked against the cabling rule, and a wrong peer makes the port MISCABLED. -/
  | identFrame (port : Fin 16) (lanes : BitVec 4) (peer : BitVec 16) (pport : Fin 16)
  /-- PORT_TRAIN_RETRY (R490): A port not up retries training every 1 s, and raises EV_FAB_PORT_DOWN after the 10 s start-up wait. -/
  | portTrainRetry (port : Fin 16) (waitOver : Bool)
  /-- PORT_DOWN (R493): A port going down moves its flows to other allowed ports or the other direction after end-to-end resend. -/
  | portDown (port : Fin 16)
  /-- TRANSIT_FORWARD (R495): A transit frame is forwarded in dimension order whatever the state of the module's job or firmware. -/
  | transitForward
  /-- E2E_MESSAGE_RECEIVE (R496): A DATA message is checked for ECRC, delivered in ESEQ order and acknowledged with E2E_ACK. -/
  | e2eMessageReceive
  /-- E2E_ACK (R496): An E2E_ACK releases acknowledged messages of a flow at the source. -/
  | e2eAck (cls : Fin 5)
  /-- E2E_RETRANSMIT (R496): A message not acknowledged within RETX is sent again. -/
  | e2eRetransmit (dst : BitVec 16) (cls : Fin 5)
  /-- DESTINATION_UNREACHABLE (R496): With no acknowledgement within E2E the destination is unreachable and its transactions end. -/
  | destinationUnreachable (dst : BitVec 16)
  /-- REMOTE_READ (R497): A lender serves a READ of a loan, answering OUTSIDE or NO_LOAN when not allowed. -/
  | remoteRead (err : Bool)
  /-- READ_RSP (R499): A READ_RSP completes a remote read, or faults it under its status. -/
  | readRsp
  /-- REMOTE_WRITE (R497): A lender performs a WRITE into a loan in order and answers WRITE_ACK. -/
  | remoteWrite (err : Bool)
  /-- WRITE_ACK (R497): A WRITE_ACK acknowledges a remote write, or faults it under its status. -/
  | writeAck
  /-- LEND_REQ (R498): A lender answers a LEND_REQ with LEND_GRANT or LEND_REFUSE within LENDMAX. -/
  | lendReq
  /-- LEND_GRANT (R498): A LEND_GRANT binds a neighbour window of the borrower to the loan. -/
  | lendGrant
  /-- LEND_REFUSE (R498): A LEND_REFUSE ends the borrower's loan request. -/
  | lendRefuse
  /-- RENEW (R500): A RENEW keeps a loan alive at the lender. -/
  | renew
  /-- RENEW_TIMER (R500): A borrower sends RENEW for each loan at least once every 1 s. -/
  | renewTimer (window : Fin 16)
  /-- LOAN_IDLE_RECLAIM (R500): A lender with no RENEW and no access for 10 s reclaims the loan. -/
  | loanIdleReclaim (loan : Nat)
  /-- REVOKE (R501): A REVOKE names a deadline 1 s ahead, and the borrower runs the revocation procedure. -/
  | revoke
  /-- REVOKE_DEADLINE (R501): At the deadline the lender reclaims the pages and the borrower unmaps the window. -/
  | revokeDeadline (lender : Bool) (n : Nat)
  /-- RETURN (R498): A RETURN gives a loan back to its lender. -/
  | returnLoan
  /-- COLL_CHUNK (R504): A collective chunk starts or joins an epoch of its slot, or is dropped as stale or held as newer. -/
  | collChunk (source : CollSource)
  /-- COLL_END (R505): A COLL_END from a member counts toward completing the epoch on the receiver. -/
  | collEnd
  /-- COLL_CREDIT (R510): A COLL_CREDIT grants a ring-pass buffer, and the engine forwards the next rotation's block. -/
  | collCredit
  /-- TOKEN_FRAME (R511): A milestone token travels in one TOKEN frame to the scheduler core of the receiver, or is looped back. -/
  | tokenFrame
  /-- LANE_CALIBRATION (R513): Each lane adapts its equalisation on calibration blocks and CAL frames adjust the far transmitter. -/
  | laneCalibration (port : Fin 16) (lane : Fin 4) (margin : Nat) (adjust : Bool)
  /-- LANE_DEGRADE (R514): A lane below MINMARGIN, out of lock or failing FEC is taken out and the port runs on 3 lanes. -/
  | laneDegrade (port : Fin 16) (lane : Fin 4) (lost : Bool)
  /-- LANE_RESTORE (R514): A retrained lane reaching MINMARGIN + 2 returns to its port. -/
  | laneRestore (port : Fin 16) (lane : Fin 4) (margin : Nat)
  /-- LANE_COUNT_CHANGE (R515): Both ends change a port's lane count at an agreed frame boundary and flows are spread again. -/
  | laneCountChange (port : Fin 16)
  /-- MAILBOX_KICK (R534): A write of KICK_MBX reports requests written and responses consumed. -/
  | mailboxKick (reqTail rspHead : Word32)
  /-- MAILBOX_REQUEST (R535): A mailbox request is checked and passed to the processor owning its opcode, answered within 10 ms. -/
  | mailboxRequest (msg : BitVec 2048)
  /-- FW_LOAD (R522): FW_LOAD verifies the staged bundle, places and measures its images and starts the six management cores. -/
  | fwLoad
  /-- FW_LOAD_COMPLETE (R522): FW_LOAD answers OK when the six processors run, or PROC_FAILED when a domain A image fails. -/
  | fwLoadComplete (failed : List (Fin 8))
  /-- FW_UPDATE (R531): FW_UPDATE verifies a new bundle and replaces images processor by processor while the module runs. -/
  | fwUpdate
  /-- FW_UPDATE_COMPLETE (R531): FW_UPDATE answers OK when every processor runs the new images, or DEFERRED without a standby. -/
  | fwUpdateComplete
  /-- FW_STATUS (R523): FW_STATUS returns versions, active domain, standby and restart counts. -/
  | fwStatus
  /-- PROC_RESTART (R527): PROC_RESTART restarts a processor, by handover for an active scheduler or security core. -/
  | procRestart
  /-- WATCHDOG_EXPIRY (R524): A processor's 100 ms watchdog expires and it restarts or hands over. -/
  | watchdogExpiry (proc : BitVec 8)
  /-- TOKEN_PATH_NOGO (R530): A module without a scheduler role answers every token through the hardware token path with NOGO. -/
  | tokenPathNogo (token : BitVec 512)
  /-- LOG_SET (R538): LOG_SET places the log ring with its level and vector. -/
  | logSet
  /-- LOG_ENTRY_WRITE (R538): A log entry is written when the consumption word shows room, or dropped and counted. -/
  | logEntryWrite (proc : BitVec 8) (level : Fin 4) (code : BitVec 16) (args : BitVec 368)
  /-- TRC_HEAD_WRITE (R611): A write to TRC_HEAD adds the value to HEAD unless it would pass the records written. -/
  | trcHeadWrite (value : Word32)
  /-- PACK_LOAD (R424): PACK_LOAD checks a pattern pack in order and makes it active, or refuses it with a cause. -/
  | packLoad (broken : Bool)
  /-- LOAN_REQUEST (R498): The mailbox asks the scheduler core to send a LEND_REQ for a window. -/
  | loanRequest
  /-- LOAN_RETURN (R498): The mailbox asks the scheduler core to return a loan of a window. -/
  | loanReturn
  /-- LOAN_REVOKE (R501): The mailbox asks the scheduler core to revoke a loan it has lent. -/
  | loanRevoke
  /-- DEBUG_CHALLENGE (R554): DEBUG_CHALLENGE returns DEVID and a fresh nonce. -/
  | debugChallenge
  /-- DEBUG_UNLOCK (R555): DEBUG_UNLOCK checks its token and erases keys and memories before opening the debug port. -/
  | debugUnlock
  /-- DEBUG_ERASE_COMPLETE (R556): The scrub verifies and the state becomes OPENED, or fails and becomes FAILED. -/
  | debugEraseComplete (ok : Bool)
  /-- SECVER_COMMIT (R544): SECVER_COMMIT raises a security-version fuse to the running content's SECVER. -/
  | secverCommit
  /-- LIFECYCLE_ADVANCE (R554): LIFECYCLE_ADVANCE blows LIFECYCLE toward its target for the next cold reset. -/
  | lifecycleAdvance
  /-- KEY_REVOKE (R554): KEY_REVOKE blows revoke bits of firmware key slots, refusing the signing or every slot. -/
  | keyRevoke
  /-- CERT_SET (R550): CERT_SET checks and installs the device certificate chain. -/
  | certSet
  /-- MEAS_GET (R545): MEAS_GET returns the 48-byte digest of a measurement index. -/
  | measGet
  /-- SPDM_REQUEST (R551): The security core answers an SPDM request over DOE or MCTP. -/
  | spdmRequest (mctp : Bool) (session : Option Nat) (req : List Byte)
  /-- SLH_SIGNATURE_REQUEST (R552): A vendor-defined request returns the SLH-DSA signature of the previous signed response. -/
  | slhSignatureRequest (mctp : Bool)
  /-- SEC_LOCK_DBGDIS (R555): Writing DBGDIS refuses DEBUG_UNLOCK until cold reset. -/
  | secLockDbgdis
  /-- SEC_LOCK_CERTDIS (R550): Writing CERTDIS refuses CERT_SET until cold reset. -/
  | secLockCertdis
  /-- SEC_LOCK_FUSEDIS (R544): Writing FUSEDIS refuses SECVER_COMMIT and fuse tokens until cold reset. -/
  | secLockFusedis
  /-- CLOCK_LOST (R562): Loss of PLL lock or reference stops every data-plane clock and raises EV_CLK_LOST. -/
  | clockLost
  /-- DOMAIN_CYCLE (R564): DOMAIN_CYCLE powers one domain off and on with its work moved or held, or is refused. -/
  | domainCycle
  /-- POWER_CAP_TICK (R569): At each management tick the power core adjusts the capping fraction from the mean input power. -/
  | powerCapTick (mw vin : Nat)
  /-- CAP_SET (R569): CAP_SET sets the run-time power limit. -/
  | capSet
  /-- PWR_STATUS (R569): PWR_STATUS returns power, domain and temperature status. -/
  | pwrStatus
  /-- FAST_POWER_LIMIT (R569): Input above 2,450 W for 50 µs raises the capping fraction at once. -/
  | fastPowerLimit
  /-- THERMAL_THROTTLE_TICK (R570): At each tick each die's throttle fraction rises or falls with its junction temperature. -/
  | thermalThrottleTick (temps : List Nat)
  /-- HBM_STACK_HOT (R570): An HBM stack at 95 °C doubles its refresh and limits SC1 and SC2 commands. -/
  | hbmStackHot (stack : Fin 12) (temp : Nat)
  /-- BROWNOUT_ENTER (R571): Input below BROWNV for 100 µs puts training plots on CLK_A divide-by-16. -/
  | brownoutEnter (vin : Nat)
  /-- BROWNOUT_EXIT (R571): Input at BROWNV + 1.0 V for 10 ms ends brown-out. -/
  | brownoutExit (vin : Nat)
  /-- THERMAL_TRIP (R573): A junction at its trip temperature stops the data plane and powers domains off in hardware. -/
  | thermalTrip (stack : Bool) (source temp : Nat)
  /-- POWER_FAIL (R573): Input below PFAILV or power-good lost stops the data plane and powers domains off in hardware. -/
  | powerFail (vin : Option Nat)
  /-- PERST_ASSERT (R576): PERST# asserted starts a link reset, keeping the hot tier when KEEP_HOT is set. -/
  | perstAssert
  /-- PERST_DEASSERT (R574): PERST# deasserted starts link-up and start-up once the module no longer holds the reset. -/
  | perstDeassert (straps : BitVec 16)
  /-- COLD_POWER_ON (R580): Module power applied starts a cold reset and the start-up sequence. -/
  | coldPowerOn (straps : BitVec 16) (en : Bool)
  /-- POWER_REMOVED (R579): Removal of the 54 V input loses everything but flash contents and fuses. -/
  | powerRemoved
  /-- EN_MATE (R586): EN# mating lets the module charge its input capacitance and begin stage 1. -/
  | enMate
  /-- STARTUP_STAGE_COMPLETE (R580): A start-up stage completes, starting the next, and READY is set when all have completed. -/
  | startupStageComplete (stage : StartStage)
  /-- COOLANT_CHECK (R584): Each tick the coolant inlet and outlet are measured and EV_COOLANT_WARN raised or cleared. -/
  | coolantCheck (inlet outlet : Nat)
  /-- PRESENCE_CHANGE (R598): A debounced insertion into a slot or bay starts its return or refusal. -/
  | presenceChange (unit : Fin 20) (size : Nat) (genuine : Bool)
  /-- SLOT_REMOVED_LIVE (R596): A part removed from a powered slot cuts its supply and is treated as lost. -/
  | slotRemovedLive (unit : Fin 20)
  /-- BAY_LATCH_OPEN (R597): Opening the latch of an in-service bay starts evacuation of its cartridge. -/
  | bayLatchOpen (bay : Fin 4)
  /-- BAY_LATCH_CLOSE (R597): Closing the latch before evacuation completes stops it with the cartridge in service. -/
  | bayLatchClose (bay : Fin 4)
  /-- PLDM_REQUEST (R592): A PLDM request over MCTP is answered, or ERROR_NOT_READY before firmware runs. -/
  | pldmRequest (req : List Byte)
  /-- MCTP_CONTROL (R591): An MCTP control message over I3C is answered. -/
  | mctpControl (req : List Byte)
  /-- POWER_LIMIT_EFFECTER (R593): Effecter 200 sets the run-time power limit as CAP_SET does. -/
  | powerLimitEffecter (watts : BitVec 16)
  /-- LOCATE_EFFECTER (R593): A locate effecter makes a unit's indicator show LOCATE for 60 s. -/
  | locateEffecter (unit : Fin 20)
  /-- LOCATE_EXPIRY (R593): After 60 s the LOCATE indicator returns to the underlying state. -/
  | locateExpiry (unit : Fin 20)
  /-- PLATFORM_EVENT_MESSAGE (R594): A threshold crossing or state change is sent to the event receiver or queued, holding ALERT# low. -/
  | platformEventMessage (sensor : BitVec 8) (value : Nat)
  /-- EVENT_RECEIVER_ACK (R594): The receiver's acknowledgement releases ALERT#. -/
  | eventReceiverAck
  /-- EVT_SNAPSHOT (R607): At the end of each tick the counters are written into one half of the snapshot area. -/
  | evtSnapshot
  /-- PART_REMOVED (R598): A DIMM or cartridge is taken out of a slot or bay whose supply is off (FALLOW_OFF or REFUSED), its presence signal goes high after debounce and the slot or bay becomes EMPTY. -/
  | partRemoved (unit : Fin 20)
  /-- DOMAIN_CYCLE_END (R564): A domain cycle finishes: the domain is back up, held ranges and requests resume in arrival order, EV_DOMAIN_CYCLED is raised, the mailbox answers FINAL and the next queued cycle may begin. -/
  | domainCycleEnd
  /-- PROCESSOR_RESTART_DONE (R524): A restarted firmware processor runs again within 50 ms, so waiting remaps, paused pack runs and held domain cycles resume and a lone scheduler or security core serves tokens and mailbox again. -/
  | processorRestartDone (proc : BitVec 8)
  /-- RESET_HOLD_RELEASE (R574): A module holding PERST# after a trip or power fail releases it once every junction is below THROTTLE - 10 °C and the input is at BROWNV or above, and then acts on the reset. -/
  | resetHoldRelease (temps : List Nat) (vin : Nat)
  /-- CQ_HEAD_REREAD (R472): The module reads CQ_HEAD (likewise EV_HEAD and the log ring's consumption word) again of itself while few entries remain free, and writes held completions or records into entries now known to be consumed. -/
  | cqHeadReread (which : HeadWord) (value : Word32)
  /-- DEBUG_PORT_ACCESS (R587): Activity on DBG_TCK, DBG_TMS and DBG_TDI is ignored unless the debug state is OPENED, and then reaches the units within the token's SCOPE, with DBG_TDO driven. -/
  | debugPortAccess (scope : Fin 4) (word : Word64)
  deriving DecidableEq, Repr

end Sys2Proof
end

