-- ==== Sys2Proof/Decode.lean ====
section
/-!
DEFINITION. Reading a command from a word: the opcode table gives no row any bits, so no word spells a command.
-/

namespace Sys2Proof

/-- The command a word of the opcode table spells: none, since its rows have no fields (spec/opcode_table.json). -/
def decodeTableWord (_nbits _w : Nat) : Option Instr := none

end Sys2Proof
end

