-- ==== Sys2Proof/Config.lean ====
section
/-!
DEFINITION. What the spec leaves open: constants without a body, so that nothing can be proved of their values. Each
is applied to the operands it depends on or to the model's counter of free values (log 2).
-/

namespace Sys2Proof.Config

/-- A status word whose layout the spec does not give (FSTART, FSTOP, FSTAT selectors other than ACC_STAT; log 5). -/
opaque statusWord : Nat → Word64

/-- Bits 63 to 7 of the event word FWAIT returns (log 5). -/
opaque eventDetail : Nat → Word64

/-- What plot control reads as at an address the spec gives no layout for (log 5). -/
opaque plotControl : Nat → Word64

/-- A token counter after FTOK would take it below zero (log 5). -/
opaque tokenUnder : Nat → Word32

/-- A word of memory that a failed or open read returns (log 2). -/
opaque freeWord : Nat → Word64

/-- SHA-384 of a byte string, as a number. The spec names the algorithm and the model does not compute it (log 6). -/
opaque sha384 : List Byte → BitVec 384

/-- RSASSA-PSS verification under R541: modulus, exponent, signature, message (log 6). -/
opaque rsaVerify : List Byte → List Byte → List Byte → List Byte → Bool

/-- SLH-DSA-SHA2-192s verification under R541: public key, signature, message (log 6). -/
opaque slhVerify : List Byte → List Byte → List Byte → Bool

/-- SLH-DSA or ECDSA signature of a byte string by a device key: key number, message (log 6). -/
opaque deviceSign : Nat → List Byte → List Byte

/-- A random byte string of the security core, by count of draws: nonce (log 6). -/
opaque randomBytes : Nat → Nat → List Byte

/-- A key the key derivation yields from a label (log 6). -/
opaque deriveKey : List Byte → BitVec 512

/-- The bytes of an SPDM, MCTP or PLDM answer, which other specifications fix: count of answers, what was asked and what it is made from
(log 6). -/
opaque spdmBytes : Nat → List Byte → List Byte

/-- The bytes of an answer whose layout the spec does not give: its number, the values it holds (log 39). -/
opaque layout : Nat → List Nat → List Byte

/-- The boot ROM's version, as measured (Table 14.3; log 6). -/
opaque bootRom : List Byte

/-- A certificate chain passes the checks of R550 against the firmware authority's key hashes (log 6). -/
opaque certOk : BitVec 3072 → List Byte → Bool

/-- The hash that pins a flow to a port: source, destination, class (R493; log 36). -/
opaque flowHash : Nat → Nat → Nat → Nat

end Sys2Proof.Config
end

