-- ==== Sys2Proof/Machine/Kit.lean ====
section
/-!
DEFINITION. Helpers with no state: sparse maps, byte order (R9), bit fields, CRC-32C and CRC-64.
-/

namespace Sys2Proof.Machine

/-! ## Sparse maps -/

/-- The value listed for `k`, if any. -/
def kfind {α : Type} : KMap α → Nat → Option α
  | [], _ => none
  | (j, v) :: m, k => if j = k then some v else kfind m k

/-- The value at `k`, `d` where none is listed. -/
def kget {α : Type} (d : α) (m : KMap α) (k : Nat) : α := (kfind m k).getD d

/-- Remove the entry of `k`. -/
def kdel {α : Type} (m : KMap α) (k : Nat) : KMap α :=
  m.filter (fun e => e.1 < k) ++ m.filter (fun e => k < e.1)

/-- List `v` for `k`. -/
def kput {α : Type} (m : KMap α) (k : Nat) (v : α) : KMap α :=
  m.filter (fun e => e.1 < k) ++ (k, v) :: m.filter (fun e => k < e.1)

/-- Give `k` the value `v` in a map whose default is `d`: the entry goes where `v` is the default. -/
def kset {α : Type} [DecidableEq α] (d : α) (m : KMap α) (k : Nat) (v : α) : KMap α :=
  if v = d then kdel m k else kput m k v

/-- Change the value at `k`. -/
def kmod {α : Type} [DecidableEq α] (d : α) (m : KMap α) (k : Nat) (f : α → α) : KMap α :=
  kset d m k (f (kget d m k))

/-- Keys strictly rising, none below `lo`, and no value equal to `d`. -/
def kwfFrom {α : Type} [DecidableEq α] (d : α) : Nat → KMap α → Bool
  | _, [] => true
  | lo, (k, v) :: m => decide (lo ≤ k) && decide (v ≠ d) && kwfFrom d (k + 1) m

/-- The canonical form of a map with default `d`. -/
def kwf {α : Type} [DecidableEq α] (d : α) (m : KMap α) : Bool := kwfFrom d 0 m

/-! ## Lists -/

/-- Element `i`, `d` past the end. -/
def nth {α : Type} (d : α) : List α → Nat → α
  | [], _ => d
  | x :: _, 0 => x
  | _ :: l, i + 1 => nth d l i

/-- Replace element `i`. -/
def setNth {α : Type} : List α → Nat → α → List α
  | [], _, _ => []
  | _ :: l, 0, v => v :: l
  | x :: l, i + 1, v => x :: setNth l i v

/-- Change element `i`. -/
def modNth {α : Type} (l : List α) (i : Nat) (f : α → α) : List α :=
  match l[i]? with
  | some v => setNth l i (f v)
  | none => l

/-- The sum of a list of integers. -/
def sumInt (l : List Int) : Int := l.foldl (· + ·) 0

/-- The sum of a list of numbers. -/
def sumNat (l : List Nat) : Nat := l.foldl (· + ·) 0

/-- Cut a list into pieces of `n` (fuel bounds the number of pieces). -/
def chunks {α : Type} (n : Nat) : Nat → List α → List (List α)
  | 0, _ => []
  | fuel + 1, l => match l with
    | [] => []
    | _ => l.take n :: chunks n fuel (l.drop n)

/-- The element of a list with the smallest key, first one on ties. -/
def minBy {α : Type} (key : α → Nat) : List α → Option α
  | [] => none
  | x :: l => match minBy key l with
    | none => some x
    | some y => if key x ≤ key y then some x else some y

/-- Insert by rising key, after equal keys. -/
def insertBy {α : Type} (key : α → Nat) (x : α) : List α → List α
  | [] => [x]
  | y :: l => if key x < key y then x :: y :: l else y :: insertBy key x l

/-- Sort by rising key, stable. -/
def sortBy {α : Type} (key : α → Nat) (l : List α) : List α :=
  l.foldl (fun acc x => insertBy key x acc) []

/-- A Bool as a number. -/
def b2n (b : Bool) : Nat := if b then 1 else 0

/-! ## Bit fields and byte order (R9: little-endian, bit 0 least significant) -/

/-- Bits [hi:lo] of a number. -/
def bitsOf (n hi lo : Nat) : Nat := (n >>> lo) % 2 ^ (hi + 1 - lo)

/-- Bit `i` of a number. -/
def bitOf (n i : Nat) : Bool := n.testBit i

/-- `n` with bits [hi:lo] replaced by `v`. -/
def withBits (n hi lo v : Nat) : Nat :=
  let w := hi + 1 - lo
  n - ((n >>> lo) % 2 ^ w) * 2 ^ lo + (v % 2 ^ w) * 2 ^ lo

/-- The `n` low bytes of `v`, least significant first. -/
def leBytes : Nat → Nat → List Byte
  | 0, _ => []
  | n + 1, v => BitVec.ofNat 8 v :: leBytes n (v / 256)

/-- The number that bytes spell, least significant first. -/
def leNat : List Byte → Nat
  | [] => 0
  | b :: l => b.toNat + 256 * leNat l

/-- `n` bytes at offset `o` of a byte string as a number; bytes past its end count as zero. -/
def fieldAt (l : List Byte) (o n : Nat) : Nat := leNat ((l.drop o).take n)

/-- Bytes `[o, o + v.length)` replaced by `v`. -/
def putBytes (l : List Byte) (o : Nat) (v : List Byte) : List Byte :=
  l.take o ++ v ++ l.drop (o + v.length)

/-- `n` zero bytes. -/
def zeros (n : Nat) : List Byte := List.replicate n 0#8

/-- The first `n` bytes, padded with zeros. -/
def padTo (n : Nat) (l : List Byte) : List Byte := (l ++ zeros (n - l.length)).take n

/-- Byte `i` of a number. -/
def byteOf (n i : Nat) : Nat := (n >>> (8 * i)) % 256

/-- `v` sign-extended from `n` bits. -/
def sext (n v : Nat) : Int :=
  let u := v % 2 ^ n
  if 2 * u < 2 ^ n then (u : Int) else (u : Int) - (2 ^ n : Nat)

/-- An integer modulo 2^n. -/
def modPow (n : Nat) (v : Int) : Nat := (v % ((2 ^ n : Nat) : Int)).toNat

/-- Round up to a multiple of `a`. -/
def alignUp (a n : Nat) : Nat := (n + a - 1) / a * a

/-- The smallest power of two that is no smaller than `n`, found within `fuel` doublings from `p`. -/
def pow2From : Nat → Nat → Nat → Nat
  | 0, p, _ => p
  | f + 1, p, n => if n ≤ p then p else pow2From f (2 * p) n

/-- `v` held between two bounds. -/
def clampNat (lo hi v : Nat) : Nat := min hi (max lo v)

/-! ## CRC -/

/-- One bit of a reflected CRC. -/
def crcBit (poly c : Nat) : Nat := if c % 2 = 1 then (c / 2) ^^^ poly else c / 2

/-- One byte of a reflected CRC. -/
def crcByte (poly c b : Nat) : Nat :=
  let s := c ^^^ b
  crcBit poly (crcBit poly (crcBit poly (crcBit poly
    (crcBit poly (crcBit poly (crcBit poly (crcBit poly s)))))))

/-- A reflected CRC of `w` bits over bytes, all-ones start and final complement. -/
def crcRefl (w poly : Nat) (l : List Byte) : Nat :=
  (l.foldl (fun c b => crcByte poly c b.toNat) (2 ^ w - 1)) ^^^ (2 ^ w - 1)

/-- CRC-32C (Castagnoli). -/
def crc32c (l : List Byte) : Nat := crcRefl 32 0x82F63B78 l

/-- CRC-64/XZ (02, after R47; R204). PRESUMED: the polynomial, start and final complement that name stands for
(log 12). -/
def crc64 (l : List Byte) : Nat := crcRefl 64 0xC96C5795D7870F42 l

end Sys2Proof.Machine
end

