-- ==== Sys2Proof/Machine/Codes.lean ====
section
/-!
DEFINITION. The event codes of Table 17.8 with their severities, and the counter indices of Table 17.6.
-/

namespace Sys2Proof.Machine

/-! ## Events: (CODE, SEV), SEV 0 INFO, 1 WARNING, 2 ERROR, 3 FATAL (R609, Table 17.8) -/

/-- EV_HOST_READ_ERROR (R435); ARGS T D. -/
def evHostReadError : Nat × Nat := (0x0101, 2)
/-- EV_HIF_CFG_INVALID (R444, R446); ARGS D. -/
def evHifCfgInvalid : Nat × Nat := (0x0102, 2)
/-- EV_RING_CFG_INVALID (R446); ARGS —. -/
def evRingCfgInvalid : Nat × Nat := (0x0103, 2)
/-- EV_RING_STOPPED (R449, R450); ARGS N. -/
def evRingStopped : Nat × Nat := (0x0104, 2)
/-- EV_EXPRESS_LATE (R469); ARGS T C N. -/
def evExpressLate : Nat × Nat := (0x0105, 1)
/-- EV_SC1_SHARE_SHORT (R471); ARGS N. -/
def evSc1ShareShort : Nat × Nat := (0x0106, 1)
/-- EV_CQ_FULL (R472); ARGS —. -/
def evCqFull : Nat × Nat := (0x0107, 1)
/-- EV_FLR_RECOVERED (R479); ARGS S N. -/
def evFlrRecovered : Nat × Nat := (0x0108, 1)
/-- EV_EVT_CFG_INVALID (R603); ARGS —. -/
def evEvtCfgInvalid : Nat × Nat := (0x0109, 2)
/-- EV_FURROW_ILLEGAL (R46, R47); ARGS E. -/
def evFurrowIllegal : Nat × Nat := (0x0201, 2)
/-- EV_FURROW_FAULT (R57); ARGS E D. -/
def evFurrowFault : Nat × Nat := (0x0202, 2)
/-- EV_FURROW_STORE_BUSY (R70); ARGS D. -/
def evFurrowStoreBusy : Nat × Nat := (0x0203, 1)
/-- EV_TOKEN_SATURATED (R56); ARGS N. -/
def evTokenSaturated : Nat × Nat := (0x0204, 1)
/-- EV_SRAM_UE (R78, R79); ARGS E D. -/
def evSramUe : Nat × Nat := (0x0205, 2)
/-- EV_PLOT_MAP_INVALID (R97); ARGS N. -/
def evPlotMapInvalid : Nat × Nat := (0x0206, 2)
/-- EV_PLOT_REMAPPED (R99); ARGS X. -/
def evPlotRemapped : Nat × Nat := (0x0207, 0)
/-- EV_BLOCK_INVALID (R370, R428); ARGS S D. -/
def evBlockInvalid : Nat × Nat := (0x0208, 2)
/-- EV_PLOT_FALLOW (R427); ARGS X. -/
def evPlotFallow : Nat × Nat := (0x0209, 1)
/-- EV_PLOT_SPARES_EXHAUSTED (R428); ARGS —. -/
def evPlotSparesExhausted : Nat × Nat := (0x020A, 2)
/-- EV_PLOT_RETURNED (R429); ARGS X. -/
def evPlotReturned : Nat × Nat := (0x020B, 0)
/-- EV_PLOT_RETIRED (R429); ARGS X. -/
def evPlotRetired : Nat × Nat := (0x020C, 1)
/-- EV_MAT_INEXACT (R155); ARGS E N. -/
def evMatInexact : Nat × Nat := (0x0301, 1)
/-- EV_SPARSE_META_INVALID (R160); ARGS E. -/
def evSparseMetaInvalid : Nat × Nat := (0x0302, 2)
/-- EV_EPI_REPLAY_LIMIT (R168); ARGS E. -/
def evEpiReplayLimit : Nat × Nat := (0x0303, 1)
/-- EV_TDESC_INVALID (R208, R322); ARGS K E. -/
def evTdescInvalid : Nat × Nat := (0x0401, 2)
/-- EV_JOURNAL_CHAIN_BROKEN (R216); ARGS S K. -/
def evJournalChainBroken : Nat × Nat := (0x0402, 2)
/-- EV_ROW_RESTORED (R219, R246, R286, R359); ARGS S K C. -/
def evRowRestored : Nat × Nat := (0x0403, 1)
/-- EV_VERSION_SWITCHED (R222); ARGS S K N. -/
def evVersionSwitched : Nat × Nat := (0x0404, 0)
/-- EV_GATHER_BAD_INDEX (R230, R233); ARGS K E. -/
def evGatherBadIndex : Nat × Nat := (0x0405, 1)
/-- EV_GATHER_ROW_FAIL (R230); ARGS S K. -/
def evGatherRowFail : Nat × Nat := (0x0406, 2)
/-- EV_COALESCE_COUNT_SAT (R235); ARGS S K. -/
def evCoalesceCountSat : Nat × Nat := (0x0407, 1)
/-- EV_COALESCE_PASS (R237); ARGS S N. -/
def evCoalescePass : Nat × Nat := (0x0408, 1)
/-- EV_REPLICA_MISMATCH (R246); ARGS K. -/
def evReplicaMismatch : Nat × Nat := (0x0409, 1)
/-- EV_POOL_BAG_LIMIT (R248, R251); ARGS E. -/
def evPoolBagLimit : Nat × Nat := (0x040A, 2)
/-- EV_POOL_WRITE (R256); ARGS D. -/
def evPoolWrite : Nat × Nat := (0x0501, 2)
/-- EV_TIER_POOL_SMALL (R257); ARGS N. -/
def evTierPoolSmall : Nat × Nat := (0x0502, 2)
/-- EV_HBM_UE (R264); ARGS D. -/
def evHbmUe : Nat × Nat := (0x0503, 2)
/-- EV_HBM_SPPR (R266); ARGS D. -/
def evHbmSppr : Nat × Nat := (0x0504, 0)
/-- EV_HBM_PC_SPARED (R267); ARGS N. -/
def evHbmPcSpared : Nat × Nat := (0x0505, 1)
/-- EV_HBM_DIE_REFORM (R269); ARGS N. -/
def evHbmDieReform : Nat × Nat := (0x0506, 1)
/-- EV_HBM_PC_LOST (R270); ARGS N. -/
def evHbmPcLost : Nat × Nat := (0x0507, 2)
/-- EV_HBM_STACK_FAILED (R581); ARGS N. -/
def evHbmStackFailed : Nat × Nat := (0x0508, 3)
/-- EV_DDR_UE (R275); ARGS D. -/
def evDdrUe : Nat × Nat := (0x0509, 2)
/-- EV_DIMM_REFUSED (R277); ARGS N. -/
def evDimmRefused : Nat × Nat := (0x050A, 1)
/-- EV_FLASH_UE (R284); ARGS D. -/
def evFlashUe : Nat × Nat := (0x050B, 2)
/-- EV_FTL_BLOCK_RETIRED (R284); ARGS D. -/
def evFtlBlockRetired : Nat × Nat := (0x050C, 0)
/-- EV_CART_LOST (R286); ARGS N. -/
def evCartLost : Nat × Nat := (0x050D, 2)
/-- EV_LOAN_REVOKE (R289); ARGS T N. -/
def evLoanRevoke : Nat × Nat := (0x050E, 1)
/-- EV_LOAN_LOST (R290, R501); ARGS T N. -/
def evLoanLost : Nat × Nat := (0x050F, 2)
/-- EV_TIER_FULL (R299); ARGS S K. -/
def evTierFull : Nat × Nat := (0x0510, 2)
/-- EV_TIER_PROMOTE_FAIL (R309); ARGS K. -/
def evTierPromoteFail : Nat × Nat := (0x0511, 1)
/-- EV_TIER_EVICT_FAIL (R309); ARGS K. -/
def evTierEvictFail : Nat × Nat := (0x0512, 1)
/-- EV_TIER_REBUILT (R311); ARGS N. -/
def evTierRebuilt : Nat × Nat := (0x0513, 1)
/-- EV_MEM_MARGIN_LOW (R314); ARGS N. -/
def evMemMarginLow : Nat × Nat := (0x0514, 1)
/-- EV_EVACUATE_DONE (R315); ARGS T N. -/
def evEvacuateDone : Nat × Nat := (0x0515, 0)
/-- EV_UNIT_RETURNED (R318); ARGS N. -/
def evUnitReturned : Nat × Nat := (0x0516, 0)
/-- EV_TIER_CFG_INVALID (R205, R340); ARGS D. -/
def evTierCfgInvalid : Nat × Nat := (0x0517, 2)
/-- EV_SOW_BAD_INDEX (R321); ARGS K. -/
def evSowBadIndex : Nat × Nat := (0x0601, 1)
/-- EV_SOW_INEXACT (R325); ARGS S K. -/
def evSowInexact : Nat × Nat := (0x0602, 1)
/-- EV_SOW_STAGE_FULL (R327, R507); ARGS S. -/
def evSowStageFull : Nat × Nat := (0x0603, 2)
/-- EV_GRAD_NONFINITE (R334); ARGS S K. -/
def evGradNonfinite : Nat × Nat := (0x0604, 1)
/-- EV_GROUP_SHAPE_MISMATCH (R336); ARGS S K. -/
def evGroupShapeMismatch : Nat × Nat := (0x0605, 1)
/-- EV_GROUP_BANK_INVALID (R341); ARGS S N. -/
def evGroupBankInvalid : Nat × Nat := (0x0606, 2)
/-- EV_JOURNAL_FULL (R362); ARGS S. -/
def evJournalFull : Nat × Nat := (0x0607, 2)
/-- EV_MS_CFG_INVALID (R369); ARGS D. -/
def evMsCfgInvalid : Nat × Nat := (0x0608, 2)
/-- EV_READY_HELD_CHECK (R34); ARGS S. -/
def evReadyHeldCheck : Nat × Nat := (0x0609, 1)
/-- EV_MS_GATE_TIMEOUT (R377); ARGS S. -/
def evMsGateTimeout : Nat × Nat := (0x060A, 2)
/-- EV_MS_READY (R383); ARGS Token. -/
def evMsReady : Nat × Nat := (0x060B, 0)
/-- EV_MS_HOST_TIMEOUT (R383); ARGS S. -/
def evMsHostTimeout : Nat × Nat := (0x060C, 1)
/-- EV_MS_MODULE_LOST (R381); ARGS S X. -/
def evMsModuleLost : Nat × Nat := (0x060D, 2)
/-- EV_MS_ROLLBACK_REFUSED (R385); ARGS S. -/
def evMsRollbackRefused : Nat × Nat := (0x060E, 3)
/-- EV_STEP_ABORTED (R386); ARGS S C. -/
def evStepAborted : Nat × Nat := (0x060F, 1)
/-- EV_MS_LEADER_CHANGED (R389); ARGS X. -/
def evMsLeaderChanged : Nat × Nat := (0x0610, 1)
/-- EV_CAIRN_SEALED (R399); ARGS S N. -/
def evCairnSealed : Nat × Nat := (0x0611, 0)
/-- EV_CAIRN_ABORTED (R398); ARGS S C. -/
def evCairnAborted : Nat × Nat := (0x0612, 1)
/-- EV_CAIRN_ROWS_MIXED (R394); ARGS S N. -/
def evCairnRowsMixed : Nat × Nat := (0x0613, 1)
/-- EV_EXPRESS_CHECK_MISMATCH (R31); ARGS T E. -/
def evExpressCheckMismatch : Nat × Nat := (0x0701, 2)
/-- EV_CHK_SHADOW_CRC (R408); ARGS S E. -/
def evChkShadowCrc : Nat × Nat := (0x0702, 1)
/-- EV_CHK_MISMATCH (R410); ARGS S E X. -/
def evChkMismatch : Nat × Nat := (0x0703, 1)
/-- EV_PLOT_CONVICTED (R413); ARGS S X. -/
def evPlotConvicted : Nat × Nat := (0x0704, 2)
/-- EV_CHK_BOUND_EXCEEDED (R413); ARGS S. -/
def evChkBoundExceeded : Nat × Nat := (0x0705, 2)
/-- EV_ENGINE_CONVICTED (R415); ARGS S X. -/
def evEngineConvicted : Nat × Nat := (0x0706, 2)
/-- EV_CHK_SUSPECT (R415); ARGS S X. -/
def evChkSuspect : Nat × Nat := (0x0707, 2)
/-- EV_CHK_HORIZON_SHORT (R417); ARGS N. -/
def evChkHorizonShort : Nat × Nat := (0x0708, 1)
/-- EV_REPL_ROW_REPAIRED (R420); ARGS S K. -/
def evReplRowRepaired : Nat × Nat := (0x0709, 1)
/-- EV_MS_DIGEST_HOLD (R420); ARGS S. -/
def evMsDigestHold : Nat × Nat := (0x070A, 1)
/-- EV_DIGEST_MINORITY (R421); ARGS S X. -/
def evDigestMinority : Nat × Nat := (0x070B, 2)
/-- EV_PACK_REFUSED (R424); ARGS C. -/
def evPackRefused : Nat × Nat := (0x070C, 1)
/-- EV_PACK_LOADED (R424); ARGS N. -/
def evPackLoaded : Nat × Nat := (0x070D, 0)
/-- EV_PACK_OVERDUE (R425); ARGS X. -/
def evPackOverdue : Nat × Nat := (0x070E, 1)
/-- EV_ENGINE_FAILED (R432); ARGS X. -/
def evEngineFailed : Nat × Nat := (0x070F, 3)
/-- EV_FAB_TOPO_INVALID (R489); ARGS —. -/
def evFabTopoInvalid : Nat × Nat := (0x0801, 2)
/-- EV_FAB_CABLE_MISMATCH (R490); ARGS N. -/
def evFabCableMismatch : Nat × Nat := (0x0802, 2)
/-- EV_FAB_PORT_DOWN (R490); ARGS N. -/
def evFabPortDown : Nat × Nat := (0x0803, 1)
/-- EV_FAB_JOBMAP_INVALID (R491); ARGS N. -/
def evFabJobmapInvalid : Nat × Nat := (0x0804, 2)
/-- EV_FAB_UNREACHABLE (R496); ARGS N. -/
def evFabUnreachable : Nat × Nat := (0x0805, 2)
/-- EV_LOAN_RECLAIMED (R500); ARGS T. -/
def evLoanReclaimed : Nat × Nat := (0x0806, 1)
/-- EV_FAB_COLL_INVALID (R504); ARGS T. -/
def evFabCollInvalid : Nat × Nat := (0x0807, 2)
/-- EV_FAB_RED_INEXACT (R509); ARGS T N. -/
def evFabRedInexact : Nat × Nat := (0x0808, 1)
/-- EV_FAB_LANE_MARGIN (R514); ARGS N. -/
def evFabLaneMargin : Nat × Nat := (0x0809, 1)
/-- EV_FAB_LANE_DEGRADED (R514); ARGS N. -/
def evFabLaneDegraded : Nat × Nat := (0x080A, 1)
/-- EV_FAB_LANE_RESTORED (R514); ARGS N. -/
def evFabLaneRestored : Nat × Nat := (0x080B, 0)
/-- EV_FW_NO_STANDBY (R523); ARGS X. -/
def evFwNoStandby : Nat × Nat := (0x0901, 1)
/-- EV_FW_WATCHDOG (R524, R527); ARGS X. -/
def evFwWatchdog : Nat × Nat := (0x0902, 1)
/-- EV_FW_HANDOVER (R526); ARGS X. -/
def evFwHandover : Nat × Nat := (0x0903, 0)
/-- EV_FW_PROC_FAILED (R529); ARGS X. -/
def evFwProcFailed : Nat × Nat := (0x0904, 2)
/-- EV_SECVER_COMMITTED (R544); ARGS N. -/
def evSecverCommitted : Nat × Nat := (0x0A01, 0)
/-- EV_DEBUG_ERASING (R555); ARGS N. -/
def evDebugErasing : Nat × Nat := (0x0A02, 1)
/-- EV_DEBUG_OPENED (R555); ARGS N. -/
def evDebugOpened : Nat × Nat := (0x0A03, 1)
/-- EV_DEBUG_ERASE_FAILED (R556); ARGS —. -/
def evDebugEraseFailed : Nat × Nat := (0x0A04, 2)
/-- EV_CLK_LOST (R562); ARGS —. -/
def evClkLost : Nat × Nat := (0x0B01, 3)
/-- EV_DOMAIN_CYCLED (R564); ARGS N. -/
def evDomainCycled : Nat × Nat := (0x0B02, 0)
/-- EV_CYCLE_REFUSED (R431, R568); ARGS N C. -/
def evCycleRefused : Nat × Nat := (0x0B03, 1)
/-- EV_PWR_FAST_LIMIT (Table 15.4); ARGS N. -/
def evPwrFastLimit : Nat × Nat := (0x0B04, 1)
/-- EV_PWR_CAPPING (R569); ARGS N. -/
def evPwrCapping : Nat × Nat := (0x0B05, 0)
/-- EV_THERM_THROTTLE (R570); ARGS N. -/
def evThermThrottle : Nat × Nat := (0x0B06, 1)
/-- EV_BROWNOUT_ENTER (R571); ARGS N. -/
def evBrownoutEnter : Nat × Nat := (0x0B07, 1)
/-- EV_BROWNOUT_EXIT (R571); ARGS N. -/
def evBrownoutExit : Nat × Nat := (0x0B08, 0)
/-- EV_THERM_TRIP (R573); ARGS N. -/
def evThermTrip : Nat × Nat := (0x0B09, 3)
/-- EV_PWR_FAIL (R573); ARGS N. -/
def evPwrFail : Nat × Nat := (0x0B0A, 3)
/-- EV_PWR_CFG_INVALID (R582); ARGS —. -/
def evPwrCfgInvalid : Nat × Nat := (0x0B0B, 2)
/-- EV_DOMAIN_START_FAILED (R581); ARGS N. -/
def evDomainStartFailed : Nat × Nat := (0x0B0C, 3)
/-- EV_KEEP_HOT_DISCARDED (R576); ARGS D. -/
def evKeepHotDiscarded : Nat × Nat := (0x0B0D, 1)
/-- EV_COOLANT_WARN (R584); ARGS N. -/
def evCoolantWarn : Nat × Nat := (0x0B0E, 1)
/-- EV_DA_UNMAPPED (R22); ARGS D. -/
def evDaUnmapped : Nat × Nat := (0x0C01, 2)
/-- EV_DIMM_MISMATCH (R4); ARGS N. -/
def evDimmMismatch : Nat × Nat := (0x0C02, 1)
/-- EV_CART_REFUSED (R6); ARGS N. -/
def evCartRefused : Nat × Nat := (0x0C03, 1)
/-- EV_SLOT_REMOVED_LIVE (R596); ARGS N. -/
def evSlotRemovedLive : Nat × Nat := (0x0C04, 2)
/-- EV_CART_LATCH_OPEN (R597); ARGS N. -/
def evCartLatchOpen : Nat × Nat := (0x0C05, 0)
/-- EV_PLDM_EVENT_DROP (R594); ARGS N. -/
def evPldmEventDrop : Nat × Nat := (0x0C06, 1)

/-! ## Counters (R604, Table 17.6) -/

/-- PF_ISSUED_CNT, per plot and spine. -/
def cPfIssued : Nat := 0
/-- PF_USED_CNT, per plot and spine. -/
def cPfUsed : Nat := 1
/-- PF_LATE_CNT, per plot and spine. -/
def cPfLate : Nat := 2
/-- PF_UNUSED_CNT, per plot and spine. -/
def cPfUnused : Nat := 3
/-- PF_DROP_BOUND_CNT, per plot and spine. -/
def cPfDropBound : Nat := 4
/-- SEQ_IDLE_INJECT_CNT, per plot. -/
def cSeqIdleInject : Nat := 5
/-- SEQ_SKIP_CNT, per plot. -/
def cSeqSkip : Nat := 6
/-- SEQ_HEADLAND_WAIT_CNT, per plot. -/
def cSeqHeadlandWait : Nat := 7
/-- PLOT_SRAM_CE_CNT, per plot. -/
def cPlotSramCe : Nat := 8
/-- CONV_SAT_CNT, per plot. -/
def cConvSat : Nat := 9
/-- CONV_NAN_CNT, per plot. -/
def cConvNan : Nat := 10
/-- SR_SUPPRESS_CNT, per plot. -/
def cSrSuppress : Nat := 11
/-- MAT_ANCHOR_RAISE_CNT, per plot. -/
def cMatAnchorRaise : Nat := 12
/-- MAT_INEXACT_CNT, per plot. -/
def cMatInexact : Nat := 13
/-- EPI_REPLAY_CNT, per plot. -/
def cEpiReplay : Nat := 14
/-- MAT_STALL_BANK_CNT, per plot. -/
def cMatStallBank : Nat := 15
/-- VEC_STALL_BANK_CNT, per plot. -/
def cVecStallBank : Nat := 16
/-- GATHER_BAD_INDEX_CNT, per plot. -/
def cGatherBadIndex : Nat := 17
/-- REPLICA_HIT_CNT, per plot. -/
def cReplicaHit : Nat := 18
/-- REPLICA_MISMATCH_CNT, per plot. -/
def cReplicaMismatch : Nat := 19
/-- CHK_SHADOW_STALL_CNT, per plot. -/
def cChkShadowStall : Nat := 20
/-- CHK_SHADOW_CRC_CNT, per plot. -/
def cChkShadowCrc : Nat := 21
/-- CHK_MISMATCH_CNT, per plot. -/
def cChkMismatch : Nat := 22
/-- JOURNAL_FOLLOW_CNT, per spine. -/
def cJournalFollow : Nat := 23
/-- COAL_SPILL_CNT, per spine. -/
def cCoalSpill : Nat := 24
/-- COAL_PASS_CNT, per spine. -/
def cCoalPass : Nat := 25
/-- GATHER_STAGE_FULL_CNT, per spine. -/
def cGatherStageFull : Nat := 26
/-- HOT_LEAVE_CNT, per spine. -/
def cHotLeave : Nat := 27
/-- SOW_BAD_INDEX_CNT, per spine. -/
def cSowBadIndex : Nat := 28
/-- SOW_INEXACT_CNT, per spine. -/
def cSowInexact : Nat := 29
/-- TIER_PROMOTE_CNT, per spine. -/
def cTierPromote : Nat := 30
/-- TIER_EVICT_CNT, per spine. -/
def cTierEvict : Nat := 31
/-- EVICT_CANCEL_CNT, per spine. -/
def cEvictCancel : Nat := 32
/-- REPROMOTE_CNT, per spine. -/
def cRepromote : Nat := 33
/-- MOVE_VOID_CNT, per spine. -/
def cMoveVoid : Nat := 34
/-- MIRROR_WRITE_CNT, per spine. -/
def cMirrorWrite : Nat := 35
/-- TIER_ERROR_CNT, per spine. -/
def cTierError : Nat := 36
/-- TIER_TIMEOUT_CNT, per spine. -/
def cTierTimeout : Nat := 37
/-- HBM_CE_CNT, per spine. -/
def cHbmCe : Nat := 38
/-- HBM_UE_CNT, per spine. -/
def cHbmUe : Nat := 39
/-- DDR_CE_CNT, per spine. -/
def cDdrCe : Nat := 40
/-- DDR_UE_CNT, per spine. -/
def cDdrUe : Nat := 41
/-- FLASH_UE_CNT, per spine. -/
def cFlashUe : Nat := 42
/-- FTL_RDREFRESH_CNT, per spine. -/
def cFtlRdrefresh : Nat := 43
/-- FTL_GC_CNT, per spine. -/
def cFtlGc : Nat := 44
/-- CAL_ADJ_CNT, per spine. -/
def cCalAdj : Nat := 45
/-- UPD_NONFINITE_CNT, per engine. -/
def cUpdNonfinite : Nat := 46
/-- FROZEN_SKIP_CNT, per engine. -/
def cFrozenSkip : Nat := 47
/-- TAG_REFRESH_CNT, per engine. -/
def cTagRefresh : Nat := 48
/-- UPD_CHECK_CNT, per engine. -/
def cUpdCheck : Nat := 49
/-- FAB_REPLAY_CNT, per fabric port. -/
def cFabReplay : Nat := 50
/-- FAB_FEC_CORR_CNT, per fabric port. -/
def cFabFecCorr : Nat := 51
/-- FAB_CAL_ADJ_CNT, per fabric port. -/
def cFabCalAdj : Nat := 52
/-- FAB_LANE_DEGRADE_CNT, per fabric port. -/
def cFabLaneDegrade : Nat := 53
/-- CQ_FULL_CNT, per completion ring. -/
def cCqFull : Nat := 54
/-- FAB_E2E_RETRY_CNT, per module. -/
def cFabE2eRetry : Nat := 55
/-- FAB_COLL_STALE_CNT, per module. -/
def cFabCollStale : Nat := 56
/-- FAB_RED_INEXACT_CNT, per module. -/
def cFabRedInexact : Nat := 57
/-- MS_TOKEN_DROP_CNT, per module. -/
def cMsTokenDrop : Nat := 58
/-- PACK_CASE_CNT, per module. -/
def cPackCase : Nat := 59
/-- PACK_FAIL_CNT, per module. -/
def cPackFail : Nat := 60
/-- EXPR_LATE_CNT, per module. -/
def cExprLate : Nat := 61
/-- EVT_DROP_CNT, per module. -/
def cEvtDrop : Nat := 62
/-- HIF_LOST_COMPL_CNT, per module. -/
def cHifLostCompl : Nat := 63
/-- LOG_DROP_CNT, per module. -/
def cLogDrop : Nat := 64
/-- TRC_DROP_CNT, per module. -/
def cTrcDrop : Nat := 65
/-- PWR_CAP_TICK_CNT, per module. -/
def cPwrCapTick : Nat := 66
/-- THERM_THROTTLE_TICK_CNT, per module. -/
def cThermThrottleTick : Nat := 67
/-- BROWNOUT_CNT, per module. -/
def cBrownout : Nat := 68

end Sys2Proof.Machine
end

