-- ==== Sys2Proof/Machine/BaseState.lean ====
section
/-!
DEFINITION. The state that every unit shares: registers, counters, raised events and the event ring, and what has
left the module for the host. Each field's comment names its rule, its section file and its value at reset.
-/

namespace Sys2Proof.Machine

/-- A raised event (Table 11.14 in 11_host_rings, Table 17.7 in 17_register_event_reference). -/
structure Event where
  /-- CODE of Table 17.8. -/
  code : Nat
  /-- SEV: 0 INFO, 1 WARNING, 2 ERROR, 3 FATAL. -/
  sev : Nat
  /-- SEQ: events raised before this one. -/
  seq : Word32
  /-- TIME: nanoseconds since cold reset. -/
  time : Word64
  /-- STEP: the latest APPLIED step when raised. -/
  step : Word32
  /-- UNIT [15:8]: die, Iaqua or bay. -/
  die : Nat
  /-- UNIT [27:16]: logical plot or ring. -/
  unit : Nat
  /-- ARGS words A0 to A11; a list shorter than 12 stands for zeros after it. -/
  args : List Word64
  deriving DecidableEq, Repr

/-- What the module has sent to the host, in the order sent (R434, R476). -/
inductive HostOut where
  /-- A write to host memory. -/
  | write (addr : Nat) (data : List Byte)
  /-- An MSI-X message on a vector. -/
  | msix (vector : Nat)
  /-- The data a host read of BAR2 is answered with (R437). -/
  | answer (data : List Byte)
  /-- An access completed with Unsupported Request (R436, R437). -/
  | ur
  deriving DecidableEq, Repr

/-- The event ring and the records held for it (R478). -/
structure EvtState where
  /-- An EVENT_RING_SET is in force (R478, 11). Reset: false. -/
  ringSet : Bool
  /-- Host address of the event ring (R478, 11). Reset: 0. -/
  base : Nat
  /-- log2 of the ring's entries (R478, 11). Reset: 0. -/
  log2 : Nat
  /-- Least severity posted (R478, 11). Reset: 0. -/
  minSev : Nat
  /-- MSI-X vector of the ring (R478, 11). Reset: 0. -/
  vector : Nat
  /-- AREAS: bit a enables area a (R478, 11). Reset: 0. -/
  areas : Nat
  /-- EVT_STAT.SEQ: events raised since reset (Table 17.5, 17). Reset: 0. -/
  seq : Word32
  /-- Records held for the ring, oldest first, at most 1,024 (R478, 11). Reset: none. -/
  held : List Event
  /-- Records posted to the ring in force (R478, 11). Reset: 0. -/
  posted : Word32
  /-- The last EV_HEAD read: records the host has consumed (R478, 11). Reset: 0. -/
  head : Word32
  /-- Records dropped since the previous record posted (LOST, R478, 11). Reset: 0. -/
  lost : Nat
  deriving DecidableEq, Repr

/-- The event ring as reset leaves it. -/
def EvtState.reset : EvtState := ⟨false, 0, 0, 0, 0, 0, 0, [], 0, 0, 0⟩

/-- What a descriptor ends with, for its completion (Table 11.11). -/
structure Ended where
  /-- The descriptor's number since reset. -/
  id : Nat
  /-- STATUS. -/
  status : Nat
  /-- DETAIL or result words, as its kind gives them. -/
  words : List Nat
  deriving DecidableEq, Repr

/-- The state that every unit shares. -/
structure BaseState where
  /-- Setup registers that differ from their reset value, by BAR0 offset (R436, R600, Table 17.1, 17). Reset: none. -/
  regs : KMap Word64
  /-- MSI-X table dwords by BAR0 offset less 0x1_0000 (R438, 11). Reset: none listed; a vector's control dword resets
  masked (PRESUMED, log 9). -/
  msix : KMap Word32
  /-- MSI-X pending bits, by vector (R438, 11). Reset: none. -/
  msixPend : List Nat
  /-- Counter instances, by 8192 × c + instance (R604, Table 17.6, 17). Reset: 0. -/
  cnt : KMap Word32
  /-- EVT_CNT_c: module totals, by c (R604, 17). Reset: 0. -/
  tot : KMap Word64
  /-- Nanoseconds since cold reset (Table 11.14, 11). Reset: 0. -/
  now : Word64
  /-- The model's own count of free values read; no part of the spec (log 2). Reset: 0 (DESIGN CHOICE). -/
  fresh : Nat
  /-- Events and the event ring (R478, 11). -/
  evt : EvtState
  /-- What has been sent to the host, oldest first (R434, 11). Reset: nothing. -/
  out : List HostOut
  /-- The RWL fields of HIF, RING and KICK are locked (R440, R479, 11). Reset: false. -/
  lockHif : Bool
  /-- The RWL fields of every other block are locked (R440, R479, 11). Reset: false. -/
  lockAll : Bool
  /-- Registers whose reset value is in force in place of the value written, by BAR0 offset: setup checks that failed
  at the lock (R97, R257, R369, R444, R582). Reset: none. -/
  fallback : List Nat
  /-- Trace records written since reset (R539, 13). Reset: 0. -/
  trcTail : Word32
  /-- The latest APPLIED step (Table 1.6, 01). Reset: 0 (DESIGN CHOICE, log 3). -/
  applied : Word32
  /-- The cleared-through of the latest COMMIT received (R28, R33, 01). Reset: 0 (DESIGN CHOICE, log 3). -/
  cleared : Word32
  /-- Descriptors whose work has ended and whose completion is due, oldest first (R472, 11). Reset: none. -/
  ended : List Ended
  deriving DecidableEq, Repr

/-- The shared state as a cold reset leaves it. -/
def BaseState.reset : BaseState := ⟨[], [], [], [], [], 0, 0, .reset, [], false, false, [], 0, 0, 0, []⟩

end Sys2Proof.Machine
end

