-- ==== Sys2Proof/Machine/RegTable.lean ====
section
/-!
DEFINITION. The setup registers of BAR0: where each lies (Table 17.1), its width, and its fields with their access
types (Table 0.6) and reset values, as the field maps of the chapters give them (R12, R600).
-/

namespace Sys2Proof.Machine

/-- Access types (Table 0.6). -/
inductive Access where
  | ro | rw | w1c | wa | wo | rwl
  deriving DecidableEq, Repr

/-- A field of a register: bits [hi:lo], access, reset value. Bits of no field are reserved: they read zero. -/
structure Field where
  /-- High bit. -/
  hi : Nat
  /-- Low bit. -/
  lo : Nat
  /-- Access. -/
  acc : Access
  /-- Reset value. -/
  reset : Nat
  deriving DecidableEq, Repr

/-- A register, or an array of registers of one shape. -/
structure RegRow where
  /-- Name. -/
  name : String
  /-- BAR0 offset of the first. -/
  base : Nat
  /-- Distance between neighbours, 1 for a single register. -/
  stride : Nat
  /-- How many. -/
  count : Nat
  /-- 64 bits wide, otherwise 32. -/
  wide : Bool
  /-- Fields, from the most significant. -/
  fields : List Field
  deriving DecidableEq, Repr

/-- Registers of the HIF block. -/
def regsHif : List RegRow :=
  [
   ⟨"HIF_SETUP_DONE", 0x0, 1, 1, false,
    [⟨0, 0, .wo, 0⟩]⟩,
   ⟨"HIF_STATUS", 0x8, 1, 1, false,
    [⟨31, 31, .ro, 0⟩, ⟨30, 30, .ro, 0⟩, ⟨29, 29, .w1c, 0⟩, ⟨23, 16, .ro, 0⟩, ⟨15, 8, .ro, 0⟩, ⟨7, 0, .ro, 0⟩]⟩,
   ⟨"HIF_DB_BASE", 0x10, 1, 1, true,
    [⟨63, 12, .rwl, 0⟩]⟩,
   ⟨"HIF_BAR2_BASE", 0x18, 1, 1, true,
    [⟨55, 36, .rwl, 0⟩]⟩,
   ⟨"HIF_EXPRESS_CFG", 0x20, 1, 1, false,
    [⟨8, 0, .rwl, 64⟩]⟩]

/-- Registers of the RING block. -/
def regsRing : List RegRow :=
  [
   ⟨"RING_SQ_BASE_n", 0x100000, 16, 256, true,
    [⟨63, 12, .rwl, 0⟩]⟩,
   ⟨"RING_SQ_CFG_n", 0x100008, 16, 256, false,
    [⟨31, 31, .rwl, 0⟩, ⟨30, 29, .rwl, 1⟩, ⟨28, 24, .rwl, 0⟩, ⟨23, 16, .rwl, 0⟩, ⟨4, 0, .rwl, 4⟩]⟩,
   ⟨"RING_CQ_BASE_n", 0x101000, 16, 256, true,
    [⟨63, 12, .rwl, 0⟩]⟩,
   ⟨"RING_CQ_CFG_n", 0x101008, 16, 256, false,
    [⟨31, 31, .rwl, 0⟩, ⟨29, 20, .rwl, 0⟩, ⟨19, 12, .rwl, 0⟩, ⟨11, 5, .rwl, 0⟩, ⟨4, 0, .rwl, 4⟩]⟩]

/-- Registers of the KICK block. -/
def regsKick : List RegRow :=
  [
   ⟨"KICK_SQ_g", 0x200000, 8, 4, true,
    [⟨63, 0, .wo, 0⟩]⟩,
   ⟨"KICK_RESTART", 0x200020, 1, 1, true,
    [⟨63, 32, .wo, 0⟩, ⟨7, 0, .wo, 0⟩]⟩,
   ⟨"KICK_MBX", 0x200028, 1, 1, true,
    [⟨63, 32, .wo, 0⟩, ⟨31, 0, .wo, 0⟩]⟩]

/-- Registers of the TIER block. -/
def regsTier : List RegRow :=
  [
   ⟨"TIER_TDESC_BASE", 0x300200, 1, 1, true,
    [⟨55, 20, .rwl, 0⟩]⟩,
   ⟨"TIER_HOT_CFG", 0x300204, 1, 1, false,
    [⟨26, 24, .rwl, 3⟩, ⟨23, 12, .rwl, 128⟩, ⟨11, 0, .rwl, 256⟩]⟩,
   ⟨"TIER_COAL_CFG", 0x300208, 1, 1, false,
    [⟨31, 16, .rwl, 32⟩, ⟨15, 0, .rwl, 256⟩]⟩,
   ⟨"TIER_SOFT_CFG", 0x300210, 1, 1, false,
    [⟨31, 16, .rwl, 128⟩, ⟨15, 0, .rwl, 48⟩]⟩,
   ⟨"TIER_PMAP_BASE", 0x300218, 1, 1, true,
    [⟨55, 0, .ro, 0⟩]⟩,
   ⟨"TIER_RAS_CFG", 0x300220, 1, 1, false,
    [⟨23, 16, .rwl, 24⟩, ⟨15, 8, .rwl, 4⟩, ⟨7, 0, .rwl, 64⟩]⟩,
   ⟨"TIER_PLACE_CFG", 0x300224, 1, 1, false,
    [⟨31, 16, .rwl, 4096⟩, ⟨15, 8, .rwl, 16⟩, ⟨0, 0, .rwl, 1⟩]⟩,
   ⟨"TIER_WM_CFG", 0x300228, 1, 1, false,
    [⟨31, 24, .rwl, 4⟩, ⟨23, 16, .rwl, 8⟩, ⟨15, 8, .rwl, 4⟩, ⟨7, 0, .rwl, 8⟩]⟩,
   ⟨"TIER_SC_CFG", 0x30022C, 1, 1, false,
    [⟨15, 0, .rwl, 512⟩]⟩,
   ⟨"TIER_TMO_CFG", 0x300230, 1, 1, false,
    [⟨31, 24, .rwl, 100⟩, ⟨23, 16, .rwl, 100⟩, ⟨15, 8, .rwl, 100⟩, ⟨7, 0, .rwl, 20⟩]⟩,
   ⟨"TIER_MIRROR_CFG", 0x300234, 1, 1, false,
    [⟨31, 31, .rwl, 1⟩, ⟨15, 0, .rwl, 200⟩]⟩,
   ⟨"TIER_LEND_CFG", 0x300238, 1, 1, false,
    [⟨4, 0, .rwl, 16⟩]⟩,
   ⟨"TIER_CAL_CFG", 0x30023C, 1, 1, false,
    [⟨15, 8, .rwl, 3⟩, ⟨0, 0, .rwl, 1⟩]⟩,
   ⟨"TIER_JRNL_CFG", 0x300240, 1, 1, false,
    [⟨23, 16, .rwl, 16⟩, ⟨7, 0, .rwl, 12⟩]⟩,
   ⟨"TIER_SOW_CFG", 0x300244, 1, 1, false,
    [⟨7, 0, .rwl, 4⟩]⟩,
   ⟨"TIER_GRP_BASE", 0x300248, 1, 1, true,
    [⟨55, 16, .rwl, 0⟩]⟩]

/-- Registers of the PLOT block. -/
def regsPlot : List RegRow :=
  [
   ⟨"PLOT_ARITH_MODE", 0x400040, 1, 1, false,
    [⟨2, 2, .rwl, 1⟩, ⟨1, 1, .rwl, 1⟩, ⟨0, 0, .rwl, 0⟩]⟩,
   ⟨"PLOT_REPL_CFG", 0x400044, 1, 1, false,
    [⟨6, 0, .rwl, 8⟩]⟩,
   ⟨"PLOT_PF_CFG", 0x400048, 1, 1, false,
    [⟨10, 0, .rwl, 256⟩]⟩,
   ⟨"PLOT_MAP_p", 0x410000, 4, 4096, false,
    [⟨31, 31, .rwl, 1⟩, ⟨12, 11, .rwl, 0⟩, ⟨10, 6, .rwl, 0⟩, ⟨5, 0, .rwl, 0⟩]⟩]

/-- Registers of the CHK block. -/
def regsChk : List RegRow :=
  [
   ⟨"CHK_CFG", 0x500000, 1, 1, false,
    [⟨19, 16, .rwl, 0⟩, ⟨8, 8, .rwl, 1⟩, ⟨2, 0, .rwl, 3⟩]⟩,
   ⟨"CHK_REPAIR_CFG", 0x500004, 1, 1, false,
    [⟨31, 24, .rwl, 24⟩, ⟨23, 16, .rwl, 24⟩, ⟨15, 8, .rwl, 24⟩, ⟨7, 0, .rwl, 3⟩]⟩,
   ⟨"CHK_PACK_STAT", 0x500008, 1, 1, true,
    [⟨63, 32, .ro, 0⟩, ⟨31, 16, .ro, 0⟩, ⟨0, 0, .ro, 0⟩]⟩,
   ⟨"CHK_RETIRE_d_r", 0x501000, 8, 128, true,
    [⟨33, 0, .rwl, 0⟩]⟩,
   ⟨"CHK_FALLOW_d_r", 0x501400, 8, 128, true,
    [⟨33, 0, .ro, 0⟩]⟩]

/-- Registers of the FAB block. -/
def regsFab : List RegRow :=
  [
   ⟨"FAB_ID", 0x600000, 1, 1, false,
    [⟨15, 0, .ro, 0⟩]⟩,
   ⟨"FAB_TOPO_CFG", 0x600008, 1, 1, false,
    [⟨19, 16, .rwl, 15⟩, ⟨15, 12, .rwl, 0⟩, ⟨11, 8, .rwl, 0⟩, ⟨7, 4, .rwl, 0⟩, ⟨3, 0, .rwl, 0⟩]⟩,
   ⟨"FAB_PORT_CFG", 0x600010, 1, 1, false,
    [⟨15, 0, .rwl, 65535⟩]⟩,
   ⟨"FAB_QOS_CFG", 0x600018, 1, 1, false,
    [⟨7, 0, .rwl, 5⟩]⟩,
   ⟨"FAB_TMO_CFG", 0x600020, 1, 1, false,
    [⟨31, 16, .rwl, 50⟩, ⟨15, 0, .rwl, 20⟩]⟩,
   ⟨"FAB_CAL_CFG", 0x600028, 1, 1, false,
    [⟨31, 16, .rwl, 4096⟩, ⟨15, 8, .rwl, 3⟩, ⟨0, 0, .rwl, 1⟩]⟩,
   ⟨"FAB_LEND_CFG", 0x600030, 1, 1, false,
    [⟨31, 31, .rwl, 0⟩, ⟨15, 0, .rwl, 0⟩]⟩,
   ⟨"FAB_COLL_BASE", 0x600038, 1, 1, true,
    [⟨55, 19, .rwl, 0⟩]⟩,
   ⟨"FAB_MS_CFG", 0x600100, 1, 1, true,
    [⟨51, 40, .rwl, 0⟩, ⟨39, 39, .rwl, 0⟩, ⟨38, 38, .rwl, 0⟩, ⟨37, 37, .rwl, 0⟩, ⟨34, 32, .rwl, 3⟩, ⟨31, 20, .rwl, 0⟩, ⟨19, 8, .rwl, 0⟩, ⟨4, 0, .rwl, 15⟩]⟩,
   ⟨"FAB_MS_ID", 0x600108, 1, 1, false,
    [⟨31, 0, .rwl, 0⟩]⟩,
   ⟨"FAB_MS_TMO", 0x600110, 1, 1, false,
    [⟨31, 16, .rwl, 800⟩, ⟨15, 0, .rwl, 300⟩]⟩,
   ⟨"FAB_MS_BASE", 0x600118, 1, 1, true,
    [⟨55, 14, .rwl, 0⟩]⟩,
   ⟨"FAB_WIN_STAT_n", 0x600200, 8, 16, true,
    [⟨63, 63, .ro, 0⟩, ⟨62, 62, .ro, 0⟩, ⟨47, 32, .ro, 0⟩, ⟨26, 0, .ro, 0⟩]⟩,
   ⟨"FAB_PORT_STAT_p", 0x600400, 8, 16, true,
    [⟨63, 60, .ro, 0⟩, ⟨59, 56, .ro, 0⟩, ⟨47, 32, .ro, 0⟩, ⟨31, 28, .ro, 0⟩]⟩,
   ⟨"FAB_JOBMAP_j", 0x610000, 4, 4096, false,
    [⟨31, 31, .rwl, 0⟩, ⟨15, 0, .rwl, 0⟩]⟩]

/-- Registers of the IAQ block. -/
def regsIaq : List RegRow :=
  [
   ⟨"IAQ_STAT_q", 0x700000, 8, 4, true,
    [⟨63, 48, .ro, 0⟩, ⟨47, 32, .ro, 0⟩, ⟨15, 0, .ro, 0⟩]⟩]

/-- Registers of the FLS block. -/
def regsFls : List RegRow :=
  [
   ⟨"FLS_FTL_CFG", 0x800000, 1, 1, false,
    [⟨31, 16, .rwl, 64⟩, ⟨15, 8, .rwl, 20⟩, ⟨7, 0, .rwl, 200⟩]⟩,
   ⟨"FLS_CAIRN_CFG", 0x800008, 1, 1, false,
    [⟨23, 16, .rwl, 32⟩, ⟨7, 7, .rwl, 1⟩, ⟨3, 0, .rwl, 2⟩]⟩,
   ⟨"FLS_BAY_STAT_b", 0x800010, 8, 4, true,
    [⟨63, 56, .ro, 0⟩, ⟨4, 4, .ro, 0⟩, ⟨3, 0, .ro, 0⟩]⟩]

/-- Registers of the PWR block. -/
def regsPwr : List RegRow :=
  [
   ⟨"PWR_CAP_CFG", 0x900000, 1, 1, false,
    [⟨15, 0, .rwl, 2400⟩]⟩,
   ⟨"PWR_VOLT_CFG", 0x900008, 1, 1, false,
    [⟨31, 16, .rwl, 480⟩, ⟨15, 0, .rwl, 440⟩]⟩,
   ⟨"PWR_THERM_CFG", 0x900010, 1, 1, false,
    [⟨15, 8, .ro, 110⟩, ⟨7, 0, .rwl, 100⟩]⟩,
   ⟨"PWR_RST_CFG", 0x900018, 1, 1, false,
    [⟨0, 0, .rwl, 0⟩]⟩,
   ⟨"PWR_STAT", 0x900020, 1, 1, true,
    [⟨63, 48, .ro, 0⟩, ⟨47, 36, .ro, 0⟩, ⟨35, 28, .ro, 0⟩, ⟨27, 22, .ro, 0⟩, ⟨21, 16, .ro, 0⟩, ⟨6, 6, .ro, 0⟩, ⟨5, 5, .ro, 0⟩, ⟨4, 4, .ro, 0⟩, ⟨3, 3, .ro, 0⟩, ⟨2, 2, .ro, 0⟩, ⟨1, 1, .ro, 0⟩, ⟨0, 0, .ro, 0⟩]⟩,
   ⟨"PWR_DOM_STAT", 0x900028, 1, 1, false,
    [⟨29, 0, .ro, 0⟩]⟩,
   ⟨"PWR_RST_CAUSE", 0x900030, 1, 1, false,
    [⟨7, 4, .ro, 0⟩, ⟨3, 3, .ro, 0⟩, ⟨2, 2, .ro, 0⟩, ⟨1, 1, .ro, 0⟩]⟩]

/-- Registers of the SEC block. -/
def regsSec : List RegRow :=
  [
   ⟨"SEC_STATE", 0xA00000, 1, 1, false,
    [⟨26, 24, .ro, 0⟩, ⟨23, 16, .ro, 0⟩, ⟨15, 8, .ro, 0⟩, ⟨7, 4, .ro, 0⟩, ⟨3, 0, .ro, 0⟩]⟩,
   ⟨"SEC_LOCK", 0xA00008, 1, 1, false,
    [⟨2, 2, .wo, 0⟩, ⟨1, 1, .wo, 0⟩, ⟨0, 0, .wo, 0⟩]⟩]

/-- Registers of the MBX block. -/
def regsMbx : List RegRow :=
  [
   ⟨"MBX_REQ_BASE", 0xB00000, 1, 1, true,
    [⟨63, 12, .rwl, 0⟩]⟩,
   ⟨"MBX_RSP_BASE", 0xB00008, 1, 1, true,
    [⟨63, 12, .rwl, 0⟩]⟩,
   ⟨"MBX_CFG", 0xB00010, 1, 1, false,
    [⟨25, 16, .rwl, 0⟩, ⟨15, 8, .rwl, 4⟩, ⟨7, 0, .rwl, 4⟩]⟩,
   ⟨"MBX_STAT", 0xB00018, 1, 1, false,
    [⟨31, 16, .ro, 513⟩, ⟨0, 0, .ro, 0⟩]⟩]

/-- Registers of the TRC block. -/
def regsTrc : List RegRow :=
  [
   ⟨"TRC_RING_BASE", 0xC00000, 1, 1, true,
    [⟨63, 12, .rwl, 0⟩]⟩,
   ⟨"TRC_RING_CFG", 0xC00008, 1, 1, false,
    [⟨4, 0, .rwl, 12⟩]⟩,
   ⟨"TRC_HEAD", 0xC00010, 1, 1, false,
    [⟨31, 0, .wa, 0⟩]⟩,
   ⟨"TRC_WMK_MASK_i", 0xC00100, 8, 64, true,
    [⟨63, 0, .rwl, 0⟩]⟩]

/-- Registers of the EVT block. -/
def regsEvt : List RegRow :=
  [
   ⟨"EVT_SNAP_BASE", 0xD00000, 1, 1, true,
    [⟨55, 20, .rwl, 0⟩, ⟨0, 0, .rwl, 0⟩]⟩,
   ⟨"EVT_STAT", 0xD00008, 1, 1, true,
    [⟨63, 32, .ro, 0⟩, ⟨10, 0, .ro, 0⟩]⟩,
   ⟨"EVT_CNT_c", 0xD01000, 8, 128, true,
    [⟨63, 0, .ro, 0⟩]⟩]

/-- The registers of a block of BAR0: a block is 1 MiB (Table 17.1). -/
def regRows : Nat → List RegRow
  | 0 => regsHif
  | 1 => regsRing
  | 2 => regsKick
  | 3 => regsTier
  | 4 => regsPlot
  | 5 => regsChk
  | 6 => regsFab
  | 7 => regsIaq
  | 8 => regsFls
  | 9 => regsPwr
  | 10 => regsSec
  | 11 => regsMbx
  | 12 => regsTrc
  | 13 => regsEvt
  | _ => []

end Sys2Proof.Machine
end

