-- ==== Sys2Proof/Machine/Regs.lean ====
section
/-!
DEFINITION. What a setup register holds: its stored value, its reset value, its fields (R12, R94, R600).
-/

namespace Sys2Proof.Machine

/-- Distance from a register's offset to `off` when `off` is one of the row's registers. -/
def RegRow.index (r : RegRow) (off : Nat) : Option Nat :=
  if r.base ≤ off ∧ off < r.base + r.stride * r.count ∧ (off - r.base) % r.stride = 0
  then some ((off - r.base) / r.stride) else none

/-- The row whose register lies at a BAR0 offset, and the register's number in it. -/
def regAt (off : Nat) : Option (RegRow × Nat) :=
  (regRows (off / 0x100000)).findSome? fun r => (r.index off).map fun i => (r, i)

/-- The physical plot (die, row, column) that R94 gives logical plot `p` after a cold reset. -/
def defaultMap (p : Nat) : Nat × Nat × Nat :=
  let q := p % 1024 / 256
  let m := p % 256
  (p / 1024, 16 * (q / 2) + m / 16, (if q % 2 = 0 then 0 else 18) + m % 16)

/-- PLOT_MAP_p as R94 resets it. -/
def plotMapReset (p : Nat) : Nat :=
  let (d, r, c) := defaultMap p
  2 ^ 31 + d * 2 ^ 11 + r * 2 ^ 6 + c

/-- Reset value of a register: its fields' reset values; PLOT_MAP_p as under R94. -/
def regReset (r : RegRow) (i : Nat) : Nat :=
  if r.base = 0x410000 then plotMapReset i
  else r.fields.foldl (fun v f => v + (f.reset % 2 ^ (f.hi + 1 - f.lo)) * 2 ^ f.lo) 0

/-- What a register holds: the value stored for it, or its reset value. -/
def regVal (b : BaseState) (off : Nat) : Nat :=
  match kfind b.regs off with
  | some v => v.toNat
  | none => match regAt off with
    | some (r, i) => regReset r i
    | none => 0

/-- What is in force of a register: its value, or its reset value where a setup check put that in force. -/
def regForce (b : BaseState) (off : Nat) : Nat :=
  if off ∈ b.fallback then (match regAt off with
    | some (r, i) => regReset r i
    | none => 0)
  else regVal b off

/-- Bits [hi:lo] of what is in force of a register. -/
def regField (b : BaseState) (off hi lo : Nat) : Nat := bitsOf (regForce b off) hi lo

/-- Store a register's whole value; a register at its reset value is not listed. -/
def regStore (b : BaseState) (off v : Nat) : BaseState :=
  let rst := match regAt off with
    | some (r, i) => regReset r i
    | none => 0
  { b with regs := if v = rst then kdel b.regs off else kput b.regs off (BitVec.ofNat 64 v) }

/-- Store one field. -/
def regStoreField (b : BaseState) (off hi lo v : Nat) : BaseState :=
  regStore b off (withBits (regVal b off) hi lo v)

/-- A register that a function-level reset returns to its reset value and unlocks: HIF_DB_BASE, the RING and KICK blocks
(R479). -/
def flrReg (off : Nat) : Bool := decide (off = 0x10 ∨ (0x100000 ≤ off ∧ off < 0x300000))

/-- Which of the two setup locks holds a register's RWL fields (R440, R479). -/
def rwlLocked (b : BaseState) (off : Nat) : Bool := if flrReg off then b.lockHif else b.lockAll

/-- One field after a write of `v` to its register (Table 0.6). WO fields hold nothing. -/
def fieldWritten (locked : Bool) (f : Field) (old v : Nat) : Nat :=
  let w := f.hi + 1 - f.lo
  let o := bitsOf old f.hi f.lo
  let n := bitsOf v f.hi f.lo
  match f.acc with
  | .ro | .wo => o
  | .rw => n
  | .w1c => o &&& (2 ^ w - 1 - n)
  | .wa => (o + n) % 2 ^ w
  | .rwl => if locked then o else n

/-- A register's value after a write of bits [hi:lo], field by field; fields outside them are not written (R441, R600). -/
def regWritten (b : BaseState) (r : RegRow) (off hi lo v : Nat) : Nat :=
  let w := withBits (regVal b off) hi lo v
  (r.fields.filter fun f => decide (f.lo ≤ hi ∧ lo ≤ f.hi)).foldl
    (fun acc f => withBits acc f.hi f.lo (fieldWritten (rwlLocked b off) f (regVal b off) w)) (regVal b off)

end Sys2Proof.Machine
end

