-- ==== Sys2Proof/Machine/RegFields.lean ====
section
/-!
DEFINITION. The setup fields by name: one reader for each RWL field of the register field maps, with the values that
"act as" another value put through that rule where the field map states it.
-/

namespace Sys2Proof.Machine

/-- HIF_STATUS.FLR (Table 11.2). -/
def cfgHifStatusFlr (b : BaseState) : Nat := regField b 0x8 29 29
/-- HIF_DB_BASE.BASE (Table 11.2). -/
def cfgHifDbBaseBase (b : BaseState) : Nat := regField b 0x10 63 12
/-- HIF_BAR2_BASE.BASE (Table 11.2). -/
def cfgHifBar2BaseBase (b : BaseState) : Nat := regField b 0x18 55 36
/-- HIF_EXPRESS_CFG.NEXP (Table 11.2). -/
def cfgHifExpressCfgNexp (b : BaseState) : Nat := max 16 (min 256 (regField b 0x20 8 0) / 16 * 16)
/-- RING_SQ_BASE_n.BASE (Table 11.3). -/
def cfgRingSqBaseBase (b : BaseState) (n : Nat) : Nat := regField b (0x100000 + 16 * n) 63 12
/-- RING_SQ_CFG_n.EN (Table 11.3). -/
def cfgRingSqCfgEn (b : BaseState) (n : Nat) : Nat := regField b (0x100008 + 16 * n) 31 31
/-- RING_SQ_CFG_n.CLASS (Table 11.3). -/
def cfgRingSqCfgClass (b : BaseState) (n : Nat) : Nat := regField b (0x100008 + 16 * n) 30 29
/-- RING_SQ_CFG_n.POLL (Table 11.3). -/
def cfgRingSqCfgPoll (b : BaseState) (n : Nat) : Nat := min 16 (regField b (0x100008 + 16 * n) 28 24)
/-- RING_SQ_CFG_n.DEFCQ (Table 11.3). -/
def cfgRingSqCfgDefcq (b : BaseState) (n : Nat) : Nat := regField b (0x100008 + 16 * n) 23 16
/-- RING_SQ_CFG_n.LOG2SIZE (Table 11.3). -/
def cfgRingSqCfgLog2size (b : BaseState) (n : Nat) : Nat := regField b (0x100008 + 16 * n) 4 0
/-- RING_CQ_BASE_n.BASE (Table 11.3). -/
def cfgRingCqBaseBase (b : BaseState) (n : Nat) : Nat := regField b (0x101000 + 16 * n) 63 12
/-- RING_CQ_CFG_n.EN (Table 11.3). -/
def cfgRingCqCfgEn (b : BaseState) (n : Nat) : Nat := regField b (0x101008 + 16 * n) 31 31
/-- RING_CQ_CFG_n.VECTOR (Table 11.3). -/
def cfgRingCqCfgVector (b : BaseState) (n : Nat) : Nat := regField b (0x101008 + 16 * n) 29 20
/-- RING_CQ_CFG_n.COALUS (Table 11.3). -/
def cfgRingCqCfgCoalus (b : BaseState) (n : Nat) : Nat := regField b (0x101008 + 16 * n) 19 12
/-- RING_CQ_CFG_n.COALCNT (Table 11.3). -/
def cfgRingCqCfgCoalcnt (b : BaseState) (n : Nat) : Nat := regField b (0x101008 + 16 * n) 11 5
/-- RING_CQ_CFG_n.LOG2SIZE (Table 11.3). -/
def cfgRingCqCfgLog2size (b : BaseState) (n : Nat) : Nat := regField b (0x101008 + 16 * n) 4 0
/-- TIER_TDESC_BASE.BASE (Table 6.1). -/
def cfgTierTdescBaseBase (b : BaseState) : Nat := regField b 0x300200 55 20
/-- TIER_HOT_CFG.WSHIFT (Table 6.11). -/
def cfgTierHotCfgWshift (b : BaseState) : Nat := min 6 (regField b 0x300204 26 24)
/-- TIER_HOT_CFG.LEAVE (Table 6.11). -/
def cfgTierHotCfgLeave (b : BaseState) : Nat := regField b 0x300204 23 12
/-- TIER_HOT_CFG.ENTER (Table 6.11). -/
def cfgTierHotCfgEnter (b : BaseState) : Nat := regField b 0x300204 11 0
/-- TIER_COAL_CFG.STAGE (Table 6.10). -/
def cfgTierCoalCfgStage (b : BaseState) : Nat := regField b 0x300208 31 16
/-- TIER_COAL_CFG.SPILL (Table 6.10). -/
def cfgTierCoalCfgSpill (b : BaseState) : Nat := regField b 0x300208 15 0
/-- TIER_SOFT_CFG.WARMSOFT (Table 7.2). -/
def cfgTierSoftCfgWarmsoft (b : BaseState) : Nat := regField b 0x300210 31 16
/-- TIER_SOFT_CFG.HOTSOFT (Table 7.2). -/
def cfgTierSoftCfgHotsoft (b : BaseState) : Nat := regField b 0x300210 15 0
/-- TIER_RAS_CFG.SCRUBH (Table 7.5). -/
def cfgTierRasCfgScrubh (b : BaseState) : Nat := regField b 0x300220 23 16
/-- TIER_RAS_CFG.ROWCE (Table 7.5). -/
def cfgTierRasCfgRowce (b : BaseState) : Nat := regField b 0x300220 15 8
/-- TIER_RAS_CFG.PCCE (Table 7.5). -/
def cfgTierRasCfgPcce (b : BaseState) : Nat := regField b 0x300220 7 0
/-- TIER_PLACE_CFG.COLDAGE (Table 7.10). -/
def cfgTierPlaceCfgColdage (b : BaseState) : Nat := regField b 0x300224 31 16
/-- TIER_PLACE_CFG.PROMOTE (Table 7.10). -/
def cfgTierPlaceCfgPromote (b : BaseState) : Nat := regField b 0x300224 15 8
/-- TIER_PLACE_CFG.LENTFIRST (Table 7.10). -/
def cfgTierPlaceCfgLentfirst (b : BaseState) : Nat := regField b 0x300224 0 0
/-- TIER_WM_CFG.HOTLOW (Table 7.10). -/
def cfgTierWmCfgHotlow (b : BaseState) : Nat := regField b 0x300228 31 24
/-- TIER_WM_CFG.HOTHIGH (Table 7.10). -/
def cfgTierWmCfgHothigh (b : BaseState) : Nat := regField b 0x300228 23 16
/-- TIER_WM_CFG.WARMLOW (Table 7.10). -/
def cfgTierWmCfgWarmlow (b : BaseState) : Nat := regField b 0x300228 15 8
/-- TIER_WM_CFG.WARMHIGH (Table 7.10). -/
def cfgTierWmCfgWarmhigh (b : BaseState) : Nat := regField b 0x300228 7 0
/-- TIER_SC_CFG.SC0RES (Table 7.8). -/
def cfgTierScCfgSc0res (b : BaseState) : Nat := clampNat 256 4096 (regField b 0x30022C 15 0)
/-- TIER_TMO_CFG.COLD (Table 7.9). -/
def cfgTierTmoCfgCold (b : BaseState) : Nat := regField b 0x300230 31 24
/-- TIER_TMO_CFG.LENT (Table 7.9). -/
def cfgTierTmoCfgLent (b : BaseState) : Nat := regField b 0x300230 23 16
/-- TIER_TMO_CFG.WARM (Table 7.9). -/
def cfgTierTmoCfgWarm (b : BaseState) : Nat := regField b 0x300230 15 8
/-- TIER_TMO_CFG.HOT (Table 7.9). -/
def cfgTierTmoCfgHot (b : BaseState) : Nat := regField b 0x300230 7 0
/-- TIER_MIRROR_CFG.EN (Table 7.11). -/
def cfgTierMirrorCfgEn (b : BaseState) : Nat := regField b 0x300234 31 31
/-- TIER_MIRROR_CFG.BUDGET (Table 7.11). -/
def cfgTierMirrorCfgBudget (b : BaseState) : Nat := regField b 0x300234 15 0
/-- TIER_LEND_CFG.MAXREC (Table 7.7). -/
def cfgTierLendCfgMaxrec (b : BaseState) : Nat := min 16 (regField b 0x300238 4 0)
/-- TIER_CAL_CFG.MINMARGIN (Table 7.14). -/
def cfgTierCalCfgMinmargin (b : BaseState) : Nat := regField b 0x30023C 15 8
/-- TIER_CAL_CFG.EN (Table 7.14). -/
def cfgTierCalCfgEn (b : BaseState) : Nat := regField b 0x30023C 0 0
/-- TIER_JRNL_CFG.IAQJ (Table 8.9). -/
def cfgTierJrnlCfgIaqj (b : BaseState) : Nat := clampNat 4 32 (regField b 0x300240 23 16)
/-- TIER_JRNL_CFG.HOTJ (Table 8.9). -/
def cfgTierJrnlCfgHotj (b : BaseState) : Nat := clampNat 4 32 (regField b 0x300240 7 0)
/-- TIER_SOW_CFG.STAGE (Table 8.1). -/
def cfgTierSowCfgStage (b : BaseState) : Nat := clampNat 1 32 (regField b 0x300244 7 0)
/-- TIER_GRP_BASE.BASE (Table 8.3). -/
def cfgTierGrpBaseBase (b : BaseState) : Nat := regField b 0x300248 55 16
/-- PLOT_ARITH_MODE.STATS_EN (Table 3.7). -/
def cfgPlotArithModeStatsEn (b : BaseState) : Nat := regField b 0x400040 2 2
/-- PLOT_ARITH_MODE.SR_ALLOW (Table 3.7). -/
def cfgPlotArithModeSrAllow (b : BaseState) : Nat := regField b 0x400040 1 1
/-- PLOT_ARITH_MODE.INF_ON_OVERFLOW (Table 3.7). -/
def cfgPlotArithModeInfOnOverflow (b : BaseState) : Nat := regField b 0x400040 0 0
/-- PLOT_REPL_CFG.SIZE (Table 6.13). -/
def cfgPlotReplCfgSize (b : BaseState) : Nat := min 64 (regField b 0x400044 6 0)
/-- PLOT_PF_CFG.DEPTH (Table 17.2). -/
def cfgPlotPfCfgDepth (b : BaseState) : Nat := min 1024 (regField b 0x400048 10 0)
/-- PLOT_MAP_p.VALID (Table 2.12). -/
def cfgPlotMapValid (b : BaseState) (n : Nat) : Nat := regField b (0x410000 + 4 * n) 31 31
/-- PLOT_MAP_p.DIE (Table 2.12). -/
def cfgPlotMapDie (b : BaseState) (n : Nat) : Nat := regField b (0x410000 + 4 * n) 12 11
/-- PLOT_MAP_p.ROW (Table 2.12). -/
def cfgPlotMapRow (b : BaseState) (n : Nat) : Nat := regField b (0x410000 + 4 * n) 10 6
/-- PLOT_MAP_p.COL (Table 2.12). -/
def cfgPlotMapCol (b : BaseState) (n : Nat) : Nat := regField b (0x410000 + 4 * n) 5 0
/-- CHK_CFG.BRWAREA (Table 10.2). -/
def cfgChkCfgBrwarea (b : BaseState) : Nat := min 8 (regField b 0x500000 19 16)
/-- CHK_CFG.UPDCHK (Table 10.2). -/
def cfgChkCfgUpdchk (b : BaseState) : Nat := regField b 0x500000 8 8
/-- CHK_CFG.FRAC (Table 10.2). -/
def cfgChkCfgFrac (b : BaseState) : Nat := regField b 0x500000 2 0
/-- CHK_REPAIR_CFG.RETHRS (Table 10.8). -/
def cfgChkRepairCfgRethrs (b : BaseState) : Nat := max 1 (regField b 0x500004 31 24)
/-- CHK_REPAIR_CFG.PACKHRS (Table 10.8). -/
def cfgChkRepairCfgPackhrs (b : BaseState) : Nat := max 1 (regField b 0x500004 23 16)
/-- CHK_REPAIR_CFG.STRIKEWIN (Table 10.8). -/
def cfgChkRepairCfgStrikewin (b : BaseState) : Nat := max 1 (regField b 0x500004 15 8)
/-- CHK_REPAIR_CFG.STRIKES (Table 10.8). -/
def cfgChkRepairCfgStrikes (b : BaseState) : Nat := max 1 (regField b 0x500004 7 0)
/-- CHK_RETIRE_d_r.COL (Table 10.9). -/
def cfgChkRetireCol (b : BaseState) (n : Nat) : Nat := regField b (0x501000 + 8 * n) 33 0
/-- FAB_TOPO_CFG.WRAP (Table 12.8). -/
def cfgFabTopoCfgWrap (b : BaseState) : Nat := regField b 0x600008 19 16
/-- FAB_TOPO_CFG.SIZEW (Table 12.8). -/
def cfgFabTopoCfgSizew (b : BaseState) : Nat := regField b 0x600008 15 12
/-- FAB_TOPO_CFG.SIZEZ (Table 12.8). -/
def cfgFabTopoCfgSizez (b : BaseState) : Nat := regField b 0x600008 11 8
/-- FAB_TOPO_CFG.SIZEY (Table 12.8). -/
def cfgFabTopoCfgSizey (b : BaseState) : Nat := regField b 0x600008 7 4
/-- FAB_TOPO_CFG.SIZEX (Table 12.8). -/
def cfgFabTopoCfgSizex (b : BaseState) : Nat := regField b 0x600008 3 0
/-- FAB_PORT_CFG.EN (Table 12.8). -/
def cfgFabPortCfgEn (b : BaseState) : Nat := regField b 0x600010 15 0
/-- FAB_QOS_CFG.SC2PCT (Table 12.8). -/
def cfgFabQosCfgSc2pct (b : BaseState) : Nat := min 50 (regField b 0x600018 7 0)
/-- FAB_TMO_CFG.E2E (Table 12.8). -/
def cfgFabTmoCfgE2e (b : BaseState) : Nat := regField b 0x600020 31 16
/-- FAB_TMO_CFG.RETX (Table 12.8). -/
def cfgFabTmoCfgRetx (b : BaseState) : Nat := regField b 0x600020 15 0
/-- FAB_CAL_CFG.INTERVAL (Table 12.8). -/
def cfgFabCalCfgInterval (b : BaseState) : Nat := regField b 0x600028 31 16
/-- FAB_CAL_CFG.MINMARGIN (Table 12.8). -/
def cfgFabCalCfgMinmargin (b : BaseState) : Nat := regField b 0x600028 15 8
/-- FAB_CAL_CFG.EN (Table 12.8). -/
def cfgFabCalCfgEn (b : BaseState) : Nat := regField b 0x600028 0 0
/-- FAB_LEND_CFG.EN (Table 12.8). -/
def cfgFabLendCfgEn (b : BaseState) : Nat := regField b 0x600030 31 31
/-- FAB_LEND_CFG.LENDMAX (Table 12.8). -/
def cfgFabLendCfgLendmax (b : BaseState) : Nat := regField b 0x600030 15 0
/-- FAB_COLL_BASE.BASE (Table 12.8). -/
def cfgFabCollBaseBase (b : BaseState) : Nat := regField b 0x600038 55 19
/-- FAB_MS_CFG.LEADER (Table 9.1). -/
def cfgFabMsCfgLeader (b : BaseState) : Nat := regField b 0x600100 51 40
/-- FAB_MS_CFG.HOSTLEAD (Table 9.1). -/
def cfgFabMsCfgHostlead (b : BaseState) : Nat := regField b 0x600100 39 39
/-- FAB_MS_CFG.PHASEJOB (Table 9.1). -/
def cfgFabMsCfgPhasejob (b : BaseState) : Nat := regField b 0x600100 38 38
/-- FAB_MS_CFG.CLIPGATE (Table 9.1). -/
def cfgFabMsCfgClipgate (b : BaseState) : Nat := regField b 0x600100 37 37
/-- FAB_MS_CFG.RETRY (Table 9.1). -/
def cfgFabMsCfgRetry (b : BaseState) : Nat := regField b 0x600100 34 32
/-- FAB_MS_CFG.NMOD (Table 9.1). -/
def cfgFabMsCfgNmod (b : BaseState) : Nat := regField b 0x600100 31 20
/-- FAB_MS_CFG.KIDX (Table 9.1). -/
def cfgFabMsCfgKidx (b : BaseState) : Nat := regField b 0x600100 19 8
/-- FAB_MS_CFG.HM1 (Table 9.1). -/
def cfgFabMsCfgHm1 (b : BaseState) : Nat := regField b 0x600100 4 0
/-- FAB_MS_ID.JOB (Table 9.1). -/
def cfgFabMsIdJob (b : BaseState) : Nat := regField b 0x600108 31 0
/-- FAB_MS_TMO.COMMITTMO (Table 9.1). -/
def cfgFabMsTmoCommittmo (b : BaseState) : Nat := regField b 0x600110 31 16
/-- FAB_MS_TMO.READYTMO (Table 9.1). -/
def cfgFabMsTmoReadytmo (b : BaseState) : Nat := regField b 0x600110 15 0
/-- FAB_MS_BASE.BASE (Table 9.1). -/
def cfgFabMsBaseBase (b : BaseState) : Nat := regField b 0x600118 55 14
/-- FAB_JOBMAP_j.VALID (Table 12.8). -/
def cfgFabJobmapValid (b : BaseState) (n : Nat) : Nat := regField b (0x610000 + 4 * n) 31 31
/-- FAB_JOBMAP_j.MODID (Table 12.8). -/
def cfgFabJobmapModid (b : BaseState) (n : Nat) : Nat := regField b (0x610000 + 4 * n) 15 0
/-- FLS_FTL_CFG.CACHE (Table 7.6). -/
def cfgFlsFtlCfgCache (b : BaseState) : Nat := regField b 0x800000 31 16
/-- FLS_FTL_CFG.GCLOW (Table 7.6). -/
def cfgFlsFtlCfgGclow (b : BaseState) : Nat := regField b 0x800000 15 8
/-- FLS_FTL_CFG.WLDELTA (Table 7.6). -/
def cfgFlsFtlCfgWldelta (b : BaseState) : Nat := regField b 0x800000 7 0
/-- FLS_CAIRN_CFG.COWBUF (Table 9.13). -/
def cfgFlsCairnCfgCowbuf (b : BaseState) : Nat := regField b 0x800008 23 16
/-- FLS_CAIRN_CFG.MIRROR (Table 9.13). -/
def cfgFlsCairnCfgMirror (b : BaseState) : Nat := regField b 0x800008 7 7
/-- FLS_CAIRN_CFG.KEEP (Table 9.13). -/
def cfgFlsCairnCfgKeep (b : BaseState) : Nat := clampNat 1 8 (regField b 0x800008 3 0)
/-- PWR_CAP_CFG.LIMIT (Table 15.8). -/
def cfgPwrCapCfgLimit (b : BaseState) : Nat := clampNat 1200 2400 (regField b 0x900000 15 0)
/-- PWR_VOLT_CFG.BROWNV (Table 15.8). -/
def cfgPwrVoltCfgBrownv (b : BaseState) : Nat := clampNat 440 520 (regField b 0x900008 31 16)
/-- PWR_VOLT_CFG.PFAILV (Table 15.8). -/
def cfgPwrVoltCfgPfailv (b : BaseState) : Nat := clampNat 400 470 (regField b 0x900008 15 0)
/-- PWR_THERM_CFG.THROTTLE (Table 15.8). -/
def cfgPwrThermCfgThrottle (b : BaseState) : Nat := regField b 0x900010 7 0
/-- PWR_RST_CFG.KEEP_HOT (Table 15.8). -/
def cfgPwrRstCfgKeepHot (b : BaseState) : Nat := regField b 0x900018 0 0
/-- MBX_REQ_BASE.BASE (Table 13.3). -/
def cfgMbxReqBaseBase (b : BaseState) : Nat := regField b 0xB00000 63 12
/-- MBX_RSP_BASE.BASE (Table 13.3). -/
def cfgMbxRspBaseBase (b : BaseState) : Nat := regField b 0xB00008 63 12
/-- MBX_CFG.VECTOR (Table 13.3). -/
def cfgMbxCfgVector (b : BaseState) : Nat := regField b 0xB00010 25 16
/-- MBX_CFG.RSPLOG2 (Table 13.3). -/
def cfgMbxCfgRsplog2 (b : BaseState) : Nat := clampNat 4 8 (regField b 0xB00010 15 8)
/-- MBX_CFG.REQLOG2 (Table 13.3). -/
def cfgMbxCfgReqlog2 (b : BaseState) : Nat := clampNat 4 8 (regField b 0xB00010 7 0)
/-- TRC_RING_BASE.BASE (Table 13.9). -/
def cfgTrcRingBaseBase (b : BaseState) : Nat := regField b 0xC00000 63 12
/-- TRC_RING_CFG.LOG2SIZE (Table 13.9). -/
def cfgTrcRingCfgLog2size (b : BaseState) : Nat := regField b 0xC00008 4 0
/-- TRC_HEAD.HEAD (Table 13.9). -/
def cfgTrcHeadHead (b : BaseState) : Nat := regField b 0xC00010 31 0
/-- TRC_WMK_MASK_i.EN (Table 13.9). -/
def cfgTrcWmkMaskEn (b : BaseState) (n : Nat) : Nat := regField b (0xC00100 + 8 * n) 63 0
/-- EVT_SNAP_BASE.BASE (Table 17.5). -/
def cfgEvtSnapBaseBase (b : BaseState) : Nat := regField b 0xD00000 55 20
/-- EVT_SNAP_BASE.EN (Table 17.5). -/
def cfgEvtSnapBaseEn (b : BaseState) : Nat := regField b 0xD00000 0 0

end Sys2Proof.Machine
end

