-- ==== Sys2Proof/Machine/Num.lean ====
section
/-!
DEFINITION. Number Formats (R106 to R132) and the FP32 arithmetic of Table 3.2 and R185: exact values, the element
formats, the one rounding, block scales, stochastic rounding, RV16, and the exact sums.
-/

namespace Sys2Proof.Machine

/-- An exact value: NaN, an infinity, or (-1)^neg × m × 2^e. A zero keeps its sign. -/
inductive Num where
  | nan
  | inf (neg : Bool)
  | fin (neg : Bool) (m : Nat) (e : Int)
  deriving DecidableEq, Repr

/-- +0. -/
def Num.zero : Num := .fin false 0 0
/-- 1.0. -/
def Num.one : Num := .fin false 1 0
/-- An integer as a value; 0 is +0. -/
def Num.ofInt (i : Int) : Num := .fin (decide (i < 0)) i.natAbs 0
/-- Sign flipped. -/
def Num.neg : Num → Num
  | .nan => .nan
  | .inf s => .inf (!s)
  | .fin s m e => .fin (!s) m e
/-- Sign cleared. -/
def Num.abs : Num → Num
  | .nan => .nan
  | .inf _ => .inf false
  | .fin _ m e => .fin false m e
/-- The value is a NaN. -/
def Num.isNan : Num → Bool
  | .nan => true
  | _ => false
/-- The value is finite. -/
def Num.isFin : Num → Bool
  | .fin _ _ _ => true
  | _ => false
/-- The value is +0 or -0. -/
def Num.isZero : Num → Bool
  | .fin _ m _ => m == 0
  | _ => false
/-- The sign bit. -/
def Num.sgn : Num → Bool
  | .nan => false
  | .inf s => s
  | .fin s _ _ => s

/-! ## Element formats (Table 2.7, Table 3.1) -/

/-- The element formats of Table 2.7. -/
inductive Fmt where
  | fp32 | bf16 | fp16 | e4m3 | e5m2 | e3m2 | e2m3 | e2m1 | int8 | int32 | mask1 | code2
  deriving DecidableEq, Repr

/-- The format selector of Table 2.7; codes 0xC to 0xF are reserved. -/
def Fmt.ofCode : Nat → Option Fmt
  | 0 => some .fp32 | 1 => some .bf16 | 2 => some .fp16 | 3 => some .e4m3 | 4 => some .e5m2
  | 5 => some .e3m2 | 6 => some .e2m3 | 7 => some .e2m1 | 8 => some .int8 | 9 => some .int32
  | 10 => some .mask1 | 11 => some .code2
  | _ => none

/-- The six MX formats. -/
def Fmt.isMx : Fmt → Bool
  | .e4m3 | .e5m2 | .e3m2 | .e2m3 | .e2m1 | .int8 => true
  | _ => false

/-- FP32, BF16 or FP16. -/
def Fmt.isFloat : Fmt → Bool
  | .fp32 | .bf16 | .fp16 => true
  | _ => false

/-- Bits of one element. -/
def Fmt.bits : Fmt → Nat
  | .fp32 => 32 | .bf16 => 16 | .fp16 => 16 | .e4m3 => 8 | .e5m2 => 8 | .e3m2 => 6 | .e2m3 => 6
  | .e2m1 => 4 | .int8 => 8 | .int32 => 32 | .mask1 => 1 | .code2 => 2

/-- Mantissa bits of Table 3.1 (0 for the integer formats). -/
def Fmt.mant : Fmt → Nat
  | .fp32 => 23 | .bf16 => 7 | .fp16 => 10 | .e4m3 => 3 | .e5m2 => 2 | .e3m2 => 2 | .e2m3 => 3 | .e2m1 => 1
  | _ => 0

/-- Exponent bias of Table 3.1. -/
def Fmt.bias : Fmt → Nat
  | .fp32 => 127 | .bf16 => 127 | .fp16 => 15 | .e4m3 => 7 | .e5m2 => 15 | .e3m2 => 3 | .e2m3 => 1 | .e2m1 => 1
  | _ => 0

/-- Magnitude code of the largest finite value (Table 3.1). -/
def Fmt.maxCode : Fmt → Nat
  | .fp32 => 0x7F7FFFFF | .bf16 => 0x7F7F | .fp16 => 0x7BFF | .e4m3 => 0x7E | .e5m2 => 0x7B
  | .e3m2 => 0x1F | .e2m3 => 0x1F | .e2m1 => 0x7 | .int8 => 127 | .int32 => 2 ^ 31 - 1 | .mask1 => 1 | .code2 => 3

/-- Magnitude code of infinity, where the format has one. -/
def Fmt.infCode : Fmt → Option Nat
  | .fp32 => some 0x7F800000 | .bf16 => some 0x7F80 | .fp16 => some 0x7C00 | .e5m2 => some 0x7C
  | _ => none

/-- The canonical quiet NaN (R108), where the format has one. -/
def Fmt.nanCode : Fmt → Option Nat
  | .fp32 => some 0x7FC00000 | .bf16 => some 0x7FC0 | .fp16 => some 0x7E00 | .e4m3 => some 0x7F | .e5m2 => some 0x7F
  | _ => none

/-- emax of Table 3.4. -/
def Fmt.emax : Fmt → Int
  | .e4m3 => 8 | .e5m2 => 15 | .e3m2 => 4 | .e2m3 => 2 | .e2m1 => 2
  | _ => 0

/-- log2 of the spacing of the smallest values of the format. -/
def Fmt.qmin (f : Fmt) : Int :=
  match f with
  | .int8 => -6
  | .int32 | .mask1 | .code2 => 0
  | f => 1 - (f.bias : Int) - (f.mant : Int)

/-- The value that an element's bits stand for (R106, R107), before any block scale. -/
def Fmt.decode (f : Fmt) (code : Nat) : Num :=
  match f with
  | .int8 => match sext 8 code with
    | i => .fin (decide (i < 0)) i.natAbs (-6)
  | .int32 => Num.ofInt (sext 32 code)
  | .mask1 | .code2 => .fin false code 0
  | f =>
    let w := f.bits - 1
    let s := code.testBit w
    let mag := code % 2 ^ w
    if f.infCode = some mag then .inf s
    else if f.maxCode < mag then .nan
    else
      let ex := mag / 2 ^ f.mant
      let m := mag % 2 ^ f.mant
      if ex = 0 then .fin s m f.qmin else .fin s (m + 2 ^ f.mant) (f.qmin + (ex : Int) - 1)

/-- An FP32 word as a value. -/
def ofF32 (w : Nat) : Num := Fmt.fp32.decode w

/-! ## Rounding -/

/-- How a result is rounded: to nearest even, or stochastically with a 16-bit random number (R118, R124). -/
inductive Round where
  | rne
  | sr (r : Nat)
  deriving DecidableEq, Repr

/-- The integer multiple of 2^q that m × 2^e (m > 0) rounds to, and whether the value lay on that grid already. -/
def roundGrid (rd : Round) (m : Nat) (e q : Int) : Nat × Bool :=
  if q ≤ e then (m * 2 ^ (e - q).toNat, true)
  else
    let sh := (q - e).toNat
    let k := m / 2 ^ sh
    let rem := m % 2 ^ sh
    if rem = 0 then (k, true)
    else match rd with
      | .rne =>
        if 2 ^ sh < 2 * rem then (k + 1, false)
        else if 2 * rem = 2 ^ sh then (k + k % 2, false) else (k, false)
      | .sr r => if 65536 ≤ rem * 65536 / 2 ^ sh + r then (k + 1, false) else (k, false)

/-- floor(log2 (m × 2^e)) for m > 0. -/
def floorLog2 (m : Nat) (e : Int) : Int := (Nat.log2 m : Int) + e

/-- The magnitude code m × 2^e rounds to in a format with exponents and mantissas, counted on past the largest
finite code where the value lies beyond it. -/
def roundCode (f : Fmt) (rd : Round) (m : Nat) (e : Int) : Nat :=
  if m = 0 then 0 else
    match f with
    | .int8 | .int32 | .mask1 | .code2 => (roundGrid rd m e f.qmin).1
    | f =>
      let q := max (floorLog2 m e - (f.mant : Int)) f.qmin
      (q - f.qmin).toNat * 2 ^ f.mant + (roundGrid rd m e q).1

/-- One converted element: its code, and what R120 and Table 3.6 count of it. -/
structure Conv where
  /-- The element's bits. -/
  code : Nat
  /-- It saturated. -/
  sat : Bool
  /-- It came out as a NaN, or as INT32 0 for a NaN. -/
  nan : Bool
  /-- It sets its block's scale to NaN (Table 3.3). -/
  scaleNan : Bool
  /-- A non-zero value converted to zero. -/
  ufl : Bool
  deriving DecidableEq, Repr

/-- Sign and magnitude put together. -/
def Fmt.signed (f : Fmt) (s : Bool) (mag : Nat) : Nat :=
  match f with
  | .int8 => if s then (256 - mag) % 256 else mag
  | .int32 => if s then (2 ^ 32 - mag) % 2 ^ 32 else mag
  | .mask1 | .code2 => mag
  | f => if s then mag + 2 ^ (f.bits - 1) else mag

/-- The largest finite value of the sign (INT32: -2^31 for negative). -/
def Fmt.largest (f : Fmt) (s : Bool) : Nat :=
  match f with
  | .int32 => if s then 2 ^ 31 else 2 ^ 31 - 1
  | f => f.signed s f.maxCode

/-- An element that is too large, finite or infinite, under Table 3.3. `isInf`: the source is an infinity. -/
def Fmt.overflow (f : Fmt) (infOv isInf s : Bool) : Conv :=
  match f with
  | .fp32 | .bf16 | .fp16 | .e5m2 =>
    if isInf || infOv then ⟨f.signed s ((f.infCode).getD 0), false, false, false, false⟩
    else ⟨f.largest s, true, false, false, false⟩
  | .e4m3 => if infOv then ⟨0x7F, false, true, false, false⟩ else ⟨f.largest s, true, false, false, false⟩
  | .int32 | .mask1 | .code2 => ⟨f.largest s, true, false, false, false⟩
  | f => if isInf && infOv then ⟨0, false, true, true, false⟩ else ⟨f.largest s, true, false, false, false⟩

/-- One element converted into a format (R117 to R120, Table 3.3), from a value already divided by its scale. -/
def Fmt.convert (f : Fmt) (infOv : Bool) (rd : Round) (x : Num) : Conv :=
  match x with
  | .nan => match f.nanCode with
    | some c => ⟨c, false, true, false, false⟩
    | none => ⟨0, false, true, f.isMx, false⟩
  | .inf s => f.overflow infOv true s
  | .fin s m e =>
    let c := roundCode f rd m e
    if f = .int32 ∧ s = true ∧ c ≤ 2 ^ 31 then ⟨f.signed s c, false, false, false, decide (m ≠ 0 ∧ c = 0)⟩
    else if f.maxCode < c then f.overflow infOv false s
    else ⟨f.signed s c, false, false, false, decide (m ≠ 0 ∧ c = 0)⟩

/-- An FP32 arithmetic result (Table 3.2): rounded once to nearest even, an infinity beyond the largest finite. -/
def toF32 (x : Num) : Nat := (Fmt.fp32.convert true .rne x).code

/-- The value of `toF32`. -/
def round32 (x : Num) : Num := ofF32 (toF32 x)

/-! ## Stochastic rounding (R124 to R127) -/

/-- One step of the Galois LFSR (R125). -/
def lfsrStep (s : Nat) : Nat := if s % 2 = 1 then (s / 2) ^^^ 0xD800000000000000 else s / 2

/-- One draw: 16 steps; the state after them (R125). -/
def lfsrDraw (s : Nat) : Nat :=
  lfsrStep (lfsrStep (lfsrStep (lfsrStep (lfsrStep (lfsrStep (lfsrStep (lfsrStep
    (lfsrStep (lfsrStep (lfsrStep (lfsrStep (lfsrStep (lfsrStep (lfsrStep (lfsrStep s)))))))))))))))

/-- The mixing function of R126. -/
def mix64 (z0 : Nat) : Nat :=
  let z := (z0 + 0x9E3779B97F4A7C15) % 2 ^ 64
  let z := (z ^^^ (z >>> 30)) * 0xBF58476D1CE4E5B9 % 2 ^ 64
  let z := (z ^^^ (z >>> 27)) * 0x94D049BB133111EB % 2 ^ 64
  z ^^^ (z >>> 31)

/-- The seed of an execution (R126). -/
def srSeed (step seed tag stream entry exec : Nat) : Nat :=
  let k0 := ((step % 2 ^ 32) <<< 32) ||| (seed <<< 16) ||| tag
  let k1 := ((stream % 2 ^ 32) <<< 32) ||| (entry <<< 16) ||| exec
  let s := mix64 (k0 ^^^ mix64 k1)
  if s = 0 then 0x9E3779B97F4A7C15 else s

/-- The rounding of an output: to nearest even, or from an LFSR state. -/
structure Rounding where
  /-- The LFSR state, `none` for round to nearest even. -/
  lfsr : Option Nat
  /-- PLOT_ARITH_MODE.INF_ON_OVERFLOW. -/
  infOv : Bool
  deriving DecidableEq, Repr

/-- Round to nearest even under the default columns of Table 3.3 (the update engines, R119). -/
def Rounding.default : Rounding := ⟨none, false⟩

/-- Convert elements in order, each drawing once where the rounding is stochastic. -/
def convertList (f : Fmt) (rd : Rounding) : List Num → List Conv × Rounding
  | [] => ([], rd)
  | x :: l => match rd.lfsr with
    | none =>
      let r := convertList f rd l
      (f.convert rd.infOv .rne x :: r.1, r.2)
    | some s =>
      let s' := lfsrDraw s
      let r := convertList f ⟨some s', rd.infOv⟩ l
      (f.convert rd.infOv (.sr (s' % 65536)) x :: r.1, r.2)

/-! ## Blocks, rows and their layout (R111 to R115, R121 to R123) -/

/-- A value times 2^k. -/
def Num.scale (x : Num) (k : Int) : Num :=
  match x with
  | .fin s m e => .fin s m (e + k)
  | x => x

/-- The value of an element under a scale byte (R111, R112). -/
def scaled (e8m0 : Nat) (x : Num) : Num := if e8m0 = 0xFF then .nan else x.scale ((e8m0 : Int) - 127)

/-- The DYNAMIC scale exponent of a block (R122), as its E8M0 byte. -/
def dynamicScale (f : Fmt) (xs : List Num) : Nat :=
  let logs := xs.filterMap fun x => match x with
    | .fin _ m e => if m = 0 then none else some (floorLog2 m e)
    | _ => none
  match logs with
  | [] => 0
  | l :: ls => (max (-127) (min 127 (ls.foldl max l - f.emax)) + 127).toNat

/-- A converted block: scale byte, elements, and the rounding's state after it. -/
structure BlockConv where
  /-- The E8M0 byte. -/
  scale : Nat
  /-- The elements. -/
  elems : List Conv
  /-- The rounding state that follows. -/
  rd : Rounding
  deriving DecidableEq, Repr

/-- Convert a block of 32 under a scale byte (R119: a block whose scale becomes NaN has zero element fields). -/
def convertBlock (f : Fmt) (rd : Rounding) (scale : Nat) (xs : List Num) : BlockConv :=
  let r := convertList f rd (xs.map fun x => x.scale (127 - (scale : Int)))
  if r.1.any (·.scaleNan) then
    ⟨0xFF, r.1.map fun _ => ⟨0, false, true, true, false⟩, r.2⟩
  else ⟨scale, r.1, r.2⟩

/-- Pack element codes little-endian (R114). -/
def packBits (w : Nat) (codes : List Nat) : Nat :=
  match codes with
  | [] => 0
  | c :: l => c % 2 ^ w + 2 ^ w * packBits w l

/-- Bytes that `n` elements of `w` bits take. -/
def packedBytes (w n : Nat) : Nat := (w * n + 7) / 8

/-- `n` element codes of `w` bits out of packed bytes. -/
def unpack (w n : Nat) (l : List Byte) : List Nat :=
  let v := leNat l
  (List.range n).map fun i => (v >>> (w * i)) % 2 ^ w

/-- Bytes of one row of `n` elements (R113). -/
def Fmt.rowBytes (f : Fmt) (n : Nat) : Nat :=
  if f.isMx then packedBytes f.bits n + n / 32 else packedBytes f.bits n

/-- The values of one row of `n` elements (R112, R113), MX element bytes first and scale bytes after them. -/
def Fmt.decodeRow (f : Fmt) (n : Nat) (l : List Byte) : List Num :=
  let codes := unpack f.bits n l
  if f.isMx then
    let sc := l.drop (packedBytes f.bits n)
    (List.range n).map fun i => scaled (nth 0#8 sc (i / 32)).toNat (f.decode (nth 0 codes i))
  else codes.map f.decode

/-- The counts of an output (R120, Table 3.6). -/
structure ConvCount where
  /-- Elements saturated. -/
  sat : Nat
  /-- Non-zero values that became zero. -/
  ufl : Nat
  /-- NaN elements and elements of blocks whose scale became NaN. -/
  nan : Nat
  /-- Additions to CONV_NAN_CNT: scales set to NaN and INT32 zeros written for a NaN, per element (R120). -/
  cnan : Nat
  deriving DecidableEq, Repr

/-- Nothing counted. -/
def ConvCount.none : ConvCount := ⟨0, 0, 0, 0⟩
/-- Counts added. -/
def ConvCount.add (a b : ConvCount) : ConvCount := ⟨a.sat + b.sat, a.ufl + b.ufl, a.nan + b.nan, a.cnan + b.cnan⟩

/-- What a list of converted elements counts. -/
def countConv (f : Fmt) (cs : List Conv) : ConvCount :=
  ⟨(cs.filter (·.sat)).length, (cs.filter (·.ufl)).length, (cs.filter (·.nan)).length,
   (cs.filter fun c => c.nan && (c.scaleNan || decide (f = .int32))).length⟩

/-- A row written in a format: its bytes, its counts, the rounding after it. -/
structure RowConv where
  /-- The bytes of the row. -/
  bytes : List Byte
  /-- What it counts. -/
  cnt : ConvCount
  /-- The rounding state that follows. -/
  rd : Rounding
  deriving DecidableEq, Repr

/-- The blocks of a row in order. `fixed`: the FIXED scale exponent (R123), else DYNAMIC (R122). -/
def convertBlocks (f : Fmt) (fixed : Option Int) : Rounding → List (List Num) → List BlockConv × Rounding
  | rd, [] => ([], rd)
  | rd, b :: bs =>
    let sc := match fixed with
      | some e => (max (-127) (min 127 e) + 127).toNat
      | none => dynamicScale f b
    let r := convertBlock f rd sc b
    let rest := convertBlocks f fixed r.rd bs
    (r :: rest.1, rest.2)

/-- One row of values written in a format (R113, R117 to R123). -/
def Fmt.encodeRow (f : Fmt) (fixed : Option Int) (rd : Rounding) (xs : List Num) : RowConv :=
  if f.isMx then
    let r := convertBlocks f fixed rd (chunks 32 xs.length xs)
    let cs := (r.1.map (·.elems)).flatten
    ⟨leBytes (packedBytes f.bits xs.length) (packBits f.bits (cs.map (·.code)))
        ++ r.1.map (fun b => BitVec.ofNat 8 b.scale),
     countConv f cs, r.2⟩
  else
    let r := convertList f rd xs
    ⟨leBytes (packedBytes f.bits xs.length) (packBits f.bits (r.1.map (·.code))), countConv f r.1, r.2⟩

/-! ## RV16 (R132) -/

/-- The value of an RV16 code. -/
def rv16Decode (c : Nat) : Num :=
  let e := c / 256 % 256
  let f := c % 256
  if e = 0xFF then .nan else if e = 0 then .zero else .fin false (256 + f) ((e : Int) - 135)

/-- Conversion into RV16. -/
def rv16Encode (x : Num) : Nat :=
  match x with
  | .nan => 0xFF00
  | .inf s => if s then 0 else 0xFEFF
  | .fin s m e =>
    if s ∨ m = 0 then 0
    else if floorLog2 m e < -127 then 0
    else if floorLog2 m e < -126 then 0x0100
    else
      let q := floorLog2 m e - 8
      let c := (q + 134).toNat * 256 + (roundGrid .rne m e q).1
      min c 0xFEFF

/-! ## Exact arithmetic -/

/-- Exact product (Table 3.2). -/
def Num.mul (x y : Num) : Num :=
  match x, y with
  | .nan, _ => .nan
  | _, .nan => .nan
  | .inf s, y => if y.isZero then .nan else .inf (s != y.sgn)
  | x, .inf s => if x.isZero then .nan else .inf (x.sgn != s)
  | .fin s m e, .fin s' m' e' => .fin (s != s') (m * m') (e + e')

/-- A finite value as an integer multiple of 2^q, q no larger than its exponent. -/
def alignInt (s : Bool) (m : Nat) (e q : Int) : Int :=
  let v : Int := ((m * 2 ^ (e - q).toNat : Nat) : Int)
  if s then -v else v

/-- An integer times 2^q as a value; `z` is the sign of a zero. -/
def ofAligned (z : Bool) (v q : Int) : Num :=
  if v = 0 then .fin z 0 0 else .fin (decide (v < 0)) v.natAbs q

/-- Exact sum of two values (Table 3.2: an exact zero is -0 only if both terms are -0). -/
def Num.add (x y : Num) : Num :=
  match x, y with
  | .nan, _ => .nan
  | _, .nan => .nan
  | .inf s, .inf s' => if s = s' then .inf s else .nan
  | .inf s, _ => .inf s
  | _, .inf s => .inf s
  | .fin s m e, .fin s' m' e' =>
    let q := min e e'
    ofAligned (s && s' && decide (m = 0 ∧ m' = 0)) (alignInt s m e q + alignInt s' m' e' q) q

/-- Exact difference. -/
def Num.sub (x y : Num) : Num := x.add y.neg

/-- The integer square root, bit by bit from bit `k`. -/
def isqrtFrom : Nat → Nat → Nat → Nat
  | 0, r, n => if (r + 1) * (r + 1) ≤ n then r + 1 else r
  | k + 1, r, n =>
    let t := r + 2 ^ (k + 1)
    isqrtFrom k (if t * t ≤ n then t else r) n

/-- floor(√n). -/
def isqrt (n : Nat) : Nat := isqrtFrom (Nat.log2 n / 2 + 1) 0 n

/-- A quotient of whole numbers times 2^e, to 320 bits and a sticky bit below: every rounding of this file of the
result is the rounding of the exact quotient. -/
def quot (s : Bool) (n d : Nat) (e : Int) : Num :=
  if n = 0 then .fin s 0 0 else
    let k := 320 + Nat.log2 d
    let q := n * 2 ^ k / d
    let st := if n * 2 ^ k % d = 0 then 0 else 1
    .fin s (2 * q + st) (e - k - 1)

/-- Quotient (Table 3.2), exact up to the sticky bit of `quot`. -/
def Num.div (x y : Num) : Num :=
  match x, y with
  | .nan, _ => .nan
  | _, .nan => .nan
  | .inf _, .inf _ => .nan
  | .inf s, y => .inf (s != y.sgn)
  | x, .inf s => .fin (x.sgn != s) 0 0
  | .fin s m e, .fin s' m' e' =>
    if m' = 0 then (if m = 0 then .nan else .inf (s != s'))
    else quot (s != s') m m' (e - e')

/-- Square root, exact up to a sticky bit. -/
def Num.sqrt (x : Num) : Num :=
  match x with
  | .nan => .nan
  | .inf s => if s then .nan else .inf false
  | .fin s m e =>
    if m = 0 then .fin s 0 0
    else if s then .nan
    else
      let p := if e % 2 = 0 then (m, e) else (2 * m, e - 1)
      let n := p.1 * 2 ^ 640
      let r := isqrt n
      .fin false (2 * r + (if r * r = n then 0 else 1)) (p.2 / 2 - 321)

/-- 1/√x, exact up to a sticky bit (Table 5.3). -/
def Num.rsqrt (x : Num) : Num :=
  match x with
  | .nan => .nan
  | .inf s => if s then .nan else .zero
  | .fin s m e =>
    if m = 0 then .inf s
    else if s then .nan
    else
      let p := if e % 2 = 0 then (m, e) else (2 * m, e - 1)
      let n := 2 ^ 1280 / p.1
      let r := isqrt n
      let exact := decide (r * r * p.1 = 2 ^ 1280)
      .fin false (2 * r + (if exact then 0 else 1)) (-(p.2 / 2) - 641)

/-- x < y (Table 3.2: false with a NaN; -0 = +0). -/
def Num.lt (x y : Num) : Bool :=
  match x, y with
  | .nan, _ => false
  | _, .nan => false
  | .inf s, .inf s' => s && !s'
  | .inf s, _ => s
  | _, .inf s => !s
  | .fin s m e, .fin s' m' e' =>
    let q := min e e'
    decide (alignInt s m e q < alignInt s' m' e' q)

/-- IEEE 754-2019 minimum (Table 3.2). -/
def Num.min (x y : Num) : Num :=
  if x.isNan || y.isNan then .nan
  else if x.lt y then x else if y.lt x then y else if x.sgn then x else y

/-- IEEE 754-2019 maximum (Table 3.2). -/
def Num.max (x y : Num) : Num :=
  if x.isNan || y.isNan then .nan
  else if x.lt y then y else if y.lt x then x else if x.sgn then y else x

/-! ## Functions (R185): computed to more than 400 bits, so that the one rounding is the rounding of the exact value -/

/-- Working precision in bits. -/
def fxP : Nat := 640
/-- ln 2 × 2^640. -/
def fxLn2 : Nat := 0xb17217f7d1cf79abc9e3b39803f2f6af40f343267298b62d8a0d175b8baafa2be7b876206debac98559552fb4afa1b10ed2eae35c138214427573b291169b8253e96ca16224ae8c51acbda11317c387e
/-- √(2/π) × 2^640. -/
def fxGelu : Nat := 0xcc42299ea1b284687e59e2805d5c717fa7053e60a24e0db1808e369004c73a5d3bf158aa88fa7b6e47eba75766e9d11bd6284ef2e17c2a264f1d32688be119ff30505c3fb28f9c969d9b7adccb84672b

/-- A finite value in fixed point with `fxP` fraction bits, truncated toward zero. -/
def toFix (s : Bool) (m : Nat) (e : Int) : Int :=
  let k := e + (fxP : Int)
  let v : Nat := if 0 ≤ k then m * 2 ^ k.toNat else m / 2 ^ (-k).toNat
  if s then -(v : Int) else v

/-- Terms of the exponential series: sum so far, last term, next divisor. -/
def expSeries (r : Nat) : Nat → Nat → Nat → Nat → Nat
  | 0, sum, _, _ => sum
  | f + 1, sum, t, i =>
    let t' := t * r / 2 ^ fxP / i
    expSeries r f (sum + t') t' (i + 1)

/-- e^y for y in fixed point: a mantissa M and an exponent k with e^y ≈ M × 2^k. -/
def expFix (y : Int) : Nat × Int :=
  let k := y / (fxLn2 : Int)
  let r := (y - k * (fxLn2 : Int)).toNat
  (expSeries r 130 (2 ^ fxP) (2 ^ fxP) 1, k - fxP)

/-- Terms of the series of atanh. -/
def atanhSeries (t2 : Nat) : Nat → Nat → Nat → Nat → Nat
  | 0, sum, _, _ => sum
  | f + 1, sum, t, i =>
    let t' := t * t2 / 2 ^ fxP
    atanhSeries t2 f (sum + t' / i) t' (i + 2)

/-- ln of m × 2^e, m > 0, in fixed point. -/
def lnFix (m : Nat) (e : Int) : Int :=
  let l := Nat.log2 m
  let u := m * 2 ^ fxP / 2 ^ l
  let one := 2 ^ fxP
  let t := (u - one) * one / (u + one)
  let t2 := t * t / one
  ((l : Int) + e) * (fxLn2 : Int) + (2 * atanhSeries t2 210 t t 3 : Nat)

/-- A fixed-point result that is not exact: a sticky bit is put below it. -/
def ofFix (v : Int) : Num := .fin (decide (v < 0)) (2 * v.natAbs + 1) (-(fxP : Int) - 1)

/-- e^x. -/
def Num.exp (x : Num) : Num :=
  match x with
  | .nan => .nan
  | .inf s => if s then .zero else .inf false
  | .fin s m e =>
    if m = 0 then .one
    else if 10 < floorLog2 m e then (if s then .fin false 1 (-4000) else .fin false 1 4000)
    else match expFix (toFix s m e) with
      | (v, k) => .fin false (2 * v + 1) (k - 1)

/-- ln x. -/
def Num.ln (x : Num) : Num :=
  match x with
  | .nan => .nan
  | .inf s => if s then .nan else .inf false
  | .fin s m e =>
    if m = 0 then .inf true
    else if s then .nan
    else if m = 2 ^ Nat.log2 m ∧ floorLog2 m e = 0 then .zero
    else ofFix (lnFix m e)

/-- 1 / (1 + e^-y), y in fixed point. -/
def sigmFix (y : Int) : Num :=
  let one : Nat := 2 ^ fxP
  if 0 ≤ y then
    match expFix (-y) with
    | (v, k) => quot false one (one + (if 0 ≤ k + fxP then v * 2 ^ (k + fxP).toNat else v / 2 ^ (-(k + fxP)).toNat)) 0
  else
    match expFix y with
    | (v, k) =>
      quot false (2 * v + 1) (one + (if 0 ≤ k + fxP then v * 2 ^ (k + fxP).toNat else v / 2 ^ (-(k + fxP)).toNat))
        (k - 1 + fxP)

/-- 1 / (1 + e^-x). -/
def Num.sigm (x : Num) : Num :=
  match x with
  | .nan => .nan
  | .inf s => if s then .zero else .one
  | .fin s m e =>
    if m = 0 then .fin false 1 (-1)
    else if 10 < floorLog2 m e then
      (if s then .fin false 1 (-4000) else .fin false (2 ^ 400 - 1) (-400))
    else sigmFix (toFix s m e)

/-- x / (1 + e^-x). -/
def Num.silu (x : Num) : Num :=
  match x with
  | .nan => .nan
  | .inf s => if s then .fin true 0 0 else .inf false
  | x => if x.isZero then x else x.mul x.sigm

/-- tanh x = 1 - 2 / (e^2x + 1); a magnitude below 2^-40 rounds as itself pulled toward zero. -/
def Num.tanh (x : Num) : Num :=
  match x with
  | .nan => .nan
  | .inf s => .fin s 1 0
  | .fin s m e =>
    if m = 0 then .fin s 0 0
    else if floorLog2 m e < -40 then .fin s (m * 2 ^ 100 - 1) (e - 100)
    else if 10 < floorLog2 m e then .fin s (2 ^ 400 - 1) (-400)
    else
      let one : Nat := 2 ^ fxP
      match expFix (2 * toFix true m e) with
      | (v, k) =>
        let t := if 0 ≤ k + fxP then v * 2 ^ (k + fxP).toNat else v / 2 ^ (-(k + fxP)).toNat
        quot s (one - t) (one + t) 0

/-- 0.5 x (1 + tanh(√(2/π) (x + 0.044715 x³))) = x / (1 + e^-2z). -/
def Num.gelu (x : Num) : Num :=
  match x with
  | .nan => .nan
  | .inf s => if s then .fin true 0 0 else .inf false
  | .fin s m e =>
    if m = 0 then .fin s 0 0
    else if 10 < floorLog2 m e then (if s then .fin true 1 (-4000) else .fin false m e)
    else
      let f := toFix s m e
      let one : Int := (2 ^ fxP : Nat)
      let cube := f * f / one * f / one
      let z := (fxGelu : Int) * (f + cube * 44715 / 1000000) / one
      (Num.fin s m e).mul (sigmFix (2 * z))

/-! ## Exact sums (R145, R146, R189) -/

/-- An exact sum: an integer on a grid that its user fixes, and the flags of R146. -/
structure Wide where
  /-- The integer X. -/
  x : Int
  /-- A NaN term, or 0 × ∞. -/
  nan : Bool
  /-- A +∞ term. -/
  pinf : Bool
  /-- A -∞ term. -/
  ninf : Bool
  /-- Any term. -/
  term : Bool
  /-- Any term other than -0. -/
  notneg0 : Bool
  deriving DecidableEq, Repr

/-- No term yet. -/
def Wide.zero : Wide := ⟨0, false, false, false, false, false⟩

/-- The flags that a term sets (R146). -/
def Wide.flag (w : Wide) (t : Num) : Wide :=
  match t with
  | .nan => { w with nan := true, term := true, notneg0 := true }
  | .inf s => { w with pinf := w.pinf || !s, ninf := w.ninf || s, term := true, notneg0 := true }
  | .fin s m _ => { w with term := true, notneg0 := w.notneg0 || !(s && m == 0) }

/-- A term's integer on the grid 2^q, what lies below it dropped toward zero (R144), and whether anything was. -/
def gridInt (t : Num) (q : Int) : Int × Bool :=
  match t with
  | .fin s m e =>
    if q ≤ e then (alignInt s m e q, false)
    else
      let sh := (q - e).toNat
      let k := m / 2 ^ sh
      (if s then -(k : Int) else k, decide (m % 2 ^ sh ≠ 0))
  | _ => (0, false)

/-- Add a term on a grid that loses nothing of it. -/
def Wide.add (q : Int) (w : Wide) (t : Num) : Wide := { w.flag t with x := w.x + (gridInt t q).1 }

/-- Two sums on one grid put together. -/
def Wide.join (a b : Wide) : Wide :=
  ⟨a.x + b.x, a.nan || b.nan, a.pinf || b.pinf, a.ninf || b.ninf, a.term || b.term, a.notneg0 || b.notneg0⟩

/-- A sum as it reads at output (R146), on the grid 2^q. -/
def Wide.read (w : Wide) (q : Int) : Num :=
  if w.nan || (w.pinf && w.ninf) then .nan
  else if w.pinf then .inf false
  else if w.ninf then .inf true
  else ofAligned (w.term && !w.notneg0) w.x q

/-- The exact sum of a list of values. -/
def exactSum (xs : List Num) : Num :=
  let q := xs.foldl (fun a x => match x with
    | .fin _ m e => if m = 0 then a else min a e
    | _ => a) 0
  (xs.foldl (Wide.add q) Wide.zero).read q

end Sys2Proof.Machine
end

