-- ==== Sys2Proof/Machine/PlotState.lean ====
section
/-!
DEFINITION. The state of a plot: control core threads, sequencer, unit queues, SRAM, furrow store, tile and vector
registers, wide accumulators, reduction registers, token counters and message channels (02, 03, 04, 05).
-/

namespace Sys2Proof.Machine

/-- Why a thread is parked (R41, R42). -/
inductive Park where
  | no
  /-- On device memory: destination register, width in bytes, sign-extended or not, DA, bytes of the load. -/
  | mem (rd width : Nat) (signed : Bool) (da len : Nat)
  /-- Its access would be the seventh on device memory (R42). -/
  | held (rd width : Nat) (signed : Bool) (da len : Nat)
  /-- In FWAIT with a mask. -/
  | fwait (rd mask : Nat)
  /-- In FWORK. -/
  | fwork (rd : Nat)
  /-- In FENCE. -/
  | fence
  deriving DecidableEq, Repr

/-- One hardware thread of a control core (R36, R40, R41). -/
structure Thread where
  /-- The thread has been started (R40, 02). Reset: false. -/
  started : Bool
  /-- pc (R36, 02). Reset: 0 (DESIGN CHOICE, log 3). -/
  pc : Word64
  /-- x1 to x31, by number; x0 is not held (R36, 02). Reset: 0 (DESIGN CHOICE, log 3). -/
  x : KMap Word64
  /-- Machine mode; false is user mode (R36, 02). Reset: true (PRESUMED, log 4). -/
  machineMode : Bool
  /-- mstatus, mtvec, mepc, mcause, mtval and the PMP registers, by CSR number (R36, 02). Reset: 0 (PRESUMED, log 4). -/
  csr : KMap Word64
  /-- Why it is parked (R41, 02). Reset: not parked. -/
  park : Park
  /-- Posted stores to device memory not yet acknowledged (R41, 02). Reset: 0. -/
  posted : Nat
  /-- The LR/SC reservation: the address reserved (R38, 02). Reset: none. -/
  resv : Option Nat
  deriving DecidableEq, Repr

/-- A thread at reset. -/
def Thread.reset : Thread := ⟨false, 0, [], true, [], .no, 0, none⟩

/-- The events FWAIT can wait on, in the order of their mask bits (02). -/
inductive PEv where
  | headland | halfFree | fault | release | loadDone | message | grant
  deriving DecidableEq, Repr

/-- A pending event: its kind, the thread it was delivered to, and what it carries. -/
structure PendEv where
  /-- Kind. -/
  ev : PEv
  /-- Thread. -/
  thread : Nat
  /-- The words it carries: FAULT the entry and execution index, RELEASE 1 for COMMIT, MESSAGE the channel. -/
  detail : List Nat
  deriving DecidableEq, Repr

/-- State of a half of the furrow table (R69). -/
inductive Half where
  | free | ready | active
  deriving DecidableEq, Repr

/-- A demand fault (R57, R19 to R22, R63, R78, R79, R80, R160, R191, R208, R322). -/
inductive FaultKind where
  /-- The DA is reserved or unbacked (R22). -/
  | daUnmapped (da : Nat)
  /-- Internal control space, or a window with no loan (R20, R21). -/
  | daBarred (da : Nat)
  /-- A pooled or managed range that demand may not write (R256). -/
  | poolWrite (da : Nat)
  /-- Bits [63:56] of a DA are not zero, or a misaligned address (R15). -/
  | address (da : Nat)
  /-- An SRAM address past 0xF_FFFF, or a write into the statistics store (R63, R128). -/
  | sramRange (a : Nat)
  /-- An uncorrectable SRAM or register error (R78, R79). -/
  | sramUe (a : Nat)
  /-- An uncorrectable memory error or a tier error (R264, R294). -/
  | tierError (da : Nat)
  /-- A RECV payload longer than MAXLEN (R57). -/
  | recvLong
  /-- A TURN shape that is not a multiple of 32 (R80). -/
  | turnShape
  /-- 2:4 metadata out of order (R160). -/
  | sparseMeta
  /-- N past 2^32 - 1 (R191). -/
  | countWrap
  /-- A table descriptor that is not valid (R208, R322). -/
  | tdesc (row : Nat) (table : Nat)
  /-- A bag past its bound (R248, R251). -/
  | bagLimit
  /-- No fault: bytes of a neighbour window are still to come from its lender (R499). -/
  | remoteWait (da n : Nat)
  deriving DecidableEq, Repr

/-- One execution queued at a unit: everything it needs was read when it issued (R48). -/
structure Exec where
  /-- Number of its furrow, counted since reset. -/
  fid : Nat
  /-- Furrow-store entry. -/
  entry : Nat
  /-- Execution index (R62). -/
  index : Nat
  /-- The first execution of its furrow that was not skipped. -/
  first : Bool
  /-- The last execution of its furrow. -/
  last : Bool
  /-- The 64 bytes of the record. -/
  record : List Byte
  /-- Values of the SREG operands 0 to 3, read at issue (R48). -/
  srv : List Word64
  /-- The job's step number (R126). -/
  step : Word32
  /-- The stream id (R61). -/
  stream : Nat
  /-- This execution is sampled for checking (R402). -/
  sampled : Bool
  /-- The target step of a FRESH or CLEARED gather, taken at issue (R220). -/
  target : Word32
  /-- The replay plot that granted credit for a sampled execution's stream (R406). -/
  replay : Option Nat
  deriving DecidableEq, Repr

/-- A furrow that has issued and not completed (R52, R54). -/
structure InFlight where
  /-- Its number. -/
  fid : Nat
  /-- Furrow-store entry. -/
  entry : Nat
  /-- The record. -/
  record : List Byte
  /-- Executions issued and not completed. -/
  open_ : Nat
  /-- Every execution has issued or been skipped. -/
  issued : Bool
  /-- A demand fault ended it, at this execution index (R57). -/
  fault : Option (Nat × FaultKind)
  /-- Statistics merged so far: OUTMAXE, AMAXE, BMAXE, SATCNT, UFLCNT, NANCNT (R129). -/
  stats : List Nat
  /-- e_fix as the epilogue has raised it (R168). -/
  efix : Option Int
  /-- EV_MAT_INEXACT has been raised for it (R155). -/
  inexactSaid : Bool
  deriving DecidableEq, Repr

/-- The furrow being issued: its record was read whole (R48). -/
structure Issuing where
  /-- Its number. -/
  fid : Nat
  /-- Entry. -/
  entry : Nat
  /-- Record. -/
  record : List Byte
  /-- SREG values. -/
  srv : List Word64
  /-- Next execution index. -/
  next : Nat
  /-- The presence bitmap as read at issue, bit i for execution i (R64). -/
  bitmap : Nat
  /-- The target of a FRESH or CLEARED gather, taken when the furrow issues (R220). -/
  target : Word32
  deriving DecidableEq, Repr

/-- The sequencer (R48 to R70). -/
structure Sequencer where
  /-- Issuing (R68, 02). Reset: false. -/
  running : Bool
  /-- Owner thread (Table 2.3, 02). Reset: 0. -/
  owner : Nat
  /-- Next entry (R67, 02). Reset: 0. -/
  entry : Nat
  /-- Turn mode: 0 STOP, 1 WRAP, 2 SWITCH (Table 2.9, 02). Reset: 0. -/
  turn : Nat
  /-- SPLIT (R67, 02). Reset: false. -/
  split : Bool
  /-- WRAP pass limit, 0 for none (R68, 02). Reset: 0. -/
  passLimit : Nat
  /-- Passes counted (R68, 02). Reset: 0. -/
  passes : Nat
  /-- State of half A (R69, 02). Reset: FREE. -/
  halfA : Half
  /-- State of half B (R69, 02). Reset: FREE. -/
  halfB : Half
  /-- The furrow part-way through its executions (R49, 02). Reset: none. -/
  cur : Option Issuing
  /-- Furrows issued and not complete, oldest first (R54, 02). Reset: none. -/
  inflight : List InFlight
  /-- Furrows issued since reset, the number the next one takes. Reset: 0. -/
  nextFid : Nat
  /-- The execution the sequencer itself carries out, which holds issue: IDLE, SIGNAL, MILESTONE, CAL (R51, 02).
  Reset: none. -/
  own : Option Exec
  /-- A MILESTONE furrow has reported and waits for its release: its number (R58, 02). Reset: none. -/
  waitRelease : Option Nat
  /-- Waiting at the headland for the other half (R68, 02). Reset: false. -/
  waitHalf : Bool
  /-- The plot's phase bit (Table 2.5 bit 17, R371, 02). Reset: 0 (DESIGN CHOICE, log 3). -/
  phase : Bool
  deriving DecidableEq, Repr

/-- The sequencer at reset. -/
def Sequencer.reset : Sequencer :=
  ⟨false, 0, 0, 0, false, 0, 0, .free, .free, none, [], 0, none, none, false, false⟩

/-- A message (R73 to R77). -/
structure Msg where
  /-- Source logical plot. -/
  src : Nat
  /-- Class: 0 SC1, 1 SC0, 2 SC2, as SEND's CLASS field. -/
  cls : Nat
  /-- Payload, at most 4,096 bytes. -/
  data : List Byte
  deriving DecidableEq, Repr

/-- A receive channel: it holds one message (R74). -/
structure Channel where
  /-- The message it holds, if any (R74, 02). Reset: none. -/
  msg : Option Msg
  /-- The logical plot that holds its credit, if taken (R74, 02). Reset: none. -/
  holder : Option Nat
  /-- Logical plots waiting for the credit, in the order their requests arrived (R74, 02). Reset: none. -/
  waiters : List Nat
  deriving DecidableEq, Repr

/-- A channel at reset. -/
def Channel.reset : Channel := ⟨none, none, []⟩

/-- A signal or message this plot has sent and that has not been delivered, in the order sent (R75, R76). -/
inductive Sent where
  /-- A message for a channel of a logical plot, and the number of its furrow. -/
  | msg (dest chan : Nat) (m : Msg) (fid : Nat)
  /-- A SIGNAL to a logical plot: counter and increment, and the number of its furrow. -/
  | signal (dest counter inc fid : Nat)
  deriving DecidableEq, Repr

/-- An accumulator tile's status (Table 4.3). -/
structure AccStat where
  /-- ENTRY (R140, 04). Reset: 0. -/
  entry : Nat
  /-- INEXCNT, held at 65,535 (R140, 04). Reset: 0. -/
  inexcnt : Nat
  /-- RAISES, held at 255 (R140, 04). Reset: 0. -/
  raises : Nat
  /-- EPIREP, held at 255 (R140, 04). Reset: 0. -/
  epirep : Nat
  /-- INEXACT (R140, 04). Reset: false. -/
  inexact : Bool
  /-- Current anchor (R140, 04). Reset: 0 (DESIGN CHOICE, log 3). -/
  anchor : Int
  deriving DecidableEq, Repr

/-- A tile's status at reset. -/
def AccStat.reset : AccStat := ⟨0, 0, 0, 0, false, 0⟩

/-- A pending FLOAD (R70). -/
structure Fload where
  /-- Source DA. -/
  da : Nat
  /-- Half: false A, true B. -/
  half : Bool
  deriving DecidableEq, Repr

/-- A run-ahead fetch: for which furrow, of which address, and whether it has arrived (R86 to R91). -/
structure Ahead where
  /-- Furrow number. -/
  fid : Nat
  /-- Index-list entry of a GATHER, or DA of a MOVE. -/
  key : Nat
  /-- Demand has used it. -/
  used : Bool
  deriving DecidableEq, Repr

/-- The state of one physical plot (Table 2.1). -/
structure Plot where
  /-- Plot SRAM, 1 MiB, bytes that are not zero (R19, Table 2.1, 02). Reset: 0 (DESIGN CHOICE, log 3). -/
  sram : KMap Byte
  /-- Furrow store, 128 KiB (Table 2.1, 02). Reset: 0 (DESIGN CHOICE, log 3). -/
  store : KMap Byte
  /-- Tile registers T0–T15: FP32 word 1024 t + 32 row + column (Table 2.1, 02). Reset: 0 (DESIGN CHOICE, log 3). -/
  tiles : KMap Word32
  /-- Vector registers V0–V31: FP32 word 32 v + lane (Table 2.1, 02). Reset: 0 (DESIGN CHOICE, log 3). -/
  vregs : KMap Word32
  /-- Accumulator elements of ACC0–ACC3: element 1024 t + e (R143, R146, 04). Reset: no term (DESIGN CHOICE, log 3). -/
  acc : KMap Wide
  /-- ACC_STAT of each tile, by number (Table 4.3, 04). Reset: all zero. -/
  accStat : KMap AccStat
  /-- Wide reduction registers: S_j at j, Q_j at 32 + j (R189, 05). Reset: no term (DESIGN CHOICE, log 3). -/
  red : KMap Wide
  /-- Term count N (R189, 05). Reset: 0 (DESIGN CHOICE, log 3). -/
  redN : Word32
  /-- Running extreme of line j of a MAX or MIN (R193, 05). Reset: none. -/
  redX : KMap Word32
  /-- Threads 0–7 that differ from reset, by number (R40, 02). -/
  threads : KMap Thread
  /-- Pending events (Table 2.3, 02). Reset: none. -/
  events : List PendEv
  /-- The sequencer. -/
  seq : Sequencer
  /-- The 16 token counters (R56, 02). Reset: 0 (DESIGN CHOICE, log 3). -/
  tok : KMap Word32
  /-- The 8 receive channels that differ from reset, by number (R74, 02). -/
  chans : KMap Channel
  /-- Sent and not yet delivered, in order (R75, R76, 02). Reset: none. -/
  sent : List Sent
  /-- DMA queue (R51, 02). Reset: empty. -/
  dmaQ : List Exec
  /-- Matrix-unit queue (R51, 02). Reset: empty. -/
  matQ : List Exec
  /-- Vector-engine queue (R51, 02). Reset: empty. -/
  vecQ : List Exec
  /-- Send queue of the message port (R51, 02). Reset: empty. -/
  sendQ : List Exec
  /-- Receive queue of the message port (R51, 02). Reset: empty. -/
  recvQ : List Exec
  /-- FLOADs in progress, in order (R70, 02). Reset: none. -/
  fload : List Fload
  /-- Run-ahead fetches held (R86 to R91, 02). Reset: none. -/
  ahead : List Ahead
  /-- The 64-bit LFSR (R125, 03). Reset: 0 (DESIGN CHOICE, log 3; seeded before every use, R126). -/
  lfsr : Word64
  /-- PLOT_GCTX: bit 63 VALID, bits 31–0 TARGET (Table 6.8, 06). Reset: 0. -/
  gctx : Word64
  /-- CLK_A of the plot runs at divide-by-16 (R560, 15). Reset: false. -/
  div16 : Bool
  /-- The capping period its idle slots were last counted in (R60, 02; R569, 15). Reset: 0. -/
  idleTick : Nat
  /-- Idle slots inserted in that period (R60, 02; R569, 15). Reset: 0. -/
  idleDone : Nat
  /-- Blocks granted to the plot and not completed, oldest first: DA of the descriptor, and the number of furrows issued by which its
  own have all issued (R101, 02). Reset: none. -/
  blocks : List (Nat × Nat)
  /-- A remap of this plot is running: channels give no credits (R99, 02). Reset: false. -/
  remapping : Bool
  deriving DecidableEq, Repr

/-- A plot at reset. -/
def Plot.reset : Plot where
  sram := []
  store := []
  tiles := []
  vregs := []
  acc := []
  accStat := []
  red := []
  redN := 0
  redX := []
  threads := []
  events := []
  seq := .reset
  tok := []
  chans := []
  sent := []
  dmaQ := []
  matQ := []
  vecQ := []
  sendQ := []
  recvQ := []
  fload := []
  ahead := []
  lfsr := 0
  gctx := 0
  div16 := false
  idleTick := 0
  idleDone := 0
  blocks := []
  remapping := false

end Sys2Proof.Machine
end

