-- ==== Sys2Proof/Machine/ChkState.lean ====
section
/-!
DEFINITION. The state of silent-error checking and in-service repair (10_silent_error_checking).
-/

namespace Sys2Proof.Machine

/-- Where a sample stands (R410). -/
inductive SampleSt where
  /-- The execution has issued and not completed: no OFP yet. -/
  | running
  /-- The replay plot has the stream and has not answered. -/
  | replay
  /-- The two fingerprints differ; the third plot has the stream. -/
  | third
  /-- The odd plot (or, none agreeing, each plot) is to run the pack: the plots left to run it, and whether the step is in
  doubt (S odd, or none agreeing). -/
  | pack (plots : List Nat) (doubt : Bool)
  deriving DecidableEq, Repr

/-- A sampled execution (R402, R406, R410). -/
structure Sample where
  /-- Sampled physical plot S. -/
  s : Nat
  /-- Its logical number. -/
  logical : Nat
  /-- Step. -/
  step : Word32
  /-- Furrow number, entry, execution index. -/
  fid : Nat
  /-- Entry. -/
  entry : Nat
  /-- Execution index. -/
  index : Nat
  /-- An express sample (R403), with the lookup's tag. -/
  express : Option Nat
  /-- The head of its shadow stream: header, record, SREG values (Table 10.4). -/
  stream : List Byte
  /-- Replay plot R. -/
  r : Nat
  /-- Third plot T. -/
  t : Option Nat
  /-- OFP of S. -/
  ofp : Word64
  /-- OFP of R, once it has replayed a good stream. -/
  rfp : Option Word64
  /-- OFP of T, likewise. -/
  tfp : Option Word64
  /-- Where it stands. -/
  st : SampleSt
  deriving DecidableEq, Repr

/-- A sampled row update (R414, R415). -/
structure UpdSample where
  /-- Home engine, 0–3 sow engines, 4–7 Iaquas. -/
  home : Nat
  /-- Milestone. -/
  step : Word32
  /-- Table. -/
  table : Nat
  /-- Row. -/
  row : Nat
  /-- The home record as written. -/
  record : List Byte
  /-- The checker has disagreed and the third engine votes: the checker's record. -/
  vote : Option (List Byte)
  deriving DecidableEq, Repr

/-- What checking keeps of a physical plot. -/
structure PlotHealth where
  /-- Taken out of service (R427). Reset: false. -/
  fallow : Bool
  /-- It has not passed its most recent pack run (R404). Reset: false. -/
  unhealthy : Bool
  /-- Retired until cold reset (R429). Reset: false. -/
  retired : Bool
  /-- Times convicted (R429). Reset: 0. -/
  convictions : Nat
  /-- Times of its strikes, in nanoseconds (R412). Reset: none. -/
  strikes : List Nat
  /-- Next case of the pack it runs in CAL slots (R425). Reset: 0. -/
  nextCase : Nat
  /-- When it last completed the whole pack, in nanoseconds (R425). Reset: 0. -/
  packDone : Nat
  /-- Consecutive hourly runs passed while fallow (R429). Reset: 0. -/
  passes : Nat
  /-- Overdue or odd: to run the pack before any grant (R411, R425). Reset: false. -/
  owes : Bool
  /-- The newest step whose samples on it all settled in agreement since it came into service (R413). Reset: none. -/
  agreed : Option Word32
  /-- Steps after that in which it issued a replayed opcode, oldest first (R413). Reset: none. -/
  worked : List Word32
  /-- Steps in which a sample on it did not settle in agreement (R413). Reset: none. -/
  bad : List Word32
  /-- Borrowed for replay (R404). Reset: false. -/
  borrowed : Bool
  /-- Sampled again in this step because a stream failed its ICRC (R408). Reset: none. -/
  again : Option Word32
  deriving DecidableEq, Repr

/-- A plot's checking state at reset. -/
def PlotHealth.reset : PlotHealth := ⟨false, false, false, 0, [], 0, 0, 0, false, none, [], [], false, none⟩

/-- What checking keeps of an update engine: 0–3 sow engines, 4–7 Iaquas (R415, R431, R432). -/
structure EngineHealth where
  /-- The newest milestone whose samples all agreed (R415). Reset: none. -/
  agreed : Option Word32
  /-- Milestones applied after that, oldest first (R415). Reset: none. -/
  worked : List Word32
  /-- Milestones whose samples on it did not all agree (R415). Reset: none. -/
  bad : List Word32
  /-- Convicted: its domain is to be cycled (R415). Reset: false. -/
  convicted : Bool
  /-- When it last ran the whole of its cases, nanoseconds (R426). Reset: 0. -/
  packDone : Nat
  /-- When its domain was last cycled for a conviction, nanoseconds (R432). Reset: never. -/
  cycledAt : Option Nat
  /-- Failed for good (R432). Reset: false. -/
  failed : Bool
  deriving DecidableEq, Repr

/-- An engine at reset. -/
def EngineHealth.reset : EngineHealth := ⟨none, [], [], false, 0, none, false⟩

/-- A case of the active pack (Table 10.7). -/
structure PackCase where
  /-- CASEID. -/
  id : Nat
  /-- UNIT. -/
  unit : Nat
  /-- SLOT. -/
  slot : Bool
  /-- BUDGET. -/
  budget : Nat
  /-- SCRATCH. -/
  scratch : Nat
  /-- TILEMASK. -/
  tiles : Nat
  /-- The case image. -/
  image : List Byte
  /-- EXPFP. -/
  expfp : Word64
  deriving DecidableEq, Repr

/-- The active pack (R422, R424). -/
structure Pack where
  /-- PACKVER. -/
  ver : Word32
  /-- SECVER. -/
  secver : Nat
  /-- Its cases in order. -/
  cases : List PackCase
  /-- SHA-384 of its content, as measured (R545). -/
  digest : BitVec 384
  deriving DecidableEq, Repr

/-- Checking and repair. -/
structure ChkState where
  /-- Samples not yet settled (R410, 10). Reset: none. -/
  samples : List Sample
  /-- Sampled row updates not yet settled (R414, 10). Reset: none. -/
  upds : List UpdSample
  /-- Plots whose checking state differs from reset, by instance (10). Reset: none. -/
  health : KMap PlotHealth
  /-- Engines that differ from reset, by number (R415, 10). Reset: none. -/
  engines : KMap EngineHealth
  /-- Rollback requests for the next READY: step, and whether SUSPECT (R413, R415, R615, 10). Reset: none. -/
  rbReq : List (Word32 × Bool)
  /-- The active pack (R422, 10). Reset: none. -/
  pack : Option Pack
  /-- The newest step whose checking is complete (R33, R416, 10). Reset: 0 (DESIGN CHOICE, log 3). -/
  complete : Word32
  /-- Condition 3 of R416 is dropped (R417, 10). Reset: false. -/
  noCond3 : Bool
  /-- Times of convictions by quadrant, nanoseconds (Table 10.10, 10). Reset: none. -/
  quadConv : KMap (List Nat)
  /-- EV_READY_HELD_CHECK has been raised for this step (R34, 10). Reset: none. -/
  heldSaid : Option Word32
  deriving DecidableEq, Repr

/-- Checking at reset. -/
def ChkState.reset : ChkState := ⟨[], [], [], [], [], none, 0, false, [], none⟩

end Sys2Proof.Machine
end

