-- ==== Sys2Proof/Machine/SowState.lean ====
section
/-!
DEFINITION. The state of the gradient stages, the update engines and the undo journals (08_sowing_and_update).
-/

namespace Sys2Proof.Machine

/-- An entry of a gradient stage: one row that received a contribution in the step (R323). -/
structure StageEntry where
  /-- Table. -/
  table : Nat
  /-- Row. -/
  row : Nat
  /-- Anchor γ, once a finite non-zero contribution has come (R324). -/
  anchor : Option Int
  /-- One element per column; X counts units of 2^(γ − 96). -/
  elems : List Wide
  /-- INEXACT. -/
  inexact : Bool
  deriving DecidableEq, Repr

/-- A row gradient rounded at the close of a stage (R325, R329). -/
structure Grad where
  /-- The gradient step. -/
  step : Word32
  /-- Table. -/
  table : Nat
  /-- Row. -/
  row : Nat
  /-- W FP32 values. -/
  g : List Word32
  /-- The Iaqua whose journal region holds it; none for a hot row's gradient, which stays in the stage (R329). -/
  iaq : Option Nat
  /-- The milestone that has applied it and is not yet decided; none while it waits (R307, R361). -/
  applied : Option Word32
  deriving DecidableEq, Repr

/-- A record of an import into the current version, waiting for the milestone (R367). -/
structure ImportRow where
  /-- Table. -/
  table : Nat
  /-- Row. -/
  row : Nat
  /-- The entry's FROZEN. -/
  frozen : Bool
  /-- First column of the slice the entry covers, and how many. -/
  col : Nat
  /-- Columns covered. -/
  cols : Nat
  /-- CONTENT[1]: the moments come too. -/
  moments : Bool
  /-- Flags only: FROZEN alone is written (R349). -/
  flagsOnly : Bool
  /-- RV16, where the entry covers the slice's first column. -/
  rv16 : Option Nat
  /-- Weight bytes of the covered blocks: elements, then scales. -/
  w : List Byte × List Byte
  /-- First moment. -/
  m : List Byte × List Byte
  /-- Second moment. -/
  v : List Byte × List Byte
  /-- What completes when it is written: the descriptor's number. -/
  tag : Nat
  /-- The milestone that has written it and is not yet decided. -/
  applied : Option Word32
  deriving DecidableEq, Repr

/-- A journal slot in use: where it lies in its region and what the region's index keeps of it (R354, R355, R359). -/
structure JEnt where
  /-- Granule offset in the region. -/
  off : Nat
  /-- Granules. -/
  gran : Nat
  /-- STEP of the entry, or the milestone of a milestone record. -/
  step : Word32
  /-- A milestone record; otherwise an entry. -/
  mile : Bool
  /-- Table of an entry. -/
  table : Nat
  /-- Row of an entry. -/
  row : Nat
  /-- EFLAGS.PENDING. -/
  pending : Bool
  /-- Of a PENDING entry, the step at which its version took effect (R367). -/
  eff : Option Word32
  deriving DecidableEq, Repr

/-- A journal region: 0–3 of dies 0–3, 4–7 of Iaquas 0–3 (R352, R353). -/
structure Region where
  /-- Slots in use, oldest first (R354, R361, 08). Reset: none. -/
  ents : List JEnt
  /-- Granule offset at which the next slot is sought (R354, 08). Reset: 0. -/
  tail : Nat
  /-- A write whose granules are not all written: offset of its entry, DA of the home (open set, R356, 08).
  Reset: none. -/
  opened : Option (Nat × Nat)
  deriving DecidableEq, Repr

/-- A region at reset. -/
def Region.reset : Region := ⟨[], 0, none⟩

/-- The bank of parameter groups in use (R341). -/
structure Bank where
  /-- Which bank it was copied from. -/
  sel : Nat
  /-- Its 0x1_8000 bytes that are not zero. -/
  data : KMap Byte
  /-- Its BCRC. -/
  crc : Nat
  deriving DecidableEq, Repr

/-- Sowing and the update. -/
structure SowState where
  /-- Entries of the gradient stages, in the order they were opened (R323, 08). Reset: none. -/
  stage : List StageEntry
  /-- The gradient stages have closed for this step (R325, 08). Reset: none. -/
  closed : Option Word32
  /-- Rounded gradients held: of hot rows in the stages, of warm rows in the Iaqua regions (R329, 08). Reset: none. -/
  grads : List Grad
  /-- Imports into current versions waiting for a milestone (R367, 08). Reset: none. -/
  imports : List ImportRow
  /-- The milestone whose application has started and is not decided (R305, R341, 08). Reset: none. -/
  app : Option Word32
  /-- Rows whose home each engine has written or skipped in this application: (2 engine + previous
  version) × 2^52 + key (R330, 08). Reset: none. -/
  done : List Nat
  /-- Journal regions that differ from reset, by number (R352, 08). -/
  regions : KMap Region
  /-- The bank in use (R341, R342, 08). Reset: none. -/
  bank : Option Bank
  /-- SEL as read at the last milestone (R341, 08). Reset: not read. -/
  lastSel : Option Nat
  /-- EV_GROUP_BANK_INVALID stands since the last attempt that passed (R341, 08). Reset: false. -/
  bankSaid : Bool
  /-- The group area failed its check at the lock (R340, 08). Reset: false. -/
  noArea : Bool
  /-- Events raised once per table and step: code, table, step (R325, R336, 08). Reset: none. -/
  said : List (Nat × Nat × Word32)
  /-- Group maps copied into META pages: table to (DA of the copy, entries) (R339, 08). Reset: none. -/
  pgCopy : KMap (Nat × Nat)
  /-- Tables whose recorded map failed at a CAIRN_RESTORE: every row takes DEFGROUP (R393, 09). Reset: none. -/
  pgBad : List Nat
  /-- LIVE exports in progress: descriptor number, the step they read as of, ended under R362 (R361, R364, 08).
  Reset: none. -/
  live : List (Nat × Word32 × Bool)
  /-- The summed entries of replicated rows, as the ALL_GATHER of the job's modules delivered them (R326, R507, 08).
  Reset: not delivered. -/
  replIn : Option (List StageEntry)
  /-- Imports into current versions not completed: descriptor number, rows written, records rejected (R367, 08;
  Table 11.12, 11). Reset: none. -/
  impJobs : List (Nat × Nat × Nat)
  deriving DecidableEq, Repr

/-- Sowing at reset. -/
def SowState.reset : SowState := ⟨[], none, [], [], none, [], [], none, none, false, false, [], [], [], [], none, []⟩

end Sys2Proof.Machine
end

