-- ==== Sys2Proof/Machine/FabState.lean ====
section
/-!
DEFINITION. The state of the Azlek fabric: ports, frames, end-to-end flows, remote requests, loans, collectives
(12_azlek_fabric). Its registers are in the shared state, and the loans this module borrows are in the tiers.
-/

namespace Sys2Proof.Machine

/-- State of a port (FAB_PORT_STAT_p.STATE, Table 12.8). -/
inductive PortSt where
  | disabled | down | training | up4 | up3 | miscabled
  deriving DecidableEq, Repr

/-- A DATA or TOKEN frame (Table 12.2): what is forwarded whole from hop to hop. LSEQ and ACKSEQ belong to a link. -/
structure Frame where
  /-- TOKEN (FTYPE 0x02), otherwise DATA (0x01). -/
  token : Bool
  /-- Class: 0 TOKEN, 1 SC0, 2 CTRL, 3 SC1, 4 SC2. -/
  cls : Nat
  /-- DL. -/
  dl : Bool
  /-- DST. -/
  dst : Nat
  /-- SRC. -/
  src : Nat
  /-- The payload, 64 to 512 bytes. -/
  payload : List Byte
  deriving DecidableEq, Repr

/-- A frame that waits at a port: whose it is, so that the frames of one message stay together (R486). -/
structure TxFrame where
  /-- The port it came in by, or 16 for this module's own. -/
  owner : Nat
  /-- The frame. -/
  frame : Frame
  deriving DecidableEq, Repr

/-- What has left a port of the module, in order. LINK, CAL and IDENT frames are given by what they say: the spec lays out
no payload of them (log 32). -/
inductive FabOut where
  /-- A DATA or TOKEN frame. -/
  | frame (port lseq ackSeq : Nat) (f : Frame)
  /-- A LINK frame: the newest LSEQ received in order (R483). -/
  | ack (port lseq : Nat)
  /-- A LINK frame: negative acknowledgement; the newest LSEQ received in order (R483). -/
  | nak (port lseq : Nat)
  /-- A LINK frame: one credit of a channel (R482). -/
  | credit (port cls : Nat) (dl : Bool)
  /-- An IDENT frame: module id and port (R490). -/
  | ident (port modid : Nat)
  /-- A CAL frame: an adjustment of the far transmitter on a lane (R513). -/
  | adjust (port lane : Nat)
  /-- A CAL frame: the lanes used from the next frame boundary on (R515). -/
  | lanes (port mask : Nat)
  deriving DecidableEq, Repr

/-- A fabric port (R480 to R494, R513 to R515). -/
structure Port where
  /-- STATE. -/
  st : PortSt
  /-- LANES: bit l, lane l in use. -/
  lanes : Nat
  /-- PEER. -/
  peer : Nat
  /-- PPORT. -/
  pport : Nat
  /-- LSEQ of the next frame sent. -/
  txSeq : Nat
  /-- Frames sent and not acknowledged, with their LSEQ, oldest first (R483). -/
  kept : List (Nat × Frame)
  /-- LSEQ expected next (R483). -/
  rxSeq : Nat
  /-- A frame has been refused and the sender's replay has not come (R483). -/
  discarding : Bool
  /-- Replays of the oldest kept frame without progress (R484). -/
  replays : Nat
  /-- Credits the receiver has given, by 2 × class + DL (R482). -/
  credits : KMap Nat
  /-- Frames waiting. -/
  txq : List TxFrame
  /-- The message in progress on a channel, by 2 × class + DL: owner and payload bytes left (R486). -/
  openMsg : KMap (Nat × Nat)
  /-- A message coming in on a channel, by 2 × class + DL: its bytes so far. -/
  parts : KMap (List Byte)
  /-- Bytes of SC1 and of SC2 sent while both waited (R485). -/
  drr : Nat × Nat
  /-- Margins measured, by lane (R513). -/
  margins : KMap Nat
  /-- A lane count agreed with the far end and not yet taken: the mask (R515). -/
  nextLanes : Option Nat
  /-- EV_FAB_PORT_DOWN has been raised for this outage (R490). -/
  downSaid : Bool
  deriving DecidableEq, Repr

/-- A port after reset. -/
def Port.reset : Port := ⟨.disabled, 0, 0, 0, 0, [], 0, false, 0, [], [], [], [], (0, 0), [], none, false⟩

/-- A message of a flow that its destination has not acknowledged (R496). -/
structure OutMsg where
  /-- ESEQ. -/
  eseq : Word32
  /-- Header and data. -/
  bytes : List Byte
  /-- When it was last sent, nanoseconds. -/
  sent : Nat
  /-- When it was first sent. -/
  first : Nat
  deriving DecidableEq, Repr

/-- A flow to a module, of one class (R496). -/
structure FlowOut where
  /-- The next ESEQ. -/
  next : Word32
  /-- Not acknowledged, oldest first. -/
  unacked : List OutMsg
  deriving DecidableEq, Repr

/-- A flow from a module, of one class (R496). -/
structure FlowIn where
  /-- The ESEQ expected. -/
  next : Word32
  /-- Messages that came early, by ESEQ. -/
  early : KMap (List Byte)
  deriving DecidableEq, Repr

/-- A message delivered in order and not yet acted on (Tables 12.3, 12.4). -/
structure InMsg where
  /-- SRC. -/
  src : Nat
  /-- Class. -/
  cls : Nat
  /-- OP. -/
  op : Nat
  /-- ADDR. -/
  addr : Nat
  /-- ID. -/
  id : Nat
  /-- RTAG. -/
  rtag : Nat
  /-- AUX. -/
  aux : Nat
  /-- The data. -/
  data : List Byte
  deriving DecidableEq, Repr

/-- Who made a remote access. -/
inductive Who where
  /-- An execution of a furrow on a plot. -/
  | unit (inst fid index : Nat)
  /-- A thread of a control core. -/
  | thread (inst t : Nat)
  /-- The load of a furrow-store half (R70). -/
  | fload (inst : Nat)
  /-- The host, through BAR2. -/
  | bar2
  /-- A descriptor. -/
  | desc (id : Nat)
  /-- The tier engine. -/
  | tier
  /-- The Azlek engine, for a slot. -/
  | engine (slot : Nat)
  /-- The fabric, to fill a granule that a store writes in part (log 33). -/
  | fill
  deriving DecidableEq, Repr

/-- A write into a neighbour window not yet carried (R41, R497). -/
structure WinWrite where
  /-- Who wrote. -/
  who : Who
  /-- DA. -/
  da : Nat
  /-- The bytes. -/
  data : List Byte
  deriving DecidableEq, Repr

/-- A read of a neighbour window not yet carried. -/
structure WinRead where
  /-- Who reads. -/
  who : Who
  /-- DA, 64-byte aligned. -/
  da : Nat
  /-- Bytes: 64 to 4,096, inside 4 KiB (R497). -/
  n : Nat
  deriving DecidableEq, Repr

/-- A remote READ or WRITE in flight (R497). -/
structure InFlightReq where
  /-- RTAG. -/
  rtag : Nat
  /-- The lender. -/
  lender : Nat
  /-- Who made it. -/
  who : Who
  /-- A WRITE. -/
  write : Bool
  /-- DA. -/
  da : Nat
  /-- Bytes. -/
  n : Nat
  deriving DecidableEq, Repr

/-- What came back for a READ: status of Table 12.4, 0x80 for a lender that is unreachable. -/
structure Got where
  /-- Who read. -/
  who : Who
  /-- DA. -/
  da : Nat
  /-- Bytes. -/
  n : Nat
  /-- Status. -/
  status : Nat
  /-- The data. -/
  data : List Byte
  deriving DecidableEq, Repr

/-- A loan of this module's memory (R498 to R501). -/
structure LoanOut where
  /-- Loan id. -/
  id : Nat
  /-- Module id of the borrower. -/
  borrower : Nat
  /-- The borrower's window. -/
  window : Nat
  /-- Page-map indices of its pages, in order of offset. -/
  pages : List Nat
  /-- When a RENEW or an access last came, nanoseconds. -/
  seen : Nat
  /-- A REVOKE has been sent: its deadline, nanoseconds. -/
  deadline : Option Nat
  deriving DecidableEq, Repr

/-- A LEND_REQ sent and not answered (R498). -/
structure LoanAsk where
  /-- The lender asked. -/
  lender : Nat
  /-- The window to bind. -/
  window : Nat
  /-- Pages. -/
  pages : Nat
  /-- TAG of the mailbox request. -/
  tag : Nat
  deriving DecidableEq, Repr

/-- A sum under way in ACCBUF: a group of 32, a WIDE208 or WIDE600 unit (R506), or an entry of a key. -/
structure AccUnit where
  /-- Anchor, once a finite non-zero term has come. -/
  anchor : Option Int
  /-- INEXCNT of a WIDE208 unit, COUNT of a WIDE600 unit. -/
  cnt : Nat
  /-- INEXACT. -/
  inexact : Bool
  /-- KIND of a WIDE600 unit. -/
  kind : Nat
  /-- The elements. -/
  elems : List Wide
  deriving DecidableEq, Repr

/-- A chunk of a collective on its way into an epoch (Tables 12.4, 12.6). -/
structure Chunk where
  /-- Collective slot. -/
  slot : Nat
  /-- Source member's position; none for a local one. -/
  src : Option Nat
  /-- COP: 1 DATA, 2 LAST, 3 RELEASE. -/
  cop : Nat
  /-- EPOCH. -/
  epoch : Word32
  /-- DPOS of a local chunk. -/
  dpos : Nat
  /-- SLOT of a local chunk. -/
  sl : Nat
  /-- OFFSET; for ALLTOALL between modules, the first slot. -/
  off : Nat
  /-- The data. -/
  data : List Byte
  deriving DecidableEq, Repr

/-- A chunk of a newer epoch that waits (R504). -/
structure HeldChunk where
  /-- The chunk. -/
  chunk : Chunk
  /-- RTAG of its message. -/
  rtag : Nat
  /-- It is of a share being gathered. -/
  share : Bool
  deriving DecidableEq, Repr

/-- A collective slot's epoch on this module (R503 to R510). -/
structure Coll where
  /-- EPOCH. -/
  epoch : Word32
  /-- It runs. -/
  running : Bool
  /-- Bytes 0–91 of its descriptor, read when the epoch started. -/
  desc : List Byte
  /-- LAST chunks of local streams. -/
  lasts : Nat
  /-- COLL_ENDs have been sent. -/
  ended : Bool
  /-- Units or slots sent, by member position. -/
  sent : KMap Nat
  /-- Units or slots received, by member position. -/
  got : KMap Nat
  /-- Units or slots that COLL_ENDs name, by member position. -/
  ends : KMap Nat
  /-- The shares of ALL_REDUCE are being gathered. -/
  phase2 : Bool
  /-- Units of other members' shares received, by position. -/
  got2 : KMap Nat
  /-- Units that the COLL_ENDs of shares name, by position. -/
  ends2 : KMap Nat
  /-- Sums under way, by unit or group. -/
  acc : KMap AccUnit
  /-- SOW128 entries owned here, in order of arrival: key, sum. -/
  keys : List (Nat × AccUnit)
  /-- SOW128 entries received from owners, by position: their bytes in order. -/
  shares : KMap (List Byte)
  /-- ALLTOALL: slots written, by position × NSLOT + slot. -/
  written : List Nat
  /-- Data of a unit or slot longer than a message, so far, by position (log 34). -/
  frag : KMap (List Byte)
  /-- EV_FAB_RED_INEXACT has been raised (R509). -/
  said : Bool
  /-- RING_PASS: local block by OFFSET. -/
  block : List (Nat × List Byte)
  /-- RING_PASS: the next rotation to send. -/
  nextRot : Nat
  /-- RING_PASS: buffers the next member has granted. -/
  grants : List Nat
  /-- RING_PASS: bytes received, by rotation. -/
  rotGot : KMap Nat
  /-- RING_PASS: bytes that COLL_ENDs name, by rotation. -/
  rotEnd : KMap Nat
  /-- RING_PASS: rotations that have arrived. -/
  arrived : List Nat
  /-- RING_PASS: RELEASE chunks, by rotation. -/
  released : KMap Nat
  /-- RING_PASS: rotations forwarded and released. -/
  freed : List Nat
  deriving DecidableEq, Repr

/-- A slot that has run no epoch. -/
def Coll.reset : Coll where
  epoch := 0
  running := false
  desc := []
  lasts := 0
  ended := false
  sent := []
  got := []
  ends := []
  phase2 := false
  got2 := []
  ends2 := []
  acc := []
  keys := []
  shares := []
  written := []
  frag := []
  said := false
  block := []
  nextRot := 1
  grants := []
  rotGot := []
  rotEnd := []
  arrived := []
  released := []
  freed := []

/-- The Azlek fabric. -/
structure FabState where
  /-- Module-id straps of J7 (R487, R588; 12, 16). Reset: 0 (DESIGN CHOICE, log 3). -/
  straps : Nat
  /-- FAB_ID.MODID: the straps as last sampled (R487, R588; 12, 16). Reset: the straps. -/
  modid : Nat
  /-- The topology check failed at the lock: every port stays DISABLED (R489, 12). Reset: false. -/
  topoBad : Bool
  /-- Ports that differ from reset, by number (R480 to R515, 12). Reset: DISABLED. -/
  ports : KMap Port
  /-- When the ports began training at the lock, nanoseconds (R490, 12). Reset: none. -/
  trainAt : Option Nat
  /-- Transit frames not yet placed on a port, oldest first: port of arrival, frame (R495, 12). Reset: none. -/
  transit : List TxFrame
  /-- What has left the ports, oldest first (R482, R483, 12). Reset: nothing. -/
  out : List FabOut
  /-- Flows pinned to a port, by 2^20 × destination and class and source (R493, 12). Reset: none. -/
  pins : KMap Nat
  /-- Pins to be chosen anew once their frames are acknowledged (R493, 12). Reset: none. -/
  repin : List Nat
  /-- Flows to other modules, by 8 × destination + class (R496, 12). Reset: ESEQ 0 next. -/
  flowsOut : KMap FlowOut
  /-- Flows from other modules, by 8 × source + class (R496, 12). Reset: ESEQ 0 expected. -/
  flowsIn : KMap FlowIn
  /-- Whole messages that have come in and await their end-to-end check: source, class, bytes (R496, 12). Reset: none. -/
  arrived : List (Nat × Nat × List Byte)
  /-- Messages delivered and not yet acted on, oldest first (R496, 12). Reset: none. -/
  inbox : List InMsg
  /-- Writes into neighbour windows not yet carried, oldest first (R497, 12). Reset: none. -/
  winOut : List WinWrite
  /-- Reads of neighbour windows not yet carried, oldest first (R497, 12). Reset: none. -/
  wants : List WinRead
  /-- Remote requests in flight, at most 8,192 (R497, 12). Reset: none. -/
  reqs : List InFlightReq
  /-- RTAG of the next request (R497, 12). Reset: 0. -/
  nextTag : Nat
  /-- What has come back for READs and has not been used (R499, 12). Reset: none. -/
  got : List Got
  /-- Loans of this module's memory (R498, 12). Reset: none. -/
  loans : List LoanOut
  /-- The next loan id (R498, 12). Reset: 1 (DESIGN CHOICE, log 3). -/
  nextLoan : Nat
  /-- LEND_REQs not answered (R498, 12). Reset: none. -/
  asks : List LoanAsk
  /-- When each loan borrowed was last renewed, by window, nanoseconds (R500, 12). Reset: none. -/
  renewed : KMap Nat
  /-- Collective slots that have run, by slot (R503, 12). Reset: none. -/
  colls : KMap Coll
  /-- Chunks of a newer epoch that wait (R504, 12). Reset: none. -/
  later : List HeldChunk
  deriving DecidableEq, Repr

/-- The fabric after reset. -/
def FabState.reset : FabState where
  straps := 0
  modid := 0
  topoBad := false
  ports := []
  trainAt := none
  transit := []
  out := []
  pins := []
  repin := []
  flowsOut := []
  flowsIn := []
  arrived := []
  inbox := []
  winOut := []
  wants := []
  reqs := []
  nextTag := 0
  got := []
  loans := []
  nextLoan := 1
  asks := []
  renewed := []
  colls := []
  later := []

end Sys2Proof.Machine
end

