-- ==== Sys2Proof/Machine/FwState.lean ====
section
/-!
DEFINITION. The state of the firmware processors, the mailbox, the log ring (13_firmware) and the security core
(14_security). Fuses are in the state of the module itself.
-/

namespace Sys2Proof.Machine

/-- A firmware processor (Table 13.1). -/
structure Proc where
  /-- It runs. -/
  run : Bool
  /-- It restarts, and runs again within 50 ms (R524). -/
  restarting : Bool
  /-- It has failed (R529). -/
  failed : Bool
  /-- BUNDLEVER of the image it runs. -/
  ver : Nat
  /-- SECVER of that bundle. -/
  secver : Nat
  /-- Mailbox version of that bundle (MBXMIN). -/
  mbx : Nat
  /-- Times of its restarts and handovers, nanoseconds, newest last (R529). -/
  times : List Nat
  /-- Restarts since reset (FW_STATUS). -/
  restarts : Nat
  deriving DecidableEq, Repr

/-- A processor after reset. -/
def Proc.reset : Proc := ⟨false, false, false, 0, 0, 0, [], 0⟩

/-- A bundle's header, as far as it matters once verified (Table 13.2). -/
structure Bundle where
  /-- BUNDLEVER. -/
  ver : Nat
  /-- SECVER. -/
  secver : Nat
  /-- MBXMIN. -/
  mbx : Nat
  /-- The 128 bytes of the header. -/
  header : List Byte
  /-- The four images. -/
  images : List (List Byte)
  deriving DecidableEq, Repr

/-- A mailbox request taken and not answered with FINAL (R535). -/
structure MbxReq where
  /-- OPCODE. -/
  op : Nat
  /-- TAG. -/
  tag : Nat
  /-- The payload. -/
  payload : List Byte
  /-- IN_PROGRESS has been answered. -/
  begun : Bool
  deriving DecidableEq, Repr

/-- A response made and not yet written (R534). -/
structure MbxRsp where
  /-- OPCODE. -/
  op : Nat
  /-- STATUS. -/
  status : Nat
  /-- FINAL. -/
  final : Bool
  /-- TAG. -/
  tag : Nat
  /-- The payload. -/
  payload : List Byte
  deriving DecidableEq, Repr

/-- The log ring that LOG_SET placed (R538). -/
structure LogRing where
  /-- Host address. -/
  base : Nat
  /-- LOG2SIZE. -/
  log2 : Nat
  /-- The lowest level posted. -/
  level : Nat
  /-- MSI-X vector. -/
  vector : Nat
  /-- Entries written since LOG_SET: the ring has no power of two of them, so the count runs on past 2^32. -/
  posted : Nat
  /-- The consumption word as last known (R538, R611). -/
  head : Word32
  deriving DecidableEq, Repr

/-- The firmware processors, the mailbox and the log. -/
structure FwState where
  /-- Processors that differ from reset, by id (Table 13.1, 13). Reset: not running. -/
  procs : KMap Proc
  /-- Loaded firmware runs: MBX_STAT.FWRUN (Table 13.3, 13). Reset: false. -/
  run : Bool
  /-- The standby instance is active, for roles 0 security, 1 power, 2 scheduler: bit r (R516, 13). Reset: 0, domain A. -/
  active : Nat
  /-- Roles the module is left without (R529, 13). Reset: none. -/
  lost : List Nat
  /-- When a role last had a processor fail, by role, nanoseconds (R529, 13). Reset: none. -/
  roleFail : KMap Nat
  /-- The staging buffer of 32 MiB, bytes that are not zero (R520, 13). Reset: zeros (DESIGN CHOICE, log 3). -/
  staging : KMap Byte
  /-- FW_LOAD has answered OK: BAR2 follows R437 (R520, 13). Reset: false. -/
  bar2Open : Bool
  /-- The image store of the hub (R522, 13). Reset: none. -/
  store : Option Bundle
  /-- The bundle of an FW_UPDATE that runs (R531, 13). Reset: none. -/
  update : Option Bundle
  /-- A KICK_MBX has come since reset: the mailbox serves (R534, 13). Reset: false. -/
  kicked : Bool
  /-- REQTAIL as accumulated by R611 (R534, R611, 13). Reset: 0. -/
  reqTail : Word32
  /-- Requests taken (R534, 13). Reset: 0. -/
  reqTaken : Word32
  /-- RSPHEAD as accumulated by R611 (R534, R611, 13). Reset: 0. -/
  rspHead : Word32
  /-- Responses written (R534, 13). Reset: 0. -/
  rspPosted : Word32
  /-- Requests in hand, in ring order (R535, 13). Reset: none. -/
  reqs : List MbxReq
  /-- Responses not yet written, oldest first (R534, 13). Reset: none. -/
  rsps : List MbxRsp
  /-- The log ring (R538, 13). Reset: none set. -/
  log : Option LogRing
  /-- SEQ of the next log entry (Table 13.7, 13). Reset: 0. -/
  logSeq : Word32
  /-- Milestone tokens held while the scheduler core restarts or hands over, oldest first (R526, R527, 13). Reset: none. -/
  held : List (BitVec 512)
  deriving DecidableEq, Repr

/-- The firmware after reset. -/
def FwState.reset : FwState where
  procs := []
  run := false
  active := 0
  lost := []
  roleFail := []
  staging := []
  bar2Open := false
  store := none
  update := none
  kicked := false
  reqTail := 0
  reqTaken := 0
  rspHead := 0
  rspPosted := 0
  reqs := []
  rsps := []
  log := none
  logSeq := 0
  held := []

/-- A secured SPDM session (R551). -/
structure Session where
  /-- Session id. -/
  id : Nat
  /-- Over MCTP, otherwise DOE. -/
  mctp : Bool
  /-- The handshake has finished. -/
  open_ : Bool
  deriving DecidableEq, Repr

/-- The security core. -/
structure SecState where
  /-- SEC_STATE.DBG: 0 CLOSED, 1 ERASING, 2 OPENED, 3 FAILED (Table 14.7, 14). Reset: 0. -/
  dbg : Nat
  /-- SEC_LOCK: [0] DBGDIS, [1] CERTDIS, [2] FUSEDIS (Table 14.7, 14). Reset: 0. -/
  locks : BitVec 3
  /-- SCOPE of the debug opening (Table 14.6, 14). Reset: 0. -/
  scope : Nat
  /-- SHA-384 of the unlock token (Table 14.3, 14). Reset: 0. -/
  token : BitVec 384
  /-- The latest nonce issued and not consumed (R554, 14). Reset: none. -/
  nonce : Option (List Byte)
  /-- Random draws made. Reset: 0. -/
  draws : Nat
  /-- The certificate chain (R550, 14). Reset: none. -/
  cert : Option (List Byte)
  /-- Measurements that differ from 48 zero bytes, by index; 1 is computed from the fuses (Table 14.3, 14). Reset: none. -/
  meas : KMap (BitVec 384)
  /-- The read path of SEED is locked (R555, 14). Reset: false. -/
  seedLocked : Bool
  /-- Keys have been derived and loaded (R547, 14). Reset: false; they are derived in stage 4. -/
  keys : Bool
  /-- Warm keys by Iaqua: derived from SEED, otherwise random or none (R546, R557, 14). Reset: none. -/
  warmKeys : List Nat
  /-- Cartridge keys, by bay (R546, R557, 14). Reset: none. -/
  cartKeys : List Nat
  /-- Secured sessions, at most 4 (R551, 14). Reset: none. -/
  sessions : List Session
  /-- IDE key sets programmed (Table 14.5, 14). Reset: none. -/
  ide : List Nat
  /-- The signing input of the previous response's RSA signature, by transport (0 DOE, 1 MCTP), where it carried one
  (R552, 14). Reset: none. -/
  signed : KMap (List Byte)
  /-- Answers to SPDM requests, oldest first: transport, bytes (R551, 14). Reset: none. -/
  answers : List (Nat × List Byte)
  /-- Debug accesses that reached a unit, oldest first: scope bit, word (R587, 16). Reset: none. -/
  dbgOut : List (Nat × Word64)
  deriving DecidableEq, Repr

/-- The security core after a cold reset. -/
def SecState.reset : SecState where
  dbg := 0
  locks := 0
  scope := 0
  token := 0
  nonce := none
  draws := 0
  cert := none
  meas := []
  seedLocked := false
  keys := false
  warmKeys := []
  cartKeys := []
  sessions := []
  ide := []
  signed := []
  answers := []
  dbgOut := []

end Sys2Proof.Machine
end

