-- ==== Sys2Proof/Machine/HifState.lean ====
section
/-!
DEFINITION. The state of the host interface: submission and completion rings, descriptors in progress, the link
(11_host_rings). Its registers are in the shared state.
-/

namespace Sys2Proof.Machine

/-- What one read of an SQ_TAIL word observed: the doorbells of the descriptors below `upto` that no earlier read covers,
with the targets that express lookups take there (R448, R463). -/
structure Seen where
  /-- SQ_TAIL as read. -/
  upto : Word32
  /-- When the read returned, nanoseconds. -/
  time : Word64
  /-- The latest APPLIED step then (R28). -/
  applied : Word32
  /-- Cleared-through then (R28). -/
  cleared : Word32
  deriving DecidableEq, Repr

/-- A submission ring (R445 to R452). -/
structure Sq where
  /-- Disabled at the lock by R446. -/
  disabled : Bool
  /-- Descriptors fetched: SQHEAD, and the number of the next one (R447). -/
  next : Word32
  /-- SQ_TAIL as last read (R448). -/
  tail : Word32
  /-- Stopped (R450). -/
  stopped : Bool
  /-- The next entry's SEQ did not match; it is to be read again (R449). -/
  recheck : Bool
  /-- Doorbells observed and not yet used, oldest first. -/
  seen : List Seen
  /-- Entries read ahead of SQ_TAIL, by descriptor number (R449). -/
  ahead : KMap (BitVec 512)
  deriving DecidableEq, Repr

/-- A ring at the lock. -/
def Sq.reset : Sq := ⟨false, 0, 0, false, false, [], []⟩

/-- A descriptor fetched and not completed (R451). -/
structure Desc where
  /-- Its number since reset, over all rings. -/
  id : Nat
  /-- Submission ring. -/
  ring : Nat
  /-- Its number in the ring. -/
  num : Word32
  /-- Its 64 bytes. -/
  bytes : BitVec 512
  /-- Completion ring: its own, or the ring's DEFCQ (R453). -/
  cq : Nat
  /-- Its work has begun. -/
  begun : Bool
  /-- It was fetched before a function-level reset (R479). -/
  lost : Bool
  /-- The observation of its doorbell. -/
  seen : Seen
  deriving DecidableEq, Repr

/-- A completion held for a full ring (R472). -/
structure HeldCpl where
  /-- Its descriptor. -/
  desc : Desc
  /-- STATUS and result words. -/
  ended : Ended
  /-- A device read of host memory it needed took longer than 2 µs (R467). -/
  slow : Bool
  deriving DecidableEq, Repr

/-- A completion ring (R445, R472, R473). -/
structure Cq where
  /-- Disabled at the lock by R446. -/
  disabled : Bool
  /-- Completions written. -/
  posted : Word32
  /-- CQ_HEAD as last known (R472, R611). -/
  head : Word32
  /-- Completions not yet signalled (R473). -/
  unsig : Nat
  /-- When the first of them was written, nanoseconds. -/
  first : Word64
  /-- It is full, and EV_CQ_FULL has been raised for it. -/
  full : Bool
  /-- Completions held, oldest first. -/
  held : List HeldCpl
  deriving DecidableEq, Repr

/-- A completion ring at the lock. -/
def Cq.reset : Cq := ⟨false, 0, 0, 0, 0, false, []⟩

/-- The host interface. -/
structure HifState where
  /-- HIF_STATUS.READY (R442, Table 11.2, 11). Reset: 0. -/
  ready : Bool
  /-- HIF_STATUS.RATE (Table 11.2, 11). Reset: 0. -/
  rate : Nat
  /-- HIF_STATUS.WIDTH (Table 11.2, 11). Reset: 0. -/
  width : Nat
  /-- HIF_STATUS.SETUPERR (Table 11.2, 11). Reset: 0. -/
  setupErr : Nat
  /-- Submission rings that differ from what they are at the lock, by number (R445, 11). Reset: none. -/
  sqs : KMap Sq
  /-- Completion rings likewise (R445, 11). Reset: none. -/
  cqs : KMap Cq
  /-- Descriptors in progress, in the order fetched (R452, R475, R477, 11). Reset: none. -/
  descs : List Desc
  /-- Descriptors fetched since reset. Reset: 0. -/
  nextId : Nat
  /-- The ring of the job's STEP_RUNs (R455, 11). Reset: none. -/
  stepRing : Option Nat
  /-- The step the next STEP_RUN must name, once one has been taken (R455, 11). Reset: none. -/
  stepNext : Option Word32
  /-- A function-level reset has come since the last lock: completions lost since (R479, 11). Reset: none. -/
  flrLost : Option Nat
  /-- Indices of the express lookups observed of late: time, indices (R466, 11). Reset: none. -/
  lookups : List (Word64 × Nat)
  /-- The tick of which EV_SC1_SHARE_SHORT has been raised, by spine (R471, 11). Reset: none. -/
  shareSaid : KMap Nat
  /-- HIF_BAR2_BASE failed its check at the lock: the window lies at DA 0 (R444, 11). Reset: false. -/
  badBar2 : Bool
  deriving DecidableEq, Repr

/-- The host interface at reset. -/
def HifState.reset : HifState := ⟨false, 0, 0, 0, [], [], [], 0, none, none, none, [], [], false⟩

end Sys2Proof.Machine
end

