-- ==== Sys2Proof/Machine/PwrState.lean ====
section
/-!
DEFINITION. The state of clocks, power domains, protective actions, resets and start-up (15_clocks_power_reset), and of the
module's sideband signals and management bus (16_module_hardware).
-/

namespace Sys2Proof.Machine

/-- A domain cycle asked for (R564). -/
structure CycleReq where
  /-- Domain id (Table 15.2). -/
  dom : Nat
  /-- TAG of the mailbox request that asked, if one did. -/
  tag : Option Nat
  deriving DecidableEq, Repr

/-- Clocks, power and reset. -/
structure PwrState where
  /-- 54 V is at J6 (R579, R586, 15). Reset: true: a cold reset begins with it. -/
  powered : Bool
  /-- EN# is mated and the input capacitance charged (R586, 16). Reset: true. -/
  en : Bool
  /-- Domains powered: PWR_DOM_STAT.ON (Table 15.8, 15). Reset: 0. -/
  on : BitVec 30
  /-- Start-up stages completed, 1 to 11 (Table 15.7, 15). Reset: none. -/
  stages : List Nat
  /-- A start-up failure keeps the module from READY (R581, 15). Reset: false. -/
  startBad : Bool
  /-- PERST# is asserted by the host (R574, 15). Reset: true (DESIGN CHOICE, log 3). -/
  perst : Bool
  /-- The module holds the reset of its own (R574, R577, 15). Reset: false. -/
  holding : Bool
  /-- PWR_RST_CAUSE.KIND: 0 cold, 1 link (Table 15.8, 15). Reset: 0. -/
  kind : Nat
  /-- PWR_RST_CAUSE.HOTKEPT (Table 15.8, 15). Reset: false. -/
  hotKept : Bool
  /-- The setup values that KEEP_HOT needs locked again, from before the reset (R576, 15). Reset: none. -/
  keepRegs : List (Nat × Nat)
  /-- PWR_RST_CAUSE.AFTERTRIP (Table 15.8, 15). Reset: false. -/
  afterTrip : Bool
  /-- PWR_RST_CAUSE.AFTERPFAIL (Table 15.8, 15). Reset: false. -/
  afterPfail : Bool
  /-- PWR_STAT.TRIPPED (Table 15.8, 15). Reset: false. -/
  trip : Bool
  /-- PWR_STAT.PFAIL (Table 15.8, 15). Reset: false. -/
  pfail : Bool
  /-- PWR_STAT.CLKLOST (R562, Table 15.8, 15). Reset: false. -/
  clkLost : Bool
  /-- PWR_STAT.PIN: mean input power over the last tick, W (Table 15.8, 15). Reset: 0. -/
  pin : Nat
  /-- PWR_STAT.VIN: input voltage in 0.1 V (Table 15.8, 15). Reset: 0. -/
  vin : Nat
  /-- Junctions in °C: field dies 0–3, hub 4, Iaquas 5–8 (Table 15.4, 15). Reset: 0. -/
  temps : KMap Nat
  /-- HBM stack temperatures in °C, by stack (Table 15.9, 15). Reset: 0. -/
  stackTemps : KMap Nat
  /-- CAPFRAC: f of R569 (Table 15.8, 15). Reset: 0. -/
  f : Nat
  /-- Run-time power limit set by CAP_SET or effecter 200 (R569, R593, 15). Reset: none. -/
  limit : Option Nat
  /-- Throttle fractions t_d of R570, by die (15). Reset: 0. -/
  t : KMap Nat
  /-- PWR_STAT.BROWNOUT (R571, 15). Reset: false. -/
  brown : Bool
  /-- Dies at THROTTLE + 5 °C or above, whose training plots run at ÷16 (Table 15.4, 15). Reset: none. -/
  hotDies : List Nat
  /-- HBM stacks at 95 °C or above (Table 15.4, 15). Reset: none. -/
  hotStacks : List Nat
  /-- Domain cycles that wait, in order (R564, 15). Reset: none. -/
  waiting : List CycleReq
  /-- The domain cycle that runs (R564, 15). Reset: none. -/
  cycle : Option CycleReq
  /-- The latest cycle of PD_SPd, PD_IQq or PD_HIF: when it ended, nanoseconds (R567, 15). Reset: none. -/
  lastReset : Option Nat
  /-- Management ticks since reset (R561, R607, 15). Reset: 0. -/
  ticks : Nat
  /-- Ticks whose capping fraction has been set (R569, 15). Reset: 0. -/
  capTicks : Nat
  deriving DecidableEq, Repr

/-- Power after a cold reset. -/
def PwrState.reset : PwrState where
  powered := true
  en := true
  on := 0
  stages := []
  startBad := false
  perst := true
  holding := false
  kind := 0
  hotKept := false
  keepRegs := []
  afterTrip := false
  afterPfail := false
  trip := false
  pfail := false
  clkLost := false
  pin := 0
  vin := 0
  temps := []
  stackTemps := []
  f := 0
  limit := none
  t := []
  brown := false
  hotDies := []
  hotStacks := []
  waiting := []
  cycle := none
  lastReset := none
  ticks := 0
  capTicks := 0

/-- A platform event of Table 16.11: sensor and its new state or band. -/
structure PlatEvent where
  /-- Sensor id. -/
  sensor : Nat
  /-- State number, or band of a numeric sensor: 0 normal, 1 warning, 2 critical. -/
  state : Nat
  /-- The reading. -/
  value : Nat
  deriving DecidableEq, Repr

/-- Sideband signals and the management bus. -/
structure HwState where
  /-- Presence after debounce, by unit u: slots 0–15, bays 16–19; with the part's size in GiB (R598, Table 16.8, 16).
  Reset: none. -/
  present : KMap Nat
  /-- Bays whose latch is open (R597, Table 17.4, 16). Reset: none. -/
  latch : List Nat
  /-- Parts found and waiting to be returned, in order of detection: unit, size, genuine (R598, 16). Reset: none. -/
  found : List (Nat × Nat × Bool)
  /-- LOCATE indicators: when each ends, by unit, nanoseconds (R593, 16). Reset: none. -/
  locate : KMap Nat
  /-- MCTP endpoint id (R591, 16). Reset: 0. -/
  eid : Nat
  /-- PLDM terminus id (R591, 16). Reset: 0 (DESIGN CHOICE, log 3). -/
  tid : Nat
  /-- The event receiver, as an endpoint id (R594, 16). Reset: none. -/
  receiver : Option Nat
  /-- Platform events sent and not acknowledged, or queued for polling (R594, 16). Reset: none. -/
  events : List PlatEvent
  /-- The last state or band reported of each sensor (R594, 16). Reset: 0. -/
  bands : KMap Nat
  /-- Ticks on end for which the outlet has exceeded the inlet by more than 20 K (R584, 16). Reset: 0. -/
  coolHot : Nat
  /-- EV_COOLANT_WARN stands (R584, 16). Reset: false. -/
  coolWarn : Bool
  /-- Coolant inlet and outlet in 0.1 °C (R584, Table 16.11, 16). Reset: 0. -/
  coolant : Nat × Nat
  /-- Answers on the management bus, oldest first: message type, bytes (R591, R592, 16). Reset: none. -/
  answers : List (Nat × List Byte)
  deriving DecidableEq, Repr

/-- The sideband after reset. -/
def HwState.reset : HwState where
  present := []
  latch := []
  found := []
  locate := []
  eid := 0
  tid := 0
  receiver := none
  events := []
  bands := []
  coolHot := 0
  coolWarn := false
  coolant := (0, 0)
  answers := []

end Sys2Proof.Machine
end

