-- ==== Sys2Proof/Machine/StepState.lean ====
section
/-!
DEFINITION. The state of steps, milestone tokens and cairns (09_training_step_and_milestones).
-/

namespace Sys2Proof.Machine

/-- States of Table 1.6. -/
inductive StepSt where
  | staged | applied | cleared | aborted
  deriving DecidableEq, Repr

/-- A step of the job on this module (R32, R384). -/
structure StepInfo where
  /-- Step. -/
  step : Word32
  /-- ATTEMPT. -/
  attempt : Nat
  /-- State. -/
  st : StepSt
  /-- First cause of Table 9.7 met in this attempt. -/
  cause : Option Nat
  /-- CAUSE of its last ABORT or ROLLBACK (Table 9.5, Table 11.12). -/
  last : Nat
  deriving DecidableEq, Repr

/-- A milestone token (Table 9.6). -/
structure Token where
  /-- TYPE. -/
  type : Nat
  /-- ATTEMPT. -/
  attempt : Nat
  /-- SRC. -/
  src : Nat
  /-- JOB. -/
  job : Nat
  /-- STEP. -/
  step : Word32
  /-- MARK. -/
  mark : Word32
  /-- FLAGS. -/
  flags : Nat
  /-- CAUSE. -/
  cause : Nat
  /-- AUX. -/
  aux : Nat
  /-- REPDIGEST. -/
  repd : Nat
  /-- FDIGEST. -/
  fd : Nat
  deriving DecidableEq, Repr

/-- What a module does as leader or deputy for a step and attempt (R380, R381, R389). -/
structure Lead where
  /-- Step. -/
  step : Word32
  /-- Attempt. -/
  attempt : Nat
  /-- READY tokens received, one of each module, the newest. -/
  votes : List Token
  /-- HOLD has been sent; READYs from now on are re-votes (R380, R420). -/
  hold : Bool
  /-- Re-votes received (R420, R421). -/
  revotes : List Token
  /-- QUERY has been sent to these and STATUS is awaited (R381, R389). -/
  asked : List Nat
  /-- STATUS tokens received. -/
  status : List Token
  /-- Acting as deputy (R389). -/
  deputy : Bool
  /-- The decision has been sent. -/
  decided : Bool
  deriving DecidableEq, Repr

/-- A STEP_RUN that has not completed (R387, R455): what its completion needs. -/
structure StepRun where
  /-- Submission ring. -/
  ring : Nat
  /-- Number of its descriptor since reset, which finds it in the host interface. -/
  id : Nat
  /-- Step. -/
  step : Word32
  /-- Its input has been read for the attempt that comes, well or not (R616). -/
  input : Option Bool
  /-- Its blocks by the plan: dependency slot, count, DA of the block descriptor (R100). -/
  plan : List (Nat × Nat × Nat)
  /-- The attempt's blocks have been given to the work queue. -/
  begun : Bool
  deriving DecidableEq, Repr

/-- A cairn (R395 to R400, Table 9.12). -/
structure Cairn where
  /-- Its step c. -/
  step : Word32
  /-- 0 OPEN, 1 SEALED, 2 VOID. -/
  state : Nat
  /-- 1 for a mirror of another index. -/
  role : Nat
  /-- JOB. -/
  job : Nat
  /-- KIDX. -/
  kidx : Nat
  /-- NMOD. -/
  nmod : Nat
  /-- H at writing. -/
  h : Nat
  /-- Tables: the 256 bytes of each descriptor as of c. -/
  tables : List (List Byte)
  /-- Rows as of c: key (table << 40 | row) to record. -/
  rows : KMap (List Byte)
  /-- Dense regions: DA, bytes. -/
  dense : List (Nat × List Byte)
  /-- Dense regions named and not yet copied: DA, length (R397). -/
  denseDue : List (Nat × Nat)
  /-- Cold locators of its blocks: bays that hold them. -/
  bays : List Nat
  /-- Descriptor number of its CAIRN_WRITE. -/
  id : Nat
  /-- The cairn's step has been applied here and its bitmap cleared (R396). -/
  begun : Bool
  /-- Keys whose bit is set (R396). -/
  bits : List Nat
  /-- Old records copied to the COW buffer: key, bytes (R396). -/
  cow : KMap (List Byte)
  /-- Bytes used of the COW buffer (R398). -/
  cowBytes : Nat
  /-- Next key of the sweep; none when the sweep is done. -/
  sweep : Option Nat
  /-- A reset has come before it was sealed (R398). -/
  pastReset : Bool
  deriving DecidableEq, Repr

/-- Steps, tokens and cairns. -/
structure StepState where
  /-- Steps not forgotten, oldest first (R32, R384, 09). Reset: none. -/
  steps : List StepInfo
  /-- The step whose blocks run or will run next; none without a job's step (R105, R386, 09). Reset: none. -/
  cur : Option Word32
  /-- READY was sent for this step and attempt, and no decision has come (R379, 09). Reset: none. -/
  sent : Option (Word32 × Nat)
  /-- The latest decision acted on: step and attempt (R378, 09). Reset: none. -/
  decided : Option (Word32 × Nat)
  /-- The latest COMMIT: step, attempt, cleared-through (R382, R389, 09). Reset: none. -/
  commit : Option (Word32 × Nat × Word32)
  /-- The leader's job index where it has changed (R389, 09). Reset: FAB_MS_CFG.LEADER. -/
  leader : Option Nat
  /-- This module's work as leader or deputy (R380, R381, R389, 09). Reset: none. -/
  lead : Option Lead
  /-- Steps and attempts for which it took the leader's role (R389, 09). Reset: none. -/
  took : List (Word32 × Nat)
  /-- Candidates of the deputy walk already asked (R389, 09). Reset: 0. -/
  walk : Nat
  /-- The READY sent carried an FDIGEST that was valid (R420, 10). Reset: false. -/
  sentFd : Bool
  /-- The re-vote has been sent (R420, 10). Reset: false. -/
  revoted : Bool
  /-- A HOLD is in force for the step awaited (R380, R420, 09). Reset: false. -/
  held : Bool
  /-- The job has halted (R381, R385, R386, R389, 09). Reset: false. -/
  halted : Bool
  /-- The module takes part in no job: its setup failed R369 (R369, 09). Reset: false. -/
  noJob : Bool
  /-- The step from which the job re-runs, if one is due (R386, 09). Reset: none. -/
  rerun : Option Word32
  /-- Tokens sent over the fabric: job index, token (R378, 09; R511, 12). Reset: none. -/
  out : List (Nat × Token)
  /-- STEP_RUNs not completed, oldest first (R387, 09). Reset: none. -/
  runs : List StepRun
  /-- The module has restarted with its tiers intact and is to rejoin; true after a link reset (R391, 09). Reset: none. -/
  rejoinDue : Option Bool
  /-- STATUS of a rejoin collected by the leader (R391, 09). Reset: none. -/
  rejoin : List Token
  /-- Cairns on flash or being written, oldest first (R395 to R400, 09). Reset: none. -/
  cairns : List Cairn
  /-- A DOMAIN_CYCLE or restart of firmware makes every READY carry NOGO with this cause (R432, R530). Reset: none. -/
  nogoAll : Option Nat
  /-- The next READY carries NOGO with this cause: a collective has failed (R508, 12). Reset: none. -/
  nogoNext : Option Nat
  deriving DecidableEq, Repr

/-- Steps at reset. -/
def StepState.reset : StepState where
  steps := []
  cur := none
  sent := none
  decided := none
  commit := none
  leader := none
  lead := none
  took := []
  walk := 0
  sentFd := false
  revoted := false
  held := false
  halted := false
  noJob := false
  rerun := none
  out := []
  runs := []
  rejoinDue := none
  rejoin := []
  cairns := []
  nogoAll := none
  nogoNext := none

end Sys2Proof.Machine
end

