-- ==== Sys2Proof/Machine/TabState.lean ====
section
/-!
DEFINITION. The state of coalescers, access sketches, gather stages and the hot-row directory
(06_tables_and_gather). Table descriptors, row maps and records lie in device memory.
-/

namespace Sys2Proof.Machine

/-- A coalescer (R235 to R237). Keys are (table << 40) | row. -/
structure Coal where
  /-- The step whose input it takes. -/
  step : Word32
  /-- The window: count by key, at most 16,384 keys (R235, 06). Reset: empty. -/
  window : KMap Nat
  /-- Sorted runs in the spill area (R236, 06). Reset: none. -/
  runs : List (KMap Nat)
  /-- Keys passed through undeduplicated, with how many times (R237, 06). Reset: none. -/
  passed : KMap Nat
  /-- No further run fits in this step (R237, 06). Reset: false. -/
  passing : Bool
  deriving DecidableEq, Repr

/-- A coalescer at reset. -/
def Coal.reset : Coal := ⟨0, [], [], [], false⟩

/-- A final distinct list of a coalescer for a step (R236). -/
structure Distinct where
  /-- Step. -/
  step : Word32
  /-- Coalescer. -/
  coal : Nat
  /-- Count by key. -/
  keys : KMap Nat
  deriving DecidableEq, Repr

/-- A replica of a directory row (Table 6.12). -/
structure Replica where
  /-- RVALID. -/
  valid : Bool
  /-- Logical plot. -/
  plot : Nat
  /-- SRAM offset in 64-byte units. -/
  off : Nat
  deriving DecidableEq, Repr

/-- A hot-row directory entry (Table 6.12). -/
structure DirEntry where
  /-- Table id. -/
  table : Nat
  /-- Row. -/
  row : Nat
  /-- REPCRC. -/
  crc : Word32
  /-- EST. -/
  est : Nat
  /-- NREP: replicas the estimate asks for (R241). -/
  nrep : Nat
  /-- Its replicas. -/
  reps : List Replica
  deriving DecidableEq, Repr

/-- A row held in a gather stage for the step whose gathers run (R238). -/
structure Staged where
  /-- Spine. -/
  spine : Nat
  /-- Table. -/
  table : Nat
  /-- Row. -/
  row : Nat
  /-- The gathered granules. -/
  data : List Byte
  deriving DecidableEq, Repr

/-- A version pinned by a request (R225). -/
structure VPin where
  /-- What holds the pin: a descriptor's number, or the step of a training step + 2^40. -/
  holder : Nat
  /-- Table. -/
  table : Nat
  /-- Version. -/
  version : Nat
  deriving DecidableEq, Repr

/-- What a VERSION_SWITCH of the current version changes (R224, R339). -/
structure SwitchChg where
  /-- FREEZE. -/
  freeze : Option Bool
  /-- POLICY. -/
  policy : Option Nat
  /-- DEFGROUP. -/
  defgroup : Option Nat
  /-- PGMAP. -/
  pgmap : Option Nat
  /-- The copy of its map: DA, entries. -/
  copy : Option (Nat × Nat)
  deriving DecidableEq, Repr

/-- A VERSION_SWITCH accepted and not yet in effect (R222, R224). -/
structure Switch where
  /-- Descriptor number. -/
  id : Nat
  /-- Table. -/
  table : Nat
  /-- Where it names the current version: what it changes. -/
  chg : Option SwitchChg
  deriving DecidableEq, Repr

/-- Tables and gathers. -/
structure TabState where
  /-- Coalescers that differ from reset, by number (R234 to R237, 06). Reset: empty. -/
  coal : KMap Coal
  /-- Final distinct lists of prepared steps (R236, R25, 06). Reset: none. -/
  distinct : List Distinct
  /-- Access sketches: counter idx of array i of spine s, by (4 s + i) × 65,536 + idx (R239, 06). Reset: 0. -/
  sketch : KMap Nat
  /-- The hot-row directory, by entry 0–65,535; the four copies are identical (R239, R240, 06). Reset: empty. -/
  dir : KMap DirEntry
  /-- Gather stages (R238, 06). Reset: empty. -/
  staged : List Staged
  /-- Pins held (R225, 06). Reset: none. -/
  pins : List VPin
  /-- The descriptor array failed its check at the lock: no descriptor is written (R205, 06). Reset: false. -/
  noArray : Bool
  /-- Switches accepted and not yet in effect (R222, R224, R226, 06). Reset: none. -/
  switches : List Switch
  /-- What the last read of a row answered its requester: GST and bytes (R215, 06). Reset: none. -/
  answer : Option (Nat × List Byte)
  /-- EV_COALESCE_PASS has been raised for this step (R237, 06). Reset: none. -/
  passSaid : Option Word32
  /-- EXTENT of pending versions, by table (R221, R224, 06). Reset: none. -/
  pendExtent : KMap Nat
  deriving DecidableEq, Repr

/-- Tables and gathers at reset. -/
def TabState.reset : TabState := ⟨[], [], [], [], [], [], false, [], none, none, []⟩

end Sys2Proof.Machine
end

