-- ==== Sys2Proof/Machine/TierState.lean ====
section
/-!
DEFINITION. The state of the memory tiers and the tier engine (07_memory_tiers): pages, record slots, HBM stacks,
DDR5 channels, cartridges, moves, and the queues the engine keeps.
-/

namespace Sys2Proof.Machine

/-- A unit's place in service (CHSTATE of Table 17.3). -/
inductive UnitSt where
  | empty | inService | evacuating | fallowOff | returning | refused
  deriving DecidableEq, Repr

/-- What a record slot holds: the slot-ledger entry (07, "soft bands, the pool and the page map"). -/
structure Slot where
  /-- Table id. -/
  table : Nat
  /-- Row. -/
  row : Nat
  /-- Table version. -/
  version : Nat
  /-- Granules. -/
  gran : Nat
  /-- A warm copy rather than a home record (R300). -/
  copy : Bool
  /-- The warm copy this hot slot names, as DA ÷ 64 (R300). -/
  warm : Option Nat
  deriving DecidableEq, Repr

/-- A record on a cartridge, at its cold locator (R278, R279). -/
structure ColdRec where
  /-- Its ledger entry. -/
  slot : Slot
  /-- The record's bytes. -/
  data : List Byte
  deriving DecidableEq, Repr

/-- An HBM pseudo-channel (R262, R266 to R268). -/
structure Hpc where
  /-- It has failed or been retired: fallow (R268). -/
  fallow : Bool
  /-- Corrections counted in the hour (R267). -/
  ce : Nat
  /-- The hour they were counted in, from cold reset. -/
  hour : Nat
  /-- The scrub period `rowCe` was counted in, from cold reset. -/
  period : Nat
  /-- DRAM rows with their corrections in the scrub period (R266). -/
  rowCe : KMap Nat
  /-- Rows soft-repaired since cold reset (R266). -/
  soft : List Nat
  /-- Rows hard-repaired (R268). -/
  hard : List Nat
  /-- A pin's margin made it a candidate for sparing (R314). -/
  candidate : Bool
  deriving DecidableEq, Repr

/-- A pseudo-channel at reset. -/
def Hpc.reset : Hpc := ⟨false, 0, 0, 0, [], [], [], false⟩

/-- A DDR5 channel (R272 to R277). -/
structure Ddr where
  /-- State (Table 17.3). -/
  st : UnitSt
  /-- Capacity fitted, GiB, 0 for an empty socket (Table 0.2). -/
  cap : Nat
  /-- Corrections counted in the hour (R276). -/
  ce : Nat
  /-- The hour they were counted in, from cold reset. -/
  hour : Nat
  /-- The scrub period `rowCe` was counted in, from cold reset. -/
  period : Nat
  /-- Rows with their corrections in the scrub period (R275). -/
  rowCe : KMap Nat
  /-- Rows repaired on the DIMM's own repair rows (R275). -/
  repaired : List Nat
  /-- A pin's margin made it a candidate for fallow (R314). -/
  candidate : Bool
  deriving DecidableEq, Repr

/-- A channel at reset. -/
def Ddr.reset : Ddr := ⟨.empty, 0, 0, 0, 0, [], [], false⟩

/-- A cartridge (R278 to R286). -/
structure Cart where
  /-- State (Table 17.4). -/
  st : UnitSt
  /-- FTL_WEAR_PCT. -/
  wear : Nat
  /-- Erase blocks of the cartridge, as it reports them. -/
  blocks : Nat
  /-- Erase counts by erase block. -/
  erases : KMap Nat
  /-- Erase blocks full of data, with their valid pages. -/
  full : KMap Nat
  /-- The erase block being filled. -/
  opened : Option Nat
  /-- Erase blocks retired (R284). -/
  retired : List Nat
  /-- Map: logical block to erase block (R278). -/
  map : KMap Nat
  /-- The next logical block a cold record may take, and the first granule free in it (R278, R279). -/
  next : Nat × Nat
  deriving DecidableEq, Repr

/-- An empty bay. -/
def Cart.reset : Cart := ⟨.empty, 0, 0, [], [], none, [], [], (0, 0)⟩

/-- A row's place: the tiers of Table 6.3. -/
inductive Tier where
  | absent | hot | warm | cold | lent
  deriving DecidableEq, Repr

/-- A move in progress (R304). -/
structure Move where
  /-- Table. -/
  table : Nat
  /-- Row. -/
  row : Nat
  /-- An eviction; otherwise a promotion or a relocation. -/
  evict : Bool
  /-- Target tier. -/
  target : Tier
  /-- Unit of the destination pool: die, Iaqua, bay or window. -/
  unit : Nat
  /-- Destination: DA ÷ 64, or cold locator; none for a clean eviction (R301). -/
  dst : Option Nat
  /-- The write-back has begun (step 4 of R304). -/
  written : Bool
  /-- STEPTAG and FPRINT read in step 3 (R305). -/
  tag : Word32
  /-- FPRINT read in step 3. -/
  fprint : Word32
  /-- Requests wait on the move (Table 7.13). -/
  waited : Bool
  /-- Writing the destination has failed once (R309). -/
  retried : Bool
  deriving DecidableEq, Repr

/-- A wish to promote a row (R240, R253, R295, R308). -/
structure PromoteReq where
  /-- Table. -/
  table : Nat
  /-- Row. -/
  row : Nat
  /-- Target tier. -/
  target : Tier
  /-- A demand request waits for it. -/
  demand : Bool
  deriving DecidableEq, Repr

/-- A re-form of a die in progress (R269). -/
structure Reform where
  /-- Pseudo-channels before. -/
  oldP : Nat
  /-- Bytes below this offset use the new P. -/
  point : Nat
  deriving DecidableEq, Repr

/-- An evacuation in progress (R315 to R317): 0 pseudo-channel, 1 DIMM channel, 2 cartridge, 3 loan. -/
structure Evac where
  /-- Kind of unit (Table 7.15). -/
  kind : Nat
  /-- Unit number within its kind. -/
  unit : Nat
  /-- Tag of the EVACUATE descriptor, if one asked for it. -/
  tag : Option Nat
  deriving DecidableEq, Repr

/-- The margins of a memory pin (R312, R313). -/
structure Pin where
  /-- Margin to the left, taps. -/
  left : Nat
  /-- Margin to the right, taps. -/
  right : Nat
  /-- Delay, taps from where training put it. -/
  delay : Int
  deriving DecidableEq, Repr

/-- A loan bound to a neighbour window of this module (R20, R289, R499; 12_azlek_fabric). -/
structure LoanIn where
  /-- Loan id. -/
  id : Nat
  /-- Module id of the lender. -/
  lender : Nat
  /-- Pages of 2 MiB. -/
  pages : Nat
  /-- Lease: nanosecond at which it ends unless renewed. -/
  lease : Nat
  /-- A REVOKE is running: its deadline, in nanoseconds. -/
  deadline : Option Nat
  deriving DecidableEq, Repr

/-- The tiers. -/
structure TierState where
  /-- Loans bound to the neighbour windows, by window (R20, 01; R499, 12). Reset: none. -/
  windows : KMap LoanIn
  /-- Page-map entries that differ from what backing and soft bands give them, by entry index (R258, Table 7.4, 07).
  Reset: none. -/
  pages : KMap Word64
  /-- Slot ledgers of the hot and warm tiers, by DA ÷ 64 of the slot (07). Reset: none. -/
  slots : KMap Slot
  /-- Records on cartridges, by cold locator (R278, 07). Reset: none. -/
  cold : KMap ColdRec
  /-- Records held in neighbour windows, by DA ÷ 64: what this module has written there (R288, 07). Reset: none. -/
  lent : KMap ColdRec
  /-- The tier engine has started: TIER_PMAP_BASE is valid (Table 7.3, 07). Reset: false. -/
  started : Bool
  /-- Logical pseudo-channels P of each die, as a departure below 186 (R261, R269, 07). Reset: 186. -/
  lostPc : KMap Nat
  /-- Channel maps: physical pseudo-channel of logical index i of stack s, where not i, by 64 s + i (R262, 07).
  Reset: identity. -/
  chanMap : KMap Nat
  /-- Pseudo-channels that differ from reset, by 64 × stack + number (R266 to R268, 07). Reset: none. -/
  hpc : KMap Hpc
  /-- Re-forms in progress, by die (R269, 07). Reset: none. -/
  reform : KMap Reform
  /-- Dies whose soft band is lost (R270, 07). Reset: none. -/
  softLost : List Nat
  /-- Bytes written into lost soft bands since, zero ones too; every other byte there reads as a free value
  (R270, 07). Reset: none. -/
  softNew : KMap Byte
  /-- DDR5 channels, by 4 × Iaqua + channel (R271 to R277, 07). Reset: empty sockets until presence is seen. -/
  ddr : KMap Ddr
  /-- Capacity used per channel, GiB (R4, R277, 07). Reset: 0. -/
  capCh : Nat
  /-- Channels by which an Iaqua's backed range has been filled, by Iaqua (R18, R272, R316, 07). Reset: 0. -/
  backedCh : KMap Nat
  /-- Channels in service of an Iaqua when its extent table was made, rising (R272, 07). Reset: none. -/
  startCh : KMap (List Nat)
  /-- Extent tables where they differ from R272: Iaqua × 2^20 + extent, to channel × 2^20 + channel extent (R271, 07).
  Reset: as R272. -/
  extents : KMap Nat
  /-- Cartridges, by bay (R278 to R286, 07). Reset: empty bays until presence is seen. -/
  carts : KMap Cart
  /-- Moves in progress (R304, 07). Reset: none. -/
  moves : List Move
  /-- Promotions queued, in order (R240, R295, 07). Reset: none. -/
  promote : List PromoteReq
  /-- Tag refreshes queued: (table, row) (R351, 08). Reset: none. -/
  refresh : List (Nat × Nat)
  /-- Rows listed as lost (R311, R286, 07). Reset: none. -/
  lost : List (Nat × Nat)
  /-- Clock hands of the victim search, by pool: die 0–3, Iaqua 4–7; a slot's DA ÷ 64 (R296, 07). Reset: 0. -/
  hand : KMap Nat
  /-- Pools below their low watermark whose eviction has not yet reached the high one (R296, 07). Reset: none. -/
  evicting : List Nat
  /-- Evacuations in progress (R315, 07). Reset: none. -/
  evacs : List Evac
  /-- Patrol scrub position: DA of the next location, hot tier and warm tier (R265, 07). Reset: 0 and 0. -/
  scrubHot : Nat
  /-- The same for the warm tier (R275, 07). Reset: 0. -/
  scrubWarm : Nat
  /-- Margins measured of memory pins, by pin number (R312, 07). Reset: none measured. -/
  pins : KMap Pin
  /-- The latest step at which a lent or cold record's tag was checked, by cold locator or DA ÷ 64 + 2^60
  (R351, 08). Reset: none. -/
  checked : KMap Word32
  /-- Requests whose move has ended without its row, still to be answered: table, row, no answer in time, plot
  (R309, 07). Reset: none. -/
  waitFail : List (Nat × Nat × Bool × Nat)
  deriving DecidableEq, Repr

/-- The tiers at reset. -/
def TierState.reset : TierState where
  windows := []
  pages := []
  slots := []
  cold := []
  lent := []
  started := false
  lostPc := []
  chanMap := []
  hpc := []
  reform := []
  softLost := []
  softNew := []
  ddr := []
  capCh := 0
  backedCh := []
  startCh := []
  extents := []
  carts := []
  moves := []
  promote := []
  refresh := []
  lost := []
  hand := []
  evicting := []
  evacs := []
  scrubHot := 0
  scrubWarm := 0
  pins := []
  checked := []
  waitFail := []

end Sys2Proof.Machine
end

