-- ==== Sys2Proof/Machine/WorkState.lean ====
section
/-!
DEFINITION. The state of the scheduler core's work queue: dependency slots, the queue, granted blocks, the phase
(02_plots_and_furrows R100 to R105 and R614, 09_training_step_and_milestones R370 to R373).
-/

namespace Sys2Proof.Machine

/-- A furrow block as its descriptor gives it (Table 9.2). -/
structure Block where
  /-- DA of the descriptor, which FWORK returns. -/
  da : Nat
  /-- STEP. -/
  step : Word32
  /-- BLOCKID. -/
  id : Nat
  /-- FURROWS: DA of the furrow image. -/
  furrows : Nat
  /-- Furrows in the block, 1 to 1,024. -/
  nfur : Nat
  /-- BFLAGS.PHASE: true is backward. -/
  backward : Bool
  /-- BFLAGS.RECOMP. -/
  recomp : Bool
  /-- The logical plot it is bound to. -/
  bound : Option Nat
  /-- MB. -/
  mb : Nat
  /-- DIE whose share holds it. -/
  die : Nat
  /-- DONESLOT, where VALID. -/
  doneSlot : Option Nat
  /-- DONEINC. -/
  doneInc : Nat
  deriving DecidableEq, Repr

/-- A dependency slot (R100). -/
structure DepSlot where
  /-- Count left. -/
  count : Nat
  /-- DA of the block descriptor that enters the queue when the count reaches zero. -/
  block : Option Nat
  deriving DecidableEq, Repr

/-- The work queue (R100 to R105). -/
structure WorkState where
  /-- Dependency slots in use, by number (R100, 02). Reset: none. -/
  slots : KMap DepSlot
  /-- Blocks in the queue, in the order they entered it (R101, 02). Reset: none. -/
  queue : List Block
  /-- Blocks granted and not completed, each with its logical plot (R101, R104, 02). Reset: none. -/
  granted : List (Nat × Block)
  /-- Logical plots waiting in FWORK, with the thread, in order (R101, 02). Reset: none. -/
  waiting : List (Nat × Nat)
  /-- The step whose blocks the queue holds (R105, 02). Reset: 0. -/
  step : Word32
  /-- Blocks of the step not yet completed or counted as completed (R105, R614, 02). Reset: 0. -/
  left : Nat
  /-- Logical plots whose MILESTONE furrow has reported this step's work (R58, 02). Reset: none. -/
  reported : List Nat
  /-- Logical plots that have issued their PHASE furrow of this step (R372, 09). Reset: none. -/
  phaseIssued : List Nat
  /-- PHASE tokens that have arrived: step, job index (R372, 09). Reset: none. -/
  phaseTokens : List (Nat × Nat)
  /-- The phase has been joined: phase 1 may be granted (R372, 09). Reset: false. -/
  joined : Bool
  /-- This module's PHASE token has been sent (R372, 09). Reset: false. -/
  phaseSent : Bool
  /-- A block of the step failed its BCRC or faulted on its own content (R370, R614). Reset: false. -/
  invalid : Bool
  deriving DecidableEq, Repr

/-- The work queue at reset. -/
def WorkState.reset : WorkState := ⟨[], [], [], [], 0, 0, [], [], [], false, false, false⟩

end Sys2Proof.Machine
end

