-- ==== Sys2Proof/Machine/State.lean ====
section
/-!
DEFINITION. The state of the module.
-/

namespace Sys2Proof.Machine

/-- Everything in the module but its memory and its fuses. -/
structure Dev where
  /-- Registers, counters, events. -/
  base : BaseState
  /-- Physical plots that differ from reset, by instance number of R606. -/
  plots : KMap Plot
  /-- The work queue. -/
  work : WorkState
  /-- The tiers. -/
  tier : TierState
  /-- Tables and gathers. -/
  tab : TabState
  /-- Checking and repair. -/
  chk : ChkState
  /-- Gradient stages, updates and journals. -/
  sow : SowState
  /-- Steps, tokens and cairns. -/
  ms : StepState
  /-- The host interface. -/
  hif : HifState
  /-- The Azlek fabric. -/
  fab : FabState
  /-- Firmware processors, mailbox, log. -/
  fw : FwState
  /-- The security core. -/
  sec : SecState
  /-- Clocks, power, resets, start-up. -/
  pwr : PwrState
  /-- Sideband signals and management bus. -/
  hw : HwState
  /-- Messages sent to spine cores (kind 1) and Azlek collectives (kind 2): kind, destination, channel, source plot,
  bytes (Table 2.8 SEND, 02). Reset: none. -/
  meshOut : List (Nat × Nat × Nat × Nat × List Byte)
  deriving DecidableEq, Repr

/-- The module but for its fuses: device memory and the rest. -/
structure Mod where
  /-- Device memory: the hot and warm tiers, by DA (R15 to R18). -/
  mem : Memory
  /-- The rest. -/
  dev : Dev
  deriving DecidableEq, Repr

/-- The one-time fuses (Table 14.1, R540, R610; 14_security). -/
structure Fuses where
  /-- DEVID. Reset: 0 (DESIGN CHOICE, log 8). -/
  devid : BitVec 128
  /-- SEED. Reset: 0 (DESIGN CHOICE, log 8). -/
  seed : BitVec 256
  /-- LIFECYCLE, a thermometer. Reset: DEPLOYED, 0b0000_0011 (R610). -/
  lifecycle : BitVec 8
  /-- FWKEY_RSA_i at 2 i and FWKEY_SLH_i at 2 i + 1. Reset: 0 (DESIGN CHOICE, log 8). -/
  fwKey : BitVec 3072
  /-- FWKEY_REVOKE. Reset: 0 (R610). -/
  fwRevoke : BitVec 4
  /-- DBGKEY_RSA_i at 2 i and DBGKEY_SLH_i at 2 i + 1. Reset: 0 (DESIGN CHOICE, log 8). -/
  dbgKey : BitVec 1536
  /-- DBGKEY_REVOKE. Reset: 0 (R610). -/
  dbgRevoke : BitVec 2
  /-- SECVER_FW, a thermometer. Reset: 0 (R610). -/
  secverFw : BitVec 64
  /-- SECVER_PACK, a thermometer. Reset: 0 (R610). -/
  secverPack : BitVec 64
  deriving DecidableEq, Repr

/-- The module: the commands that wait, its fuses, and the rest. -/
structure State where
  /-- Commands waiting, first in first out (the row's cut; DESIGN CHOICE, log 1). Reset: none. -/
  pending : List Instr
  /-- One-time fuses (Table 14.1). -/
  fuses : Fuses
  /-- Everything else. -/
  mod : Mod
  deriving DecidableEq, Repr

/-- Why a step stops with a fault. -/
inductive Fault where
  /-- Raised by nothing: every demand fault, error and trap of the spec has an effect there, which the model takes.
  Safe. -/
  | none
  deriving DecidableEq, Repr

/-- Why a command is refused. -/
inductive Refusal where
  /-- Raised by the arm of a command that has no meaning yet; the mnemonic as the opcode table has it. Safe. -/
  | notModelled (mnemonic : String)
  deriving DecidableEq, Repr

/-- What a command answers. -/
abbrev Out := Host.Outcome State Fault Refusal

/-- The fuses of a module as delivered (R610). -/
def Fuses.reset : Fuses := ⟨0, 0, 3, 0, 0, 0, 0, 0, 0⟩

/-- Everything but memory and fuses after a cold reset. -/
def Dev.reset : Dev where
  base := .reset
  plots := []
  work := .reset
  tier := .reset
  tab := .reset
  chk := .reset
  sow := .reset
  ms := .reset
  hif := .reset
  fab := .reset
  fw := .reset
  sec := .reset
  pwr := .reset
  hw := .reset
  meshOut := []

/-- The module right after a cold reset. -/
def State.reset : State := ⟨[], .reset, ⟨[], .reset⟩⟩

/-- A command whose effect touches neither queue nor fuses. -/
def onMod (s : State) (f : Mod → Mod) : Out := .next { s with mod := f s.mod }

/-- A command whose effect touches neither queue, fuses nor device memory. -/
def onDev (s : State) (f : Dev → Dev) : Out := .next { s with mod := { s.mod with dev := f s.mod.dev } }

end Sys2Proof.Machine
end

