-- ==== Sys2Proof/Machine/Ops.lean ====
section
/-!
DEFINITION. Operations that every unit uses: events and counters, what leaves for the host, plots by number, the
device address map, and reading and writing device memory (01_one_step, 07_memory_tiers, 17_register_event_reference).
-/

namespace Sys2Proof.Machine

/-! ## Power: what runs (R562, R573, R579) -/

/-- The module is unpowered or in a protective action: no plot and no engine does anything (R562, R573, R579). -/
def Dev.stopped (d : Dev) : Bool := !d.pwr.powered || d.pwr.trip || d.pwr.pfail || d.pwr.clkLost

/-- A command of the data plane: nothing happens in a protective action (R573; log 10). -/
def onPlane (s : State) (f : Mod → Mod) : Out := onMod s fun m => if m.dev.stopped then m else f m

/-- A command of the data plane that leaves device memory alone. -/
def onPlaneDev (s : State) (f : Dev → Dev) : Out := onDev s fun d => if d.stopped then d else f d

/-- The domain whose cycle runs (R564, Table 15.2). -/
def Dev.cycling (d : Dev) (dom : Nat) : Bool := (d.pwr.cycle.map (·.dom)) == some dom

/-- The host interface is up: its domain is not being cycled (Table 15.3). -/
def Dev.hifUp (d : Dev) : Bool := d.pwr.powered && !d.cycling 20

/-- The pool whose range is held by the running cycle: dies 0 to 3, Iaquas 4 to 7, cold tier 8 (R565, Table 15.3). -/
def heldPool (d : Dev) : Option Nat := match d.pwr.cycle with
  | none => none
  | some c => if 16 ≤ c.dom ∧ c.dom < 20 then some (c.dom - 16) else if 26 ≤ c.dom then some (c.dom - 22)
    else if c.dom = 25 then some 8 else none

/-- Ask for a domain's cycle (R564). -/
def Dev.askCycle (d : Dev) (dom : Nat) (tag : Option Nat) : Dev :=
  { d with pwr := { d.pwr with waiting := d.pwr.waiting ++ [⟨dom, tag⟩] } }

/-! ## Events, counters, the host -/

/-- Change the shared state. -/
def Dev.onBase (d : Dev) (f : BaseState → BaseState) : Dev := { d with base := f d.base }

/-- Change the tiers. -/
def Dev.onTier (d : Dev) (f : TierState → TierState) : Dev := { d with tier := f d.tier }
/-- Change tables and gathers. -/
def Dev.onTab (d : Dev) (f : TabState → TabState) : Dev := { d with tab := f d.tab }
/-- Change checking. -/
def Dev.onChk (d : Dev) (f : ChkState → ChkState) : Dev := { d with chk := f d.chk }
/-- Change the work queue. -/
def Dev.onWork (d : Dev) (f : WorkState → WorkState) : Dev := { d with work := f d.work }
/-- Change sowing. -/
def Dev.onSow (d : Dev) (f : SowState → SowState) : Dev := { d with sow := f d.sow }
/-- Change the host interface. -/
def Dev.onHif (d : Dev) (f : HifState → HifState) : Dev := { d with hif := f d.hif }
/-- Change the fabric. -/
def Dev.onFab (d : Dev) (f : FabState → FabState) : Dev := { d with fab := f d.fab }
/-- Change firmware, mailbox and log. -/
def Dev.onFw (d : Dev) (f : FwState → FwState) : Dev := { d with fw := f d.fw }
/-- Change the security core. -/
def Dev.onSec (d : Dev) (f : SecState → SecState) : Dev := { d with sec := f d.sec }
/-- Change power. -/
def Dev.onPwr (d : Dev) (f : PwrState → PwrState) : Dev := { d with pwr := f d.pwr }
/-- Change the sideband. -/
def Dev.onHw (d : Dev) (f : HwState → HwState) : Dev := { d with hw := f d.hw }
/-- Change steps and tokens. -/
def Dev.onMs (d : Dev) (f : StepState → StepState) : Dev := { d with ms := f d.ms }

/-- The event ring in force takes an event: FATAL ones, EV_MS_READY under HOSTLEAD, and those whose area is enabled and whose
severity is at least MINSEV (R478). -/
def BaseState.posts (b : BaseState) (e : Event) : Bool :=
  decide (e.sev = 3) || (decide (e.code = evMsReady.1) && decide (cfgFabMsCfgHostlead b = 1))
    || (bitOf b.evt.areas (e.code / 256 - 1) && decide (b.evt.minSev ≤ e.sev))

/-- Hold an event for the ring, or drop it where 1,024 are held (R478): the dropped one counts in EVT_DROP_CNT. One that the
ring in force masks is not held. -/
def BaseState.holdEvent (b : BaseState) (e : Event) : BaseState :=
  if b.evt.ringSet && !b.posts e then b
  else if b.evt.held.length < 1024 then { b with evt := { b.evt with held := b.evt.held ++ [e] } }
  else
    let k := 8192 * cEvtDrop
    { b with
      evt := { b.evt with lost := b.evt.lost + 1 }
      cnt := kset 0 b.cnt k (kget 0 b.cnt k + 1)
      tot := kset 0 b.tot cEvtDrop (kget 0 b.tot cEvtDrop + 1) }

/-- Raise an event: it takes the next SEQ whether or not it is ever posted (Table 11.14, R478). -/
def BaseState.raise (b : BaseState) (ev : Nat × Nat) (die unit : Nat) (args : List Word64) : BaseState :=
  let e : Event := ⟨ev.1, ev.2, b.evt.seq, b.now, b.applied, die, unit, args⟩
  BaseState.holdEvent { b with evt := { b.evt with seq := b.evt.seq + 1 } } e

/-- The ARGS words of Table 17.7 from its letters: S step span, K row and table, E entry and execution, C cause,
T tag, N count, D address, X lists. -/
structure Args where
  /-- A0 [31:0]: step or first step. -/
  s : Nat := 0
  /-- A0 [63:32]: last step, where it differs. -/
  s2 : Option Nat := none
  /-- The event carries S. -/
  hasS : Bool := false
  /-- A1: row. -/
  row : Nat := 0
  /-- A1: table. -/
  table : Nat := 0
  /-- A2: entry. -/
  entry : Nat := 0
  /-- A2: execution index. -/
  exec : Nat := 0
  /-- A3. -/
  c : Nat := 0
  /-- A4. -/
  t : Nat := 0
  /-- A5. -/
  n : Nat := 0
  /-- A6. -/
  d : Nat := 0
  /-- A7 to A11: numbers of 16 bits, ended by 0xFFFF. -/
  x : Option (List Nat) := none
  deriving DecidableEq, Repr

/-- 16-bit numbers packed four to a word, the end marker after them, five words (letter X). -/
def packX (l : List Nat) : List Word64 :=
  let v := packBits16 (l.take 19 ++ [0xFFFF])
  (List.range 5).map fun i => BitVec.ofNat 64 (v >>> (64 * i))
where
  /-- Numbers packed at 16 bits each, first lowest. -/
  packBits16 : List Nat → Nat
    | [] => 0
    | c :: l => c % 65536 + 65536 * packBits16 l

/-- The twelve words. -/
def Args.words (a : Args) : List Word64 :=
  let s0 := if a.hasS then a.s % 2 ^ 32 + ((a.s2.getD a.s) % 2 ^ 32) * 2 ^ 32 else 0
  [BitVec.ofNat 64 s0, BitVec.ofNat 64 (a.row % 2 ^ 40 + (a.table % 4096) * 2 ^ 40),
   BitVec.ofNat 64 (a.entry % 65536 + (a.exec % 2 ^ 32) * 65536), BitVec.ofNat 64 a.c, BitVec.ofNat 64 a.t,
   BitVec.ofNat 64 a.n, BitVec.ofNat 64 a.d]
  ++ (match a.x with
    | some l => packX l
    | none => [])

/-- Raise an event with named arguments. -/
def Dev.raise (d : Dev) (ev : Nat × Nat) (a : Args := {}) (die : Nat := 0) (unit : Nat := 0) : Dev :=
  { d with base := d.base.raise ev die unit a.words }

/-- Add to a counter instance and to its module total (R604). -/
def BaseState.count (b : BaseState) (c inst n : Nat) : BaseState :=
  let k := 8192 * c + inst
  { b with
    cnt := kset 0 b.cnt k (kget 0 b.cnt k + BitVec.ofNat 32 n)
    tot := kset 0 b.tot c (kget 0 b.tot c + BitVec.ofNat 64 n) }

/-- Add to a counter. -/
def Dev.count (d : Dev) (c inst n : Nat) : Dev := { d with base := d.base.count c inst n }

/-- A write to host memory, in order (R434, R476). -/
def BaseState.hostWrite (b : BaseState) (addr : Nat) (data : List Byte) : BaseState :=
  { b with out := b.out ++ [.write addr data] }

/-- A write to host memory. -/
def Dev.hostWrite (d : Dev) (addr : Nat) (data : List Byte) : Dev := { d with base := d.base.hostWrite addr data }

/-- An MSI-X message on a vector: sent, or left pending where the vector is masked in the table at BAR0 offset
0x1_0000 (R438; PRESUMED: the PCI Express form of the table, mask in bit 0 of the fourth word, log 9). -/
def BaseState.msixSend (b : BaseState) (v : Nat) : BaseState :=
  let ctl := (kget 1 b.msix (4 * v + 3)).toNat
  if ctl % 2 = 1 then (if v ∈ b.msixPend then b else { b with msixPend := b.msixPend ++ [v] })
  else { b with out := b.out ++ [.msix v] }

/-- An MSI-X message. -/
def Dev.msixSend (d : Dev) (v : Nat) : Dev := { d with base := d.base.msixSend v }

/-- A descriptor's work has ended: its completion is due. -/
def Dev.endDesc (d : Dev) (id status : Nat) (words : List Nat := []) : Dev :=
  let mine := fun (w : Who) => decide (w = .desc id)
  { d with
    base := { d.base with ended := d.base.ended ++ [⟨id, status, words⟩] }
    fab := { d.fab with got := d.fab.got.filter fun g => !mine g.who, wants := d.fab.wants.filter fun w => !mine w.who } }

/-- Take the next number for a free value (log 2). -/
def Dev.tickFresh (d : Dev) : Dev := { d with base := { d.base with fresh := d.base.fresh + 1 } }

/-- Nanoseconds since cold reset. -/
def Dev.nowNs (d : Dev) : Nat := d.base.now.toNat

/-- A is newer than B, modulo 2^32 (R213). -/
def stepNewer (a b : Word32) : Bool := decide (0 < (a - b).toInt)

/-! ## Plots by number (R93 to R98, R606) -/

/-- Instance number of physical plot (die, row, column) (R606). -/
def plotInst (die row col : Nat) : Nat := 1088 * die + 34 * row + col

/-- Die of a plot instance. -/
def instDie (i : Nat) : Nat := i / 1088
/-- Row of a plot instance. -/
def instRow (i : Nat) : Nat := i % 1088 / 34
/-- Column of a plot instance. -/
def instCol (i : Nat) : Nat := i % 34

/-- Quadrant of a plot instance within its die. -/
def instQuad (i : Nat) : Nat := 2 * (instRow i / 16) + (if instCol i < 17 then 0 else 1)

/-- A spare column (02, "the plot map"). -/
def isSpareCol (i : Nat) : Bool := instCol i == 16 || instCol i == 17

/-- The physical plot of logical plot `p`, where its entry is VALID (R95, R96, R98). -/
def physOf (b : BaseState) (p : Nat) : Option Nat :=
  let w := regForce b (0x410000 + 4 * p)
  if bitOf w 31 then some (plotInst (bitsOf w 12 11) (bitsOf w 10 6) (bitsOf w 5 0)) else none

/-- The logical plot mapped onto a physical one, if any. -/
def logicalOf (b : BaseState) (i : Nat) : Option Nat :=
  (List.range 4096).find? fun p => physOf b p == some i

/-- A position that carries the full epilogue: a spare, or where R94 puts a logical multiple of 4 (R93, R94). -/
def hasEpilogue (i : Nat) : Bool := isSpareCol i || (instCol i ∈ [0, 4, 8, 12, 18, 22, 26, 30])

/-- Logical plot p is an express plot: the NEXP / 16 highest m of each quadrant (R443). -/
def isExpress (b : BaseState) (p : Nat) : Bool := decide (256 - cfgHifExpressCfgNexp b / 16 ≤ p % 256)

/-- A physical plot's state. -/
def Dev.plot (d : Dev) (i : Nat) : Plot := kget Plot.reset d.plots i

/-- Give a physical plot a state. -/
def Dev.setPlot (d : Dev) (i : Nat) (p : Plot) : Dev := { d with plots := kset Plot.reset d.plots i p }

/-- Change a physical plot. -/
def Dev.modPlot (d : Dev) (i : Nat) (f : Plot → Plot) : Dev := d.setPlot i (f (d.plot i))

/-! ## The device address map (Table 1.2, R16 to R22) -/

/-- GiB. -/
def giB : Nat := 0x40000000

/-- Where a DA lies. -/
inductive DaPlace where
  /-- Hot range of a die, at an offset. -/
  | hot (die off : Nat)
  /-- Warm range of an Iaqua, at an offset. -/
  | warm (iaq off : Nat)
  /-- SRAM slot of a logical plot, at an offset. -/
  | sram (plot off : Nat)
  /-- Neighbour window, at an offset. -/
  | window (n off : Nat)
  /-- Internal control space (R21). -/
  | internal
  /-- Reserved (R16). -/
  | reserved
  deriving DecidableEq, Repr

/-- Table 1.2. -/
def daPlace (da : Nat) : DaPlace :=
  if da < 0x10000000000 then .hot (da / 0x4000000000) (da % 0x4000000000)
  else if da < 0x100000000000 then .reserved
  else if da < 0x200000000000 then
    .warm ((da - 0x100000000000) / 0x40000000000) ((da - 0x100000000000) % 0x40000000000)
  else if da < 0x1000000000000 then .reserved
  else if da < 0x1000200000000 then .sram ((da - 0x1000000000000) / 0x200000) (da % 0x200000)
  else if da < 0x10000000000000 then .reserved
  else if da < 0x20000000000000 then .window (da / 0x1000000000000 - 16) (da % 0x1000000000000)
  else if da < 0xFF000000000000 then .reserved
  else if da < 0x100000000000000 then .internal
  else .reserved

/-- First DA of a die's hot range. -/
def hotBase (die : Nat) : Nat := die * 0x4000000000
/-- First DA of an Iaqua's warm range. -/
def warmBase (q : Nat) : Nat := 0x100000000000 + q * 0x40000000000
/-- First DA of a logical plot's slot (R19). -/
def plotBase (p : Nat) : Nat := 0x1000000000000 + p * 0x200000
/-- First DA of a neighbour window. -/
def windowBase (n : Nat) : Nat := (16 + n) * 0x1000000000000

/-- Logical pseudo-channels of a die (R261). -/
def TierState.dieP (t : TierState) (die : Nat) : Nat := 186 - kget 0 t.lostPc die

/-- Backed bytes of a die's hot range: 1.125 GiB for each logical pseudo-channel (R17, R261, R269). -/
def TierState.hotBacked (t : TierState) (die : Nat) : Nat := t.dieP die * 0x48000000

/-- Backed bytes of an Iaqua's warm range (R18, R272). -/
def TierState.warmBacked (t : TierState) (q : Nat) : Nat := kget 0 t.backedCh q * t.capCh * giB

/-- Bytes of a die's soft band (R254). -/
def hotSoft (b : BaseState) : Nat := cfgTierSoftCfgHotsoft b * giB
/-- Bytes of an Iaqua's soft band (R254). -/
def warmSoft (b : BaseState) : Nat := cfgTierSoftCfgWarmsoft b * giB

/-! ## The page map (R258, Table 7.4) -/

/-- Page-map index of a hot or warm DA. -/
def pageIndex (da : Nat) : Nat :=
  if da < 0x100000000000 then da / 0x200000 else 524288 + (da - 0x100000000000) / 0x200000

/-- First DA of a page. -/
def pageDa (i : Nat) : Nat := if i < 524288 then i * 0x200000 else 0x100000000000 + (i - 524288) * 0x200000

/-- KIND codes of Table 7.4. -/
def pkUnbacked : Nat := 0
/-- FREE. -/
def pkFree : Nat := 1
/-- SOFT. -/
def pkSoft : Nat := 2
/-- RECORD. -/
def pkRecord : Nat := 3
/-- JOURNAL. -/
def pkJournal : Nat := 4
/-- STAGE. -/
def pkStage : Nat := 5
/-- META. -/
def pkMeta : Nat := 6
/-- LENT_OUT. -/
def pkLentOut : Nat := 7
/-- BAND. -/
def pkBand : Nat := 8

/-- A page-map entry with a KIND and nothing else but the NPF the module sets (Table 7.4). -/
def pageWord (kind : Nat) : Word64 :=
  BitVec.ofNat 64 (kind * 2 ^ 60 + (if kind = 4 ∨ kind = 6 ∨ kind = 7 ∨ kind = 8 then 2 ^ 59 else 0))

/-- MiB. -/
def miB : Nat := 0x100000

/-- Bytes of the journal region of a die (R352). -/
def hotJrnl (b : BaseState) : Nat := cfgTierJrnlCfgHotj b * giB
/-- Bytes of the journal region of an Iaqua (R352). -/
def iaqJrnl (b : BaseState) : Nat := cfgTierJrnlCfgIaqj b * giB
/-- Bytes of the page map, where it lies at the start of die 0's pool (R258). -/
def pmapBytes (die : Nat) : Nat := if die = 0 then 0x4400000 else 0

/-- Offset of a die's journal region: after the soft band and the page map (DESIGN CHOICE, log 19). -/
def hotJrnlOff (b : BaseState) (die : Nat) : Nat := hotSoft b + pmapBytes die
/-- Bytes of the STAGE pages of a die: gather stage, spill area, gradient stage (R237, R238, R327). -/
def hotStage (b : BaseState) : Nat :=
  cfgTierCoalCfgStage b * 16 * miB + alignUp 2 (cfgTierCoalCfgSpill b) * miB + cfgTierSowCfgStage b * giB

/-- Offset in a die's hot range from which its pages are being emptied for a re-form; the backed size where none is (R269). -/
def TierState.hotBand (t : TierState) (die : Nat) : Nat :=
  if (kfind t.reform die).isSome then (t.dieP die - 3) * 0x48000000 else t.hotBacked die

/-- Offset in an Iaqua's range from which its pages are BAND: what is left without the channels being evacuated (R316). -/
def TierState.warmBand (t : TierState) (q : Nat) : Nat :=
  (kget 0 t.backedCh q - (t.evacs.filter fun e => e.kind = 1 ∧ e.unit / 4 = q).length) * t.capCh * giB

/-- What backing, soft bands and the engine's own regions give a page: SOFT, FREE, UNBACKED, or, once the engine has
started, the page map, journal, stage and cache pages (R254, R258, R352; their order is log 19). -/
def pageDefault (b : BaseState) (t : TierState) (i : Nat) : Word64 :=
  match daPlace (pageDa i) with
  | .hot d off =>
    let j := hotJrnlOff b d
    if t.hotBacked d ≤ off then pageWord pkUnbacked else if off < hotSoft b then pageWord pkSoft
    else if t.hotBand d ≤ off then pageWord pkBand
    else if t.started = false then pageWord pkFree
    else if off < j then pageWord pkMeta
    else if off < j + hotJrnl b then pageWord pkJournal
    else if off < j + hotJrnl b + hotStage b then pageWord pkStage
    else pageWord pkFree
  | .warm q off =>
    let j := warmSoft b
    if t.warmBacked q ≤ off then pageWord pkUnbacked else if off < j then pageWord pkSoft
    else if t.warmBand q ≤ off then pageWord pkBand
    else if t.started = false then pageWord pkFree
    else if off < j + iaqJrnl b then pageWord pkJournal
    else if off < j + iaqJrnl b + cfgFlsFtlCfgCache b * giB / 4 then pageWord pkMeta
    else pageWord pkFree
  | _ => 0

/-- A page-map entry. -/
def pageEntry (b : BaseState) (t : TierState) (i : Nat) : Word64 :=
  match kfind t.pages i with
  | some w => w
  | none => pageDefault b t i

/-- KIND of a page. -/
def pageKind (b : BaseState) (t : TierState) (i : Nat) : Nat := bitsOf (pageEntry b t i).toNat 63 60

/-- Give a page-map entry a value; one that the defaults give is not listed. -/
def setPage (b : BaseState) (t : TierState) (i : Nat) (w : Word64) : TierState :=
  { t with pages := if w = pageDefault b t i then kdel t.pages i else kput t.pages i w }

/-- DA of page-map entry 0 (R258). -/
def pmapBase (b : BaseState) : Nat := hotSoft b

/-- The byte of the page map at an offset from its base. -/
def pmapByte (b : BaseState) (t : TierState) (o : Nat) : Byte :=
  BitVec.ofNat 8 ((pageEntry b t (o / 8)).toNat >>> (8 * (o % 8)))

/-! ## Bytes of device memory -/

/-- Give `bs.length` addresses from `a` their bytes in a map whose default is 0. -/
def writeRun (m : KMap Byte) (a : Nat) (bs : List Byte) : KMap Byte :=
  m.filter (fun e => e.1 < a) ++ runCells a bs ++ m.filter (fun e => a + bs.length ≤ e.1)
where
  /-- The cells of a run that are not zero. -/
  runCells : Nat → List Byte → KMap Byte
    | _, [] => []
    | a, b :: l => if b = 0 then runCells (a + 1) l else (a, b) :: runCells (a + 1) l

/-- `n` bytes from `a`. -/
def readRun (m : KMap Byte) (a n : Nat) : List Byte :=
  let sub := m.filter (fun e => a ≤ e.1 ∧ e.1 < a + n)
  go sub a n
where
  /-- Walk addresses and rising cells together. -/
  go : KMap Byte → Nat → Nat → List Byte
    | _, _, 0 => []
    | [], _, n => List.replicate n 0#8
    | (k, v) :: l, a, n + 1 => if k = a then v :: go l (a + 1) n else 0#8 :: go ((k, v) :: l) (a + 1) n

/-- A DA in a soft band that was lost (R270). -/
def inLostSoft (d : Dev) (da : Nat) : Bool :=
  d.tier.softLost != [] && (match daPlace da with
    | .hot die off => decide (die ∈ d.tier.softLost) && decide (off < hotSoft d.base)
    | _ => false)

/-- Bytes of the hot and warm tiers as they stand, with the page map seen at its own DA (R258), and lost soft bands as free
values where nothing has been written since (R270). No check is made. -/
def Mod.load (m : Mod) (da n : Nat) : List Byte :=
  let pb := pmapBase m.dev.base
  if m.dev.tier.started = true ∧ pb ≤ da ∧ da < pb + 0x4400000 then
    (List.range n).map fun i => pmapByte m.dev.base m.dev.tier (da + i - pb)
  else if inLostSoft m.dev da then
    (List.range n).map fun i => match kfind m.dev.tier.softNew (da + i) with
      | some b => b
      | none => (Config.freeWord (da + i)).setWidth 8
  else readRun m.mem da n

/-- Write bytes of the hot and warm tiers. No check is made. -/
def Mod.store (m : Mod) (da : Nat) (bs : List Byte) : Mod :=
  if inLostSoft m.dev da then
    { m with dev := m.dev.onTier fun t => { t with softNew := (bs.zipIdx).foldl (fun k b => kput k (da + b.2) b.1) t.softNew } }
  else { m with mem := writeRun m.mem da bs }

/-- Change the rest of the module. -/
def Mod.onDev (m : Mod) (f : Dev → Dev) : Mod := { m with dev := f m.dev }

/-- A little-endian number of device memory. -/
def Mod.loadNat (m : Mod) (da n : Nat) : Nat := leNat (m.load da n)

/-- Write a little-endian number. -/
def Mod.storeNat (m : Mod) (da n v : Nat) : Mod := m.store da (leBytes n v)

/-- A half of a running split table, or the table in single use, that a store at a furrow-store offset may not touch
(R70). -/
def storeBusy (p : Plot) (off : Nat) : Bool :=
  let s := p.seq
  if s.split then (if off < 0x10000 then s.halfA == .active else s.halfB == .active)
  else s.running

/-- Bytes of the loan bound to a window, 0 without one (R20). -/
def loanExtent (t : TierState) (w : Nat) : Nat :=
  match kfind t.windows w with
  | some l => l.pages * 0x200000
  | none => 0

/-- Why a demand access of `n` bytes at a DA faults, if it does (R20 to R22, R256). -/
def accessFault (d : Dev) (write : Bool) (da n : Nat) : Option FaultKind :=
  if 2 ^ 56 ≤ da then some (.address da)
  else match daPlace da with
    | .hot die off =>
      if d.tier.hotBacked die < off + n then some (.daUnmapped da)
      else if write && decide (hotSoft d.base < off + n) then some (.poolWrite da) else none
    | .warm q off =>
      if d.tier.warmBacked q < off + n then some (.daUnmapped da)
      else if write && decide (warmSoft d.base < off + n) then some (.poolWrite da) else none
    | .sram p off =>
      if 0x120000 < off + n ∨ physOf d.base p = none then some (.daUnmapped da) else none
    | .window w off => if loanExtent d.tier w < off + n then some (.daBarred da) else none
    | .internal => some (.daBarred da)
    | .reserved => some (.daUnmapped da)

/-- The event a demand fault raises beside the one its requester raises (R22, R256). -/
def Dev.raiseAccess (d : Dev) (f : FaultKind) : Dev :=
  match f with
  | .daUnmapped da => d.raise evDaUnmapped { d := da }
  | .poolWrite da => d.raise evPoolWrite { d := da }
  | _ => d

/-! ## Neighbour windows (R20, R497, R499) -/

/-- The READs that bytes of a window take: 64-byte aligned, none across a 4 KiB boundary (R497). `fuel` bounds how many. -/
def remotePieces : Nat → Nat → Nat → List (Nat × Nat)
  | 0, _, _ => []
  | fuel + 1, lo, hi => if hi ≤ lo then [] else
    let e := min hi ((lo / 4096 + 1) * 4096)
    (lo, e - lo) :: remotePieces fuel e hi

/-- The READs of `n` bytes from `da`. -/
def piecesOf (da n : Nat) : List (Nat × Nat) := remotePieces (n / 4096 + 2) (da / 64 * 64) (alignUp 64 (da + n))

/-- What has come back for some bytes: status and data. -/
def gotFor (d : Dev) (who : Who) (p : Nat × Nat) : Option (Nat × List Byte) :=
  (d.fab.got.find? fun g => decide (g.who = who) && decide (g.da ≤ p.1) && decide (p.1 + p.2 ≤ g.da + g.n)).map fun g =>
    (g.status, (g.data.drop (p.1 - g.da)).take p.2)

/-- Bytes of a window: what its lender returned; the fault of its answer (R499, Table 12.7); or they are still to come. -/
def windowRead (d : Dev) (who : Who) (da n : Nat) : Except FaultKind (List Byte) :=
  let l := (piecesOf da n).map fun p => gotFor d who p
  if l.any (·.isNone) then .error (.remoteWait da n)
  else
    let g := l.filterMap id
    if (g.any fun x => x.1 = 3) then .error (.tierError da)
    else if (g.any fun x => x.1 ≠ 0) then .error (.daBarred da)
    else .ok (((g.flatMap (·.2)).drop (da % 64)).take n)

/-- Ask for the READs of a window access that have neither come back nor been asked for. An access that waits for a held range
asks for nothing (R565). -/
def Dev.askRemote (d : Dev) (who : Who) (da n : Nat) : Dev :=
  if da < 0x10000000000000 then d else
  let need := (piecesOf da n).filter fun p => (gotFor d who p).isNone
    && !(d.fab.wants.any fun w => decide (w.who = who) && decide (w.da ≤ p.1) && decide (p.1 + p.2 ≤ w.da + w.n))
    && !(d.fab.reqs.any fun r => decide (r.who = who) && !r.write && decide (r.da ≤ p.1) && decide (p.1 + p.2 ≤ r.da + r.n))
  { d with fab := { d.fab with wants := d.fab.wants ++ need.map fun p => ⟨who, p.1, p.2⟩ } }

/-- An access is over: what came back for it is forgotten. -/
def Dev.dropGot (d : Dev) (mine : Who → Bool) : Dev :=
  if d.fab.got = [] ∧ d.fab.wants = [] then d
  else { d with fab := { d.fab with got := d.fab.got.filter fun g => !mine g.who, wants := d.fab.wants.filter fun w => !mine w.who } }

/-- An access of an execution of a furrow. -/
def Who.ofFurrow (inst fid : Nat) : Who → Bool
  | .unit i f _ => decide (i = inst) && decide (f = fid)
  | _ => false

/-- A DA lies in a range that the running domain cycle holds (R565). -/
def daHeld (d : Dev) (da : Nat) : Bool := match d.pwr.cycle, daPlace da with
  | none, _ => false
  | some _, .hot die _ => heldPool d == some die
  | some _, .warm q _ => heldPool d == some (4 + q)
  | some _, _ => false

/-- A store ends the reservations of this plot's threads on the bytes it touches, by the
address the plot reaches them at (R38; PRESUMED, log 4). -/
def clearResv (p : Plot) (a n : Nat) : Plot :=
  { p with threads := p.threads.map fun e => match e.2.resv with
    | some r => if r < a + n ∧ a < r + 8 then (e.1, { e.2 with resv := none }) else e
    | none => e }

/-- A store to the hot tier ends the reservations of every thread on the bytes it touches (R38; PRESUMED, log 4). -/
def Dev.clearResvDa (d : Dev) (da n : Nat) : Dev :=
  if d.plots.any (fun e => e.2.threads.any fun t => t.2.resv.isSome) then
    { d with plots := d.plots.map fun e => (e.1, clearResv e.2 (2 ^ 63 + da) n) }
  else d

/-- A demand read. Bytes of a neighbour window come from its lender (R499); a held range waits (R565). -/
def Mod.demandRead (m : Mod) (who : Who) (da n : Nat) : Except FaultKind (List Byte) :=
  match accessFault m.dev false da n with
  | some f => .error f
  | none => if daHeld m.dev da then .error (.remoteWait da n) else match daPlace da with
    | .sram p off => match physOf m.dev.base p with
      | some i =>
        let pl := m.dev.plot i
        .ok ((List.range n).map fun j =>
          if off + j < 0x100000 then kget 0 pl.sram (off + j) else kget 0 pl.store (off + j - 0x100000))
      | none => .error (.daUnmapped da)
    | .window _ _ => windowRead m.dev who da n
    | _ => .ok (m.load da n)

/-- A demand write. A write into a furrow-store half that is ACTIVE is refused (R70). Bytes for a neighbour window go to
its lender (R499); a held range waits (R565). -/
def Mod.demandWrite (m : Mod) (who : Who) (da : Nat) (bs : List Byte) : Except FaultKind Mod :=
  match accessFault m.dev true da bs.length with
  | some f => .error f
  | none => if daHeld m.dev da then .error (.remoteWait da bs.length) else match daPlace da with
    | .sram p off => match physOf m.dev.base p with
      | some i =>
        let pl := m.dev.plot i
        if off < 0x100000 then
          let k := 0x100000 - off
          .ok (m.onDev fun d => d.setPlot i { pl with
            sram := writeRun pl.sram off (bs.take k), threads := (clearResv pl off bs.length).threads, store := if k < bs.length then writeRun pl.store 0 (bs.drop k) else pl.store })
        else if storeBusy pl (off - 0x100000) then
          .ok (m.onDev fun d => d.raise evFurrowStoreBusy { d := da } 0 p)
        else .ok (m.onDev fun d => d.setPlot i { pl with store := writeRun pl.store (off - 0x100000) bs })
      | none => .error (.daUnmapped da)
    | .window _ _ => .ok (m.onDev fun d => { d with fab := { d.fab with winOut := d.fab.winOut ++ [⟨who, da, bs⟩] } })
    | _ => .ok ((m.store da bs).onDev fun d => d.clearResvDa da bs.length)

end Sys2Proof.Machine
end

