-- ==== Sys2Proof/Machine/Operands.lean ====
section
/-!
DEFINITION. The furrow record (Tables 2.4 to 2.6), its operands in every space, and how an execution reads and writes
them (R48, R62, R63, R113 to R115, R128, R243, R404).
-/

namespace Sys2Proof.Machine

/-! ## The record -/

/-- Bits [hi:lo] of the furrow header (Table 2.5). -/
def recHdr (r : List Byte) (hi lo : Nat) : Nat := bitsOf (fieldAt r 0 16) hi lo
/-- OPC. -/
def recOpc (r : List Byte) : Nat := recHdr r 7 0
/-- REPEAT. -/
def recRepeat (r : List Byte) : Nat := recHdr r 47 32
/-- A header bit. -/
def recBit (r : List Byte) (i : Nat) : Bool := recHdr r i i == 1
/-- CTRL (bytes 56–63). -/
def recCtrl (r : List Byte) : Nat := fieldAt r 56 8
/-- Bits [hi:lo] of CTRL. -/
def ctrlBits (r : List Byte) (hi lo : Nat) : Nat := bitsOf (recCtrl r) hi lo
/-- Sk: the signed stride of operand k (bytes 48–55). -/
def recStride (r : List Byte) (k : Nat) : Int := sext 16 (fieldAt r (48 + 2 * k) 2)

/-- An operand descriptor (Table 2.6). -/
structure Opd where
  /-- SPACE. -/
  space : Nat
  /-- FMT. -/
  fmt : Nat
  /-- ADDR. -/
  addr : Nat
  deriving DecidableEq, Repr

/-- Operand k of a record. -/
def recOpd (r : List Byte) (k : Nat) : Opd :=
  let w := fieldAt r (16 + 8 * k) 8
  ⟨bitsOf w 63 60, bitsOf w 59 56, bitsOf w 55 0⟩

/-- Format of an operand; the reserved selectors never issue (R46). -/
def Opd.format (o : Opd) : Fmt := (Fmt.ofCode o.fmt).getD .fp32

/-- Operand spaces of Table 2.6. -/
def spNone : Nat := 0
/-- SRAM. -/
def spSram : Nat := 1
/-- TILE. -/
def spTile : Nat := 2
/-- VREG. -/
def spVreg : Nat := 3
/-- DA. -/
def spDa : Nat := 4
/-- SREG. -/
def spSreg : Nat := 5
/-- IMM. -/
def spImm : Nat := 6

/-- Base of operand k in execution `i` (R62): a byte address for SRAM and DA, a register number otherwise. -/
def opdBase (r : List Byte) (k i : Nat) : Int :=
  let o := recOpd r k
  let s := recStride r k
  if o.space = spSram ∨ o.space = spDa then (o.addr : Int) + 64 * (i : Int) * s
  else if o.space = spTile then ((o.addr : Int) + (i : Int) * s) % 16
  else if o.space = spVreg then ((o.addr : Int) + (i : Int) * s) % 32
  else (o.addr : Int)

/-! ## Reading and writing bytes -/

/-- Where the plot's replica area begins (R243). -/
def replicaBase (b : BaseState) : Nat := 0xFC000 - 4096 * cfgPlotReplCfgSize b

/-- A furrow write into [a, a + n) of a plot's SRAM is a demand fault: past the end (R63), the statistics store (R128),
the replica area (R243), the replay area of a training plot (R404). -/
def sramWriteFault (b : BaseState) (inst a n : Nat) : Option FaultKind :=
  let training := match logicalOf b inst with
    | some p => !isExpress b p
    | none => false
  let lo := replicaBase b - (if training then 0x8000 * cfgChkCfgBrwarea b else 0)
  let hi := if cfgPlotArithModeStatsEn b = 1 then 0x100000 else 0xFC000
  if 0x100000 < a + n then some (.sramRange a)
  else if lo < a + n ∧ a < hi ∧ lo < hi then some (.sramRange a) else none

/-- `n` bytes at `off` past the base of operand k, which lies in SRAM or at a DA. -/
def readOpd (m : Mod) (inst : Nat) (e : Exec) (k off n : Nat) : Except FaultKind (List Byte) :=
  let o := recOpd e.record k
  let a := opdBase e.record k e.index + off
  if o.space = spSram then
    if a < 0 ∨ 0x100000 < a + n then .error (.sramRange a.toNat)
    else .ok (readRun (m.dev.plot inst).sram a.toNat n)
  else if o.space = spDa then
    if a < 0 then .error (.daUnmapped 0) else m.demandRead (.unit inst e.fid e.index) a.toNat n
  else .ok (zeros n)

/-- Write bytes at `off` past the base of operand k, which lies in SRAM or at a DA. -/
def writeOpd (m : Mod) (inst : Nat) (e : Exec) (k off : Nat) (bs : List Byte) : Except FaultKind Mod :=
  let o := recOpd e.record k
  let a := opdBase e.record k e.index + off
  if o.space = spSram then
    if a < 0 then .error (.sramRange 0)
    else match sramWriteFault m.dev.base inst a.toNat bs.length with
      | some f => .error f
      | none => .ok (m.onDev fun d => d.modPlot inst fun p =>
        { clearResv p a.toNat bs.length with sram := writeRun p.sram a.toNat bs })
  else if o.space = spDa then
    if a < 0 then .error (.daUnmapped 0) else m.demandWrite (.unit inst e.fid e.index) a.toNat bs
  else .ok m

/-! ## Rows of elements -/

/-- Bytes from one row to the next: a stride in 64-byte units, or packed where it is 0 (R113, R115). -/
def rowPitch (f : Fmt) (cols units : Nat) : Nat :=
  if units ≠ 0 then units * 64 else if f.isMx then alignUp 64 (f.rowBytes cols) else f.rowBytes cols

/-- Element (r, c) of a tile or vector register operand, as its FP32 word. -/
def regElem (p : Plot) (space reg r c : Nat) : Nat :=
  if space = spTile then (kget 0 p.tiles (1024 * reg + (32 * r + c) % 1024)).toNat
  else (kget 0 p.vregs (32 * ((reg + r) % 32) + c % 32)).toNat

/-- Rows of exact values of operand k. -/
def readRows (m : Mod) (inst : Nat) (e : Exec) (k rows cols units : Nat) :
    Except FaultKind (List (List Num)) :=
  let o := recOpd e.record k
  let f := o.format
  if o.space = spTile ∨ o.space = spVreg then
    let p := m.dev.plot inst
    let reg := (opdBase e.record k e.index).toNat
    .ok ((List.range rows).map fun r => (List.range cols).map fun c => ofF32 (regElem p o.space reg r c))
  else
    let pitch := rowPitch f cols units
    match readOpd m inst e k 0 ((rows - 1) * pitch + f.rowBytes cols) with
    | .error x => .error x
    | .ok bs => .ok ((List.range rows).map fun r => f.decodeRow cols ((bs.drop (r * pitch)).take (f.rowBytes cols)))

/-- Rows written one after another in a format, each drawing in order (R125). -/
def encodeRows (f : Fmt) (fixed : Option Int) : Rounding → List (List Num) → List (List Byte) × ConvCount × Rounding
  | rd, [] => ([], .none, rd)
  | rd, r :: rs =>
    let x := f.encodeRow fixed rd r
    let rest := encodeRows f fixed x.rd rs
    (x.bytes :: rest.1, x.cnt.add rest.2.1, rest.2.2)

/-- Write encoded rows at their pitch. -/
def writeRowBytes (m : Mod) (inst : Nat) (e : Exec) (k pitch : Nat) : Nat → List (List Byte) → Except FaultKind Mod
  | _, [] => .ok m
  | i, r :: rs => match writeOpd m inst e k (i * pitch) r with
    | .error x => .error x
    | .ok m' => writeRowBytes m' inst e k pitch (i + 1) rs

/-- Put FP32 words into a tile or vector register. -/
def putReg (p : Plot) (space reg : Nat) (rows : List (List Nat)) : Plot :=
  (rows.zipIdx).foldl (fun p rw => (rw.1.zipIdx).foldl (fun p cw =>
    if space = spTile then
      { p with tiles := kset 0 p.tiles (1024 * reg + (32 * rw.2 + cw.2) % 1024) (BitVec.ofNat 32 cw.1) }
    else { p with vregs := kset 0 p.vregs (32 * ((reg + rw.2) % 32) + cw.2 % 32) (BitVec.ofNat 32 cw.1) }) p) p

/-- What a write of rows leaves: the module, the bytes in output order (R407), what was counted, the rounding. -/
structure Wrote where
  /-- The module. -/
  m : Mod
  /-- The bytes written, in output-position order. -/
  image : List Byte
  /-- Counts. -/
  cnt : ConvCount
  /-- Rounding state after. -/
  rd : Rounding
  deriving DecidableEq, Repr

/-- Convert rows into the format of operand k and write them there (R117 to R123, R163, R186). -/
def writeRows (m : Mod) (inst : Nat) (e : Exec) (k : Nat) (fixed : Option Int) (rd : Rounding) (units : Nat)
    (rows : List (List Num)) : Except FaultKind Wrote :=
  let o := recOpd e.record k
  let f := o.format
  let x := encodeRows f fixed rd rows
  if o.space = spTile ∨ o.space = spVreg then
    let reg := (opdBase e.record k e.index).toNat
    let codes := x.1.map fun b => unpack 32 (b.length / 4) b
    .ok ⟨m.onDev fun d => d.modPlot inst fun p => putReg p o.space reg codes, x.1.flatten, x.2.1, x.2.2⟩
  else
    let cols := match rows with
      | r :: _ => r.length
      | [] => 0
    match writeRowBytes m inst e k (rowPitch f cols units) 0 x.1 with
    | .error y => .error y
    | .ok m' => .ok ⟨m', x.1.flatten, x.2.1, x.2.2⟩

/-- The rounding of an execution (R118, R126, R127): stochastic where SR = 1 and SR_ALLOW = 1. -/
def modeRounding (b : BaseState) (e : Exec) : Rounding :=
  let inf := cfgPlotArithModeInfOnOverflow b == 1
  if recBit e.record 20 && cfgPlotArithModeSrAllow b == 1 then
    ⟨some (srSeed e.step.toNat (recHdr e.record 111 96) (recHdr e.record 127 112) e.stream e.entry e.index), inf⟩
  else ⟨none, inf⟩

/-! ## Statistics (R129, Table 3.6) -/

/-- floor(log2 |v|) + 127 held to 1–254, 0 for a value that is zero or not finite. -/
def statExp (x : Num) : Nat :=
  match x with
  | .fin _ m e => if m = 0 then 0 else (max 1 (min 254 (floorLog2 m e + 127))).toNat
  | _ => 0

/-- The largest of them. -/
def statMax (xs : List (List Num)) : Nat := xs.foldl (fun a r => r.foldl (fun a x => max a (statExp x)) a) 0

/-- What an execution adds to its furrow's record: OUTMAXE, AMAXE, BMAXE, SATCNT, UFLCNT, NANCNT. -/
def mergeStats (a b : List Nat) : List Nat :=
  [max (nth 0 a 0) (nth 0 b 0), max (nth 0 a 1) (nth 0 b 1), max (nth 0 a 2) (nth 0 b 2),
   min 4095 (nth 0 a 3 + nth 0 b 3), min 4095 (nth 0 a 4 + nth 0 b 4), min 4095 (nth 0 a 5 + nth 0 b 5)]

/-- The statistics record of an entry as a word (Table 3.6). -/
def statWord (s : List Nat) (valid : Bool) : Nat :=
  nth 0 s 0 * 2 ^ 56 + nth 0 s 1 * 2 ^ 48 + nth 0 s 2 * 2 ^ 40 + nth 0 s 3 * 2 ^ 28 + nth 0 s 4 * 2 ^ 16
    + nth 0 s 5 * 16 + (if valid then 1 else 0)

/-- What an execution answers when it does not fault. -/
structure Ran where
  /-- The module. -/
  m : Mod
  /-- Result image (R407). -/
  image : List Byte
  /-- Statistics to merge. -/
  stats : List Nat
  /-- Conversion counts (R120). -/
  cnt : ConvCount
  deriving DecidableEq, Repr

/-- An execution's statistics from its output, its operands and its counts. -/
def statsOf (out a b : List (List Num)) (c : ConvCount) : List Nat := [statMax out, statMax a, statMax b, c.sat, c.ufl, c.nan]

end Sys2Proof.Machine
end

