-- ==== Sys2Proof/Machine/Vector.lean ====
section
/-!
DEFINITION. The vector engine's arithmetic: the stage chain of VCHAIN and the reductions (05_vector_engine).
-/

namespace Sys2Proof.Machine

/-! ## Stages (Table 5.1) -/

/-- A unary or binary stage operation on exact FP32 values, before its rounding (R184, R185, Table 5.3). -/
def stageOp (op : Nat) (x y : Num) : Num :=
  match op with
  | 1 => x.add y
  | 2 => x.sub y
  | 3 => y.sub x
  | 4 => x.mul y
  | 5 => x.div y
  | 7 => x.min y
  | 8 => x.max y
  | 9 => (x.max y.abs.neg).min y.abs
  | 10 => if y.lt x then .one else .zero
  | 11 => x.abs
  | 12 => x.neg
  | 13 => x.sqrt
  | 14 => x.rsqrt
  | 15 => Num.one.div x
  | 16 => x.exp
  | 17 => x.ln
  | 18 => if x.isNan then .nan else if Num.zero.lt x then x else .zero
  | 19 => x.gelu
  | 20 => x.silu
  | 21 => x.sigm
  | 22 => x.tanh
  | _ => x

/-- x × p + q with one rounding to come (FMA, R185). -/
def fmaOp (x p q : Num) : Num := (x.mul p).add q

/-- An activation of MATMUL's epilogue (Table 4.2 ACT), as the stage of the same name computes it (R166). -/
def activation (act : Nat) (x : Num) : Num :=
  match act with
  | 1 => round32 (stageOp 18 x .zero)
  | 2 => round32 (stageOp 19 x .zero)
  | 3 => round32 (stageOp 20 x .zero)
  | 4 => round32 (stageOp 21 x .zero)
  | 5 => round32 (stageOp 22 x .zero)
  | _ => x

/-- A stage code that needs a second operand. -/
def stageBinary (op : Nat) : Bool := decide ((1 ≤ op ∧ op ≤ 10) ∧ op ≠ 6)

/-- Stage code s of CTRL (R181): operation and source. -/
def stageCode (r : List Byte) (s : Nat) : Nat × Nat :=
  let c := ctrlBits r (8 * s + 7) (8 * s)
  (c / 8, c % 8)

/-- The stage codes of a chain, up to the first 0x00. -/
def chainCodes (r : List Byte) : List (Nat × Nat) :=
  ((List.range 8).map (stageCode r)).takeWhile fun c => c ≠ (0, 0)

/-- The 256-byte slot of stage s: P and Q as FP32 (R182). -/
def slotP (tab : List Byte) (s i : Nat) : Num := ofF32 (fieldAt tab (256 * s + 4 * i) 4)
/-- Q of a slot. -/
def slotQ (tab : List Byte) (s i : Nat) : Num := ofF32 (fieldAt tab (256 * s + 128 + 4 * i) 4)

/-- The value of a scalar operand (R179): FP32 in bits [31:0], BF16 and FP16 in [15:0]. -/
def scalarOpd (e : Exec) (k : Nat) : Num :=
  let o := recOpd e.record k
  let w := if o.space = spImm then o.addr % 2 ^ 32 else (nth 0#64 e.srv k).toNat
  o.format.decode (w % 2 ^ o.format.bits)

/-- The rows that an input operand of a VCHAIN supplies (R178, R180): widened to FP32. -/
def chainInput (m : Mod) (inst : Nat) (e : Exec) (k rows : Nat) : Except FaultKind (List (List Num)) :=
  let o := recOpd e.record k
  if o.space = spNone then .ok ((List.range rows).map fun _ => List.replicate 32 .zero)
  else if o.space = spSreg ∨ o.space = spImm then
    .ok ((List.range rows).map fun _ => List.replicate 32 (round32 (scalarOpd e k)))
  else if o.space = spVreg then
    let p := m.dev.plot inst
    let v := (opdBase e.record k e.index).toNat
    .ok ((List.range rows).map fun _ => (List.range 32).map fun c => ofF32 (regElem p spVreg v 0 c))
  else match readRows m inst e k rows 32 0 with
    | .error x => .error x
    | .ok rs => .ok (rs.map fun r => r.map round32)

/-- An element of a wide partial record (Table 4.4, R146) on the grid of its anchor. -/
def wideElem (l : List Byte) (o : Nat) : Wide :=
  let v := fieldAt l o 32
  ⟨sext 208 v, bitOf v 208, bitOf v 209, bitOf v 210, bitOf v 211, bitOf v 212⟩

/-- The bytes of an element. -/
def wideElemBytes (w : Wide) : List Byte :=
  leBytes 32 (modPow 208 w.x + (if w.nan then 2 ^ 208 else 0) + (if w.pinf then 2 ^ 209 else 0)
    + (if w.ninf then 2 ^ 210 else 0) + (if w.term then 2 ^ 211 else 0) + (if w.notneg0 then 2 ^ 212 else 0))

/-- Second operand of a stage for element (r, c) (Table 5.2). -/
def stageSrc (tab : List Byte) (b : List (List Num)) (s src r c : Nat) (a : Num) : Num :=
  match src with
  | 1 => nth .zero (nth [] b r) c
  | 2 => nth .zero (nth [] b 0) r
  | 3 => slotP tab s c
  | 4 => slotP tab s r
  | 5 => slotP tab s 0
  | 6 => a
  | _ => .zero

/-- Stages s, s + 1, … of a chain on one element (R184). -/
def runStages (tab : List Byte) (b : List (List Num)) (r c : Nat) (a : Num) : Nat → List (Nat × Nat) → Num → Num
  | _, [], x => x
  | s, (op, src) :: l, x =>
    let y := stageSrc tab b s src r c a
    let x' :=
      if op = 6 then
        let q := match src with
          | 3 => slotQ tab s c
          | 4 => slotQ tab s r
          | _ => slotQ tab s 0
        round32 (fmaOp x y q)
      else if op = 24 then x
      else round32 (stageOp op x y)
    runStages tab b r c a (s + 1) l x'

/-- Convert rows under FIXED scales, raising e_fix while more than SATLIM elements saturate (R168, R188): the e_fix
used, how many replays ran, and whether the last of 8 still saturated too many. -/
def epilogueFix (f : Fmt) (rd : Rounding) (satlim : Nat) (rows : List (List Num)) : Nat → Int → Int × Nat × Bool
  | 0, e => (e, 0, decide (satlim < (encodeRows f (some e) rd rows).2.1.sat))
  | n + 1, e =>
    if (encodeRows f (some e) rd rows).2.1.sat ≤ satlim then (e, 0, false)
    else if 127 ≤ e then (e, 0, false)
    else
      let x := epilogueFix f rd satlim rows n (e + 1)
      (x.1, x.2.1 + 1, x.2.2)

/-- A furrow's in-flight entry changed. -/
def modInflight (p : Plot) (fid : Nat) (f : InFlight → InFlight) : Plot :=
  { p with seq := { p.seq with inflight := p.seq.inflight.map fun x => if x.fid = fid then f x else x } }

/-- The in-flight entry of a furrow. -/
def inflightOf (p : Plot) (fid : Nat) : Option InFlight := p.seq.inflight.find? fun x => x.fid = fid

/-- The logical plot of an instance, 0 where it has none. -/
def unitOf (b : BaseState) (inst : Nat) : Nat := (logicalOf b inst).getD 0

/-- Keep a raised e_fix for the furrow's later executions, count the replays, and report the limit (R168). -/
def noteReplays (m : Mod) (inst : Nat) (e : Exec) (efix : Int) (replays : Nat) (limit : Bool) : Mod :=
  m.onDev fun d =>
    let d := if replays = 0 then d else
      (d.modPlot inst fun p => modInflight p e.fid fun x => { x with efix := some efix }).count cEpiReplay inst replays
    if limit then d.raise evEpiReplayLimit { entry := e.entry, exec := e.index } (instDie inst) (unitOf d.base inst) else d

/-- One VCHAIN execution (R177 to R188). -/
def runVchain (m : Mod) (inst : Nat) (e : Exec) : Except FaultKind Ran :=
  let r := e.record
  let o3 := recOpd r 3
  let rows := if o3.space = spVreg then 1 else 32
  let codes := chainCodes r
  let wide := (codes.headD (0, 0)).1 == 23
  match readOpd m inst e 2 0 (if (recOpd r 2).space = spSram then 2048 else 0) with
  | .error x => .error x
  | .ok tab =>
  match (if wide then
      match readOpd m inst e 0 0 32832 with
      | .error x => .error x
      | .ok rec =>
        let al := sext 10 (fieldAt rec 0 2)
        .ok ((List.range 32).map fun i => (List.range 32).map fun c =>
          let v := (wideElem rec (64 + 32 * (32 * i + c))).read (al - 184)
          match (codes.headD (0, 0)).2 with
          | 4 => round32 (fmaOp v (slotP tab 0 i) (slotQ tab 0 i))
          | 5 => round32 (fmaOp v (slotP tab 0 0) (slotQ tab 0 0))
          | _ => round32 (fmaOp v (slotP tab 0 c) (slotQ tab 0 c)))
    else chainInput m inst e 0 rows) with
  | .error x => .error x
  | .ok a =>
  match chainInput m inst e 1 rows with
  | .error x => .error x
  | .ok b =>
    let rest := if wide then codes.drop 1 else codes
    let s0 := if wide then 1 else 0
    let out := (a.zipIdx).map fun rw => (rw.1.zipIdx).map fun cw => runStages tab b rw.2 cw.2 cw.1 s0 rest cw.1
    let rd := modeRounding m.dev.base e
    let epi := decide ((codes.getLastD (0, 0)).1 = 24) && o3.format.isMx
    let slot := codes.length - 1
    let prev := (inflightOf (m.dev.plot inst) e.fid).bind (·.efix)
    let e0 : Int := prev.getD (sext 8 (fieldAt tab (256 * slot) 1))
    let fx := epilogueFix o3.format rd (fieldAt tab (256 * slot + 2) 2) out 8 e0
    let m1 := if epi then noteReplays m inst e fx.1 fx.2.1 fx.2.2 else m
    match writeRows m1 inst e 3 (if epi then some fx.1 else none) rd 0 out with
    | .error x => .error x
    | .ok w => .ok ⟨w.m, w.image, statsOf out a [] w.cnt, w.cnt⟩

/-! ## Reductions (R189 to R197) -/

/-- The grid of the wide reduction registers. -/
def redGrid : Int := -298

/-- The elements of line j of a tile, FP32 words (05, "Reductions": AXIS 0 along rows). -/
def tileLine (p : Plot) (tile axis j : Nat) : List Nat :=
  (List.range 32).map fun i => (kget 0 p.tiles (1024 * tile + (if axis = 0 then 32 * j + i else 32 * i + j))).toNat

/-- A wide reduction register's bits (Table 5.5). -/
def wideLineBytes (w : Wide) : List Byte :=
  leBytes 80 (modPow 600 w.x + (if w.nan then 2 ^ 600 else 0) + (if w.pinf then 2 ^ 601 else 0)
    + (if w.ninf then 2 ^ 602 else 0) + (if w.term then 2 ^ 603 else 0) + (if w.notneg0 then 2 ^ 604 else 0))

/-- A wide reduction record (Table 5.5): `q` for the sums of squares. -/
def redRecord (p : Plot) (q : Bool) : List Byte :=
  leBytes 4 p.redN.toNat ++ leBytes 1 (if q then 1 else 0) ++ zeros 59
    ++ ((List.range 32).map fun j => wideLineBytes (kget Wide.zero p.red ((if q then 32 else 0) + j))).flatten

/-- The registers cleared, as a REDUCE with WIDE = 0 does at issue (R190). -/
def clearRed (p : Plot) : Plot := { p with red := [], redN := 0, redX := [] }

/-- Add one tile to the registers (R190, R193). -/
def addTile (p : Plot) (tile axis op : Nat) : Plot :=
  (List.range 32).foldl (fun p j =>
    let xs := tileLine p tile axis j
    let s := (xs.map ofF32).foldl (Wide.add redGrid) (kget Wide.zero p.red j)
    let q := (xs.map fun w => (ofF32 w).mul (ofF32 w)).foldl (Wide.add redGrid) (kget Wide.zero p.red (32 + j))
    let pick := fun (a : Nat) (w : Nat) => toF32 (if op = 1 then (ofF32 a).max (ofF32 w) else (ofF32 a).min (ofF32 w))
    let x := match kfind p.redX j, xs with
      | some v, xs => xs.foldl pick v.toNat
      | none, w :: ws => ws.foldl pick w
      | none, [] => 0
    { p with
      red := kset Wide.zero (kset Wide.zero p.red j s) (32 + j) q
      redX := if op = 1 ∨ op = 2 then kput p.redX j (BitVec.ofNat 32 x) else p.redX }) p

/-- Line j of a tile holds an element other than ±0 (R195). -/
def lineMarked (p : Plot) (tile axis j : Nat) : Bool := (tileLine p tile axis j).any fun w => w % 2 ^ 31 != 0

/-- One REDUCE execution: the tile added, or the presence bits written (R190, R191, R195). -/
def runReduce (m : Mod) (inst : Nat) (e : Exec) : Except FaultKind Ran :=
  let op := ctrlBits e.record 2 0
  let axis := ctrlBits e.record 3 3
  let wide := ctrlBits e.record 4 4
  let tile := (opdBase e.record 0 e.index).toNat
  let p := m.dev.plot inst
  if op = 5 then
    let marks := (List.range 32).map (lineMarked p tile axis)
    let image := fun (bs : List Byte) (m' : Mod) =>
      Ran.mk m' (bs ++ redRecord p false ++ redRecord p true) [0, 0, 0, 0, 0, 0] .none
    if wide = 0 then
      let bs := leBytes 4 (packBits 1 (marks.map fun b => if b then 1 else 0))
      match writeOpd m inst { e with index := 0 } 1 (4 * e.index) bs with
      | .error x => .error x
      | .ok m' => .ok (image bs m')
    else match readOpd m inst { e with index := 0 } 1 (e.index / 8) 1 with
      | .error x => .error x
      | .ok old =>
        let v := withBits (leNat old) (e.index % 8) (e.index % 8) (if marks.any id then 1 else 0)
        match writeOpd m inst { e with index := 0 } 1 (e.index / 8) (leBytes 1 v) with
        | .error x => .error x
        | .ok m' => .ok (image (leBytes 1 v) m')
  else if 2 ^ 32 ≤ p.redN.toNat + 32 then .error .countWrap
  else
    let p' := { addTile p tile axis op with redN := p.redN + 32 }
    let rows := (List.range 32).map fun j => (tileLine p tile axis j).map ofF32
    .ok ⟨m.onDev fun d => d.setPlot inst p', redRecord p' false ++ redRecord p' true,
      [0, statMax rows, 0, 0, 0, 0], .none⟩

/-- The mean of line j: Sj / N, exact up to a sticky bit (R193). -/
def redMean (p : Plot) (j : Nat) : Num :=
  ((kget Wide.zero p.red j).read redGrid).div (.fin false p.redN.toNat 0)

/-- The population variance of line j: (N × Qj - Sj²) / N² (R193). -/
def redVar (p : Plot) (j : Nat) : Num :=
  let s := kget Wide.zero p.red j
  let q := kget Wide.zero p.red (32 + j)
  let n := p.redN.toNat
  if s.nan || s.pinf || s.ninf || q.nan || q.pinf then .nan
  else
    -- Qj lies on the grid 2^-298 and Sj² on 2^-596
    let v : Int := (n : Int) * q.x * (2 ^ 298 : Nat) - s.x * s.x
    if v ≤ 0 then .zero else quot false v.natAbs (n * n) (-596)

/-- The 32 results of a finished REDUCE for its first output (R193). -/
def redResults (p : Plot) (op : Nat) : List Num :=
  (List.range 32).map fun j =>
    match op with
    | 0 => (kget Wide.zero p.red j).read redGrid
    | 3 => (kget Wide.zero p.red (32 + j)).read redGrid
    | 4 => redMean p j
    | _ => ofF32 (kget 0 p.redX j).toNat

/-- Write the results of a REDUCE when its furrow completes (R192, R193, Table 5.4). -/
def finishReduce (m : Mod) (inst : Nat) (e : Exec) : Except FaultKind Ran :=
  let op := ctrlBits e.record 2 0
  let p := m.dev.plot inst
  let e0 := { e with index := 0 }
  let rd := modeRounding m.dev.base e
  if op = 5 ∨ p.redN = 0 then .ok ⟨m, [], [0, 0, 0, 0, 0, 0], .none⟩
  else if (recOpd e.record 1).format = .int32 then
    match writeOpd m inst e0 1 0 (redRecord p (decide (op = 3))) with
    | .error x => .error x
    | .ok m1 =>
      if op = 4 then match writeOpd m1 inst e0 2 0 (redRecord p true) with
        | .error x => .error x
        | .ok m2 => .ok ⟨m2, [], [0, 0, 0, 0, 0, 0], .none⟩
      else .ok ⟨m1, [], [0, 0, 0, 0, 0, 0], .none⟩
  else
    let out := redResults p op
    match writeRows m inst e0 1 none rd 0 [out] with
    | .error x => .error x
    | .ok w =>
      if op = 4 then
        let vs := (List.range 32).map (redVar p)
        match writeRows w.m inst e0 2 none w.rd 0 [vs] with
        | .error x => .error x
        | .ok w2 => .ok ⟨w2.m, [], statsOf [out, vs] [] [] (w.cnt.add w2.cnt), w.cnt.add w2.cnt⟩
      else .ok ⟨w.m, [], statsOf [out] [] [] w.cnt, w.cnt⟩

end Sys2Proof.Machine
end

