-- ==== Sys2Proof/Machine/Matrix.lean ====
section
/-!
DEFINITION. The matrix unit: exact products in a window, the anchor raise, the output path, the epilogue, sparsity,
wide partial records, and POOL (04_matrix_unit R133 to R176, 06_tables_and_gather R247 to R251).
-/

namespace Sys2Proof.Machine

/-! ## The window (R143, R144, R147) -/

/-- The first magnitude outside the window, in units of the grid. -/
def winTop : Int := (2 ^ 207 : Nat)

/-- A finite value whose magnitude is at least 2^(α + 23) (R147). -/
def tooLarge (al : Int) (t : Num) : Bool :=
  match t with
  | .fin _ m e => m != 0 && decide (al + 23 ≤ floorLog2 m e)
  | _ => false

/-- An integer on the grid of anchor α as a value. -/
def gridNum (al x : Int) : Num := ofAligned false x (al - 184)

/-- Add a group of terms to an element: the element and the terms that lost bits, or the value that raises the
anchor (R142, R144, R146, R147). -/
def addGroup (al : Int) (w : Wide) (ts : List Num) : Except Num (Wide × Nat) :=
  match ts.find? (tooLarge al) with
  | some t => .error t
  | none =>
    let gs := ts.map fun t => gridInt t (al - 184)
    let s := sumInt (gs.map (·.1))
    let lost := (gs.filter (·.2)).length
    if winTop ≤ s.natAbs then .error (gridNum al s)
    else
      let x := w.x + s
      if x < -winTop ∨ winTop ≤ x then .error (gridNum al x)
      else .ok ({ ts.foldl Wide.flag w with x := x }, lost)

/-- An element moved to a higher anchor, truncated toward zero (R149, R157), and whether it lost a bit. -/
def shiftElem (by_ : Nat) (w : Wide) : Wide × Bool :=
  let k := w.x.natAbs / 2 ^ by_
  ({ w with x := if w.x < 0 then -(k : Int) else k }, decide (w.x.natAbs % 2 ^ by_ ≠ 0))

/-- A tile moved up, and how many elements lost a bit. -/
def shiftTile (by_ : Nat) (ws : List Wide) : List Wide × Nat :=
  if by_ = 0 then (ws, 0) else
    let r := ws.map (shiftElem by_)
    (r.map (·.1), (r.filter (·.2)).length)

/-- The new anchor of a raise (R148). -/
def raisedAnchor (al : Int) (x : Num) : Int :=
  match x with
  | .fin _ m e => max (al + 1) (floorLog2 m e - 15)
  | _ => al + 1

/-- Groups added to one element in order. -/
def addGroups (al : Int) : Wide × Nat → List (List Num) → Except Num (Wide × Nat)
  | acc, [] => .ok acc
  | (w, n), g :: gs => match addGroup al w g with
    | .error x => .error x
    | .ok (w', k) => addGroups al (w', n + k) gs

/-- The state of a tile while an execution runs. -/
structure TileRun where
  /-- Anchor. -/
  al : Int
  /-- Elements in position order. -/
  elems : List Wide
  /-- Terms that lost bits in this pass, with the restores before it. -/
  lost : Nat
  /-- Raises. -/
  raises : Nat
  /-- INEXCNT taken over from partial records (R157). -/
  inexIn : Nat
  /-- INEXACT taken over from partial records (R157). -/
  inexOr : Bool
  deriving DecidableEq, Repr

/-- One group added to each element of a row, or the value that raises the anchor (R135: 32 group sums per K block). -/
def addRowGroups (al : Int) : List Wide → List (List Num) → Except Num (List Wide × Nat)
  | w :: ws, g :: gs => match addGroup al w g with
    | .error x => .error x
    | .ok (w', n) => match addRowGroups al ws gs with
      | .error x => .error x
      | .ok (rest, k) => .ok (w' :: rest, n + k)
  | ws, _ => .ok (ws, 0)

/-- The groups of a row, K block by K block. -/
def addRowBlocks (al : Int) : List Wide × Nat → List (List (List Num)) → Except Num (List Wide × Nat)
  | acc, [] => .ok acc
  | (ws, n), b :: bs => match addRowGroups al ws b with
    | .error x => .error x
    | .ok (ws', k) => addRowBlocks al (ws', n + k) bs

/-- A pass over rows of elements: each row with its blocks of groups (R135). -/
def passRows (al : Int) : List (List Wide × List (List (List Num))) → Except Num (List (List Wide) × Nat)
  | [] => .ok ([], 0)
  | (ws, bs) :: l => match addRowBlocks al (ws, 0) bs with
    | .error x => .error x
    | .ok (ws', n) => match passRows al l with
      | .error x => .error x
      | .ok (rest, k) => .ok (ws' :: rest, n + k)

/-- Run the rows' groups on a tile, raising the anchor and starting again as often as it takes (R147 to R149). The
anchor rises at every raise and never passes 286 (R152), so 1,024 rounds always end it. -/
def runGroups (width : Nat) (groups : List (List (List (List Num)))) : Nat → TileRun → TileRun
  | 0, t => t
  | fuel + 1, t =>
    match passRows t.al ((chunks width t.elems.length t.elems).zip groups) with
    | .ok (rows, n) => { t with elems := rows.flatten, lost := t.lost + n }
    | .error x =>
      let al' := raisedAnchor t.al x
      let s := shiftTile (al' - t.al).toNat t.elems
      runGroups width groups fuel
        { t with al := al', elems := s.1, lost := t.lost + s.2, raises := t.raises + 1 }

/-! ## Operands of MATMUL -/

/-- Products of one A row block and one B row block of 32: A and B elements that are kept (R141, R161). -/
def blockProducts : List Num → List (Option Num) → List Num
  | a :: as, some b :: bs => a.mul b :: blockProducts as bs
  | _ :: as, none :: bs => blockProducts as bs
  | _, _ => []

/-- The positions 2:4 or 1:4 metadata keeps, in K order (R159); none where 2:4 positions are out of order (R160). -/
def sparsePositions (sp k : Nat) (md : List Byte) : Option (List Nat) :=
  let v := leNat md
  (List.range (k / 4)).foldl (fun acc g => acc.bind fun l =>
    if sp = 1 then
      let a := (v >>> (4 * g)) % 4
      let b := (v >>> (4 * g + 2)) % 4
      if a < b then some (l ++ [4 * g + a, 4 * g + b]) else none
    else some (l ++ [4 * g + (v >>> (2 * g)) % 4])) (some [])

/-- One sparse row of B as K places, kept elements with their block's scale (R158, R161). -/
def sparseRow (f : Fmt) (sp k : Nat) (bs : List Byte) : Option (List (Option Num)) :=
  let kept := if sp = 1 then k / 2 else k / 4
  let eb := packedBytes f.bits kept
  let sb := if f.isMx then k / 32 else 0
  let codes := unpack f.bits kept bs
  let sc := bs.drop eb
  match sparsePositions sp k ((bs.drop (eb + sb)).take (if sp = 1 then k / 8 else k / 16)) with
  | none => none
  | some ps =>
    let kv := (ps.zip codes).map fun pc =>
      (pc.1, if f.isMx then scaled (nth 0#8 sc (pc.1 / 32)).toNat (f.decode pc.2) else f.decode pc.2)
    some ((List.range k).map fun i => (kv.find? fun e => e.1 = i).map (·.2))

/-- Bytes from one row of a sparse B to the next (R158). -/
def sparsePitch (f : Fmt) (sp k : Nat) : Nat :=
  let kept := if sp = 1 then k / 2 else k / 4
  alignUp 64 (packedBytes f.bits kept + (if f.isMx then k / 32 else 0) + (if sp = 1 then k / 8 else k / 16))

/-- The 32 rows of B (R134, R158). -/
def readB (m : Mod) (inst : Nat) (e : Exec) (sp k : Nat) :
    Except FaultKind (List (List (Option Num))) :=
  if sp = 0 then match readRows m inst e 1 32 k 0 with
    | .error x => .error x
    | .ok rs => .ok (rs.map fun r => r.map some)
  else
    let f := (recOpd e.record 1).format
    let p := sparsePitch f sp k
    match readOpd m inst e 1 0 (32 * p) with
    | .error x => .error x
    | .ok bs =>
      (List.range 32).foldr (fun r acc => match acc with
        | .error x => .error x
        | .ok l => match sparseRow f sp k ((bs.drop (r * p)).take p) with
          | none => .error .sparseMeta
          | some row => .ok (row :: l)) (.ok [])

/-- The groups of every output row: row, K block, column, products (R135, R142). -/
def matGroups (a : List (List Num)) (b : List (List (Option Num))) (kblk : Nat) : List (List (List (List Num))) :=
  let bb := b.map fun r => chunks 32 kblk r
  a.map fun ar => ((chunks 32 kblk ar).zipIdx).map fun ab => bb.map fun br => blockProducts ab.1 (nth [] br ab.2)

/-! ## Wide partial records (Table 4.4, R156, R157) -/

/-- A tile as a wide partial record. -/
def wideRecord (al : Int) (inexcnt : Nat) (inexact : Bool) (ws : List Wide) : List Byte :=
  leBytes 2 (modPow 10 al) ++ leBytes 2 inexcnt ++ leBytes 1 (if inexact then 1 else 0) ++ zeros 59
    ++ (ws.map wideElemBytes).flatten

/-- Add one partial record to a tile that has been aligned: element by element on the tile's grid, or the value that
leaves the window. -/
def addRecordElems (al : Int) : List Wide → List Wide → Except Num (List Wide)
  | w :: ws, r :: rs =>
    let j := w.join r
    if j.x < -winTop ∨ winTop ≤ j.x then .error (gridNum al j.x)
    else match addRecordElems al ws rs with
      | .error x => .error x
      | .ok l => .ok (j :: l)
  | ws, _ => .ok ws

/-- Add records in order to a tile (R157), raising the anchor where a sum leaves the window; `start` is the tile that a
raise restores. Each record is (ANCHOR, INEXCNT, INEXACT, elements). -/
def addRecords (recs : List (Int × Nat × Bool × List Wide)) : Nat → TileRun → TileRun
  | 0, t => t
  | fuel + 1, start =>
    let r := recs.foldl (fun (acc : Except (Int × Num) TileRun) rc => match acc with
      | .error x => .error x
      | .ok t =>
        let al := max t.al rc.1
        let ts := shiftTile (al - t.al).toNat t.elems
        let rs := shiftTile (al - rc.1).toNat rc.2.2.2
        match addRecordElems al ts.1 rs.1 with
        | .error x => .error (al, x)
        | .ok l => .ok { t with
            al := al, elems := l, lost := t.lost + ts.2 + rs.2,
            inexIn := min 65535 (t.inexIn + rc.2.1), inexOr := t.inexOr || rc.2.2.1 }) (.ok start)
    match r with
    | .ok t => t
    | .error (al, x) =>
      let al' := raisedAnchor al x
      let s := shiftTile (al' - start.al).toNat start.elems
      addRecords recs fuel
        { start with al := al', elems := s.1, lost := start.lost + s.2, raises := start.raises + 1 }

/-! ## Tiles in the plot -/

/-- The 1,024 elements of a tile. -/
def tileElems (p : Plot) (t : Nat) : List Wide := (List.range 1024).map fun i => kget Wide.zero p.acc (1024 * t + i)

/-- Give a tile its elements. -/
def setTile (p : Plot) (t : Nat) (ws : List Wide) : Plot :=
  { p with acc := p.acc.filter (fun e => e.1 < 1024 * t)
      ++ ((ws.zipIdx (1024 * t)).filter (fun e => e.1 ≠ Wide.zero)).map (fun e => (e.2, e.1))
      ++ p.acc.filter (fun e => 1024 * t + ws.length ≤ e.1) }

/-- ACC_STAT of a tile. -/
def accStatOf (p : Plot) (t : Nat) : AccStat := kget AccStat.reset p.accStat t

/-- Give a tile its status. -/
def setAccStat (p : Plot) (t : Nat) (s : AccStat) : Plot := { p with accStat := kset AccStat.reset p.accStat t s }

/-- ACC_STATt as FSTAT returns it (Table 4.3). -/
def accStatWord (s : AccStat) : Nat :=
  s.entry * 2 ^ 48 + s.inexcnt * 2 ^ 32 + s.raises * 2 ^ 24 + s.epirep * 2 ^ 16
    + (if s.inexact then 2 ^ 10 else 0) + modPow 10 s.anchor

/-- What a finished run leaves in the status (R140, R149). -/
def statAfter (s : AccStat) (t : TileRun) : AccStat :=
  { s with
    anchor := t.al
    inexcnt := min 65535 (s.inexcnt + t.lost + t.inexIn)
    raises := min 255 (s.raises + t.raises)
    inexact := s.inexact || t.inexOr || decide (0 < t.lost) }

/-- Count raises and inexact terms (R144, R149, R176). -/
def countRun (d : Dev) (inst : Nat) (t : TileRun) : Dev :=
  let d := if t.raises = 0 then d else d.count cMatAnchorRaise inst t.raises
  if t.lost = 0 then d else d.count cMatInexact inst t.lost

/-! ## Drain (R163 to R169) -/

/-- Element of an epilogue block as FP32 (Table 4.5). -/
def epiScale (b : List Byte) (c : Nat) : Num := if bitOf (fieldAt b 1 1) 0 then ofF32 (fieldAt b (64 + 4 * c) 4) else .one
/-- Bias of a column. -/
def epiBias (b : List Byte) (c : Nat) : Num := if bitOf (fieldAt b 1 1) 1 then ofF32 (fieldAt b (192 + 4 * c) 4) else .zero

/-- Rows of 32. -/
def rows32 {α : Type} (l : List α) : List (List α) := chunks 32 32 l

/-- EV_MAT_INEXACT, once per furrow, where a drain writes an element of an inexact tile (R155). -/
def noteInexact (m : Mod) (inst : Nat) (e : Exec) (s : AccStat) : Mod :=
  if s.inexact && !(((inflightOf (m.dev.plot inst) e.fid).map (·.inexactSaid)).getD false) then
    m.onDev fun d => (d.modPlot inst fun p => modInflight p e.fid fun x => { x with inexactSaid := true }).raise
      evMatInexact { entry := e.entry, exec := e.index, n := s.inexcnt } (instDie inst) (unitOf d.base inst)
  else m

/-- Write a drained tile: wide, through the epilogue, or converted (R156, R163, R165 to R169). `t` has any fused
addend in it already. -/
def drainTile (m : Mod) (inst : Nat) (e : Exec) (t : TileRun) (s : AccStat)
    (ab : Nat × Nat) : Except FaultKind (Ran × AccStat) :=
  let r := e.record
  let rd := modeRounding m.dev.base e
  let vals := t.elems.map fun w => w.read (t.al - 184)
  if ctrlBits r 26 26 = 1 then
    let bs := wideRecord t.al s.inexcnt s.inexact t.elems
    match writeOpd m inst e 3 0 bs with
    | .error x => .error x
    | .ok m' => .ok (⟨noteInexact m' inst e s, bs, [0, ab.1, ab.2, 0, 0, 0], .none⟩, s)
  else if ctrlBits r 43 43 = 1 then
    match readOpd m inst e 2 0 320 with
    | .error x => .error x
    | .ok eb =>
      let act := ctrlBits r 42 40
      let z := (vals.zipIdx).map fun v => activation act (round32 (fmaOp v.1 (epiScale eb (v.2 % 32)) (epiBias eb (v.2 % 32))))
      let f := (recOpd r 3).format
      let prev := (inflightOf (m.dev.plot inst) e.fid).bind (·.efix)
      let fx := epilogueFix f rd (ctrlBits r 15 0) (rows32 z) 8 (prev.getD (sext 8 (fieldAt eb 0 1)))
      let m1 := if f.isMx then noteReplays m inst e fx.1 fx.2.1 fx.2.2 else m
      match writeRows m1 inst e 3 (if f.isMx then some fx.1 else none) rd 0 (rows32 z) with
      | .error x => .error x
      | .ok w => .ok (⟨noteInexact w.m inst e s, w.image,
          [statMax (rows32 z), ab.1, ab.2, w.cnt.sat, w.cnt.ufl, w.cnt.nan], w.cnt⟩,
          { s with epirep := min 255 (s.epirep + (if f.isMx then fx.2.1 else 0)) })
  else
    let fuse := ctrlBits r 45 44
    match (if fuse = 2 then readRows m inst e 2 32 32 0 else .ok []) with
    | .error x => .error x
    | .ok f2 =>
      let out := if fuse = 2 then (vals.zip f2.flatten).map fun p => p.1.mul p.2 else vals
      match writeRows m inst e 3 none rd 0 (rows32 out) with
      | .error x => .error x
      | .ok w => .ok (⟨noteInexact w.m inst e s, w.image,
          [statMax (rows32 out), ab.1, ab.2, w.cnt.sat, w.cnt.ufl, w.cnt.nan], w.cnt⟩, s)

/-- The records of WIDEIN (R157). -/
def readPartials (bs : List Byte) (n : Nat) : List (Int × Nat × Bool × List Wide) :=
  (List.range n).map fun j =>
    let b := (bs.drop (j * 32832)).take 32832
    (sext 10 (fieldAt b 0 2), fieldAt b 2 2, bitOf (fieldAt b 4 1) 0, (List.range 1024).map fun i => wideElem b (64 + 32 * i))

/-- One MATMUL execution (R137 to R169). -/
def runMatmul (m : Mod) (inst : Nat) (e : Exec) : Except FaultKind Ran :=
  let r := e.record
  let p := m.dev.plot inst
  let tile := ctrlBits r 37 36
  let kblk := ctrlBits r 55 48 + 1
  let sp := ctrlBits r 47 46
  let s := accStatOf p tile
  match readRows m inst e 0 32 (32 * kblk) 0 with
  | .error x => .error x
  | .ok a =>
  match readB m inst e sp (32 * kblk) with
  | .error x => .error x
  | .ok b =>
  let np := ctrlBits r 30 28 + 1
  let widein := ctrlBits r 27 27 = 1
  match (if widein then readOpd m inst e 2 0 (np * 32832) else .ok []) with
  | .error x => .error x
  | .ok pb =>
  let fuse := ctrlBits r 45 44
  match (if fuse = 1 then readRows m inst e 2 32 32 0 else .ok []) with
  | .error x => .error x
  | .ok f1 =>
    let fresh := ctrlBits r 39 39 = 0 ∧ e.index = 0
    let t0 : TileRun := ⟨s.anchor, if fresh then List.replicate 1024 Wide.zero else tileElems p tile, 0, 0, 0, false⟩
    let groups := matGroups a b kblk
    -- the fused addend is one more term of its element (R164): one more group after the row's K blocks
    let groups := if fuse = 1 then (groups.zip f1).map fun g => g.1 ++ [g.2.map fun x => [x]] else groups
    let t1 := if widein then addRecords (readPartials pb np) 1024 t0 else t0
    let t2 := runGroups 32 groups 1024 t1
    let s2 := statAfter s t2
    let ab := (statMax a, statMax (b.map fun row => row.filterMap id))
    let m1 := m.onDev fun d => countRun d inst t2
    if ctrlBits r 38 38 = 1 then
      match drainTile m1 inst e t2 s2 ab with
      | .error x => .error x
      | .ok (ran, s3) => .ok { ran with
          m := ran.m.onDev fun d => d.modPlot inst fun p =>
            setAccStat (setTile p tile (List.replicate 1024 Wide.zero)) tile s3 }
    else
      .ok ⟨m1.onDev fun d => d.modPlot inst fun p => setAccStat (setTile p tile t2.elems) tile s2,
        wideRecord t2.al s2.inexcnt s2.inexact t2.elems, [0, ab.1, ab.2, 0, 0, 0], .none⟩

/-! ## POOL (R170 to R174, R247 to R251) -/

/-- The header of a wide pooled record (R250). -/
def pooledHeader (al : Int) (inexcnt : Nat) (inexact : Bool) (count : Nat) : List Byte :=
  leBytes 2 (modPow 10 al) ++ leBytes 2 inexcnt ++ leBytes 1 (if inexact then 1 else 0) ++ zeros 3
    ++ leBytes 4 count ++ zeros 52

/-- A bag after its sum: per pass of 1,024 columns its run, and the lookups counted. -/
structure Bag where
  /-- One run for each pass (R172). -/
  runs : List TileRun
  /-- Lookups (R251: COUNTs summed). -/
  count : Nat
  deriving DecidableEq, Repr

/-- Sum a bag's rows of values column by column, in passes of 1,024 columns, each beginning at α = 0 (R170, R172). -/
def sumBag (cols : Nat) (rows : List (List Num)) : List TileRun :=
  (List.range ((cols + 1023) / 1024)).map fun k =>
    let w := min 1024 (cols - 1024 * k)
    let gs := rows.map fun r => ((r.drop (1024 * k)).take w).map fun x => [x]
    runGroups w [gs] 1024 ⟨0, List.replicate w Wide.zero, 0, 0, 0, false⟩

/-- Sum wide pooled records (R251), in the same passes. -/
def sumPooled (cols : Nat) (recs : List (Int × Nat × Bool × List Wide)) : List TileRun :=
  (List.range ((cols + 1023) / 1024)).map fun k =>
    let w := min 1024 (cols - 1024 * k)
    addRecords (recs.map fun r => (r.1, r.2.1, r.2.2.1, (r.2.2.2.drop (1024 * k)).take w)) 1024
      ⟨0, List.replicate w Wide.zero, 0, 0, 0, false⟩

/-- A bag's exact sums at output (R146); an empty bag gives +0 (R173). -/
def bagValues (b : Bag) : List Num := (b.runs.map fun t => t.elems.map fun w => w.read (t.al - 184)).flatten

/-- All passes of a bag brought to one anchor, for its wide record (log 17). -/
def bagRecord (b : Bag) : List Byte :=
  let al := b.runs.foldl (fun a t => max a t.al) (-512)
  let rs := b.runs.map fun t => (t, shiftTile (al - t.al).toNat t.elems)
  let lost := sumNat (rs.map fun x => x.1.lost + x.1.inexIn + x.2.2)
  pooledHeader al (min 65535 lost) (decide (0 < lost) || b.runs.any (·.inexOr)) b.count
    ++ ((rs.map fun x => x.2.1.map wideElemBytes).flatten).flatten

/-- The INT32 offsets of a bag list. -/
def bagOffsets (bl : List Byte) (n : Nat) : List Int := (List.range n).map fun i => sext 32 (fieldAt bl (64 + 4 * i) 4)

/-- The offsets never decrease and no bag holds more than 65,535 lookups (R248). -/
def bagsLegal : List Int → Bool
  | a :: b :: l => decide (0 ≤ a ∧ a ≤ b ∧ b - a ≤ 65535) && bagsLegal (b :: l)
  | [a] => decide (0 ≤ a)
  | [] => true

/-- Read the bag between two offsets (R247, R249, R251). -/
def readBag (m : Mod) (inst : Nat) (e : Exec) (cols stride hdr mode lo n : Nat) : Except FaultKind Bag :=
  let f := (recOpd e.record 0).format
  let rowB := if f = .int32 then 64 + 32 * cols else hdr + f.rowBytes cols
  let slices : Except FaultKind (List (List Byte)) := (List.range n).foldr (fun j acc => match acc with
    | .error x => .error x
    | .ok l => match readOpd m inst e 0 ((lo + j) * stride * 64) rowB with
      | .error x => .error x
      | .ok s => .ok (s :: l)) (.ok [])
  match slices with
  | .error x => .error x
  | .ok ss =>
    if f = .int32 then
      let recs := ss.map fun s => (sext 10 (fieldAt s 0 2), fieldAt s 2 2, bitOf (fieldAt s 4 1) 0,
        (List.range cols).map fun i => wideElem s (64 + 32 * i))
      let count := sumNat (ss.map fun s => fieldAt s 8 4)
      if 65535 < count then .error .bagLimit else .ok ⟨sumPooled cols recs, count⟩
    else match (if mode = 2 then readOpd m inst e 2 (4 * lo) (4 * n) else .ok []) with
      | .error x => .error x
      | .ok ws =>
        let rows := (ss.zipIdx).map fun s =>
          let vs := f.decodeRow cols (s.1.drop hdr)
          if mode = 2 then vs.map fun v => v.mul (ofF32 (fieldAt ws (4 * s.2) 4)) else vs
        .ok ⟨sumBag cols rows, n⟩

/-- All bags of an execution. -/
def readBags (m : Mod) (inst : Nat) (e : Exec) (cols stride hdr mode : Nat) :
    List Int → Except FaultKind (List Bag)
  | a :: b :: l => match readBag m inst e cols stride hdr mode a.toNat (b - a).toNat with
    | .error x => .error x
    | .ok g => match readBags m inst e cols stride hdr mode (b :: l) with
      | .error x => .error x
      | .ok gs => .ok (g :: gs)
  | _ => .ok []

/-- One POOL execution (R170 to R174, R247 to R251). -/
def runPool (m : Mod) (inst : Nat) (e : Exec) : Except FaultKind Ran :=
  let r := e.record
  let mode := ctrlBits r 1 0
  let bags := ctrlBits r 17 2 + 1
  match readOpd m inst e 1 0 (64 + 4 * (bags + 1)) with
  | .error x => .error x
  | .ok bl =>
    let cols := fieldAt bl 0 2 + 1
    let stride := fieldAt bl 2 2
    let hdr := if bitOf (fieldAt bl 4 1) 0 then 16 else 0
    let offs := bagOffsets bl (bags + 1)
    if !bagsLegal offs then .error .bagLimit
    else match readBags m inst e cols stride hdr mode offs with
    | .error x => .error x
    | .ok bs =>
      let runs := (bs.map (·.runs)).flatten
      let s := accStatOf (m.dev.plot inst) 3
      let s' := runs.foldl statAfter s
      let m1 := m.onDev fun d => runs.foldl (fun d t => countRun d inst t) d
      let m1 := m1.onDev fun d => d.modPlot inst fun p => setAccStat (setTile p 3 (List.replicate 1024 Wide.zero)) 3 s'
      if (recOpd r 3).format = .int32 then
        let bytes := (bs.map bagRecord).flatten
        match writeOpd m1 inst e 3 0 bytes with
        | .error x => .error x
        | .ok m2 => .ok ⟨m2, bytes, [0, 0, 0, 0, 0, 0], .none⟩
      else
        let out := bs.map fun b =>
          let vs := bagValues b
          if mode = 1 ∧ b.count ≠ 0 then vs.map fun v => v.div (.fin false b.count 0) else vs
        match writeRows m1 inst e 3 none (modeRounding m.dev.base e) 0 out with
        | .error x => .error x
        | .ok w => .ok ⟨noteInexact w.m inst e s', w.image, statsOf out [] [] w.cnt, w.cnt⟩

end Sys2Proof.Machine
end

