-- ==== Sys2Proof/Machine/Dma.lean ====
section
/-!
DEFINITION. The plot DMA's own opcodes MOVE and FINGERPRINT (R80 to R84, Table 2.8), and which records may issue at all
(R45 to R47, R133, R138, R178 to R183, R194).
-/

namespace Sys2Proof.Machine

/-! ## MOVE -/

/-- Rows turned: element (r, c) goes to (c, r) (R80). -/
def transpose (cols : Nat) (rows : List (List Num)) : List (List Num) :=
  (List.range cols).map fun c => rows.map fun r => nth .zero r c

/-- The threshold of CMODE 0b10 (R83) or the four values of CMODE 0b11 (R84): from IMM or SREG as packed elements of
the operand's format, or from SRAM (log 18). -/
def modeValues (m : Mod) (inst : Nat) (e : Exec) (n : Nat) : Except FaultKind (List Num) :=
  let o := recOpd e.record 2
  let f := o.format
  if o.space = spSram then match readOpd m inst e 2 0 (packedBytes f.bits n) with
    | .error x => .error x
    | .ok bs => .ok ((unpack f.bits n bs).map f.decode)
  else
    let w := if o.space = spImm then o.addr % 2 ^ 32 else (nth 0#64 e.srv 2).toNat
    .ok ((List.range n).map fun i => f.decode ((w >>> (f.bits * i)) % 2 ^ f.bits))

/-- One element under a compress or expand option (R82 to R84). -/
def compress (cmode : Nat) (vs : List Num) (x : Num) : Num :=
  match cmode with
  | 1 => if Num.zero.lt x then .one else .zero
  | 2 =>
    if x.isNan then .fin false 3 0
    else if x.lt .zero then .zero
    else if x.lt (vs.headD .zero) then .one else .fin false 2 0
  | 3 => match x with
    | .fin _ c _ => nth .zero vs c
    | _ => .zero
  | _ => x

/-- Rows copied byte for byte: a MOVE that neither turns, compresses nor converts. -/
def copyRows (m : Mod) (inst : Nat) (e : Exec) (rows cols su du : Nat) : Except FaultKind Ran :=
  let f := (recOpd e.record 0).format
  let sp := rowPitch f cols su
  let n := f.rowBytes cols
  match readOpd m inst e 0 0 ((rows - 1) * sp + n) with
  | .error x => .error x
  | .ok bs =>
    let rs := (List.range rows).map fun r => (bs.drop (r * sp)).take n
    let vals := rs.map fun r => f.decodeRow cols r
    match writeRowBytes m inst e 1 (rowPitch f cols du) 0 rs with
    | .error x => .error x
    | .ok m' => .ok ⟨m', rs.flatten, statsOf vals vals [] .none, .none⟩

/-- One MOVE execution (R80 to R84). -/
def runMove (m : Mod) (inst : Nat) (e : Exec) : Except FaultKind Ran :=
  let r := e.record
  let cols := ctrlBits r 15 0
  let rows := ctrlBits r 27 16 + 1
  let su := ctrlBits r 39 28
  let du := ctrlBits r 51 40
  let turn := ctrlBits r 52 52 = 1
  let cmode := ctrlBits r 54 53
  let o0 := recOpd r 0
  let o1 := recOpd r 1
  let isMem := fun (s : Nat) => s = spSram ∨ s = spDa
  if turn ∧ (cols % 32 ≠ 0 ∨ rows % 32 ≠ 0) then .error .turnShape
  else if ¬ turn ∧ cmode = 0 ∧ o0.fmt = o1.fmt ∧ isMem o0.space ∧ isMem o1.space then
    copyRows m inst e rows cols su du
  else match readRows m inst e 0 rows cols su with
    | .error x => .error x
    | .ok src => match (if cmode = 2 then modeValues m inst e 1
        else if cmode = 3 then modeValues m inst e 4 else .ok []) with
      | .error x => .error x
      | .ok vs =>
        let out := src.map fun row => row.map (compress cmode vs)
        let out := if turn then transpose cols out else out
        match writeRows m inst e 1 none (modeRounding m.dev.base e) du out with
        | .error x => .error x
        | .ok w => .ok ⟨w.m, w.image, statsOf out src [] w.cnt, w.cnt⟩

/-! ## FINGERPRINT -/

/-- The bytes of a region in ascending order; a tile's 4,096. -/
def regionBytes (m : Mod) (inst : Nat) (e : Exec) (n : Nat) : Except FaultKind (List Byte) :=
  if (recOpd e.record 0).space = spTile then
    let p := m.dev.plot inst
    let t := (opdBase e.record 0 e.index).toNat
    .ok (((List.range 1024).map fun i => leBytes 4 (kget 0 p.tiles (1024 * t + i)).toNat).flatten)
  else readOpd m inst e 0 0 n

/-- One FINGERPRINT execution: CRC-64/XZ over the region, 8 bytes written (02, after R47). -/
def runFingerprint (m : Mod) (inst : Nat) (e : Exec) : Except FaultKind Ran :=
  match regionBytes m inst e (64 * ctrlBits e.record 14 0) with
  | .error x => .error x
  | .ok bs =>
    let out := leBytes 8 (crc64 bs)
    match writeOpd m inst e 1 0 out with
    | .error x => .error x
    | .ok m' => .ok ⟨m', out, [0, 0, 0, 0, 0, 0], .none⟩

/-! ## Which records issue (R45 to R47) -/

/-- Opcodes of Table 2.8. -/
inductive Opc where
  | idle | move | gather | pool | matmul | vchain | reduce | send | recv | waittok | signal | sow | fingerprint | cal
  | milestone
  deriving DecidableEq, Repr

/-- OPC; 0x0F to 0xFF are reserved. -/
def Opc.ofCode : Nat → Option Opc
  | 0 => some .idle | 1 => some .move | 2 => some .gather | 3 => some .pool | 4 => some .matmul | 5 => some .vchain
  | 6 => some .reduce | 7 => some .send | 8 => some .recv | 9 => some .waittok | 10 => some .signal | 11 => some .sow
  | 12 => some .fingerprint | 13 => some .cal | 14 => some .milestone
  | _ => none

/-- The spaces Table 2.8 allows for each slot of an opcode, as lists of SPACE codes. -/
def slotSpaces : Opc → List (List Nat)
  | .idle | .waittok | .signal | .milestone => [[0], [0], [0], [0]]
  | .move => [[1, 4, 2, 3], [1, 4, 2, 3], [0, 6, 5, 1], [0]]
  | .gather => [[1], [1], [4], [1, 0]]
  | .pool => [[1], [1], [1, 0], [1, 2]]
  | .matmul => [[1], [1], [1, 2, 0], [2, 1]]
  | .vchain => [[2, 1, 3, 5, 6], [0, 2, 1, 3, 5, 6], [1, 0], [2, 1, 3]]
  | .reduce => [[2], [3, 1], [3, 1, 0], [0]]
  | .send => [[1], [0], [0], [0]]
  | .recv => [[1], [1], [0], [0]]
  | .sow => [[1], [1], [4], [0]]
  | .fingerprint => [[1, 2], [1, 4], [0], [0]]
  | .cal => [[1], [0], [0], [0]]

/-- An operand descriptor whose reserved values and address form are as Table 2.6 has them. -/
def opdLegal (o : Opd) : Bool :=
  if o.space = 0 then (Fmt.ofCode o.fmt).isSome && o.addr == 0
  else decide (o.space ≤ 6) && (Fmt.ofCode o.fmt).isSome &&
    (match o.space with
     | 1 => decide (o.addr < 2 ^ 20 ∧ o.addr % 64 = 0)
     | 2 => decide (o.addr < 16)
     | 3 => decide (o.addr < 32)
     | 4 => decide (o.addr % 64 = 0)
     | 5 => decide (o.addr < 32)
     | _ => decide (o.addr < 2 ^ 32))

/-- The reserved bits of the header are zero (Table 2.5). -/
def hdrLegal (r : List Byte) : Bool :=
  recHdr r 95 94 == 0 && recHdr r 63 62 == 0 && recHdr r 51 48 == 0 && recHdr r 31 24 == 0 && recHdr r 15 8 == 0

/-- MATMUL's own conditions (R47, R133, R136, R138). -/
def matmulLegal (epilogue : Bool) (r : List Byte) : Bool :=
  let f0 := (recOpd r 0).format
  let f1 := (recOpd r 1).format
  let o2 := recOpd r 2
  let o3 := recOpd r 3
  let half := fun f => f = Fmt.bf16 ∨ f = Fmt.fp16
  let fuse := ctrlBits r 45 44
  let epi := ctrlBits r 43 43 = 1
  let drain := ctrlBits r 38 38 = 1
  let win := ctrlBits r 27 27 = 1
  let wout := ctrlBits r 26 26 = 1
  let act := ctrlBits r 42 40
  decide ((f0.isMx ∧ f1.isMx) ∨ (half f0 ∧ half f1))
    && decide (ctrlBits r 63 56 = 0 ∧ ctrlBits r 47 46 ≠ 3 ∧ fuse ≠ 3 ∧ act ≤ 5 ∧ ctrlBits r 35 31 = 0)
    && !(decide (act ≠ 0) && !epi)
    && !(epi && (decide (fuse ≠ 0) || win || wout))
    && !(decide (fuse ≠ 0) && (!drain || win || wout))
    && !(wout && (!drain || decide (o3.space ≠ 1)))
    && !(win && decide (o2.space ≠ 1))
    && !(decide (o3.space = 2) && decide (o3.format ≠ .fp32))
    && !(decide (o3.format = .mask1) || decide (o3.format = .code2))
    && !(epi && !epilogue)
    && !(epi && decide (o2.space ≠ 1))
    && !(decide (fuse ≠ 0) && decide (o2.space = 0))
    && !(decide (o2.space = 2) && decide (o2.format ≠ .fp32))

/-- VCHAIN's own conditions (R178 to R183). -/
def vchainLegal (r : List Byte) : Bool :=
  let o0 := recOpd r 0
  let o1 := recOpd r 1
  let o2 := recOpd r 2
  let o3 := recOpd r 3
  let all := (List.range 8).map (stageCode r)
  let codes := chainCodes r
  let vec := o3.space = 3
  let inLegal := fun (o : Opd) =>
    !(decide (o.format = .mask1 ∨ o.format = .code2))
      && !((decide (o.space = 5) || decide (o.space = 6)) && !o.format.isFloat)
      && !((decide (o.space = 2) || decide (o.space = 3)) && decide (o.format ≠ .fp32))
      && !(vec && (decide (o.space = 1) || decide (o.space = 2)))
  let stage := fun (i : Nat) (c : Nat × Nat) =>
    let (op, src) := c
    decide (op ≤ 24) && decide (src ≠ 7) && decide (op ≠ 0)
      && (if op = 6 then decide (src = 3 ∨ src = 4 ∨ src = 5) || false
          else if stageBinary op then decide (src ≠ 0)
          else if op = 23 then decide (i = 0 ∧ o0.format = .int32 ∧ o0.space = 1)
          else if op = 24 then decide (i + 1 = codes.length ∧ o3.space = 1 ∧ src = 0)
          else decide (src = 0))
      && !(decide (src = 1 ∨ src = 2) && decide (o1.space = 0))
      && !(decide (src = 2) && decide (o1.space ≠ 3))
      && !(decide (src = 2 ∨ src = 4) && vec)
      && !(decide (src = 3 ∨ src = 4 ∨ src = 5) && decide (o2.space = 0))
  decide (all.drop codes.length = List.replicate (8 - codes.length) (0, 0))
    && ((codes.zipIdx).all fun c => stage c.2 c.1)
    && inLegal o0 && inLegal o1
    && !(decide (o0.format = .int32) && decide ((codes.headD (0, 0)).1 ≠ 23))
    && !(decide (o1.format = .int32))
    && !((decide (o3.space = 2) || vec) && decide (o3.format ≠ .fp32))
    && !(decide (o3.format = .mask1 ∨ o3.format = .code2 ∨ o3.format = .int32))
    && !(decide ((codes.headD (0, 0)).1 = 23) && decide (o2.space = 0))

/-- REDUCE's own conditions (R192, R194, Table 5.4). -/
def reduceLegal (r : List Byte) : Bool :=
  let op := ctrlBits r 2 0
  let o1 := recOpd r 1
  let o2 := recOpd r 2
  decide (op ≤ 5) && decide (ctrlBits r 63 5 = 0) && decide (recStride r 1 = 0 ∧ recStride r 2 = 0)
    && (if op = 4 then decide (o2.space = o1.space ∧ o2.fmt = o1.fmt) else decide (o2.space = 0))
    && (if op = 5 then decide (o1.space = 1 ∧ o1.format = .mask1)
        else if o1.space = 3 then decide (o1.format = .fp32)
        else o1.format.isFloat || (decide (o1.format = .int32) && decide (op = 0 ∨ op = 3 ∨ op = 4)))

/-- The CTRL of the other opcodes, and the ranges that start at 1 (Table 2.8, R47). -/
def ctrlLegal (op : Opc) (express : Bool) (r : List Byte) : Bool :=
  match op with
  | .idle => decide (ctrlBits r 63 32 = 0)
  | .move =>
    decide (ctrlBits r 15 0 ≠ 0 ∧ ctrlBits r 63 55 = 0)
      && (if ctrlBits r 54 53 = 2 ∨ ctrlBits r 54 53 = 3 then decide ((recOpd r 2).space ≠ 0)
          else decide ((recOpd r 2).space = 0))
  | .gather => decide (ctrlBits r 16 16 = 0 ∧ ctrlBits r 63 22 = 0 ∧ ctrlBits r 18 17 ≠ 3)
  | .pool => decide (ctrlBits r 63 18 = 0 ∧ ctrlBits r 1 0 ≠ 3)
      && !(decide (ctrlBits r 1 0 = 2) && decide ((recOpd r 2).space ≠ 1 ∨ (recOpd r 0).format = .int32))
  | .send => decide (ctrlBits r 63 32 = 0 ∧ ctrlBits r 12 0 ≠ 0 ∧ ctrlBits r 12 0 ≤ 4096 ∧ ctrlBits r 29 28 ≠ 3
      ∧ ctrlBits r 31 30 ≠ 3) && !(decide (ctrlBits r 31 30 = 1) && !express)
  | .recv => decide (ctrlBits r 63 16 = 0)
  | .signal => decide (ctrlBits r 63 34 = 0 ∧ ctrlBits r 33 32 ≠ 3)
  | .sow => decide (ctrlBits r 63 16 = 0) && decide ((recOpd r 0).format = .fp32 ∨ (recOpd r 0).format = .bf16)
  | .fingerprint => decide (ctrlBits r 63 15 = 0 ∧ 1 ≤ ctrlBits r 14 0 ∧ ctrlBits r 14 0 ≤ 16384)
      && !(decide ((recOpd r 0).space = 2) && decide (ctrlBits r 14 0 ≠ 64))
  | .cal => decide (ctrlBits r 63 48 = 0 ∧ ctrlBits r 31 16 ≠ 0)
  | .milestone => decide (recCtrl r = 0)
  | _ => true

/-- A record may issue on a plot (R45 to R47 and the chapters' additions). -/
def recordLegal (epilogue express : Bool) (r : List Byte) : Bool :=
  match Opc.ofCode (recOpc r) with
  | none => false
  | some op =>
    hdrLegal r
      && (((slotSpaces op).zipIdx).all fun s =>
        (s.1.contains (recOpd r s.2).space) && opdLegal (recOpd r s.2)
          && (decide (s.1 ≠ [0]) || decide (recStride r s.2 = 0)))
      && ctrlLegal op express r
      && (match op with
          | .matmul => matmulLegal epilogue r
          | .vchain => vchainLegal r
          | .reduce => reduceLegal r
          | _ => true)

end Sys2Proof.Machine
end

