-- ==== Sys2Proof/Machine/Sequencer.lean ====
section
/-!
DEFINITION. Threads and events of a control core, token counters, and the sequencer: what may issue, the issue itself,
the headland, completion and faults (02_plots_and_furrows R36 to R70).
-/

namespace Sys2Proof.Machine

/-! ## Threads -/

/-- A thread at reset: the quadrant controller has started thread 0 of every plot (R40, log 3). -/
def threadReset (t : Nat) : Thread := if t = 0 then { Thread.reset with started := true } else Thread.reset

/-- Thread `t` of a plot. -/
def threadOf (p : Plot) (t : Nat) : Thread := kget (threadReset t) p.threads t

/-- Give a thread a state. -/
def setThread (p : Plot) (t : Nat) (h : Thread) : Plot := { p with threads := kset (threadReset t) p.threads t h }

/-- A register of a thread; x0 reads zero (R40). -/
def xReg (h : Thread) (r : Nat) : Nat := if r = 0 then 0 else (kget 0 h.x r).toNat

/-- Write a register of a thread; a write of x0 is discarded. -/
def setX (h : Thread) (r v : Nat) : Thread := if r = 0 then h else { h with x := kset 0 h.x r (BitVec.ofNat 64 v) }

/-- Move past an instruction of `n` bytes. -/
def pcNext (h : Thread) (n : Nat) : Thread := { h with pc := h.pc + BitVec.ofNat 64 n }

/-- A thread that can issue: started and not parked (R40, R41). -/
def canIssue (h : Thread) : Bool := h.started && h.park == .no

/-- CSR numbers (R36; PRESUMED, the RISC-V privileged architecture, log 4). -/
def csrMstatus : Nat := 0x300
/-- mtvec. -/
def csrMtvec : Nat := 0x305
/-- mepc. -/
def csrMepc : Nat := 0x341
/-- mcause. -/
def csrMcause : Nat := 0x342
/-- mtval. -/
def csrMtval : Nat := 0x343

/-- A CSR of a thread. -/
def csrGet (h : Thread) (n : Nat) : Nat := (kget 0 h.csr n).toNat
/-- Write a CSR. -/
def csrSet (h : Thread) (n v : Nat) : Thread := { h with csr := kset 0 h.csr n (BitVec.ofNat 64 v) }

/-- Taking an exception (R36, R37, R39; PRESUMED, log 4): mepc takes the pc, mcause the cause, mtval its value; MPIE
takes MIE, MIE is cleared, MPP takes the mode; machine mode; the pc goes to mtvec's base. -/
def takeException (h : Thread) (cause val : Nat) : Thread :=
  let st := csrGet h csrMstatus
  let st := withBits st 7 7 (bitsOf st 3 3)
  let st := withBits st 3 3 0
  let st := withBits st 12 11 (if h.machineMode then 3 else 0)
  let h := csrSet (csrSet (csrSet (csrSet h csrMepc h.pc.toNat) csrMcause cause) csrMtval val) csrMstatus st
  { h with machineMode := true, pc := BitVec.ofNat 64 (csrGet h csrMtvec / 4 * 4) }

/-- Exception causes used here: illegal instruction, load access fault, store or AMO access fault. -/
def exIllegal : Nat := 2
/-- Load access fault. -/
def exLoad : Nat := 5
/-- Store or AMO access fault. -/
def exStore : Nat := 7

/-! ## Events (Table 2.3) -/

/-- Mask bit of an event kind. -/
def PEv.bit : PEv → Nat
  | .headland => 0 | .halfFree => 1 | .fault => 2 | .release => 3 | .loadDone => 4 | .message => 5 | .grant => 6

/-- Pending events of a thread under a mask. -/
def pendingFor (p : Plot) (t mask : Nat) : List PendEv := p.events.filter fun e => e.thread = t && bitOf mask e.ev.bit

/-- The event word: the pending kinds under the mask in bits [6:0]; the spec gives no more of it (log 5). -/
def eventWord (evs : List PendEv) (fresh : Nat) : Nat :=
  (evs.foldl (fun m e => m ||| 2 ^ e.ev.bit) 0) + ((Config.eventDetail fresh).toNat / 128) * 128

/-- Take the pending events under a mask: the thread gets the word and runs on. -/
def takeEvents (p : Plot) (t rd mask fresh : Nat) : Plot :=
  let evs := pendingFor p t mask
  let h := threadOf p t
  let p := { p with events := p.events.filter fun e => !(e.thread = t && bitOf mask e.ev.bit) }
  setThread p t { pcNext (setX h rd (eventWord evs fresh)) 4 with park := .no }

/-- Deliver an event to a thread: it is pending, or wakes the thread parked in FWAIT for it (R41). -/
def deliver (fresh : Nat) (p : Plot) (t : Nat) (ev : PEv) (detail : List Nat) : Plot :=
  let p := { p with events := p.events ++ [⟨ev, t, detail⟩] }
  match (threadOf p t).park with
  | .fwait rd mask => if bitOf mask ev.bit then takeEvents p t rd mask fresh else p
  | _ => p

/-- Deliver an event to the owner of a plot's sequencer. -/
def Dev.deliverOwner (d : Dev) (inst : Nat) (ev : PEv) (detail : List Nat) : Dev :=
  let f := d.base.fresh
  (d.modPlot inst fun p => deliver f p p.seq.owner ev detail).tickFresh

/-! ## Token counters (R55, R56) -/

/-- A token counter. -/
def tokOf (p : Plot) (c : Nat) : Nat := (kget 0 p.tok c).toNat

/-- Give a token counter a value. -/
def setTok (p : Plot) (c v : Nat) : Plot := { p with tok := kset 0 p.tok c (BitVec.ofNat 32 v) }

/-- Increase a token counter; one that would pass 0xFFFF_FFFF stays there and raises EV_TOKEN_SATURATED (R56). -/
def Dev.addTok (d : Dev) (inst c n : Nat) : Dev :=
  let v := tokOf (d.plot inst) c + n
  if v < 2 ^ 32 then d.modPlot inst fun p => setTok p c v
  else (d.modPlot inst fun p => setTok p c (2 ^ 32 - 1)).raise evTokenSaturated { n := c } (instDie inst) (unitOf d.base inst)

/-! ## Unit queues and hazards (R49 to R53) -/

/-- The unit that carries out an opcode. -/
inductive UnitK where
  | dma | mat | vec | send | recv | own
  deriving DecidableEq, Repr

/-- Table 2.8, column Unit. -/
def Opc.unitK : Opc → UnitK
  | .move | .gather | .sow | .fingerprint => .dma
  | .pool | .matmul => .mat
  | .vchain | .reduce => .vec
  | .send => .send
  | .recv => .recv
  | .idle | .waittok | .signal | .cal | .milestone => .own

/-- A unit's queue. -/
def unitQ (p : Plot) : UnitK → List Exec
  | .dma => p.dmaQ
  | .mat => p.matQ
  | .vec => p.vecQ
  | .send => p.sendQ
  | .recv => p.recvQ
  | .own => p.seq.own.toList

/-- Change a unit's queue. -/
def onUnitQ (p : Plot) (u : UnitK) (f : List Exec → List Exec) : Plot :=
  match u with
  | .dma => { p with dmaQ := f p.dmaQ }
  | .mat => { p with matQ := f p.matQ }
  | .vec => { p with vecQ := f p.vecQ }
  | .send => { p with sendQ := f p.sendQ }
  | .recv => { p with recvQ := f p.recvQ }
  | .own => { p with seq := { p.seq with own := (f p.seq.own.toList).head? } }

/-- A unit has a free queue entry (R51). -/
def unitRoom (p : Plot) (u : UnitK) : Bool :=
  match u with
  | .own => p.seq.own.isNone
  | u => decide ((unitQ p u).length < 4)

/-- Which operand slots an opcode writes. -/
def writesSlot : Opc → Nat → Bool
  | .move, 1 | .gather, 1 | .gather, 3 | .pool, 3 | .matmul, 3 | .vchain, 3 | .reduce, 1 | .reduce, 2
  | .recv, 0 | .recv, 1 | .fingerprint, 1 => true
  | _, _ => false

/-- Tile and vector registers an execution names: (space, register, written). -/
def regsNamed (r : List Byte) (i : Nat) : List (Nat × Nat × Bool) :=
  let op := (Opc.ofCode (recOpc r)).getD .idle
  (List.range 4).filterMap fun k =>
    let o := recOpd r k
    if o.space = spTile ∨ o.space = spVreg then some (o.space, (opdBase r k i).toNat, writesSlot op k) else none

/-- A hazard between two executions on a tile or vector register (R53). -/
def regHazard (a b : List (Nat × Nat × Bool)) : Bool :=
  a.any fun x => b.any fun y => x.1 = y.1 && x.2.1 = y.2.1 && (x.2.2 || y.2.2)

/-- No queued execution has an open hazard with execution `i` of a record (R49, R53). -/
def hazardFree (p : Plot) (r : List Byte) (i : Nat) : Bool :=
  let me := regsNamed r i
  !((p.dmaQ ++ p.matQ ++ p.vecQ ++ p.sendQ ++ p.recvQ).any fun e => regHazard me (regsNamed e.record e.index))

/-! ## Starting and stopping -/

/-- The half an entry lies in. -/
def halfOf (entry : Nat) : Bool := decide (1024 ≤ entry)

/-- State of a half; false is A. -/
def halfSt (s : Sequencer) (h : Bool) : Half := if h then s.halfB else s.halfA

/-- Give a half a state. -/
def setHalf (s : Sequencer) (h : Bool) (v : Half) : Sequencer := if h then { s with halfB := v } else { s with halfA := v }

/-- Stopping: issue ends and an ACTIVE half becomes FREE (R69). -/
def stopSeq (s : Sequencer) : Sequencer :=
  { s with
    running := false
    waitHalf := false
    halfA := if s.halfA = .active then .free else s.halfA
    halfB := if s.halfB = .active then .free else s.halfB }

/-- A mode word FSTART accepts: SWITCH only in split use, 0b11 reserved, reserved bits zero (R68, Table 2.9). -/
def modeLegal (mode : Nat) : Bool :=
  decide (mode % 4 ≠ 3) && !(decide (mode % 4 = 2) && !bitOf mode 2) && decide (bitsOf mode 15 3 = 0 ∧ bitsOf mode 63 32 = 0)

/-- The sequencer started at an entry under a mode word (R67, R68). -/
def startSeq (s : Sequencer) (t entry mode : Nat) : Sequencer :=
  let sp := bitOf mode 2
  let s := { s with
    running := true, owner := t, entry := entry, turn := mode % 4, split := sp, passLimit := bitsOf mode 31 16, passes := 0
    waitHalf := false }
  if sp then setHalf s (halfOf entry) .active else s

/-! ## The headland (R67, R68, Table 2.9) -/

/-- The turn at the headland: the sequencer after it, and the events it delivers to the owner. -/
def turnHeadland (s : Sequencer) (at_ : Nat) : Sequencer × List PEv :=
  let h := halfOf at_
  match s.turn with
  | 1 =>
    let n := s.passes + 1
    if s.passLimit ≠ 0 ∧ s.passLimit ≤ n then (stopSeq { s with passes := n }, [.headland])
    else ({ s with passes := n, entry := if s.split && h then 1024 else 0 }, [.headland])
  | 2 =>
    let s := setHalf s h .free
    if halfSt s (!h) = .ready then
      (setHalf { s with entry := if h then 0 else 1024 } (!h) .active, [.headland, .halfFree])
    else ({ s with waitHalf := true, entry := if h then 0 else 1024 }, [.headland, .halfFree])
  | _ => (stopSeq s, [.headland])

/-- After the last execution of the furrow at an entry has issued: the next entry, or the turn. -/
def advance (s : Sequencer) (entry : Nat) (head : Bool) : Sequencer × List PEv :=
  let lastE := if s.split && !halfOf entry then 1023 else 2047
  if head || entry == lastE then turnHeadland s entry else ({ s with entry := entry + 1 }, [])

/-! ## What an issue needs to know -/

/-- The record at an entry of a plot's furrow store. -/
def recordAt (p : Plot) (entry : Nat) : List Byte := readRun p.store (64 * entry) 64

/-- The furrow's next execution from index `i`: skipped ones in between, and the index, if any (R64, R65). -/
def nextExec (r : List Byte) (bitmap : Nat) : Nat → Nat → Nat × Option Nat
  | 0, _ => (0, none)
  | fuel + 1, i =>
    if recRepeat r < i then (0, none)
    else if !recBit r 19 || bitOf bitmap i then (0, some i)
    else
      let x := nextExec r bitmap fuel (i + 1)
      (x.1 + 1, x.2)

/-- The presence bitmap of a record, read when it issues (R64). -/
def readBitmap (p : Plot) (r : List Byte) : Nat :=
  if recBit r 19 then leNat (readRun p.sram (64 * recHdr r 93 80) ((recRepeat r + 8) / 8)) else 0

/-- The four conditions of a WAITTOK furrow: (counter, count) (Table 2.8). -/
def waitConds (r : List Byte) : List (Nat × Nat) :=
  (List.range 4).map fun i => (ctrlBits r (16 * i + 15) (16 * i + 12), ctrlBits r (16 * i + 11) (16 * i))

/-- Conditions of one counter taken together: every counter holds the sum asked of it (R55). -/
def waitMet (p : Plot) (cs : List (Nat × Nat)) : Bool :=
  cs.all fun c => decide (sumNat ((cs.filter fun x => x.1 = c.1).map (·.2)) ≤ tokOf p c.1)

/-- Subtract conditions from their counters. -/
def waitTake (p : Plot) (cs : List (Nat × Nat)) : Plot := cs.foldl (fun p c => setTok p c.1 (tokOf p c.1 - c.2)) p

/-- The furrow's token wait (R55): WTOK and WVAL where WEN is set, the four conditions of a WAITTOK. -/
def tokenConds (r : List Byte) : List (Nat × Nat) :=
  (if recBit r 61 then [(recHdr r 60 57, recHdr r 79 64)] else [])
    ++ (if recOpc r = 9 then waitConds r else [])

/-- SREG operands are read when the record issues (R48). -/
def readSregs (p : Plot) (r : List Byte) : List Word64 :=
  (List.range 4).map fun k =>
    let o := recOpd r k
    if o.space = spSreg then BitVec.ofNat 64 (xReg (threadOf p p.seq.owner) o.addr) else 0

/-- Opcodes whose furrows keep a statistics record (R129). -/
def keepsStats : Opc → Bool
  | .move | .gather | .pool | .matmul | .vchain | .reduce => true
  | _ => false

/-- Opcodes that are replayed (R401, Table 10.1). -/
def isReplayed (r : List Byte) : Bool :=
  match Opc.ofCode (recOpc r) with
  | some .move | some .pool | some .matmul | some .vchain | some .reduce => true
  | some .gather => ctrlBits r 20 20 == 1
  | _ => false

/-- Write an entry's statistics record, where the store is in use (R128). -/
def writeStat (b : BaseState) (p : Plot) (entry w : Nat) : Plot :=
  if cfgPlotArithModeStatsEn b = 1 then { p with sram := writeRun p.sram (0xFC000 + 8 * entry) (leBytes 8 w) } else p

/-- A record is legal on this plot (R46, R47). -/
def legalHere (b : BaseState) (inst : Nat) (r : List Byte) : Bool :=
  recordLegal (hasEpilogue inst) (match logicalOf b inst with
    | some l => isExpress b l
    | none => false) r

/-- The sequencer can take its next furrow: issuing, not waiting at the headland, for a release, for its own furrow, or
behind a fault that has not been taken (R49, R50, R57, R58). -/
def seqOpen (s : Sequencer) : Bool :=
  s.running && s.cur.isNone && !s.waitHalf && s.own.isNone && s.waitRelease.isNone && !(s.inflight.any (·.fault.isSome))

/-- A furrow may begin: its token wait is met, and with SYNC, PHASE or MILESTONE every earlier furrow is complete
(R49, R55, R58). -/
def mayBegin (p : Plot) (r : List Byte) : Bool :=
  waitMet p (tokenConds r)
    && (!(recBit r 18 || recBit r 17 || recOpc r == 14) || p.seq.inflight.isEmpty)

/-- The target of a FRESH or CLEARED gather: PLOT_GCTX where VALID, clamped to the latest APPLIED step; otherwise the latest
APPLIED step, or the cleared-through (R220, Table 6.8). -/
def gatherTarget (b : BaseState) (p : Plot) (r : List Byte) : Word32 :=
  if bitOf p.gctx.toNat 63 then
    let t : Word32 := p.gctx.setWidth 32
    if stepNewer t b.applied then b.applied else t
  else if ctrlBits r 18 17 = 2 then b.cleared else b.applied

/-- Begin the furrow at the next entry: everything R48 reads is read, WVAL taken, the statistics record cleared, the
accumulator status or reduction registers cleared where no execution will do it. -/
def beginFurrow (b : BaseState) (p : Plot) (r : List Byte) : Plot :=
  let s := p.seq
  let fid := s.nextFid
  let op := (Opc.ofCode (recOpc r)).getD .idle
  let bm := readBitmap p r
  let p := waitTake p (tokenConds r)
  let p := if keepsStats op then writeStat b p s.entry 0 else p
  { p with seq := { s with
      cur := some ⟨fid, s.entry, r, readSregs p r, 0, bm, gatherTarget b p r⟩
      inflight := s.inflight ++ [⟨fid, s.entry, r, 0, false, none, [0, 0, 0, 0, 0, 0], none, false⟩]
      nextFid := fid + 1
      phase := if recBit r 17 then !s.phase else s.phase } }

/-- No execution of the furrow is left to issue: it is wholly issued and the sequencer moves on. -/
def endIssue (p : Plot) (c : Issuing) : Plot × List PEv :=
  let a := advance { p.seq with cur := none } c.entry (recBit c.record 23)
  let a := if p.seq.running then a else ({ p.seq with cur := none }, [])
  (modInflight { p with seq := a.1 } c.fid fun x => { x with issued := true }, a.2)

/-- Events delivered to the owner in order. -/
def Dev.deliverAll (d : Dev) (inst : Nat) (evs : List PEv) : Dev := evs.foldl (fun d e => d.deliverOwner inst e []) d

/-! ## Ends of executions and furrows -/

/-- An execution at the head of a unit's queue has ended without a fault: its counts, its statistics, and the queue
(R52, R120, R129). -/
def finishExec (d : Dev) (inst : Nat) (u : UnitK) (e : Exec) (stats : List Nat) (c : ConvCount) : Dev :=
  let d := d.modPlot inst fun p =>
    modInflight (onUnitQ p u (·.drop 1)) e.fid fun x => { x with open_ := x.open_ - 1, stats := mergeStats x.stats stats }
  let d := d.dropGot (Who.ofFurrow inst e.fid)
  let d := if c.sat = 0 then d else d.count cConvSat inst c.sat
  if c.cnan = 0 then d else d.count cConvNan inst c.cnan

/-- An execution has faulted: its furrow waits for FURROW_FAULT, and nothing more of it runs (R57). The event of the
access itself is raised at once. -/
def faultExec (d : Dev) (inst : Nat) (u : UnitK) (e : Exec) (f : FaultKind) : Dev :=
  ((d.modPlot inst fun p =>
    modInflight (onUnitQ p u (·.filter fun x => x.fid ≠ e.fid)) e.fid fun x =>
      { x with fault := some (e.index, f), issued := true, open_ := 0 }).dropGot (Who.ofFurrow inst e.fid)).raiseAccess f

end Sys2Proof.Machine
end

