-- ==== Sys2Proof/Machine/PlotOps.lean ====
section
/-!
DEFINITION. What the commands of a plot share: waymarks, sampling, running the head of a unit's queue, the ends of
furrows, messages, the work queue's slots and grants (02, 09 R370 to R373, 10 R402 to R411, 13 R539).
-/

namespace Sys2Proof.Machine

/-! ## Waymarks (R539, Table 13.8) -/

/-- A waymark is enabled (Table 13.9). -/
def wmkOn (b : BaseState) (id : Nat) : Bool := bitOf (cfgTrcWmkMaskEn b (id / 64)) (id % 64)

/-- PHASE of entry `p` of a ring of `n` entries: 1 on the first pass, 0 on the second, and so on (R472). -/
def ringPhase (p n : Nat) : Nat := if p / n % 2 = 0 then 1 else 0

/-- Write a trace record, or drop it where the ring has no room; with base 0 tracing is off (R539, Table 13.9). -/
def BaseState.trace (b : BaseState) (id edge plot entry exec data : Nat) : BaseState :=
  let base := cfgTrcRingBaseBase b * 4096
  if base = 0 || !wmkOn b id then b
  else
    let n := 2 ^ clampNat 12 24 (cfgTrcRingCfgLog2size b)
    let tail := b.trcTail.toNat
    if n ≤ (tail + 2 ^ 32 - cfgTrcHeadHead b) % 2 ^ 32 then b.count cTrcDrop 0 1
    else
      let rec_ := leBytes 8 b.now.toNat ++ leBytes 2 (id + 32768 * ringPhase tail n) ++ leBytes 1 edge ++ leBytes 1 0
        ++ leBytes 2 plot ++ leBytes 2 entry ++ leBytes 4 b.applied.toNat ++ leBytes 4 exec ++ leBytes 8 data
      let b' := b.hostWrite (base + 32 * (tail % n)) rec_
      { b' with trcTail := b.trcTail + 1 }

/-- A furrow's waymark, where it carries one: at issue (edge 1) or completion (edge 2). -/
def Dev.waymark (d : Dev) (inst : Nat) (r : List Byte) (entry edge exec : Nat) : Dev :=
  if recBit r 16 then
    let data := recHdr r 127 112 + 65536 * recRepeat r
    { d with base := d.base.trace (recHdr r 123 112) edge (unitOf d.base inst) entry exec data }
  else d

/-! ## Sampling (R402, R403) -/

/-- k of CHK_CFG.FRAC; none for off (Table 10.2). -/
def fracK (b : BaseState) : Option Nat :=
  match cfgChkCfgFrac b with
  | 0 => none
  | 1 => some 256
  | 2 => some 64
  | 4 => some 4
  | 5 => some 1
  | _ => some 16

/-- Management ticks since cold reset: a tick is 2^23 cycles of the 8.4 GHz root clock (15_clocks_power_reset). -/
def tickIdx (b : BaseState) : Nat := b.now.toNat * 42 / (5 * 2 ^ 23)

/-- What checking keeps of a plot. -/
def healthOf (d : Dev) (i : Nat) : PlotHealth := kget PlotHealth.reset d.chk.health i

/-- Change it. -/
def modHealth (d : Dev) (i : Nat) (f : PlotHealth → PlotHealth) : Dev :=
  { d with chk := { d.chk with health := kmod PlotHealth.reset d.chk.health i f } }

/-- A plot is sampled: a training plot by its step, an express plot by the tick (R402, R403, R408). -/
def plotSampled (d : Dev) (inst : Nat) (step : Word32) : Bool :=
  match fracK d.base, logicalOf d.base inst with
  | some k, some p =>
    if isExpress d.base p then
      decide ((tickIdx d.base + p) % k = 0) && decide (cfgPlotReplCfgSize d.base ≠ 0)
    else decide ((step.toNat + p) % k = 0) || decide ((healthOf d inst).again = some step)
  | _, _ => false

/-- The head of a sample's shadow stream (Table 10.4): header, record, SREG values. -/
def streamHead (b : BaseState) (logical : Nat) (express : Bool) (e : Exec) : List Byte :=
  leBytes 4 (if express then b.applied.toNat else e.step.toNat) ++ leBytes 2 logical ++ leBytes 2 e.entry
    ++ leBytes 4 e.index ++ leBytes 4 e.stream ++ leBytes 1 (regForce b 0x400040 % 8)
    ++ leBytes 1 (if express then 1 else 0) ++ zeros 46 ++ e.record
    ++ ((List.range 4).map fun k => if (recOpd e.record k).space = spSreg then leBytes 8 (nth 0#64 e.srv k).toNat else []).flatten

/-- A sampled execution has completed: its OFP goes to the replay plot (R407, R410). -/
def noteImage (d : Dev) (inst : Nat) (e : Exec) (image : List Byte) : Dev :=
  if e.sampled then
    { d with chk := { d.chk with samples := d.chk.samples.map fun x =>
        if x.s = inst ∧ x.fid = e.fid ∧ x.index = e.index ∧ x.st = .running then
          { x with ofp := BitVec.ofNat 64 (crc64 image), st := .replay } else x } }
  else d

/-! ## Running an execution -/

/-- What the first execution of a furrow does before it starts: a MATMUL with ACC = 0 and a POOL clear their tile's
status and set its anchor (R137, R139, R140, R170); a REDUCE with WIDE = 0 clears the reduction registers (R190). -/
def firstExec (p : Plot) (e : Exec) : Plot :=
  if !e.first then p else
    match Opc.ofCode (recOpc e.record) with
    | some .matmul =>
      let t := ctrlBits e.record 37 36
      if ctrlBits e.record 39 39 = 0 then
        setAccStat p t { AccStat.reset with entry := e.entry, anchor := sext 10 (ctrlBits e.record 25 16) }
      else setAccStat p t { accStatOf p t with entry := e.entry }
    | some .pool => setAccStat (setTile p 3 (List.replicate 1024 Wide.zero)) 3 { AccStat.reset with entry := e.entry }
    | some .reduce => if ctrlBits e.record 4 4 = 0 ∧ ctrlBits e.record 2 0 ≠ 5 then clearRed p else p
    | _ => p

/-- Demand has used run-ahead fetches: those of a furrow under any of the keys (Table 2.11). -/
def useAhead (d : Dev) (inst fid late : Nat) (keys : List Nat) : Dev :=
  let hit := fun (a : Ahead) => a.fid = fid && !a.used && a.key ∈ keys
  let n := ((d.plot inst).ahead.filter hit).length
  if n = 0 then d
  else
    let d := (d.modPlot inst fun p => { p with ahead := p.ahead.map fun a => if hit a then { a with used := true } else a }).count
      cPfUsed inst n
    if min late n = 0 then d else d.count cPfLate inst (min late n)

/-- What happens before an execution runs: single-bit SRAM errors, bank waits and suppressed stochastic rounding are counted (R78,
R127, R176, R199), the first execution of a furrow clears what its opcode clears, and a MOVE uses the run-ahead data that has
come. -/
def prepHead (m : Mod) (inst : Nat) (u : UnitK) (op : Opc) (obs : Obs) (e : Exec) : Mod :=
  m.onDev fun d =>
    let d := if obs.ce = 0 then d else d.count cPlotSramCe inst obs.ce
    let d := if obs.stall = 0 then d else
      if u = .mat then d.count cMatStallBank inst obs.stall
      else if u = .vec then d.count cVecStallBank inst obs.stall else d
    let d := if recBit e.record 20 && cfgPlotArithModeSrAllow d.base == 0 then d.count cSrSuppress inst 1 else d
    let d := d.modPlot inst fun p => firstExec p e
    if op = .move then useAhead d inst e.fid obs.late [(opdBase e.record 0 e.index).toNat] else d

/-- Run the head of a unit's queue where it is an execution of the opcode: its result, or its fault (R52, R57). One that waits for
bytes of a neighbour window asks for them and does nothing yet (R499). -/
def runHead (m : Mod) (inst : Nat) (u : UnitK) (op : Opc) (obs : Obs)
    (run : Mod → Nat → Exec → Except FaultKind Ran) : Mod :=
  match (unitQ (m.dev.plot inst) u).head? with
  | none => m
  | some e =>
    if Opc.ofCode (recOpc e.record) ≠ some op then m
    else
      let m1 := prepHead m inst u op obs e
      match run m1 inst e with
      | .error (.remoteWait da n) => m.onDev fun d => d.askRemote (.unit inst e.fid e.index) da n
      | .error f => m1.onDev fun d => faultExec d inst u e f
      | .ok r => r.m.onDev fun d => noteImage (finishExec d inst u e r.stats r.cnt) inst e r.image

/-- A REDUCE execution, which also writes the results where it is its furrow's last (R192). -/
def runReduceAll (m : Mod) (inst : Nat) (e : Exec) : Except FaultKind Ran :=
  match runReduce m inst e with
  | .error f => .error f
  | .ok r =>
    if e.last then match finishReduce r.m inst e with
      | .error f => .error f
      | .ok r2 => .ok { r2 with image := r.image, stats := mergeStats r.stats r2.stats, cnt := r.cnt.add r2.cnt }
    else .ok r

/-! ## The end of a furrow (R54, R91, R129) -/

/-- Run-ahead data of a furrow is discarded with it (R91): fetches that demand never used count as unused (Table
2.11). -/
def discardAhead (d : Dev) (inst fid : Nat) : Dev :=
  let un := ((d.plot inst).ahead.filter fun a => a.fid = fid && !a.used).length
  let d := d.modPlot inst fun p => { p with ahead := p.ahead.filter fun a => a.fid ≠ fid }
  if un = 0 then d else d.count cPfUnused inst un

/-- A furrow completes: its statistics record is VALID, STOK is signalled, its waymark written (R54, R129, R539). -/
def completeFurrow (d : Dev) (inst : Nat) (x : InFlight) : Dev :=
  let op := (Opc.ofCode (recOpc x.record)).getD .idle
  let d := d.modPlot inst fun p =>
    let p := { p with seq := { p.seq with inflight := p.seq.inflight.filter fun y => y.fid ≠ x.fid } }
    if keepsStats op then writeStat d.base p x.entry (statWord x.stats true) else p
  let d := discardAhead d inst x.fid
  let d := if recBit x.record 56 then d.addTok inst (recHdr x.record 55 52) 1 else d
  d.waymark inst x.record x.entry 2 (recRepeat x.record)

/-- The block a furrow of a plot belongs to, by the furrow's number: the oldest granted whose furrows have not all issued before
it. -/
def blockAt (p : Plot) (fid : Nat) : Option Nat := (p.blocks.find? fun b => fid < b.2).map (·.1)

/-! ## Dependency slots and the work queue (R100 to R105, R370) -/

/-- The block a descriptor of 64 bytes spells (Table 9.2). -/
def parseBlock (da : Nat) (b : List Byte) : Block :=
  let fl := fieldAt b 18 1
  let ds := fieldAt b 24 4
  ⟨da, BitVec.ofNat 32 (fieldAt b 0 4), fieldAt b 4 4, fieldAt b 8 8, fieldAt b 16 2 % 1024 + 1, bitOf fl 0, bitOf fl 1,
   if bitOf fl 2 then some (fieldAt b 20 2 % 4096) else none, fieldAt b 19 1, fieldAt b 22 1 % 4,
   if bitOf ds 31 then some (ds % 2 ^ 20) else none, fieldAt b 28 2⟩

/-- A block counts as completed without running: its BCRC failed, its plot is out of service, or it faulted on its own
content (R370, R428, R614). -/
def voidBlock (d : Dev) (step : Word32) (da : Nat) : Dev :=
  { d.raise evBlockInvalid { hasS := true, s := step.toNat, d := da } with
    work := { d.work with left := d.work.left - 1, invalid := true } }

/-- A block whose count has reached zero enters the queue, its BCRC checked (R100, R370, R428). -/
def enqueueBlock (m : Mod) (da : Nat) : Mod :=
  let b := m.load da 64
  let blk := parseBlock da b
  let dead := match blk.bound with
    | some p => (physOf m.dev.base p).isNone
    | none => false
  if fieldAt b 60 4 ≠ crc32c (b.take 60) || dead then m.onDev fun d => voidBlock d blk.step da
  else m.onDev fun d => { d with work := { d.work with queue := d.work.queue ++ [blk] } }

/-- Decrement a dependency slot; at zero its block enters the queue (R100). -/
def decSlot (m : Mod) (slot inc : Nat) : Mod :=
  match kfind m.dev.work.slots slot with
  | none => m
  | some s =>
    if inc < s.count then m.onDev fun d => { d with work := { d.work with slots := kput d.work.slots slot { s with count := s.count - inc } } }
    else
      let m := m.onDev fun d => { d with work := { d.work with slots := kdel d.work.slots slot } }
      match s.block with
      | some da => enqueueBlock m da
      | none => m

/-- The blocks of a plot go back to the head of the queue, in order (R104). -/
def requeueBlocks (d : Dev) (logical : Nat) : Dev :=
  { d with work := { d.work with
    granted := d.work.granted.filter fun x => x.1 ≠ logical
    queue := (d.work.granted.filter fun x => x.1 = logical).map (·.2) ++ d.work.queue } }

/-! ## Messages (R73 to R77) -/

/-- A receive channel of a plot. -/
def chanOf (p : Plot) (c : Nat) : Channel := kget Channel.reset p.chans c

/-- Give a channel a state. -/
def setChan (p : Plot) (c : Nat) (ch : Channel) : Plot := { p with chans := kset Channel.reset p.chans c ch }

end Sys2Proof.Machine
end

