-- ==== Sys2Proof/Machine/FwOps.lean ====
section
/-!
DEFINITION. Which firmware processors run, and how the mailbox answers (13_firmware R516, R524 to R537).
-/

namespace Sys2Proof.Machine

/-! ## Processors and roles -/

/-- A processor. -/
def procOf (d : Dev) (id : Nat) : Proc := kget Proc.reset d.fw.procs id

/-- Change a processor. -/
def Dev.modProc (d : Dev) (id : Nat) (f : Proc → Proc) : Dev := d.onFw fun w => { w with procs := kmod Proc.reset w.procs id f }

/-- A processor runs and is not restarting. -/
def procUp (d : Dev) (id : Nat) : Bool := (procOf d id).run && !(procOf d id).restarting && !(procOf d id).failed

/-- Id of the active instance of a role: 0 security, 1 power, 2 scheduler (Table 13.1, R516). -/
def activeId (d : Dev) (role : Nat) : Nat := role + (if bitOf d.fw.active role then 4 else 0)

/-- Id of the standby instance of a role. -/
def standbyId (d : Dev) (role : Nat) : Nat := role + (if bitOf d.fw.active role then 0 else 4)

/-- A role is served: the module has it and its active instance runs. -/
def roleUp (d : Dev) (role : Nat) : Bool := !d.fw.lost.contains role && procUp d (activeId d role)

/-- The scheduler core runs, and no security core restarts alone: tokens go out and the mailbox answers (R527). -/
def schedUp (d : Dev) : Bool := roleUp d 2 && !(procOf d (activeId d 0)).restarting

/-- The power core runs (R525). -/
def powerUp (d : Dev) : Bool := roleUp d 1

/-- The security core runs. -/
def secUp (d : Dev) : Bool := roleUp d 0

/-- Id of the quadrant controller of a physical plot (Table 13.1). -/
def qcId (inst : Nat) : Nat := 0x10 + 4 * instDie inst + instQuad inst

/-- The quadrant controller of a physical plot runs (R525). -/
def qcUp (d : Dev) (inst : Nat) : Bool := procUp d (qcId inst)

/-- A command of the scheduler core in the job: nothing happens while none runs (R527), or in a protective action (R573). -/
def onSched (s : State) (f : Mod → Mod) : Out := onPlane s fun m => if schedUp m.dev then f m else m

/-! ## Mailbox responses (R534, R535, Tables 13.4, 13.6) -/

/-- OK. -/
def mbOk : Nat := 0
/-- IN_PROGRESS. -/
def mbInProgress : Nat := 1
/-- DEFERRED. -/
def mbDeferred : Nat := 2
/-- BAD_VERSION. -/
def mbBadVersion : Nat := 0x10
/-- BAD_OPCODE. -/
def mbBadOpcode : Nat := 0x11
/-- BAD_LENGTH. -/
def mbBadLength : Nat := 0x12
/-- BAD_CRC. -/
def mbBadCrc : Nat := 0x13
/-- BAD_ARG. -/
def mbBadArg : Nat := 0x14
/-- BUSY. -/
def mbBusy : Nat := 0x15
/-- NOT_ALLOWED. -/
def mbNotAllowed : Nat := 0x16
/-- SIG_FAIL. -/
def mbSigFail : Nat := 0x17
/-- ROLLBACK. -/
def mbRollback : Nat := 0x18
/-- PROC_FAILED. -/
def mbProcFailed : Nat := 0x19

/-- The mailbox version served, [15:8] major, [7:0] minor: MBX_STAT.VERSION (Tables 13.2, 13.3, R535). -/
def mbVersion (d : Dev) : Nat := if d.fw.run then (procOf d (activeId d 2)).mbx else 0x0201

/-- The 256 bytes of a message (Table 13.4). -/
def mbxBytes (version op status mflags tag : Nat) (payload : List Byte) : List Byte :=
  let h := leBytes 1 (version / 256) ++ leBytes 1 (version % 256) ++ leBytes 2 op ++ leBytes 2 payload.length ++ leBytes 1 status
    ++ leBytes 1 mflags ++ leBytes 4 tag
  padTo 256 (h ++ leBytes 4 (crc32c (h ++ zeros 4 ++ payload)) ++ payload)

/-- Write one response: entry p mod the ring's size, its PHASE, its MSI-X message (R534). -/
def writeRsp (d : Dev) (r : MbxRsp) : Dev :=
  let n := 2 ^ cfgMbxCfgRsplog2 d.base
  let p := d.fw.rspPosted.toNat
  let b := mbxBytes (mbVersion d) r.op r.status (ringPhase p n + 2 * b2n r.final) r.tag r.payload
  ((d.hostWrite (cfgMbxRspBaseBase d.base * 4096 + 256 * (p % n)) b).onFw fun w => { w with rspPosted := w.rspPosted + 1 }).msixSend
    (cfgMbxCfgVector d.base)

/-- Write the responses whose entries RSPHEAD shows consumed (R534). -/
def flushRsps : Nat → Dev → Dev
  | 0, d => d
  | n + 1, d => match d.fw.rsps with
    | [] => d
    | r :: rest =>
      if d.fw.kicked = false ∨ d.hifUp = false ∨ 2 ^ cfgMbxCfgRsplog2 d.base ≤ (d.fw.rspPosted - d.fw.rspHead).toNat then d
      else flushRsps n ((writeRsp d r).onFw fun w => { w with rsps := rest })

/-- Make a response. -/
def Dev.answer (d : Dev) (op status : Nat) (final : Bool) (tag : Nat) (payload : List Byte) : Dev :=
  let d := d.onFw fun w => { w with rsps := w.rsps ++ [⟨op, status, final, tag, payload⟩] }
  flushRsps d.fw.rsps.length d

/-- The request an opcode's operation takes next: the oldest of its area that has not begun, if it is of that opcode (R535). -/
def nextReq (d : Dev) (op : Nat) : Option MbxReq :=
  match d.fw.reqs.find? fun r => decide (r.op / 256 = op / 256) && !r.begun with
  | some r => if r.op = op then some r else none
  | none => none

/-- A request ends: its response carries FINAL (R535). -/
def Dev.endReq (d : Dev) (r : MbxReq) (status : Nat) (payload : List Byte := []) : Dev :=
  (d.onFw fun w => { w with reqs := w.reqs.filter fun x => x ≠ r }).answer r.op status true r.tag payload

/-- A request that finishes later answers IN_PROGRESS (R535). -/
def Dev.beginReq (d : Dev) (r : MbxReq) : Dev :=
  (d.onFw fun w => { w with reqs := w.reqs.map fun x => if x = r then { r with begun := true } else x }).answer r.op mbInProgress false
    r.tag []

/-- The request of an opcode that has begun. -/
def begunReq (d : Dev) (op : Nat) : Option MbxReq := d.fw.reqs.find? fun r => decide (r.op = op) && r.begun

/-- Run the operation of an opcode on the request it takes, if there is one and the mailbox is served. -/
def onReq (s : State) (op : Nat) (f : Mod → MbxReq → Mod) : Out :=
  onMod s fun m => if !schedUp m.dev then m else match nextReq m.dev op with
    | some r => f m r
    | none => m

/-- The same for an operation that a role carries out: a module left without the role answers PROC_FAILED (R529, Table 13.6). -/
def onRole (s : State) (role op : Nat) (f : Mod → MbxReq → Mod) : Out :=
  onReq s op fun m r =>
    if m.dev.fw.lost.contains role then m.onDev fun d => d.endReq r mbProcFailed
    else if roleUp m.dev role then f m r else m

end Sys2Proof.Machine
end

