-- ==== Sys2Proof/Machine/FabOps.lean ====
section
/-!
DEFINITION. Frames and messages of the Azlek fabric: topology, routing, ports, end-to-end flows, and the carrying of window
accesses as remote READs and WRITEs (12_azlek_fabric R482 to R497).
-/

namespace Sys2Proof.Machine

/-! ## Topology (R487, R488) -/

/-- Coordinate of a module id in dimension k: x, y, z, w (R487). -/
def coord (id k : Nat) : Nat := id / 16 ^ k % 16

/-- A module id with coordinate k replaced. -/
def withCoord (id k c : Nat) : Nat := id - coord id k * 16 ^ k + c * 16 ^ k

/-- Size of dimension k (Table 12.8). -/
def dimSize (b : BaseState) (k : Nat) : Nat := 1 + (match k with
  | 0 => cfgFabTopoCfgSizex b
  | 1 => cfgFabTopoCfgSizey b
  | 2 => cfgFabTopoCfgSizez b
  | _ => cfgFabTopoCfgSizew b)

/-- Dimension k wraps (R488). -/
def dimWraps (b : BaseState) (k : Nat) : Bool := bitOf (cfgFabTopoCfgWrap b) k && decide (2 ≤ dimSize b k)

/-- Dimension of a port. -/
def portDim (p : Nat) : Nat := p / 4

/-- A port points in the + direction (R488). -/
def portPlus (p : Nat) : Bool := decide (p % 4 < 2)

/-- The ports of a direction. -/
def dirPorts (k : Nat) (plus : Bool) : List Nat := if plus then [4 * k, 4 * k + 1] else [4 * k + 2, 4 * k + 3]

/-- The module a port is to be cabled to; none for a port left unused (R488). -/
def peerOf (d : Dev) (p : Nat) : Option Nat :=
  let k := portDim p
  let n := dimSize d.base k
  let c := coord d.fab.modid k
  if dimWraps d.base k then some (withCoord d.fab.modid k (if portPlus p then (c + 1) % n else (c + n - 1) % n))
  else if portPlus p then (if c + 1 < n then some (withCoord d.fab.modid k (c + 1)) else none)
  else if 0 < c then some (withCoord d.fab.modid k (c - 1)) else none

/-! ## Ports -/

/-- A port. -/
def portOf (d : Dev) (p : Nat) : Port := kget Port.reset d.fab.ports p

/-- Change a port. -/
def Dev.modPort (d : Dev) (p : Nat) (f : Port → Port) : Dev := d.onFab fun x => { x with ports := kmod Port.reset x.ports p f }

/-- A port carries frames. -/
def Port.up (p : Port) : Bool := p.st == .up4 || p.st == .up3

/-- Lanes in use. -/
def Port.laneCount (p : Port) : Nat := ((List.range 4).filter fun l => bitOf p.lanes l).length

/-- Number of a virtual channel: 2 × class + DL (R482). -/
def chanNo (cls : Nat) (dl : Bool) : Nat := 2 * cls + b2n dl

/-- Something leaves the module's ports. -/
def Dev.fabOut (d : Dev) (o : FabOut) : Dev := d.onFab fun x => { x with out := x.out ++ [o] }

/-! ## Routing (R492 to R494) -/

/-- Directions a frame may take in dimension k: the shorter one, or both (R492). A frame in transit keeps the direction it has
in its dimension (DEDUCED, log 35). -/
def dirsOf (d : Dev) (dst k inPort : Nat) : List Bool :=
  let n := dimSize d.base k
  let c := coord d.fab.modid k
  if !dimWraps d.base k then [decide (c < coord dst k)]
  else if inPort < 16 ∧ portDim inPort = k then [!portPlus inPort]
  else
    let up := (coord dst k + n - c) % n
    if up < n - up then [true] else if n - up < up then [false] else [true, false]

/-- Ports a frame may take now: none when the destination is unreachable from this module (R492, R494). -/
def routePorts (d : Dev) (dst inPort : Nat) : List Nat :=
  match (List.range 4).find? fun k => coord d.fab.modid k ≠ coord dst k with
  | none => []
  | some k =>
    let ups := fun (l : List Bool) => (l.flatMap (dirPorts k)).filter fun p => (portOf d p).up
    let dirs := dirsOf d dst k inPort
    if ups dirs ≠ [] then ups dirs else if dimWraps d.base k then ups [true, false] else []

/-- DL of a frame on the link of a port: it moves to 1 on the link between the last coordinate and 0, and starts at 0 in each
dimension (R492; DEDUCED, log 35). -/
def dlOn (d : Dev) (f : Frame) (inPort p : Nat) : Bool :=
  let k := portDim p
  let c := coord d.fab.modid k
  (decide (inPort < 16) && decide (portDim inPort = k) && f.dl)
    || (dimWraps d.base k && (if portPlus p then decide (c + 1 = dimSize d.base k) else decide (c = 0)))

/-- Number of a flow (R493). -/
def flowKey (src dst cls : Nat) : Nat := (dst * 65536 + src) * 8 + cls

/-- A frame belongs to a flow. -/
def inFlow (key : Nat) (f : Frame) : Bool := flowKey f.src f.dst f.cls == key

/-- The port a flow is hashed to, each port weighing as many shares as it has lanes (R493). -/
def hashPort (d : Dev) (src dst cls : Nat) (l : List Nat) : Option Nat :=
  let shares := l.flatMap fun p => List.replicate (portOf d p).laneCount p
  if shares = [] then none else some (nth 0 shares (Config.flowHash src dst cls % shares.length))

/-- The port of a flow: the one it is pinned to, unless that port may no longer carry it, or a change of lanes has it chosen
anew and its frames there are acknowledged (R493). -/
def choosePort (d : Dev) (f : Frame) (inPort : Nat) : Option (Nat × Dev) :=
  let l := routePorts d f.dst inPort
  let key := flowKey f.src f.dst f.cls
  let fresh : Option (Nat × Dev) := (hashPort d f.src f.dst f.cls l).map fun p =>
    (p, d.onFab fun x => { x with pins := kput x.pins key p, repin := x.repin.erase key })
  match kfind d.fab.pins key with
  | none => fresh
  | some p =>
    let q := portOf d p
    let busy := (q.kept.any fun k => inFlow key k.2) || (q.txq.any fun t => inFlow key t.frame)
      || (q.openMsg.any fun o => decide (o.1 / 2 = f.cls) && decide (o.2.1 = inPort))
    if !l.contains p || (d.fab.repin.contains key && !busy) then fresh else some (p, d)

/-! ## Sending on a port (R482, R483, R485, R486) -/

/-- A waiting frame may go now: its channel has a credit, and no other message is under way on the channel. -/
def mayGo (p : Port) (t : TxFrame) : Bool :=
  let ch := chanNo t.frame.cls t.frame.dl
  decide (0 < kget 0 p.credits ch) && (match kfind p.openMsg ch with
    | some (o, _) => decide (o = t.owner)
    | none => true)

/-- The frame that goes next: TOKEN, then SC0, then CTRL, then SC1 and SC2 by deficit round-robin (R485). -/
def nextTx (b : BaseState) (p : Port) : Option TxFrame :=
  let first := fun (c : Nat) => p.txq.find? fun t => decide (t.frame.cls = c) && mayGo p t
  match (List.range 3).findSome? first with
  | some t => some t
  | none => match first 3, first 4 with
    | some a, some z =>
      if 100 * p.drr.2 < cfgFabQosCfgSc2pct b * (p.drr.1 + p.drr.2) then some z else some a
    | some a, none => some a
    | none, z => z

/-- The message under way on a channel after one of its frames has gone: its owner and the bytes left (R486, Table 12.3). -/
def msgLeft (cur : Option (Nat × Nat)) (t : TxFrame) : Option (Nat × Nat) :=
  let total := match cur with
    | some (_, left) => left
    | none => if t.frame.token then 0 else alignUp 64 (32 + fieldAt t.frame.payload 2 2)
  if total ≤ t.frame.payload.length then none else some (t.owner, total - t.frame.payload.length)

/-- LSEQ before another one. -/
def prevSeq (n : Nat) : Nat := (n + 4095) % 4096

/-- Send what may go of a port's frames, at most `fuel` of them: with credit, and at most 1,024 unacknowledged (R482, R483). -/
def Dev.pump : Nat → Nat → Dev → Dev
  | 0, _, d => d
  | fuel + 1, p, d =>
    let q := portOf d p
    if !q.up || q.nextLanes.isSome || decide (1024 ≤ q.kept.length) then d
    else match nextTx d.base q with
      | none => d
      | some t =>
        let ch := chanNo t.frame.cls t.frame.dl
        let both := (q.txq.any fun x => x.frame.cls = 3) && (q.txq.any fun x => x.frame.cls = 4)
        let size := 16 + t.frame.payload.length
        let drr := if !both then (0, 0) else if t.frame.cls = 3 then (q.drr.1 + size, q.drr.2)
          else if t.frame.cls = 4 then (q.drr.1, q.drr.2 + size) else q.drr
        let left := msgLeft (kfind q.openMsg ch) t
        let q2 : Port := { q with
          txSeq := (q.txSeq + 1) % 4096
          kept := q.kept ++ [(q.txSeq, t.frame)]
          credits := kset 0 q.credits ch (kget 0 q.credits ch - 1)
          txq := q.txq.erase t
          openMsg := match left with
            | some x => kput q.openMsg ch x
            | none => kdel q.openMsg ch
          drr := drr }
        Dev.pump fuel p ((d.modPort p fun _ => q2).fabOut (.frame p q.txSeq (prevSeq q.rxSeq) t.frame))

/-- Send what a port can. -/
def Dev.pumpPort (d : Dev) (p : Nat) : Dev := d.pump (portOf d p).txq.length p

/-- Give a frame to the port of its flow; false where the destination cannot be reached from here (R494). -/
def Dev.place (d : Dev) (t : TxFrame) : Dev × Bool :=
  match choosePort d t.frame t.owner with
  | none => (d, false)
  | some (p, d) =>
    let f := { t.frame with dl := dlOn d t.frame t.owner p }
    ((d.modPort p fun q => { q with txq := q.txq ++ [⟨t.owner, f⟩] }).pumpPort p, true)

/-! ## Messages (Tables 12.3, 12.4, R496) -/

/-- Header and data of a message. -/
def msgBytes (op : Nat) (eseq : Word32) (addr id rtag aux : Nat) (data : List Byte) : List Byte :=
  let h := leBytes 1 op ++ zeros 1 ++ leBytes 2 data.length ++ leBytes 4 eseq.toNat ++ leBytes 8 addr ++ leBytes 4 id
    ++ leBytes 4 rtag ++ leBytes 4 aux
  h ++ leBytes 4 (crc32c (h ++ zeros 4 ++ data)) ++ data

/-- The frames of a message: payloads of up to 512 bytes, padded to 64. -/
def msgFrames (src dst cls : Nat) (bytes : List Byte) : List Frame :=
  let b := padTo (alignUp 64 bytes.length) bytes
  (chunks 512 (b.length / 512 + 1) b).map fun p => ⟨false, cls, false, dst, src, p⟩

/-- Put the frames of one message on their way. -/
def Dev.sendFrames (d : Dev) (dst cls : Nat) (bytes : List Byte) : Dev :=
  (msgFrames d.fab.modid dst cls bytes).foldl (fun d f => (d.place ⟨16, f⟩).1) d

/-- A flow to a module. -/
def flowOut (d : Dev) (dst cls : Nat) : FlowOut := kget ⟨0, []⟩ d.fab.flowsOut (8 * dst + cls)

/-- Change a flow to a module. -/
def Dev.setFlowOut (d : Dev) (dst cls : Nat) (f : FlowOut) : Dev :=
  d.onFab fun x => { x with flowsOut := kset ⟨0, []⟩ x.flowsOut (8 * dst + cls) f }

/-- Send a DATA message: it takes the next ESEQ of its flow and is kept until it is acknowledged end to end (R496). -/
def Dev.sendMsg (d : Dev) (dst cls op addr id rtag aux : Nat) (data : List Byte) : Dev :=
  let f := flowOut d dst cls
  let b := msgBytes op f.next addr id rtag aux data
  let d := d.setFlowOut dst cls ⟨f.next + 1, f.unacked ++ [⟨f.next, b, d.nowNs, d.nowNs⟩]⟩
  d.sendFrames dst cls b

/-- Send an E2E_ACK: the newest ESEQ received in order; it is not sequenced itself (R496). -/
def Dev.sendAck (d : Dev) (dst : Nat) (eseq : Word32) : Dev :=
  d.sendFrames dst 2 (msgBytes 0x30 0 eseq.toNat 0 0 0 [])

/-- Class of the frames of a message of class SC0, CTRL, SC1 or SC2. -/
def clsSc0 : Nat := 1
/-- CTRL. -/
def clsCtrl : Nat := 2
/-- SC1. -/
def clsSc1 : Nat := 3
/-- SC2. -/
def clsSc2 : Nat := 4

/-! ## Window accesses become remote requests (R41, R497, R502) -/

/-- The class a requester's READ or WRITE travels at (R502). -/
def whoClass (d : Dev) : Who → Nat
  | .unit i _ _ | .thread i _ | .fload i => match logicalOf d.base i with
    | some l => if isExpress d.base l then clsSc0 else clsSc1
    | none => clsSc1
  | _ => clsSc1

/-- The window of a DA, and the offset in it. -/
def windowOf (da : Nat) : Nat × Nat := (da / 0x1000000000000 - 16, da % 0x1000000000000)

/-- Send one READ or WRITE of a loan (R497). -/
def Dev.sendReq (d : Dev) (who : Who) (l : LoanIn) (write : Bool) (da n : Nat) (data : List Byte) : Dev :=
  let tag := d.fab.nextTag
  let d := d.onFab fun x => { x with
    nextTag := (tag + 1) % 2 ^ 32, reqs := x.reqs ++ [⟨tag, l.lender, who, write, da, n⟩] }
  d.sendMsg l.lender (whoClass d who) (if write then 3 else 1) (windowOf da).2 l.id tag (if write then 0 else n) data

/-- A store into a window whose granule is not written whole: the rest of the granule is read first (R497; DESIGN CHOICE,
log 33). -/
def mergedWrite (d : Dev) (w : WinWrite) : Except FaultKind WinWrite :=
  let lo := w.da / 64 * 64
  let hi := alignUp 64 (w.da + w.data.length)
  match windowRead d .fill lo (hi - lo) with
  | .error f => .error f
  | .ok b => .ok { w with da := lo, data := putBytes b (w.da - lo) w.data }

/-- The lender's end of a read's answer: a READ of a window that no loan binds comes back NO_LOAN. -/
def Dev.noLoan (d : Dev) (w : WinRead) : Dev := d.onFab fun x => { x with got := x.got ++ [⟨w.who, w.da, w.n, 2, []⟩] }

/-- Carry writes into windows, in order, at most 8,192 requests in flight (R497). A write whose window has lost its loan has
nowhere to go. -/
def Dev.carryWrites : Nat → Dev → Dev
  | 0, d => d
  | fuel + 1, d => match d.fab.winOut with
    | [] => d
    | w :: rest => match kfind d.tier.windows (windowOf w.da).1 with
      | none => Dev.carryWrites fuel (d.onFab fun x => { x with winOut := rest })
      | some l =>
        if 8192 ≤ d.fab.reqs.length then d
        else if w.da % 64 = 0 ∧ w.data.length % 64 = 0 then
          let ps := piecesOf w.da w.data.length
          let d := d.onFab fun x => { x with winOut := rest }
          Dev.carryWrites fuel (ps.foldl (fun d p => d.sendReq w.who l true p.1 p.2 ((w.data.drop (p.1 - w.da)).take p.2)) d)
        else match mergedWrite d w with
          | .ok w2 =>
            let d := d.dropGot fun x => decide (x = .fill)
            Dev.carryWrites fuel (d.onFab fun x => { x with winOut := w2 :: rest })
          | .error (.remoteWait da n) => d.askRemote .fill da n
          | .error _ => Dev.carryWrites fuel (d.onFab fun x => { x with winOut := rest })

/-- A read may go: no earlier write waits, unless it fills a granule for one, and no WRITE of the same bytes is in flight
(R497). -/
def readMayGo (d : Dev) (w : WinRead) : Bool :=
  (decide (w.who = .fill) || d.fab.winOut.isEmpty)
    && !(d.fab.reqs.any fun r => r.write && decide (r.da < w.da + w.n) && decide (w.da < r.da + r.n))

/-- Carry reads of windows: after every earlier write to the same granules (R497). -/
def Dev.carryReads : Nat → Dev → Dev
  | 0, d => d
  | fuel + 1, d => match d.fab.wants.find? (readMayGo d) with
    | none => d
    | some w =>
      if 8192 ≤ d.fab.reqs.length then d
      else
        let d := d.onFab fun x => { x with wants := x.wants.erase w }
        Dev.carryReads fuel (match kfind d.tier.windows (windowOf w.da).1 with
          | none => d.noLoan w
          | some l => d.sendReq w.who l false w.da w.n [])

/-- Carry what waits for neighbour windows. -/
def Dev.carry (d : Dev) : Dev :=
  if d.fab.winOut.isEmpty && d.fab.wants.isEmpty then d
  else
    let d := d.carryWrites (2 * d.fab.winOut.length + 1)
    d.carryReads (d.fab.wants.length + 1)

/-- Give the loan of a window back: RETURN to its lender, and the window is bound no more (R498). -/
def Dev.returnLoan (d : Dev) (window : Nat) : Dev := match kfind d.tier.windows window with
  | none => d
  | some l => (d.onTier fun t => { t with windows := kdel t.windows window }).sendMsg l.lender clsCtrl 0x25 0 l.id 0 0 []

/-- A command of the fabric: its effect, then whatever waits for neighbour windows is carried. -/
def onFabric (s : State) (f : Mod → Mod) : Out := onPlane s fun m => (f m).onDev Dev.carry

end Sys2Proof.Machine
end

