-- ==== Sys2Proof/Machine/PlotCmds.lean ====
section
/-!
DEFINITION. The commands of a plot's units: executions, messages, signals, the ends of furrows, faults, grants
(02_plots_and_furrows, 04_matrix_unit, 05_vector_engine).
-/

namespace Sys2Proof.Machine

/-- IDLE (R45, R51): the hold is over and the furrow completes. -/
def execIdle (plot : Fin 4352) (s : State) : Out :=
  onPlaneDev s fun d => match (d.plot plot).seq.own with
    | some e => if recOpc e.record = 0 then finishExec d plot .own e [0, 0, 0, 0, 0, 0] .none else d
    | none => d

/-- MOVE (R80 to R84). -/
def execMove (plot : Fin 4352) (obs : Obs) (s : State) : Out := onPlane s fun m => runHead m plot .dma .move obs runMove

/-- POOL (R170 to R174, R247 to R251). -/
def execPool (plot : Fin 4352) (obs : Obs) (s : State) : Out := onPlane s fun m => runHead m plot .mat .pool obs runPool

/-- MATMUL (R133 to R169). -/
def execMatmul (plot : Fin 4352) (obs : Obs) (s : State) : Out := onPlane s fun m => runHead m plot .mat .matmul obs runMatmul

/-- VCHAIN (R177 to R188). -/
def execVchain (plot : Fin 4352) (obs : Obs) (s : State) : Out := onPlane s fun m => runHead m plot .vec .vchain obs runVchain

/-- REDUCE (R189 to R197). -/
def execReduce (plot : Fin 4352) (obs : Obs) (s : State) : Out := onPlane s fun m => runHead m plot .vec .reduce obs runReduceAll

/-- FINGERPRINT (02, after R47). -/
def execFingerprint (plot : Fin 4352) (obs : Obs) (s : State) : Out :=
  onPlane s fun m => runHead m plot .dma .fingerprint obs runFingerprint

/-! ## Messages -/

/-- SEND takes its channel's credit and sends, or waits for the credit in the order of requests (R73 to R76). A plot
being remapped gives no credit (R99). A message for a spine core or a collective leaves by the mesh (R71). -/
def sendHead (m : Mod) (inst : Nat) (obs : Obs) : Mod :=
  match (m.dev.plot inst).sendQ.head? with
  | none => m
  | some e =>
    let r := e.record
    let len := ctrlBits r 12 0
    let chan := ctrlBits r 15 13
    let dest := ctrlBits r 27 16
    let cls := ctrlBits r 31 30
    let src := unitOf m.dev.base inst
    match readOpd m inst e 0 0 len with
    | .error (.remoteWait da n) => m.onDev fun d => d.askRemote (.unit inst e.fid e.index) da n
    | .error f => m.onDev fun d => faultExec d inst .send e f
    | .ok bs =>
      let m := m.onDev fun d => if obs.ce = 0 then d else d.count cPlotSramCe inst obs.ce
      let done := fun (d : Dev) => finishExec d inst .send e [0, 0, 0, 0, 0, 0] .none
      if ctrlBits r 29 28 ≠ 0 then
        m.onDev fun d => done { d with meshOut := d.meshOut ++ [(ctrlBits r 29 28, dest, chan, src, bs)] }
      else match physOf m.dev.base dest with
        | none => m
        | some di =>
          let ch := chanOf (m.dev.plot di) chan
          if ch.holder = some src ∨ (ch.holder = none ∧ (m.dev.plot di).remapping = false) then
            m.onDev fun d =>
              let d := d.modPlot di fun p => setChan p chan { ch with holder := some src }
              done (d.modPlot inst fun p => { p with sent := p.sent ++ [.msg dest chan ⟨src, cls, bs⟩ e.fid] })
          else if src ∈ ch.waiters then m
          else m.onDev fun d => d.modPlot di fun p => setChan p chan { ch with waiters := ch.waiters ++ [src] }

/-- SEND (R74). -/
def execSend (plot : Fin 4352) (obs : Obs) (s : State) : Out := onPlane s fun m => sendHead m plot obs

/-- MESSAGE_ARRIVAL (R73, R75): the oldest message sent from one plot to a channel of another is in its buffer, and the
owner there gets MESSAGE. -/
def execMessageArrival (src dest : Fin 4096) (chan : Fin 8) (s : State) : Out :=
  onPlaneDev s fun d => match physOf d.base src, physOf d.base dest with
    | some si, some di =>
      let sent := (d.plot si).sent
      let is := fun (x : Sent) => match x with
        | .msg t c _ _ => t = dest.val && c = chan.val
        | _ => false
      match sent.find? is with
      | some (.msg t c msg k) =>
        if (chanOf (d.plot di) c).msg.isSome then d
        else
          let d := d.modPlot si fun p => { p with sent := p.sent.erase (.msg t c msg k) }
          (d.modPlot di fun p => setChan p c { chanOf p c with msg := some msg }).deliverOwner di .message [c]
      | _ => d
    | _, _ => d

/-- CHANNEL_CREDIT_RETURN (R74): a consumed message's credit goes to the first waiting sender, or is free. -/
def execChannelCreditReturn (dest : Fin 4096) (chan : Fin 8) (s : State) : Out :=
  onPlaneDev s fun d => match physOf d.base dest with
    | none => d
    | some di =>
      let ch := chanOf (d.plot di) chan
      let inFlight := match ch.holder.bind (physOf d.base) with
        | some si => (d.plot si).sent.any fun x => match x with
          | .msg t c _ _ => t = dest.val && c = chan.val
          | _ => false
        | none => false
      if ch.msg.isSome || inFlight || (d.plot di).remapping then d
      else d.modPlot di fun p => setChan p chan { ch with holder := ch.waiters.head?, waiters := ch.waiters.drop 1 }

/-- RECV (R77): waits for a message on its channel, then writes the payload and the 16-byte receipt; a payload longer than
MAXLEN is a demand fault (R57). -/
def execRecv (plot : Fin 4352) (s : State) : Out :=
  onPlane s fun m => match (m.dev.plot plot).recvQ.head? with
    | none => m
    | some e =>
      let chan := ctrlBits e.record 15 13
      let ch := chanOf (m.dev.plot plot) chan
      match ch.msg with
      | none => m
      | some msg =>
        if ctrlBits e.record 12 0 < msg.data.length then m.onDev fun d => faultExec d plot .recv e .recvLong
        else match writeOpd m plot e 0 0 msg.data with
          | .error f => m.onDev fun d => faultExec d plot .recv e f
          | .ok m1 =>
            let rcpt := leBytes 2 msg.src ++ leBytes 2 msg.data.length ++ leBytes 1 msg.cls ++ zeros 11
            match writeOpd m1 plot e 1 0 rcpt with
            | .error f => m.onDev fun d => faultExec d plot .recv e f
            | .ok m2 => m2.onDev fun d =>
              finishExec (d.modPlot plot fun p => setChan p chan { ch with msg := none }) plot .recv e [0, 0, 0, 0, 0, 0] .none

/-- SIGNAL (R76, R100): adds to a counter of the plot, sends the increment to another plot behind its messages, or
decrements a dependency slot. -/
def execSignal (plot : Fin 4352) (s : State) : Out :=
  onPlane s fun m => match (m.dev.plot plot).seq.own with
    | none => m
    | some e =>
      if recOpc e.record ≠ 10 then m
      else
        let r := e.record
        let inc := ctrlBits r 15 0
        let c := ctrlBits r 19 16
        let target := ctrlBits r 31 20
        let m := m.onDev fun d => finishExec d plot .own e [0, 0, 0, 0, 0, 0] .none
        match ctrlBits r 33 32 with
        | 0 => m.onDev fun d => d.addTok plot c inc
        | 1 => m.onDev fun d => d.modPlot plot fun p => { p with sent := p.sent ++ [.signal target c inc e.fid] }
        | _ => decSlot m (target + 4096 * c) inc

/-- A message that a plot issued before furrow `k` to logical plot `dest` is still in its send queue or on its way (R76). -/
def earlierSend (p : Plot) (dest k : Nat) : Bool :=
  (p.sendQ.any fun e => e.fid < k && ctrlBits e.record 29 28 == 0 && ctrlBits e.record 27 16 == dest)
    || p.sent.any fun x => match x with
      | .msg t _ _ j => t = dest && j < k
      | _ => false

/-- The oldest signal a plot has sent to a logical plot. -/
def firstSignal (p : Plot) (dest : Nat) : Option (Nat × Nat × Nat) :=
  (p.sent.filterMap fun x => match x with
    | .signal t c inc k => if t = dest then some (c, inc, k) else none
    | _ => none).head?

/-- SIGNAL_DELIVERY (R76): the oldest signal to a plot arrives once no message issued to it before is under way. -/
def execSignalDelivery (src dest : Fin 4096) (s : State) : Out :=
  onPlaneDev s fun d => match physOf d.base src, physOf d.base dest with
    | some si, some di => match firstSignal (d.plot si) dest with
      | some (c, inc, k) =>
        if earlierSend (d.plot si) dest k then d
        else (d.modPlot si fun p => { p with sent := p.sent.erase (.signal dest c inc k) }).addTok di c inc
      | none => d
    | _, _ => d

/-! ## Ends -/

/-- MILESTONE (R58): the plot's step work is reported to the scheduler core, and issue waits for the release. -/
def execMilestoneFurrow (plot : Fin 4352) (s : State) : Out :=
  onPlaneDev s fun d => match (d.plot plot).seq.own with
    | some e =>
      if recOpc e.record ≠ 14 then d
      else
        let d := d.modPlot plot fun p => { p with seq := { p.seq with own := none, waitRelease := some e.fid } }
        match logicalOf d.base plot with
        | some l => if l ∈ d.work.reported then d else { d with work := { d.work with reported := d.work.reported ++ [l] } }
        | none => d
    | none => d

/-- FURROW_COMPLETE (R54): the oldest furrow whose executions have all completed is complete. -/
def execFurrowComplete (plot : Fin 4352) (s : State) : Out :=
  onPlaneDev s fun d =>
    let sq := (d.plot plot).seq
    match sq.inflight.find? fun x => x.issued && x.open_ == 0 && x.fault.isNone && sq.waitRelease != some x.fid with
    | some x => completeFurrow d plot x
    | none => d

/-- HALF_SWITCH_RESUME (R68): a sequencer waiting at the headland enters the other half once it is READY; the cycles it
waited are counted. -/
def execHalfSwitchResume (plot : Fin 4352) (cycles : Nat) (s : State) : Out :=
  onPlaneDev s fun d =>
    let sq := (d.plot plot).seq
    let h := halfOf sq.entry
    if sq.waitHalf && halfSt sq h == .ready then
      (d.modPlot plot fun p => { p with seq := { setHalf p.seq h .active with waitHalf := false } }).count
        cSeqHeadlandWait plot cycles
    else d

/-- The address a fault names (letter D). -/
def FaultKind.addr : FaultKind → Nat
  | .daUnmapped a | .daBarred a | .poolWrite a | .address a | .sramRange a | .sramUe a | .tierError a => a
  | _ => 0

/-- The further event a fault's own rule raises (R79, R160, R208, R248). -/
def Dev.raiseKind (d : Dev) (inst entry exec : Nat) (f : FaultKind) : Dev :=
  let u := unitOf d.base inst
  match f with
  | .sramUe a => d.raise evSramUe { entry := entry, exec := exec, d := a } (instDie inst) u
  | .sparseMeta => d.raise evSparseMetaInvalid { entry := entry, exec := exec } (instDie inst) u
  | .bagLimit => d.raise evPoolBagLimit { entry := entry, exec := exec } (instDie inst) u
  | .tdesc row t => d.raise evTdescInvalid { row := row, table := t, entry := entry, exec := exec } (instDie inst) u
  | _ => d

/-- What a fault of a furrow does to the blocks its plot runs: back to the head of the queue, but one that faults on its own
content is counted as completed (R104, R614). -/
def blockFault (d : Dev) (inst fid : Nat) (f : FaultKind) : Dev :=
  match logicalOf d.base inst with
  | none => d
  | some l =>
    let da := blockAt (d.plot inst) fid
    let d := d.modPlot inst fun p => { p with blocks := [] }
    match f, da with
    | .tdesc _ _, some da =>
      match d.work.granted.find? fun g => g.1 = l ∧ g.2.da = da with
      | some g => requeueBlocks (voidBlock { d with work := { d.work with granted := d.work.granted.erase g } } g.2.step da) l
      | none => requeueBlocks d l
    | _, _ => requeueBlocks d l

/-- A furrow's fault is taken (R57): no STOK signal, issue stops, EV_FURROW_FAULT, and FAULT to the owner with the entry
and the execution index. A furrow part-way through its executions issues no more of them and does not complete. -/
def takeFault (d : Dev) (inst : Nat) (x : InFlight) (idx : Nat) (f : FaultKind) : Dev :=
  let d := d.modPlot inst fun p =>
    let q := stopSeq p.seq
    { p with seq := { q with
        inflight := q.inflight.filter fun y => y.fid ≠ x.fid && some y.fid != q.cur.map (·.fid)
        cur := none
        own := match q.own with
          | some e => if e.fid = x.fid then none else some e
          | none => none } }
  let d := discardAhead d inst x.fid
  let d := d.raise evFurrowFault { entry := x.entry, exec := idx, d := f.addr } (instDie inst) (unitOf d.base inst)
  let d := d.raiseKind inst x.entry idx f
  blockFault (d.deliverOwner inst .fault [x.entry, idx]) inst x.fid f

/-- FURROW_FAULT (R57, R78, R79, R104, R614): the pending demand fault of a furrow is taken; `ue` is an uncorrectable
SRAM or register error met by the execution at the head of a unit's queue. -/
def execFurrowFault (plot : Fin 4352) (ue : Option (UnitSel × Nat)) (s : State) : Out :=
  onPlaneDev s fun d =>
    let d := match ue with
      | none => d
      | some (u, a) =>
        let k : UnitK := match u with
          | .dma => .dma
          | .mat => .mat
          | .vec => .vec
          | .send => .send
          | .recv => .recv
        match (unitQ (d.plot plot) k).head? with
        | some e => faultExec d plot k e (.sramUe a)
        | none => d
    match (d.plot plot).seq.inflight.find? (·.fault.isSome) with
    | some x => match x.fault with
      | some (idx, f) => takeFault d plot x idx f
      | none => d
    | none => d

/-- The power core orders divide-by-16 for a training plot: in brown-out, or where its die is 5 °C past THROTTLE (R571, R572,
Table 15.4). A plot with no logical number is no training plot. -/
def wantsDiv16 (d : Dev) (inst : Nat) : Bool :=
  (d.pwr.brown || d.pwr.hotDies.contains (instDie inst)) && (match logicalOf d.base inst with
    | some l => !isExpress d.base l
    | none => false)

/-- CLKA_DIVIDER_SWITCH (R560): the divider the power core orders is taken at the end of an execution. -/
def execClkaDividerSwitch (plot : Fin 4352) (s : State) : Out :=
  onPlaneDev s fun d => d.modPlot plot fun p => { p with div16 := wantsDiv16 d plot }

/-- Bytes that an execution of a MOVE reads from DA. -/
def moveBytes (e : Exec) : Nat :=
  let f := (recOpd e.record 0).format
  ctrlBits e.record 27 16 * rowPitch f (ctrlBits e.record 15 0) (ctrlBits e.record 39 28) + f.rowBytes (ctrlBits e.record 15 0)

/-- DA of the first later execution of a MOVE that has not been fetched ahead, where it lies within 16 KiB of demand (R87,
Table 2.10). -/
def streamNext (p : Plot) (e : Exec) : Option Nat :=
  let base := (opdBase e.record 0 e.index).toNat
  (((List.range (recRepeat e.record - e.index)).map fun j => (opdBase e.record 0 (e.index + 1 + j)).toNat).find? fun da =>
    !(p.ahead.any fun a => a.fid = e.fid && a.key = da)).filter fun da => decide (da ≤ base + 16384 ∧ base ≤ da + 16384)

/-- A stream fetch would leave its bounds: a DA that faults, a neighbour window, a NO_PREFETCH page (R88, R90, R259). -/
def streamBarred (d : Dev) (da n : Nat) : Bool :=
  (accessFault d false da n).isSome || (match daPlace da with
    | .hot _ _ | .warm _ _ => bitOf (pageEntry d.base d.tier (pageIndex da)).toNat 59
    | .window _ _ => true
    | _ => false)

/-- A run-ahead fetch is noted under its key; one that was not made counts as used. -/
def Dev.noteAhead (d : Dev) (plot fid key : Nat) (used : Bool) : Dev :=
  d.modPlot plot fun p => { p with ahead := p.ahead ++ [⟨fid, key, used⟩] }

/-- STREAM_RUN_AHEAD (R87, R88, R90, R259): the DMA fetches ahead for a later execution of the MOVE from DA at the head
of its queue: within 16 KiB of demand, in no neighbour window and no NO_PREFETCH page. -/
def execStreamRunAhead (plot : Fin 4352) (s : State) : Out :=
  onPlaneDev s fun d => match (d.plot plot).dmaQ.head? with
    | some e =>
      if recOpc e.record ≠ 1 ∨ (recOpd e.record 0).space ≠ spDa then d
      else match streamNext (d.plot plot) e with
        | none => d
        | some da =>
          if streamBarred d da (moveBytes e) then (d.noteAhead plot e.fid da true).count cPfDropBound plot 1
          else (d.noteAhead plot e.fid da false).count cPfIssued plot 1
    | none => d

/-! ## The work queue -/

/-- The queue may grant a block of this phase: none of phase 1 before the join (R372). -/
def phaseOpen (w : WorkState) (b : Block) : Bool := !b.backward || w.joined

/-- The block the queue grants a plot: the oldest of its own die's share, then the oldest of any; one bound to a plot
goes to it alone (R101, R372). -/
def pickBlock (w : WorkState) (logical : Nat) : Option Block :=
  let may := fun (b : Block) => phaseOpen w b && (match b.bound with
    | some p => p == logical
    | none => true)
  match w.queue.find? fun b => may b && decide (b.die = logical / 1024) with
  | some b => some b
  | none => w.queue.find? may

/-- No block is granted to a plot whose quadrant's domain is due for its cycle or in it, or whose die's spine is being cycled
(R431, Table 15.3). -/
def grantHeld (d : Dev) (inst : Nat) : Bool :=
  let q := 4 * instDie inst + instQuad inst
  d.cycling q || d.cycling (16 + instDie inst) || ((d.pwr.waiting.head?).map (·.dom)) == some q

/-- WORK_QUEUE_GRANT (R100 to R102): the plot that waits in FWORK is granted its block, rd takes the descriptor's DA,
and the thread runs on with GRANT pending. Nothing is granted to an express plot (R26), to a plot being remapped, nor to
one that owes a pack run or is borrowed (R404, R411). -/
def execWorkQueueGrant (plot : Fin 4096) (s : State) : Out :=
  onPlaneDev s fun d => match d.work.waiting.find? fun w => w.1 = plot.val, physOf d.base plot with
    | some (_, t), some i =>
      let h := healthOf d i
      if isExpress d.base plot || grantHeld d i || (d.plot i).remapping || h.owes || h.borrowed then d
      else match pickBlock d.work plot with
        | none => d
        | some b =>
          let d := { d with work := { d.work with
            waiting := d.work.waiting.erase (plot.val, t), queue := d.work.queue.erase b
            granted := d.work.granted ++ [(plot.val, b)] } }
          let d := d.modPlot i fun p =>
            let th := threadOf p t
            let th := match th.park with
              | .fwork rd => { pcNext (setX th rd b.da) 4 with park := .no }
              | _ => th
            let from_ := max p.seq.nextFid ((p.blocks.getLast?.map (·.2)).getD 0)
            { setThread p t th with blocks := p.blocks ++ [(b.da, from_ + b.nfur)] }
          (d.modPlot i fun p => deliver d.base.fresh p t .grant [b.da]).tickFresh
    | _, _ => d

/-- The furrows of a plot up to number `last` have all issued and completed. -/
def furrowsDone (q : Sequencer) (last : Nat) : Bool :=
  decide (last ≤ q.nextFid) && q.inflight.all (fun x => decide (last ≤ x.fid))

/-- BLOCK_COMPLETE (R105): the oldest block of a plot is complete once as many furrows as it holds have issued since its
turn came, and all have completed (log 11); its done slot is decremented. -/
def execBlockComplete (plot : Fin 4096) (s : State) : Out :=
  onPlane s fun m => match physOf m.dev.base plot, m.dev.work.granted.find? fun g => g.1 = plot.val with
    | some i, some g => match (m.dev.plot i).blocks with
      | [] => m
      | b :: rest =>
        if !furrowsDone (m.dev.plot i).seq b.2 then m
        else
          let m := m.onDev fun d =>
            let d := d.modPlot i fun p => { p with blocks := rest }
            { d with work := { d.work with granted := d.work.granted.erase g, left := d.work.left - 1 } }
          match g.2.doneSlot with
          | some sl => decSlot m sl g.2.doneInc
          | none => m
    | _, _ => m

end Sys2Proof.Machine
end

