-- ==== Sys2Proof/Machine/Tables.lean ====
section
/-!
DEFINITION. Table descriptors, row maps, row records, the pools of the hot and warm tiers and their record slots
(06_tables_and_gather R200 to R227, 07_memory_tiers R253 to R258, R296 to R300, R612, R613).
-/

namespace Sys2Proof.Machine

/-! ## Table descriptors (Table 6.2) -/

/-- A table descriptor. -/
structure TDesc where
  /-- VERSION. -/
  version : Nat
  /-- Table id. -/
  id : Nat
  /-- KIND. -/
  kind : Nat
  /-- FMT. -/
  fmt : Nat
  /-- MSHAPE. -/
  mshape : Nat
  /-- WIDTH. -/
  width : Nat
  /-- SHARD. -/
  shard : Nat
  /-- NSHARD: N − 1. -/
  nshard : Nat
  /-- REPL. -/
  repl : Bool
  /-- POLICY. -/
  policy : Nat
  /-- STALE. -/
  stale : Nat
  /-- FREEZE. -/
  freeze : Bool
  /-- EXTENT. -/
  extent : Nat
  /-- IDXLO. -/
  idxlo : Nat
  /-- IDXHI. -/
  idxhi : Nat
  /-- ROWMAP. -/
  rowmap : Nat
  /-- PGMAP. -/
  pgmap : Nat
  /-- DEFGROUP. -/
  defgroup : Nat
  /-- ROUTE. -/
  route : Nat
  /-- GRAN_G. -/
  granG : Nat
  /-- GRAN_REC. -/
  granRec : Nat
  /-- PREV_VERSION. -/
  prevVersion : Nat
  /-- PREV_VALID. -/
  prevValid : Bool
  /-- PEND_VALID. -/
  pendValid : Bool
  /-- SWITCH_PENDING. -/
  switchPending : Bool
  /-- SWITCH_STEP. -/
  switchStep : Nat
  /-- PREV_ROWMAP. -/
  prevRowmap : Nat
  /-- PEND_ROWMAP. -/
  pendRowmap : Nat
  /-- PEND_VERSION. -/
  pendVersion : Nat
  /-- PIN_CUR. -/
  pinCur : Nat
  /-- PIN_PREV. -/
  pinPrev : Nat
  /-- PREV_EXTENT. -/
  prevExtent : Nat
  /-- PREV_SWITCH_STEP. -/
  prevSwitchStep : Nat
  deriving DecidableEq, Repr

/-- Bytes of `n` as a little-endian field. -/
def fld (n v : Nat) : List Byte := leBytes n v

/-- Bytes 0 to 187 of a descriptor. -/
def TDesc.head (t : TDesc) : List Byte :=
  fld 2 t.version ++ fld 2 (t.id + 4096 * t.kind) ++ fld 1 t.fmt ++ fld 1 t.mshape ++ fld 2 t.width ++ fld 2 t.shard
    ++ fld 2 t.nshard ++ fld 1 (b2n t.repl) ++ fld 1 t.policy ++ fld 1 t.stale ++ fld 1 (b2n t.freeze)
    ++ fld 8 t.extent ++ fld 8 t.idxlo ++ fld 8 t.idxhi ++ fld 8 t.rowmap ++ fld 8 t.pgmap ++ fld 1 t.defgroup
    ++ fld 1 t.route ++ fld 2 t.granG ++ fld 2 t.granRec ++ zeros 126

/-- The static part, bytes 0 to 191, with its DCRC (R207). -/
def TDesc.static (t : TDesc) : List Byte := t.head ++ fld 4 (crc32c t.head)

/-- The live part, bytes 192 to 255. -/
def TDesc.live (t : TDesc) : List Byte :=
  fld 2 t.prevVersion ++ fld 1 (b2n t.prevValid + 2 * b2n t.pendValid + 4 * b2n t.switchPending) ++ zeros 1
    ++ fld 4 t.switchStep ++ fld 8 t.prevRowmap ++ fld 8 t.pendRowmap ++ fld 2 t.pendVersion ++ zeros 2
    ++ fld 4 t.pinCur ++ fld 4 t.pinPrev ++ fld 8 t.prevExtent ++ fld 4 t.prevSwitchStep ++ zeros 16

/-- The descriptor's 256 bytes. -/
def TDesc.bytes (t : TDesc) : List Byte := t.static ++ t.live

/-- The descriptor that 256 bytes spell. -/
def parseTd (b : List Byte) : TDesc where
  version := fieldAt b 0 2
  id := fieldAt b 2 2 % 4096
  kind := fieldAt b 2 2 / 4096
  fmt := fieldAt b 4 1 % 16
  mshape := fieldAt b 5 1 % 8
  width := fieldAt b 6 2
  shard := fieldAt b 8 2 % 4096
  nshard := fieldAt b 10 2 % 4096
  repl := bitOf (fieldAt b 12 1) 0
  policy := fieldAt b 13 1
  stale := fieldAt b 14 1 % 8
  freeze := bitOf (fieldAt b 15 1) 0
  extent := fieldAt b 16 8
  idxlo := fieldAt b 24 8
  idxhi := fieldAt b 32 8
  rowmap := fieldAt b 40 8
  pgmap := fieldAt b 48 8
  defgroup := fieldAt b 56 1
  route := fieldAt b 57 1 % 8
  granG := fieldAt b 58 2
  granRec := fieldAt b 60 2
  prevVersion := fieldAt b 192 2
  prevValid := bitOf (fieldAt b 194 1) 0
  pendValid := bitOf (fieldAt b 194 1) 1
  switchPending := bitOf (fieldAt b 194 1) 2
  switchStep := fieldAt b 196 4
  prevRowmap := fieldAt b 200 8
  pendRowmap := fieldAt b 208 8
  pendVersion := fieldAt b 216 2
  pinCur := fieldAt b 220 4
  pinPrev := fieldAt b 224 4
  prevExtent := fieldAt b 228 8
  prevSwitchStep := fieldAt b 236 4

/-- DA of the descriptor of table `t` (R205). -/
def tdescDa (b : BaseState) (t : Nat) : Nat := cfgTierTdescBaseBase b * 2 ^ 20 + 256 * t

/-- The table at a slot, where its DCRC passes; a slot never written fails it, so its table has not been created
(R208). -/
def tdescAt (m : Mod) (t : Nat) : Option TDesc :=
  if m.dev.tab.noArray ∨ 4096 ≤ t then none
  else
    let b := m.load (tdescDa m.dev.base t) 256
    if fieldAt b 188 4 = crc32c (b.take 188) then some (parseTd b) else none

/-- The table whose descriptor lies at a DA: a slot of the array (R208). -/
def tdescByDa (m : Mod) (da : Nat) : Option (Nat × TDesc) :=
  let base := tdescDa m.dev.base 0
  if da < base ∨ base + 0x100000 ≤ da ∨ (da - base) % 256 ≠ 0 then none
  else
    let t := (da - base) / 256
    (tdescAt m t).map fun d => (t, d)

/-- Write a descriptor whole. -/
def Mod.putTd (m : Mod) (t : Nat) (d : TDesc) : Mod := m.store (tdescDa m.dev.base t) d.bytes

/-- Weight format of a table. -/
def TDesc.format (t : TDesc) : Fmt := (Fmt.ofCode t.fmt).getD .fp32

/-- Bytes of the weights (R210). -/
def TDesc.pw (t : TDesc) : Nat := t.format.rowBytes t.width

/-- Bytes of one moment (R131): 8-bit elements and one scale for 32 of them. -/
def TDesc.pmOne (t : TDesc) : Nat := t.width + t.width / 32

/-- A record has a first moment (Table 6.5). -/
def TDesc.hasM (t : TDesc) : Bool := t.mshape == 1 || t.mshape == 3
/-- A record has a second moment per element. -/
def TDesc.hasV (t : TDesc) : Bool := t.mshape == 2 || t.mshape == 3
/-- A record has a second moment per row. -/
def TDesc.hasRv (t : TDesc) : Bool := t.mshape == 4

/-- Bytes of the moments. -/
def TDesc.pm (t : TDesc) : Nat :=
  (if t.hasM then t.pmOne else 0) + (if t.hasV then t.pmOne else 0) + (if t.hasRv then 2 else 0)

/-- GRAN_G and GRAN_REC (R212). -/
def TDesc.grans (t : TDesc) : Nat × Nat := ((16 + t.pw + 63) / 64, (16 + t.pw + t.pm + 63) / 64)

/-- HOTEN. -/
def TDesc.hoten (t : TDesc) : Bool := bitOf t.policy 0
/-- PREFETCH_PROMOTE. -/
def TDesc.prefPromote (t : TDesc) : Bool := bitOf t.policy 1
/-- ALLOW_COLD. -/
def TDesc.allowCold (t : TDesc) : Bool := bitOf t.policy 2
/-- ALLOW_LENT. -/
def TDesc.allowLent (t : TDesc) : Bool := bitOf t.policy 3
/-- NEWTIER is warm. -/
def TDesc.newWarm (t : TDesc) : Bool := bitsOf t.policy 5 4 == 1

/-- A version of a table as a read sees it (R221 to R223). -/
structure TabVer where
  /-- Its number. -/
  version : Nat
  /-- Its row map. -/
  rowmap : Nat
  /-- Its EXTENT. -/
  extent : Nat
  /-- The step at which it took effect. -/
  switched : Word32
  deriving DecidableEq, Repr

/-- The current version. -/
def TDesc.curVer (t : TDesc) : TabVer := ⟨t.version, t.rowmap, t.extent, BitVec.ofNat 32 t.switchStep⟩
/-- The previous version. -/
def TDesc.prevVer (t : TDesc) : TabVer := ⟨t.prevVersion, t.prevRowmap, t.prevExtent, BitVec.ofNat 32 t.prevSwitchStep⟩

/-- The version in force at a target (R223). -/
def TDesc.verAt (t : TDesc) (target : Word32) : TabVer :=
  if t.prevValid && stepNewer (BitVec.ofNat 32 t.switchStep) target then t.prevVer else t.curVer

/-- The version that updates of gradient step `gs` are applied to (R223): steps up to the switch's write the previous one. -/
def TDesc.gradVer (t : TDesc) (gs : Word32) : TabVer :=
  if t.prevValid && !stepNewer gs (BitVec.ofNat 32 t.switchStep) then t.prevVer else t.curVer

/-! ## Keys and coalescers (R234, R613) -/

/-- Key of a row: (t << 40) | r. -/
def rowKey (t r : Nat) : Nat := t * 2 ^ 40 + r

/-- The coalescer of a row (R234). -/
def coalOf (t r : Nat) : Nat := crc32c (leBytes 8 (rowKey t r)) % 16

/-- The spine of a row, which is its home unit (R234, R613). -/
def spineOf (t r : Nat) : Nat := coalOf t r / 4

/-! ## Row maps (Table 6.3) -/

/-- A row-map entry. -/
structure RowEnt where
  /-- TIER. -/
  tier : Tier
  /-- STATE: 0 RESIDENT, 1 PROMOTING, 2 EVICTING, 3 PINNED. -/
  state : Nat
  /-- HOTDIR. -/
  hotdir : Bool
  /-- LOC. -/
  loc : Nat
  deriving DecidableEq, Repr

/-- An ABSENT row. -/
def RowEnt.absent : RowEnt := ⟨.absent, 0, false, 0⟩

/-- Code of a tier. -/
def Tier.code : Tier → Nat
  | .absent => 0 | .hot => 1 | .warm => 2 | .cold => 3 | .lent => 4

/-- Tier of a code. -/
def Tier.ofCode : Nat → Tier
  | 1 => .hot | 2 => .warm | 3 => .cold | 4 => .lent | _ => .absent

/-- The entry as a word. -/
def RowEnt.word (e : RowEnt) : Nat := e.tier.code * 2 ^ 61 + e.state * 2 ^ 59 + b2n e.hotdir * 2 ^ 58 + e.loc

/-- The entry of a word. -/
def RowEnt.ofWord (w : Nat) : RowEnt := ⟨Tier.ofCode (bitsOf w 63 61), bitsOf w 60 59, bitOf w 58, bitsOf w 49 0⟩

/-- The entry of row `r` of a row map. -/
def rowEnt (m : Mod) (rowmap r : Nat) : RowEnt := RowEnt.ofWord (m.loadNat (rowmap + 8 * r) 8)

/-- Write it: one aligned write of the whole entry (R303). -/
def Mod.putRow (m : Mod) (rowmap r : Nat) (e : RowEnt) : Mod := m.storeNat (rowmap + 8 * r) 8 e.word

/-- A row's record lies in hot or warm tier. -/
def RowEnt.near (e : RowEnt) : Bool := e.tier == .hot || e.tier == .warm

/-- Unit that holds a DA ÷ 64: die, or Iaqua. -/
def locUnit (loc : Nat) : Nat :=
  match daPlace (64 * loc) with
  | .hot d _ => d
  | .warm q _ => q
  | .window w _ => w
  | _ => 0

/-! ## Row records (Table 6.4) -/

/-- STEPTAG of a record. -/
def recTag (r : List Byte) : Word32 := BitVec.ofNat 32 (fieldAt r 0 4)
/-- FLAGS. -/
def recFlags (r : List Byte) : Nat := fieldAt r 6 2
/-- FROZEN. -/
def recFrozen (r : List Byte) : Bool := bitOf (recFlags r) 0
/-- IMPORTED. -/
def recImported (r : List Byte) : Bool := bitOf (recFlags r) 1
/-- LINKED. -/
def recLinked (r : List Byte) : Bool := bitOf (recFlags r) 2
/-- FPRINT. -/
def recFprint (r : List Byte) : Nat := fieldAt r 8 4
/-- PREVLINK. -/
def recPrev (r : List Byte) : Nat := fieldAt r 12 4

/-- FPRINT of a record whose payload ends at byte `n`: FPRINT and FLAGS[15:12] count as zero (R211). -/
def fprintOf (r : List Byte) (n : Nat) : Nat :=
  crc32c (r.take 6 ++ leBytes 2 (recFlags r % 4096) ++ zeros 4 ++ (r.take n).drop 12)

/-- Payload bytes of a record end here. -/
def TDesc.recEnd (t : TDesc) : Nat := 16 + t.pw + t.pm

/-- A whole record passes its FPRINT (R219). -/
def recGood (t : TDesc) (r : List Byte) : Bool := recFprint r == fprintOf r t.recEnd

/-- A record of a table from its header fields and payload, padded to its granules, with its FPRINT. -/
def mkRecord (t : TDesc) (tag : Word32) (version flags prev : Nat) (payload : List Byte) : List Byte :=
  let r0 := leBytes 4 tag.toNat ++ leBytes 2 version ++ leBytes 2 flags ++ zeros 4 ++ leBytes 4 prev ++ payload
  padTo (64 * t.granRec) (putBytes r0 8 (leBytes 4 (fprintOf r0 t.recEnd)))

/-- The record that stands for an ABSENT row (R209). -/
def absentRecord (t : TDesc) (version : Nat) : List Byte := mkRecord t 0 version 0 0xFFFFFFFF (zeros (t.pw + t.pm))

/-- Effective tag (R215). -/
def effTag (v : TabVer) (r : List Byte) : Word32 := if recImported r then v.switched else recTag r

/-- `n` granules of the record that an entry names, from its first one. -/
def recordOf (m : Mod) (e : RowEnt) (n : Nat) : List Byte :=
  match e.tier with
  | .hot | .warm => m.load (64 * e.loc) (64 * n)
  | .cold => match kfind m.dev.tier.cold e.loc with
    | some c => padTo (64 * n) c.data
    | none => zeros (64 * n)
  | .lent => match kfind m.dev.tier.lent e.loc with
    | some c => padTo (64 * n) c.data
    | none => zeros (64 * n)
  | .absent => zeros (64 * n)

/-! ## Pools (R254, R255, R296, R298, R613) -/

/-- A row's row-map entry or its record lies in a range that the running domain cycle holds: requests to it wait, and their
timeouts are suspended (R565). -/
def rowHeld (m : Mod) (t : TDesc) (row : Nat) : Bool :=
  if m.dev.pwr.cycle.isNone then false
  else if daHeld m.dev (t.curVer.rowmap + 8 * row) then true
  else
    let e := rowEnt m t.curVer.rowmap row
    match e.tier with
    | .hot | .warm => daHeld m.dev (64 * e.loc)
    | .cold => heldPool m.dev == some 8
    | _ => false

/-- Pages of 2 MiB of a pool: first index and count. Units 0–3 are dies, 4–7 Iaquas. -/
def poolSpan (b : BaseState) (t : TierState) (u : Nat) : Nat × Nat :=
  if u < 4 then (pageIndex (hotBase u + hotSoft b), (t.hotBacked u - hotSoft b) / 0x200000)
  else (pageIndex (warmBase (u - 4) + warmSoft b), (t.warmBacked (u - 4) - warmSoft b) / 0x200000)

/-- Page indices of a pool, rising. -/
def poolPages (b : BaseState) (t : TierState) (u : Nat) : List Nat :=
  let s := poolSpan b t u
  (List.range s.2).map (s.1 + ·)

/-- FREE pages of a pool. -/
def poolFree (b : BaseState) (t : TierState) (u : Nat) : Nat :=
  ((poolPages b t u).filter fun i => pageKind b t i = pkFree).length

/-- A pool has more than `pct` per cent of its pages FREE. -/
def poolAbove (b : BaseState) (t : TierState) (u pct : Nat) : Bool :=
  decide (pct * (poolSpan b t u).2 < 100 * poolFree b t u)

/-- A pool's unit is being emptied (R316). -/
def poolEmptied (t : TierState) (u : Nat) : Bool :=
  t.evacs.any fun e => (e.kind = 0 ∧ u < 4 ∧ e.unit / 192 = u) ∨ (e.kind = 1 ∧ 4 ≤ u ∧ e.unit / 4 = u - 4)

/-- The unit that takes a record of a row in hot (`warm` false) or warm tier, where any has room (R613). -/
def placeUnit (b : BaseState) (t : TierState) (warm : Bool) (table row : Nat) : Option Nat :=
  let h := spineOf table row
  let us := (List.range 4).map fun i => (h + i) % 4 + (if warm then 4 else 0)
  us.find? fun u => poolAbove b t u 1 && !poolEmptied t u

/-- A RECORD page's entry. -/
def recordPage (table gran version free : Nat) : Word64 :=
  BitVec.ofNat 64 (pkRecord * 2 ^ 60 + table * 2 ^ 44 + gran * 2 ^ 34 + version * 2 ^ 16 + free)

/-- Record slots of a page for records of `gran` granules. -/
def slotsPerPage (gran : Nat) : Nat := if gran = 0 then 0 else 32768 / gran

/-- The page's records are of this table, version and size, with a slot free. -/
def pageTakes (w : Word64) (table gran version : Nat) : Bool :=
  let n := w.toNat
  bitsOf n 63 60 == pkRecord && bitsOf n 55 44 == table && bitsOf n 43 34 == gran && bitsOf n 31 16 == version
    && decide (0 < bitsOf n 15 0)

/-- First free slot of a RECORD page, as DA ÷ 64. -/
def freeSlotIn (t : TierState) (page gran : Nat) : Option Nat :=
  ((List.range (slotsPerPage gran)).map fun k => pageDa page / 64 + gran * k).find? fun l => (kfind t.slots l).isNone

/-- Change FREESLOTS of a page by one. -/
def bumpFree (b : BaseState) (t : TierState) (page : Nat) (up : Bool) : TierState :=
  let w := (pageEntry b t page).toNat
  let n := bitsOf w 15 0
  setPage b t page (BitVec.ofNat 64 (withBits w 15 0 (if up then n + 1 else n - 1)))

/-- Take a record slot in a pool: in the RECORD page of lowest DA that has one, else in the FREE page of lowest DA
(DEDUCED from the worked example after R318: pages are allocated from the lowest free DA; log 19). -/
def allocSlot (m : Mod) (u : Nat) (s : Slot) : Option (Nat × Mod) :=
  let b := m.dev.base
  let t := m.dev.tier
  let span := poolSpan b t u
  let put := fun (t : TierState) (page loc : Nat) =>
    (loc, m.onDev fun d => { d with tier := { bumpFree b t page false with slots := kput t.slots loc s } })
  match t.pages.find? fun p =>
      span.1 ≤ p.1 && p.1 < span.1 + span.2 && pageTakes p.2 s.table s.gran s.version with
  | some p => (freeSlotIn t p.1 s.gran).map fun l => put t p.1 l
  | none => match (poolPages b t u).find? fun i => pageKind b t i = pkFree with
    | some i =>
      let t' := setPage b t i (recordPage s.table s.gran s.version (slotsPerPage s.gran))
      (freeSlotIn t' i s.gran).map fun l => put t' i l
    | none => none

/-- Free a record slot; a page left with none in use is FREE again. -/
def freeSlot (m : Mod) (loc : Nat) : Mod :=
  match kfind m.dev.tier.slots loc with
  | none => m
  | some s => m.onDev fun d =>
    let t := { d.tier with slots := kdel d.tier.slots loc }
    let page := pageIndex (64 * loc)
    if pageKind d.base t page ≠ pkRecord then { d with tier := t }
    else
    let t := bumpFree d.base t page true
    let full := bitsOf (pageEntry d.base t page).toNat 15 0 = slotsPerPage s.gran
    { d with tier := if full then { t with pages := kdel t.pages page } else t }

/-- Take a slot for a row's record in its home pool of a tier, or in the next that has room (R613). -/
def placeIn (m : Mod) (warm : Bool) (s : Slot) : Option (Nat × Mod) :=
  match placeUnit m.dev.base m.dev.tier warm s.table s.row with
  | some u => allocSlot m u s
  | none => none

/-- Take a slot for the first record of a row (R298): tier NEWTIER, else the other of hot and warm. -/
def placeFirst (m : Mod) (t : TDesc) (s : Slot) : Option (Tier × Nat × Mod) :=
  match placeIn m t.newWarm s with
  | some (l, m') => some (if t.newWarm then .warm else .hot, l, m')
  | none => (placeIn m (!t.newWarm) s).map fun x => (if t.newWarm then .hot else .warm, x.1, x.2)

/-- A run of `n` FREE pages of a die's pool, of lowest DA (R612). -/
def freeRun (b : BaseState) (t : TierState) (u n : Nat) : Option Nat :=
  let s := poolSpan b t u
  go s.1 s.2 0 0
where
  /-- Walk pages with the start and length of the run so far. -/
  go (i : Nat) : Nat → Nat → Nat → Option Nat
    | 0, start, len => if n ≤ len then some start else none
    | k + 1, start, len =>
      if n ≤ len ∧ 0 < len then some start
      else if pageKind b t i = pkFree then go (i + 1) k (if len = 0 then i else start) (len + 1)
      else go (i + 1) k 0 0

/-- Take a run of META pages for `bytes` bytes in the first die's pool that holds one (R612): its DA. -/
def allocMeta (m : Mod) (bytes : Nat) : Option (Nat × Mod) :=
  let n := (bytes + 0x1FFFFF) / 0x200000
  match (List.range 4).findSome? fun u => freeRun m.dev.base m.dev.tier u n with
  | none => none
  | some p => some (pageDa p, m.onDev fun d =>
      d.onTier fun t => (List.range n).foldl (fun t i => setPage d.base t (p + i) (pageWord pkMeta)) t)

/-- Free a run of pages from a DA; their bytes read as zero again. -/
def freePages (m : Mod) (da bytes : Nat) : Mod :=
  let n := (bytes + 0x1FFFFF) / 0x200000
  let m := { m with mem := m.mem.filter fun e => e.1 < da ∨ da + n * 0x200000 ≤ e.1 }
  m.onDev fun d => d.onTier fun t =>
    (List.range n).foldl (fun t i => { t with pages := kdel t.pages (pageIndex da + i) }) t

/-- A range lies whole in a backed hot soft band (R205, R338, R340, R603). -/
def inHotSoft (b : BaseState) (t : TierState) (da n : Nat) : Bool :=
  match daPlace da with
  | .hot d off => decide (off + n ≤ hotSoft b) && decide (off + n ≤ t.hotBacked d)
  | _ => false

end Sys2Proof.Machine
end

