-- ==== Sys2Proof/Machine/Update.lean ====
section
/-!
DEFINITION. The arithmetic of a row update: parameter groups, the recurrence, per-element programs, catch-up decay
(08_sowing_and_update R332 to R350).
-/

namespace Sys2Proof.Machine

/-! ## Parameter groups (Table 8.5) -/

/-- A group entry. -/
structure Group where
  /-- MODE: 0 GENERAL, 1 ROWWISE, 2 PROGRAM. -/
  mode : Nat
  /-- FLAGS. -/
  flags : Nat
  /-- P: 0, ½ as 1, 1 as 2. -/
  p : Nat
  /-- T0. -/
  t0 : Word32
  /-- s, a1, b1, a2, b2, c1, c2, c3, c4, ε, η, λ. -/
  coef : List Num
  /-- K0–K15. -/
  ks : List Num
  /-- The 64 program instructions. -/
  prog : List Nat
  deriving DecidableEq, Repr

/-- Bytes of a bank. -/
def bankBytes : Nat := 0x18000

/-- Group `g` of a bank's bytes. -/
def groupOf (bank : KMap Byte) (g : Nat) : Group :=
  let e := readRun bank (128 * g) 128
  let pr := readRun bank (0x8000 + 256 * g) 256
  { mode := fieldAt e 0 1, flags := fieldAt e 1 1, p := fieldAt e 2 1, t0 := BitVec.ofNat 32 (fieldAt e 4 4)
    coef := (List.range 12).map fun i => ofF32 (fieldAt e (8 + 4 * i) 4)
    ks := (List.range 16).map fun i => ofF32 (fieldAt e (56 + 4 * i) 4)
    prog := (List.range 64).map fun i => fieldAt pr (4 * i) 4 }

/-- BC1. -/
def Group.bc1 (g : Group) : Bool := bitOf g.flags 0
/-- BC2. -/
def Group.bc2 (g : Group) : Bool := bitOf g.flags 1
/-- EPSOUT. -/
def Group.epsout (g : Group) : Bool := bitOf g.flags 2
/-- CATCHUP. -/
def Group.catchup (g : Group) : Bool := bitOf g.flags 3
/-- WSR. -/
def Group.wsr (g : Group) : Bool := bitOf g.flags 4
/-- NANPOL. -/
def Group.nanpol (g : Group) : Bool := bitOf g.flags 5
/-- BLOCK. -/
def Group.block (g : Group) : Bool := bitOf g.flags 6
/-- Coefficient `i`. -/
def Group.c (g : Group) (i : Nat) : Num := nth .zero g.coef i

/-- OPC, D, A, B, C of a program instruction (R345). -/
def progOp (w : Nat) : Nat × Nat × Nat × Nat × Nat :=
  (bitsOf w 31 26, bitsOf w 25 22, bitsOf w 21 16, bitsOf w 15 10, bitsOf w 9 4)

/-- How many of A, B, C an opcode uses; none for a reserved one (Table 8.8). -/
def progArity (op : Nat) : Option Nat :=
  if op = 0 then some 0
  else if op = 5 ∨ op = 0x10 then some 3
  else if op ∈ [1, 2, 3, 4, 6, 7, 0x11] then some 2
  else if op ≤ 0x13 then some 1 else none

/-- An instruction is valid (R347). -/
def progInsOk (block : Bool) (w : Nat) : Bool :=
  let (op, d, a, b, c) := progOp w
  match progArity op with
  | none => false
  | some n =>
    decide (w % 16 = 0) && decide (a < 0x27 ∧ b < 0x27 ∧ c < 0x27)
      && (decide (1 ≤ n) || (decide (a = 0) && decide (d = 0))) && (decide (2 ≤ n) || decide (b = 0))
      && (decide (3 ≤ n) || decide (c = 0)) && (block || !(op == 0x12 || op == 0x13))

/-- Instructions up to and including the first END; none where there is no END. -/
def progBody : List Nat → Option (List Nat)
  | [] => none
  | w :: l => if bitsOf w 31 26 = 0 then some [w] else (progBody l).map (w :: ·)

/-- A program is valid (R347). -/
def progOk (g : Group) : Bool :=
  match progBody g.prog with
  | none => false
  | some l => l.all (progInsOk g.block)

/-- A group entry is valid (R344). -/
def groupOk (bank : KMap Byte) (i : Nat) : Bool :=
  let e := readRun bank (128 * i) 128
  let g := groupOf bank i
  decide (g.mode ≤ 2) && !bitOf g.flags 7 && decide (g.p ≤ 2) && decide (fieldAt e 3 1 = 0)
    && decide (fieldAt e 120 8 = 0) && (g.mode != 2 || progOk g)

/-- A bank is valid: its CRC, every group, every program (R341). -/
def bankOk (bank : KMap Byte) (crc : Nat) : Bool :=
  decide (crc32c (readRun bank 0 bankBytes) = crc) && (List.range 256).all (groupOk bank)

/-! ## The recurrence (R332) -/

/-- x^k exactly. -/
def Num.pow (x : Num) (k : Nat) : Num :=
  if k = 0 then .one else
    match x with
    | .nan => .nan
    | .inf s => .inf (s && k % 2 == 1)
    | .fin s m e => .fin (s && k % 2 == 1) (m ^ k) (e * k)

/-- FP32 product. -/
def fmul (x y : Num) : Num := round32 (x.mul y)
/-- FP32 sum. -/
def fadd (x y : Num) : Num := round32 (x.add y)
/-- FP32 difference. -/
def fsub (x y : Num) : Num := round32 (x.sub y)
/-- FP32 quotient. -/
def fdiv (x y : Num) : Num := round32 (x.div y)
/-- FP32 root. -/
def fsqrt (x : Num) : Num := round32 x.sqrt
/-- pow of R332. -/
def fpow (x : Num) (k : Nat) : Num := round32 (x.pow k)

/-- t of R332. -/
def Group.t (g : Group) (gs : Word32) : Nat := (max 1 ((gs - g.t0).toInt + 1)).toNat

/-- c1e, c3e, kd. -/
def Group.factors (g : Group) (gs : Word32) : Num × Num × Num :=
  let t := g.t gs
  (if g.bc1 then fdiv (g.c 5) (fsub .one (fpow (g.c 1) t)) else g.c 5,
   if g.bc2 then fdiv (g.c 7) (fsub .one (fpow (g.c 3) t)) else g.c 7,
   fsub .one (fmul (g.c 10) (g.c 11)))

/-- What an update works on: weights, first moments, second moments (one for the row under ROWWISE). -/
structure RowVals where
  /-- w. -/
  w : List Num
  /-- m. -/
  m : List Num
  /-- v. -/
  v : List Num
  /-- The row's v. -/
  rv : Num
  deriving DecidableEq, Repr

/-- u of R332 from num and q. -/
def updateU (g : Group) (num q : Num) : Num :=
  if g.p = 0 then num
  else if g.p = 2 then fdiv num (fadd q (g.c 9))
  else if g.epsout then fdiv num (fadd (fsqrt q) (g.c 9))
  else fdiv num (fsqrt (fadd q (g.c 9)))

/-- One element under GENERAL, or under ROWWISE with the row's new v given: new w, m, v. -/
def updateElem (g : Group) (c1e c3e kd : Num) (rowV : Option Num) (w m v gr : Num) : Num × Num × Num :=
  let gp := fmul (g.c 0) gr
  let m := fadd (fmul (g.c 1) m) (fmul (g.c 2) gp)
  let v := match rowV with
    | some r => r
    | none => fadd (fmul (g.c 3) v) (fmul (g.c 4) (fmul gp gp))
  let num := fadd (fmul c1e m) (fmul (g.c 6) gp)
  let q := fadd (fmul c3e v) (g.c 8)
  let u := updateU g num q
  (fsub (fmul kd w) (fmul (g.c 10) u), m, v)

/-- r of R335: the exact sum of gp × gp over the slice, divided by W, rounded once. -/
def rowSquare (g : Group) (gr : List Num) : Num :=
  let sq := gr.map fun x =>
    let gp := fmul (g.c 0) x
    gp.mul gp
  round32 ((exactSum sq).div (.ofInt gr.length))

/-- Catch-up decay over `n` idle steps (R350). -/
def catchUp (g : Group) (gs : Word32) (n : Nat) (x : RowVals) : RowVals :=
  if n = 0 ∨ !g.catchup ∨ g.mode = 2 then x
  else
    let kd := (g.factors gs).2.2
    let p1 := fpow (g.c 1) n
    let p2 := fpow (g.c 3) n
    let pk := fpow kd n
    ⟨x.w.map (fmul pk), x.m.map (fmul p1), x.v.map (fmul p2), fmul p2 x.rv⟩

/-- GENERAL and ROWWISE. -/
def recurrence (g : Group) (gs : Word32) (gr : List Num) (x : RowVals) : RowVals :=
  let f := g.factors gs
  let rv := if g.mode = 1 then fadd (fmul (g.c 3) x.rv) (fmul (g.c 4) (rowSquare g gr)) else x.rv
  let rowV := if g.mode = 1 then some rv else none
  let out := (List.range gr.length).map fun i =>
    updateElem g f.1 f.2.1 f.2.2 rowV (nth .zero x.w i) (nth .zero x.m i) (nth .zero x.v i) (nth .zero gr i)
  ⟨out.map (·.1), out.map (·.2.1), out.map (·.2.2), rv⟩

/-! ## Programs (R345, R346, Tables 8.7, 8.8) -/

/-- What a program's operands may name beside its lanes. -/
structure ProgEnv where
  /-- The group. -/
  g : Group
  /-- t. -/
  t : Num
  /-- n. -/
  n : Num
  deriving DecidableEq, Repr

/-- An operand of an element whose global column is `col`. -/
def progOpd (env : ProgEnv) (lanes : List Num) (col code : Nat) : Num :=
  if code < 0x10 then nth .zero lanes code
  else if code < 0x20 then nth .zero env.g.ks (code - 0x10)
  else match code with
    | 0x21 => .one
    | 0x22 => env.t
    | 0x23 => env.n
    | 0x24 => env.g.c 10
    | 0x25 => env.g.c 11
    | 0x26 => round32 (.ofInt col)
    | _ => .zero

/-- What an instruction computes for one element, before its rounding. -/
def progFun (op : Nat) (a b c : Num) : Num :=
  match op with
  | 1 => a.add b
  | 2 => a.sub b
  | 3 => a.mul b
  | 4 => a.div b
  | 5 => (a.mul b).add c
  | 6 => a.min b
  | 7 => a.max b
  | 8 => a.abs
  | 9 => a.neg
  | 0xA => a.sqrt
  | 0xB => a.rsqrt
  | 0xC => Num.one.div a
  | 0xD => a.exp
  | 0xE => a.ln
  | 0xF => if Num.zero.lt a then .one else if a.lt .zero then Num.one.neg else a
  | 0x10 => if Num.zero.lt a then b else c
  | 0x11 => if b.lt a then .one else .zero
  | _ => a

/-- One instruction over the lanes of a block. -/
def progStep (env : ProgEnv) (cols : List Nat) (lanes : List (List Num)) (w : Nat) : List (List Num) :=
  let (op, d, a, b, c) := progOp w
  let at_ := fun (i code : Nat) => progOpd env (nth [] lanes i) (nth 0 cols i) code
  let n := lanes.length
  let whole : Option Num :=
    if op = 0x12 then some (round32 (exactSum ((List.range n).map fun i => at_ i a)))
    else if op = 0x13 then
      match (List.range n).map fun i => at_ i a with
      | [] => none
      | x :: l => some (l.foldl Num.max x)
    else none
  if op = 0 then lanes
  else (List.range n).map fun i =>
    setNth (nth [] lanes i) d (match whole with
      | some v => v
      | none => round32 (progFun op (at_ i a) (at_ i b) (at_ i c)))

/-- A program over the columns of a row, block by block. -/
def runProgram (g : Group) (gs : Word32) (idle col0 : Nat) (gr : List Num) (x : RowVals) : RowVals :=
  let env : ProgEnv := ⟨g, round32 (.ofInt (g.t gs)), round32 (.ofInt idle)⟩
  let body := (progBody g.prog).getD []
  let blk := fun (b : Nat) =>
    let idx := (List.range 32).map (32 * b + ·)
    let lanes := idx.map fun i =>
      [nth .zero gr i, nth .zero x.w i, nth .zero x.m i, nth .zero x.v i] ++ List.replicate 12 Num.zero
    body.foldl (progStep env (idx.map (col0 + ·))) lanes
  let out := ((List.range (gr.length / 32)).map blk).flatten
  ⟨out.map (nth .zero · 1), out.map (nth .zero · 2), out.map (nth .zero · 3), x.rv⟩

/-- A program names lane `l` (R336). -/
def progNames (g : Group) (l : Nat) : Bool :=
  ((progBody g.prog).getD []).any fun w =>
    let (op, d, a, b, c) := progOp w
    decide (a = l ∨ b = l ∨ c = l) || (op != 0 && decide (d = l))

/-! ## Moments a group uses (R336) -/

/-- The group uses m. -/
def usesM (g : Group) (gs : Word32) : Bool :=
  if g.mode = 2 then progNames g 2 else !(g.c 1).isZero || !(g.c 2).isZero || !(g.factors gs).1.isZero

/-- The group uses v. -/
def usesV (g : Group) (gs : Word32) : Bool :=
  if g.mode = 2 then progNames g 3
  else g.mode == 1 || !(g.c 3).isZero || !(g.c 4).isZero || !(g.factors gs).2.1.isZero

/-- The group uses a moment that the record does not hold in the form it needs (R336; DEDUCED, log 20: a group that uses
no v fits a record with RV16). -/
def shapeMismatch (t : TDesc) (g : Group) (gs : Word32) : Bool :=
  (usesM g gs && !t.hasM) || (g.mode != 1 && usesV g gs && !t.hasV) || (g.mode == 1 && !t.hasRv)

/-! ## Payloads (R210, R131 to R133, R333) -/

/-- A stored value widened to FP32: exact, or the largest finite value of its sign where a scaled MX value lies beyond the FP32 range
(R117, R119, R333; DEDUCED, log 75). -/
def widen32 (x : Num) : Num := ofF32 (Fmt.fp32.convert false .rne x).code

/-- The values of a record's payload; a moment it does not hold reads +0. -/
def payloadVals (t : TDesc) (p : List Byte) : RowVals :=
  let z := List.replicate t.width Num.zero
  let o := t.pw
  let m := if t.hasM then (Fmt.decodeRow .e4m3 t.width (p.drop o)).map widen32 else z
  let o := if t.hasM then o + t.pmOne else o
  let v := if t.hasV then (Fmt.decodeRow .e5m2 t.width (p.drop o)).map widen32 else z
  ⟨(t.format.decodeRow t.width p).map widen32, m, v, if t.hasRv then rv16Decode (fieldAt p o 2) else .zero⟩

/-- A moment in its format (R131): DYNAMIC, to nearest even, saturating, a NaN as a NaN element. -/
def encodeMoment (f : Fmt) (xs : List Num) : List Byte :=
  let one := fun (b : List Num) =>
    let sc := dynamicScale f b
    (sc, b.map fun x => match x with
      | .nan => (f.nanCode).getD 0
      | .inf s => f.largest s
      | x => (f.convert false .rne (x.scale (127 - (sc : Int)))).code)
  let bl := (chunks 32 xs.length xs).map one
  ((bl.map (·.2)).flatten.map (BitVec.ofNat 8 ·)) ++ bl.map fun b => BitVec.ofNat 8 b.1

/-- Seed of the stochastic rounding of a weight block (R333). -/
def weightSeed (gs : Word32) (table row gblock : Nat) : Nat :=
  let s := mix64 ((gs.toNat * 2 ^ 32 + table) ^^^ mix64 ((row * 2 ^ 24 + gblock) % 2 ^ 64))
  if s = 0 then 0x9E3779B97F4A7C15 else s

/-- First global column of a module's slice of a table. -/
def TDesc.col0 (t : TDesc) : Nat := if t.repl then 0 else t.shard * t.width

/-- Weights in the table's format, each block of 32 seeded by itself where WSR is set (R333). -/
def encodeWeights (t : TDesc) (wsr : Bool) (gs : Word32) (row : Nat) (xs : List Num) : List Byte :=
  let f := t.format
  let bl := (chunks 32 xs.length xs).zipIdx.map fun b =>
    (f.encodeRow none ⟨if wsr then some (weightSeed gs t.id row (t.col0 / 32 + b.2)) else none, false⟩ b.1).bytes
  let n := packedBytes f.bits 32
  (bl.map (·.take n)).flatten ++ (bl.map (·.drop n)).flatten

/-- A payload from its values. `old` is the payload before: a GENERAL or PROGRAM group leaves RV16, and a ROWWISE group
leaves a second moment per element, as they were (R336). -/
def valsPayload (t : TDesc) (g : Group) (gs : Word32) (row : Nat) (old : List Byte) (x : RowVals) : List Byte :=
  let o := t.pw + (if t.hasM then t.pmOne else 0)
  encodeWeights t g.wsr gs row x.w
    ++ (if t.hasM then encodeMoment .e4m3 x.m else [])
    ++ (if t.hasV then (if g.mode = 1 then (old.drop o).take t.pmOne else encodeMoment .e5m2 x.v) else [])
    ++ (if t.hasRv then (if g.mode = 1 then leBytes 2 (rv16Encode x.rv) else (old.drop o).take 2) else [])

/-- A gradient that holds a NaN or an infinity (R334). -/
def nonFinite (g : List Word32) : Bool := g.any fun w => !(ofF32 w.toNat).isFin

/-- The payload after an update of gradient step `gs`, `idle` idle steps before it (R332 to R336, R346, R350). -/
def updatePayload (t : TDesc) (g : Group) (gs : Word32) (row idle : Nat) (grad : List Word32) (p : List Byte) : List Byte :=
  let x0 := payloadVals t p
  let gr := grad.map fun w => ofF32 w.toNat
  let x := if g.mode = 2 then runProgram g gs idle t.col0 gr x0 else recurrence g gs gr (catchUp g gs idle x0)
  valsPayload t g gs row p x

/-- The payload after a refresh: catch-up decay alone, where any is due (R351). -/
def refreshPayload (t : TDesc) (g : Group) (gs : Word32) (row idle : Nat) (p : List Byte) : List Byte :=
  if idle = 0 ∨ !g.catchup ∨ g.mode = 2 then p
  else
    valsPayload t g gs row p (catchUp g gs idle (payloadVals t p))

end Sys2Proof.Machine
end

