-- ==== Sys2Proof/Machine/Rows.lean ====
section
/-!
DEFINITION. Reading a row as of a step, the undo journals, writing and restoring a row's record
(06_tables_and_gather R213 to R227, R242 to R246, 08_sowing_and_update R348 to R362, 09 R396).
-/

namespace Sys2Proof.Machine

/-! ## Steps' causes -/

/-- The step met a cause of Table 9.7; the first one met in its attempt counts (R379). -/
def Dev.failStep (d : Dev) (step : Word32) (cause : Nat) : Dev :=
  d.onMs fun s => { s with steps := s.steps.map fun x =>
    if x.step = step ∧ x.st = .staged ∧ x.cause = none then { x with cause := some cause } else x }

/-! ## Journal regions (R352 to R354) -/

/-- A journal region. -/
def regionOf (m : Mod) (r : Nat) : Region := kget Region.reset m.dev.sow.regions r

/-- Change a region. -/
def Dev.modRegion (d : Dev) (r : Nat) (f : Region → Region) : Dev :=
  d.onSow fun s => { s with regions := kmod Region.reset s.regions r f }

/-- First DA of a region (log 19). -/
def regionBase (b : BaseState) (r : Nat) : Nat :=
  if r < 4 then hotBase r + hotJrnlOff b r else warmBase (r - 4) + warmSoft b

/-- Granules of a region. -/
def regionGrans (b : BaseState) (r : Nat) : Nat := (if r < 4 then hotJrnl b else iaqJrnl b) / 64

/-- DA of a slot of a region. -/
def slotDa (b : BaseState) (r off : Nat) : Nat := regionBase b r + 64 * off

/-- Granules of a staged warm gradient. -/
def Grad.grans (g : Grad) : Nat := (4 * g.g.length + 63) / 64

/-- Granules in use of a region: its slots, and the warm gradients it holds (R352). -/
def regionUsed (d : Dev) (r : Nat) : Nat :=
  sumNat ((kget Region.reset d.sow.regions r).ents.map (·.gran))
    + sumNat ((d.sow.grads.filter fun g => g.iaq.isSome && g.iaq.map (· + 4) == some r).map Grad.grans)

/-- Where a slot of `n` granules goes in a region: at the tail, or from its start (R354; log 19). -/
def fitSlot (b : BaseState) (r : Nat) (g : Region) (n : Nat) : Option Nat :=
  [g.tail, 0].find? fun o =>
    decide (o + n ≤ regionGrans b r) && g.ents.all fun e => decide (e.off + e.gran ≤ o ∨ o + n ≤ e.off)

/-- Steps that requests in progress read as of: express lookups and LIVE exports (R361), and gathers queued with a target of
their own. -/
def readTargets (d : Dev) : List Word32 :=
  (d.sow.live.filter fun x => !x.2.2).map (·.2.1)
    ++ (d.hif.descs.filter fun x => decide (x.bytes.toNat % 256 = 1)).map (fun x =>
      if bitOf x.bytes.toNat 80 then x.seen.applied else x.seen.cleared)
    ++ d.plots.flatMap fun p => (p.2.dmaQ.filter fun e => decide (recOpc e.record = 2 ∧ ctrlBits e.record 18 17 ≠ 0)).map (·.target)

/-- Entries of step k are reclaimable: k is no newer than cleared-through and no request reads as of an older step
(R361, R388). A PENDING entry goes with the step at which its version took effect (R367). -/
def reclaimable (d : Dev) (e : JEnt) : Bool :=
  let ok := fun (k : Word32) => !stepNewer k d.base.cleared && (readTargets d).all fun t => !stepNewer k t
  match e.pending, e.eff with
  | false, _ => ok e.step
  | true, some k => ok k
  | true, none => false

/-- Drop what is reclaimable; steps become so in order (R361). -/
def Dev.reclaim (d : Dev) (r : Nat) : Dev :=
  let keep := fun e => !reclaimable d e
  d.modRegion r fun g => { g with ents := g.ents.filter keep }

/-- LIVE exports that hold reclaim back end with an error status (R362). -/
def Dev.endLive (d : Dev) : Dev := d.onSow fun s => { s with live := s.live.map fun x => (x.1, x.2.1, true) }

/-- Room for `n` granules in a region: after reclaim, then after the LIVE exports have ended (R362). -/
def roomFor (d : Dev) (r n : Nat) : Option (Nat × Dev) :=
  let try_ := fun (d : Dev) =>
    if regionUsed d r + n ≤ regionGrans d.base r then
      (fitSlot d.base r (kget Region.reset d.sow.regions r) n).map fun o => (o, d)
    else none
  match try_ d with
  | some x => some x
  | none => match try_ (d.reclaim r) with
    | some x => some x
    | none => try_ ((d.endLive).reclaim r)

/-- Kinds of entry (Table 8.10). -/
def jkUpdate : Nat := 1
/-- IMPORT. -/
def jkImport : Nat := 2
/-- REFRESH. -/
def jkRefresh : Nat := 3

/-- A journal entry to be written. -/
structure JNew where
  /-- STEP. -/
  step : Word32
  /-- GSTEP. -/
  gstep : Word32
  /-- Table. -/
  table : Nat
  /-- Row. -/
  row : Nat
  /-- HOME. -/
  home : Nat
  /-- VERSION. -/
  version : Nat
  /-- KIND. -/
  kind : Nat
  /-- EFLAGS.PENDING. -/
  pending : Bool
  /-- GROUP. -/
  group : Nat
  /-- The old record, if any. -/
  old : Option (List Byte)
  /-- Payload. -/
  payload : List Byte
  deriving DecidableEq, Repr

/-- The bytes of an entry (R354, Table 8.10). -/
def JNew.bytes (j : JNew) : List Byte :=
  let old := j.old.getD []
  let pg := (j.payload.length + 63) / 64
  let h := leBytes 4 j.step.toNat ++ leBytes 4 j.gstep.toNat ++ leBytes 8 (rowKey j.table j.row) ++ leBytes 8 j.home
    ++ leBytes 2 j.version ++ leBytes 1 j.kind ++ leBytes 1 (b2n j.old.isSome + 4 * b2n j.pending)
    ++ leBytes 2 (old.length / 64) ++ leBytes 2 pg ++ zeros 4 ++ leBytes 1 j.group ++ zeros 27
  let all := h ++ old ++ padTo (64 * pg) j.payload
  putBytes all 32 (leBytes 4 (crc32c all))

/-- Write an entry into a region; its granule offset. None: EV_JOURNAL_FULL has been raised (R362). -/
def appendEntry (m : Mod) (r : Nat) (j : JNew) : Except Mod (Nat × Mod) :=
  let bs := j.bytes
  let n := bs.length / 64
  match roomFor m.dev r n with
  | none => .error (m.onDev fun d => (d.endLive).raise evJournalFull { hasS := true, s := j.step.toNat })
  | some (o, d) =>
    let d := d.modRegion r fun g =>
      { g with ents := g.ents ++ [⟨o, n, j.step, false, j.table, j.row, j.pending, none⟩], tail := o + n }
    .ok (o, ({ m with dev := d } : Mod).store (slotDa d.base r o) bs)

/-- The header of an entry: its fields, its old record, its payload, whether its ECRC passes. -/
structure JRead where
  /-- STEP. -/
  step : Word32
  /-- GSTEP. -/
  gstep : Word32
  /-- KEY. -/
  key : Nat
  /-- HOME. -/
  home : Nat
  /-- VERSION. -/
  version : Nat
  /-- KIND. -/
  kind : Nat
  /-- EFLAGS. -/
  eflags : Nat
  /-- GROUP. -/
  group : Nat
  /-- Old record. -/
  old : List Byte
  /-- Payload. -/
  payload : List Byte
  /-- ECRC passes. -/
  good : Bool
  deriving DecidableEq, Repr

/-- Read the entry at a slot. -/
def readEntry (m : Mod) (r off : Nat) : JRead :=
  let da := slotDa m.dev.base r off
  let h := m.load da 64
  let og := fieldAt h 28 2
  let pg := fieldAt h 30 2
  let all := m.load da (64 * (1 + og + pg))
  ⟨BitVec.ofNat 32 (fieldAt h 0 4), BitVec.ofNat 32 (fieldAt h 4 4), fieldAt h 8 8, fieldAt h 16 8, fieldAt h 24 2,
   fieldAt h 26 1, fieldAt h 27 1, fieldAt h 36 1, (all.drop 64).take (64 * og), all.drop (64 + 64 * og),
   decide (fieldAt h 32 4 = crc32c (putBytes all 32 (zeros 4)))⟩

/-- OLDVALID. -/
def JRead.oldValid (j : JRead) : Bool := bitOf j.eflags 0

/-- PREVLINK of a slot (R353). -/
def linkOf (r off : Nat) : Nat := r * 2 ^ 29 + off

/-- No link. -/
def noLink : Nat := 0xFFFFFFFF

/-- The journal region of a home, by its DA ÷ 64 (R352). -/
def regionOfLoc (tier : Tier) (loc : Nat) : Nat := if tier = .warm then 4 + locUnit loc else locUnit loc

/-- The entry a read accepts at a link (R357): ECRC passes, KEY names the row, STEP is the tag it came from. -/
def followLink (m : Mod) (link table row : Nat) (tag : Word32) : Option (List Byte) :=
  let r := link / 2 ^ 29
  let off := link % 2 ^ 29
  if link = noLink ∨ regionGrans m.dev.base r ≤ off then none
  else
    let j := readEntry m r off
    if j.good && j.key == rowKey table row && j.step == tag && j.oldValid then some j.old else none

/-! ## Reading as of a step (R215 to R217) -/

/-- What a read of a row finds: its status (Table 6.9), the record, and how many links it followed. -/
structure RowRead where
  /-- GST. -/
  gst : Nat
  /-- The record's bytes; empty for a zero slice. -/
  data : List Byte
  /-- Links followed. -/
  follows : Nat
  deriving DecidableEq, Repr

/-- GST codes. -/
def gstOk : Nat := 0
/-- ABSENT. -/
def gstAbsent : Nat := 1
/-- BAD_INDEX. -/
def gstBadIndex : Nat := 2
/-- COLD. -/
def gstCold : Nat := 3
/-- TIER_ERROR. -/
def gstTierError : Nat := 4
/-- TIER_TIMEOUT. -/
def gstTimeout : Nat := 5
/-- NO_HISTORY. -/
def gstNoHistory : Nat := 6

/-- Follow PREVLINK while the effective tag is newer than the target (R215, R216, R357). -/
def chase (m : Mod) (v : TabVer) (table row : Nat) (target : Word32) : Nat → Nat → List Byte → RowRead
  | 0, n, _ => ⟨gstNoHistory, [], n⟩
  | fuel + 1, n, r =>
    if !stepNewer (effTag v r) target then ⟨gstOk, r, n⟩
    else if !recLinked r then ⟨gstAbsent, [], n⟩
    else match followLink m (recPrev r) table row (recTag r) with
      | none => ⟨gstNoHistory, [], n⟩
      | some old => chase m v table row target fuel (n + 1) old

/-- Journal slots in use: no chain is longer. -/
def chainFuel (m : Mod) : Nat := sumNat (m.dev.sow.regions.map fun g => g.2.ents.length) + 2

/-- The open set's entry for a home, if an interrupted write left it there (R217, R356). -/
def openEntry (m : Mod) (e : RowEnt) : Option JRead :=
  if !e.near then none
  else
    let r := regionOfLoc e.tier e.loc
    match (regionOf m r).opened with
    | some (off, da) => if da = 64 * e.loc then some (readEntry m r off) else none
    | none => none

/-- Read a row of a version as of a target, from its first bytes `r` wherever they were read (R215 to R217). -/
def readFrom (m : Mod) (v : TabVer) (table row : Nat) (target : Word32) (r : List Byte) : RowRead :=
  chase m v table row target (chainFuel m) 0 r

/-- Read a row of a version as of a target from its home, `gran` granules (R215 to R217). -/
def readRow (m : Mod) (t : TDesc) (v : TabVer) (row : Nat) (target : Word32) (gran : Nat) : RowRead :=
  let e := rowEnt m v.rowmap row
  if (t.id, row) ∈ m.dev.tier.lost then ⟨gstTierError, [], 0⟩
  else if e.tier = .absent then ⟨gstAbsent, [], 0⟩
  else match openEntry m e with
    | some j => if j.oldValid then readFrom m v t.id row target j.old else ⟨gstAbsent, [], 0⟩
    | none => readFrom m v t.id row target (recordOf m e gran)

/-- A read's count and events: links followed, a broken chain (R215, R216). -/
def Dev.noteRead (d : Dev) (table row : Nat) (target : Word32) (x : RowRead) : Dev :=
  let d := if x.follows = 0 then d else d.count cJournalFollow (spineOf table row) x.follows
  if x.gst = gstNoHistory then d.raise evJournalChainBroken { hasS := true, s := target.toNat, row := row, table := table }
  else d

/-! ## Groups of rows (R338, R339) -/

/-- The parameter group of a row. -/
def groupNum (m : Mod) (t : TDesc) (row : Nat) : Nat :=
  if t.pgmap = 0 ∨ t.id ∈ m.dev.sow.pgBad then t.defgroup
  else match kfind m.dev.sow.pgCopy t.id with
    | none => t.defgroup
    | some (da, n) =>
      let last := (List.range n).foldl (fun acc i =>
        let w := m.loadNat (da + 64 + 8 * i) 8
        if bitsOf w 39 0 ≤ row then some w else acc) none
      match last with
      | some w => if bitOf w 48 then t.defgroup else bitsOf w 47 40
      | none => t.defgroup

/-! ## Replicas (R241 to R244) -/

/-- The directory entry of a row, with its number. -/
def dirOf (d : Dev) (table row : Nat) : Option (Nat × DirEntry) :=
  d.tab.dir.find? fun e => e.2.table = table ∧ e.2.row = row

/-- Write the granules of a row's replicas anew from its home record, REPCRC first (R244, R246). -/
def Mod.writeReplicas (m : Mod) (t : TDesc) (row : Nat) (home : List Byte) : Mod :=
  match dirOf m.dev t.id row with
  | none => m
  | some (k, e) =>
    let g := home.take (64 * t.granG)
    let e' : DirEntry := { e with crc := BitVec.ofNat 32 (crc32c g), reps := e.reps.map fun r => { r with valid := true } }
    let m := m.onDev fun d => d.onTab fun x => { x with dir := kput x.dir k e' }
    m.onDev fun d => e.reps.foldl (fun d r => match physOf d.base r.plot with
      | some i => d.modPlot i fun p => { p with sram := writeRun p.sram (64 * r.off) g }
      | none => d) d

/-! ## Cairns in progress (R396, R398) -/

/-- A cairn becomes VOID (R398). -/
def Dev.voidCairn (d : Dev) (c : Cairn) (cause : Nat) : Dev :=
  (d.onMs fun s => { s with cairns := s.cairns.map fun x =>
      if x = c then { x with state := 2, cow := [], cowBytes := 0, sweep := none, denseDue := [] } else x }).raise evCairnAborted
    { hasS := true, s := c.step.toNat, c := cause }

/-- A row is to be written: its old record goes to the COW buffer of every cairn whose bit for it is clear (R396). -/
def Dev.cowCopy (d : Dev) (table row : Nat) (old : Option (List Byte)) : Dev :=
  let k := rowKey table row
  d.ms.cairns.foldl (fun d c =>
    if c.state ≠ 0 ∨ !c.begun ∨ k ∈ c.bits then d
    else
      let n := (old.getD []).length
      if cfgFlsCairnCfgCowbuf d.base * giB < c.cowBytes + n then d.voidCairn c 0
      else d.onMs fun s => { s with cairns := s.cairns.map fun x => if x = c then
        { c with bits := c.bits ++ [k], cowBytes := c.cowBytes + n
                 cow := (match old with
                   | some o => kput c.cow k o
                   | none => c.cow) } else x }) d

/-! ## Writing a record (R356) -/

/-- A record write. -/
structure RowWrite where
  /-- Table. -/
  t : TDesc
  /-- Version written. -/
  v : TabVer
  /-- Row. -/
  row : Nat
  /-- STEP of the entry and STEPTAG of the record. -/
  step : Word32
  /-- GSTEP. -/
  gstep : Word32
  /-- KIND. -/
  kind : Nat
  /-- An import into a pending version (R367). -/
  pending : Bool
  /-- FROZEN of the new record. -/
  frozen : Bool
  /-- GROUP. -/
  group : Nat
  /-- The new payload. -/
  payload : List Byte
  /-- The entry's payload: for an IMPORT the record itself is used. -/
  journal : List Byte
  deriving DecidableEq, Repr

/-- Why a record could not be written; the events are raised and the step has its cause. -/
inductive WriteErr where
  | journalFull | tierFull
  deriving DecidableEq, Repr

/-- Where the home of a row to be written is: its own record, or a new slot (R298, R613). -/
def homeFor (m : Mod) (w : RowWrite) (e : RowEnt) : Option (Tier × Nat × Mod) :=
  if e.tier = .hot ∨ e.tier = .warm then some (e.tier, e.loc, m)
  else placeFirst m w.t ⟨w.t.id, w.row, w.v.version, w.t.granRec, false, none⟩

/-- Write a record in the order of R356: COW, journal entry, granules, replicas. `torn`: the write is cut off after so many
granules, counted from the last one, and the row stays in the open set. -/
def writeRow (m : Mod) (w : RowWrite) (torn : Option Nat := none) : Except (WriteErr × Mod) Mod :=
  let e := rowEnt m w.v.rowmap w.row
  let old := if e.near then some (recordOf m e w.t.granRec) else none
  match homeFor m w e with
  | none => .error (.tierFull, m.onDev fun d =>
      let d := d.raise evTierFull { hasS := true, s := w.step.toNat, row := w.row, table := w.t.id }
      if w.pending then d else d.failStep w.step 3)
  | some (tier, loc, m1) =>
    let r := regionOfLoc tier loc
    let m1 := m1.onDev fun d => (d.cowCopy w.t.id w.row old).onTier fun t =>
      { t with lost := t.lost.filter fun x => x ≠ (w.t.id, w.row) }
    let flags := b2n w.frozen + 2 * b2n w.pending
    let rec0 := mkRecord w.t w.step w.v.version flags noLink w.payload
    let pay := if w.kind = jkImport then rec0 else w.journal
    match appendEntry m1 r ⟨w.step, w.gstep, w.t.id, w.row, 64 * loc, w.v.version, w.kind, w.pending, w.group, old, pay⟩ with
    | .error m2 => .error (.journalFull,
        ({ m with dev := { m2.dev with tier := m.dev.tier } } : Mod).onDev fun d =>
          if w.pending then d else d.failStep w.step 5)
    | .ok (off, m2) =>
      let nr := match old with
        | some _ => mkRecord w.t w.step w.v.version (flags + 4) (linkOf r off) w.payload
        | none => rec0
      let m3 := if e.near then m2 else m2.putRow w.v.rowmap w.row ⟨tier, 0, e.hotdir, loc⟩
      match torn with
      | some k =>
        let skip := w.t.granRec - k
        .ok ((m3.store (64 * loc + 64 * skip) (nr.drop (64 * skip))).onDev fun d =>
          d.modRegion r fun g => { g with opened := some (off, 64 * loc) })
      | none => .ok ((m3.store (64 * loc) nr).writeReplicas w.t w.row nr)

/-! ## Restoring a record (R246, R359) -/

/-- The newest entry of a row of a version in any region whose ECRC passes. -/
def newestEntry (m : Mod) (table row version : Nat) : Option JRead :=
  let cands := (List.range 8).flatMap fun r =>
    ((regionOf m r).ents.filter fun e => !e.mile && e.table = table && e.row = row).map fun e => readEntry m r e.off
  (cands.filter fun j => j.good && j.version == version).foldl (fun acc j => match acc with
    | none => some j
    | some a => if stepNewer a.step j.step then some a else some j) none

/-- The state of a milestone's record in a region: 0 OPEN, 1 COMMITTED, 2 ABORTED; with the bank copied there. -/
def mileOf (m : Mod) (step : Word32) : Option (Nat × KMap Byte) :=
  (List.range 8).findSome? fun r =>
    ((regionOf m r).ents.find? fun e => e.mile && e.step = step).map fun e =>
      let da := slotDa m.dev.base r e.off
      (fieldAt (m.load da 64) 4 1,
        (m.mem.filter fun c => da + 64 ≤ c.1 ∧ c.1 < da + 64 + bankBytes).map fun c => (c.1 - (da + 64), c.2))

/-- Payload of a record. -/
def recPayload (t : TDesc) (r : List Byte) : List Byte := (r.take t.recEnd).drop 16

/-- The record that an entry's write produced, rebuilt (R359). `link` is what PREVLINK of the rebuilt record names. -/
def rebuild (t : TDesc) (v : TabVer) (bank : KMap Byte) (j : JRead) (row link : Nat) : List Byte :=
  let old := if j.oldValid then j.old else absentRecord t j.version
  let flags := recFlags old % 2
  let fl := if j.oldValid then flags + 4 else flags
  let lk := if j.oldValid then link else noLink
  let idle := if j.oldValid then ((j.step - effTag v old).toInt - 1).toNat else 0
  let g := groupOf bank j.group
  if j.kind = jkImport then
    let r := j.payload
    if recTag r ≠ j.step then padTo (64 * t.granRec) r else
    mkRecord t j.step j.version (recFlags r % 2 + (if j.oldValid then 4 else 0)) lk (recPayload t r)
  else if j.kind = jkRefresh then
    mkRecord t j.step j.version fl lk (refreshPayload t g j.gstep row idle (recPayload t old))
  else
    let grad := (List.range t.width).map fun i => BitVec.ofNat 32 (fieldAt j.payload (4 * i) 4)
    mkRecord t j.step j.version fl lk (updatePayload t g j.gstep row idle grad (recPayload t old))

/-- The slot an entry lies in, as a link. -/
def entryLink (m : Mod) (j : JRead) : Nat :=
  ((List.range 8).findSome? fun r => ((regionOf m r).ents.find? fun e => !e.mile && readEntry m r e.off = j).map fun e =>
    linkOf r e.off).getD noLink

/-- What the journal gives for a row (R359): none where it has no entry. -/
def fromJournal (m : Mod) (t : TDesc) (v : TabVer) (row : Nat) : Option (List Byte) :=
  match newestEntry m t.id row v.version with
  | none => none
  | some j =>
    if bitOf j.eflags 2 then some (padTo (64 * t.granRec) j.payload)
    else match mileOf m j.step with
      | some (1, bank) => some (rebuild t v bank j row (entryLink m j))
      | _ => if j.oldValid then some j.old else none

/-- The newest sealed cairn that holds a row on cartridges still in service (R246, R286). -/
def fromCairn (m : Mod) (table row : Nat) : Option (List Byte) :=
  ((m.dev.ms.cairns.filter fun c => c.state = 1 && c.role = 0).reverse).findSome? fun c => kfind c.rows (rowKey table row)

/-- The current warm copy of a hot record (R246, R301, R302). -/
def fromCopy (m : Mod) (t : TDesc) (e : RowEnt) : Option (List Byte) :=
  if e.tier ≠ .hot then none
  else match kfind m.dev.tier.slots e.loc with
    | some s => match s.warm with
      | some l =>
        let r := m.load (64 * l) (64 * t.granRec)
        if recGood t r && recTag r == recTag (recordOf m e t.granRec) then some r else none
      | none => none
    | none => none

/-- Restore a row's record from the first source that holds it: journal, current warm copy, last cairn (R246, R359).
It is written back at its home, the replicas after it, and EV_ROW_RESTORED names the cause. None: no source has it. -/
def restoreRow (m : Mod) (t : TDesc) (v : TabVer) (row : Nat) : Option Mod :=
  let e := rowEnt m v.rowmap row
  let src := match fromJournal m t v row with
    | some r => some (r, 0)
    | none => match fromCopy m t e with
      | some r => some (r, 1)
      | none => (fromCairn m t.id row).map fun r => (r, 2)
  match src with
  | none => none
  | some (r, cause) =>
    if !e.near then none
    else
      let r := padTo (64 * t.granRec) r
      some (((m.store (64 * e.loc) r).writeReplicas t row r).onDev fun d =>
        d.raise evRowRestored { hasS := true, s := (recTag r).toNat, row := row, table := t.id, c := cause })

/-- A read of a whole record verifies FPRINT and restores a record that fails (R219). -/
def verifyHome (m : Mod) (t : TDesc) (v : TabVer) (row : Nat) : Option Mod :=
  let e := rowEnt m v.rowmap row
  if !e.near ∨ (openEntry m e).isSome then some m
  else if recGood t (recordOf m e t.granRec) then some m
  else restoreRow m t v row

/-! ## Milestone records (R355) -/

/-- Write milestone M's record into every region: OPEN, with the bank in use. False where a region has no room (R362). -/
def openMilestone (m : Mod) (step : Word32) : Mod × Bool :=
  let bank := m.dev.sow.bank
  let n := 1 + bankBytes / 64
  (List.range 8).foldl (fun (acc : Mod × Bool) r =>
    let m := acc.1
    if r ≥ 4 ∧ m.dev.tier.warmBacked (r - 4) ≤ warmSoft m.dev.base then acc
    else match roomFor m.dev r n with
      | none => (m.onDev fun d => ((d.endLive).raise evJournalFull { hasS := true, s := step.toNat }).failStep step 5, false)
      | some (o, d) =>
        let d := d.modRegion r fun g => { g with ents := g.ents ++ [⟨o, n, step, true, 0, 0, false, none⟩], tail := o + n }
        let h := leBytes 4 step.toNat ++ zeros 4 ++ leBytes 4 ((bank.map (·.crc)).getD 0) ++ zeros 52
        let body := readRun ((bank.map (·.data)).getD []) 0 bankBytes
        (({ m with dev := d } : Mod).store (slotDa d.base r o) (h ++ body), acc.2)) (m, true)

/-- Mark milestone M's records: 1 COMMITTED, 2 ABORTED. -/
def markMilestone (m : Mod) (step : Word32) (st : Nat) : Mod :=
  (List.range 8).foldl (fun m r =>
    ((regionOf m r).ents.filter fun e => e.mile && e.step = step).foldl (fun m e =>
      m.store (slotDa m.dev.base r e.off + 4) (leBytes 1 st)) m) m

/-! ## Undo (R358) -/

/-- The version of a table that a version number names now. -/
def TDesc.verNum (t : TDesc) (version : Nat) : TabVer :=
  if version = t.version then t.curVer
  else if t.prevValid ∧ version = t.prevVersion then t.prevVer
  else ⟨t.pendVersion, t.pendRowmap, t.extent, 0⟩

/-- Undo one entry: the old record goes back whole, or the row becomes ABSENT and its slot is freed; UNDONE is set; the
replicas are written again (R245, R358). -/
def undoEntry (m : Mod) (r : Nat) (e : JEnt) : Mod :=
  let j := readEntry m r e.off
  let fl := slotDa m.dev.base r e.off + 27
  if !j.good ∨ bitOf j.eflags 1 then m
  else
    let crcFix := fun (m : Mod) =>
      let m := m.store fl (leBytes 1 (j.eflags + 2))
      let all := m.load (slotDa m.dev.base r e.off) (64 * e.gran)
      m.store (slotDa m.dev.base r e.off + 32) (leBytes 4 (crc32c (putBytes all 32 (zeros 4))))
    match tdescAt m e.table with
    | none => crcFix m
    | some t =>
      let v := t.verNum j.version
      let re := rowEnt m v.rowmap e.row
      if j.oldValid then crcFix ((m.store j.home j.old).writeReplicas t e.row j.old)
      else crcFix (freeSlot (m.putRow v.rowmap e.row { RowEnt.absent with hotdir := re.hotdir }) (j.home / 64))

/-- Undo step M in every region, newest entry first; its warm gradients are pending again; the records are marked ABORTED
and the attempt's entries become reclaimable (R307, R355, R358, R388). -/
def undoStep (m : Mod) (step : Word32) : Mod :=
  let m := (List.range 8).foldl (fun m r =>
    ((regionOf m r).ents.filter fun e => !e.mile && !e.pending && e.step = step).reverse.foldl (fun m e => undoEntry m r e) m) m
  let m := markMilestone m step 2
  m.onDev fun d =>
    let d := (List.range 8).foldl (fun d r => d.modRegion r fun g =>
      { g with ents := g.ents.filter fun e => e.pending || e.step ≠ step, opened := none }) d
    d.onSow fun s => { s with
      grads := s.grads.map fun g => if g.applied = some step then { g with applied := none } else g
      imports := s.imports.map fun g => if g.applied = some step then { g with applied := none } else g
      app := if s.app = some step then none else s.app
      done := if s.app = some step then [] else s.done }

end Sys2Proof.Machine
end

