-- ==== Sys2Proof/Machine/Gather.lean ====
section
/-!
DEFINITION. Gathers, reads of rows, run-ahead in gathers, coalescers, and freeing a version (06_tables_and_gather).
-/

namespace Sys2Proof.Machine

/-! ## Promotions and moves that a request meets (R253, R308, Table 7.13) -/

/-- Rank of a tier: higher is nearer. -/
def Tier.rank : Tier → Nat
  | .absent => 0 | .lent => 1 | .cold => 1 | .warm => 2 | .hot => 3

/-- Queue a promotion; one already queued keeps the higher target (Table 7.13). -/
def Dev.queuePromote (d : Dev) (table row : Nat) (target : Tier) (demand : Bool) : Dev :=
  d.onTier fun t =>
    if t.promote.any fun q => q.table = table && q.row = row then
      { t with promote := t.promote.map fun q => if q.table = table ∧ q.row = row then
          ⟨table, row, if q.target.rank < target.rank then target else q.target, q.demand || demand⟩ else q }
    else { t with promote := t.promote ++ [⟨table, row, target, demand⟩] }

/-- The move of a row. -/
def moveOf (d : Dev) (table row : Nat) : Option Move := d.tier.moves.find? fun x => x.table = table ∧ x.row = row

/-- A request needs a row in the tier it is being evicted from, or higher: the eviction is cancelled where its write-back
has not begun, and otherwise the request waits for the switch (Table 7.13). -/
def needRow (m : Mod) (v : TabVer) (table row : Nat) (least : Tier) : Mod :=
  match moveOf m.dev table row with
  | none => m
  | some mv =>
    if !mv.evict ∨ least.rank ≤ mv.target.rank then m
    else if mv.written then
      m.onDev fun d => d.onTier fun t => { t with moves := t.moves.map fun x => if x = mv then { mv with waited := true } else x }
    else
      let e := rowEnt m v.rowmap row
      let m := match mv.dst with
        | some l => if mv.target = Tier.warm then freeSlot m l else m
        | none => m
      (m.putRow v.rowmap row { e with state := 0 }).onDev fun d =>
        (d.onTier fun t => { t with moves := t.moves.erase mv }).count cEvictCancel (spineOf table row) 1

/-! ## Pins (R225) -/

/-- PIN_CUR and PIN_PREV of a descriptor, and what they count: the pins held on a table's versions. -/
def Mod.putPins (m : Mod) (table : Nat) : Mod := match tdescAt m table with
  | none => m
  | some t =>
    let n := fun v => (m.dev.tab.pins.filter fun p => p.table = table && p.version = v).length
    m.putTd table { t with pinCur := n t.version, pinPrev := if t.prevValid then n t.prevVersion else 0 }

/-- A request pins the version it reads. -/
def Mod.pin (m : Mod) (holder table version : Nat) : Mod :=
  let p : VPin := ⟨holder, table, version⟩
  if p ∈ m.dev.tab.pins then m
  else (m.onDev fun d => d.onTab fun t => { t with pins := t.pins ++ [p] }).putPins table

/-- A request that has completed pins nothing. -/
def Mod.unpin (m : Mod) (holder : Nat) : Mod :=
  let tables := ((m.dev.tab.pins.filter fun p => p.holder = holder).map (·.table)).eraseDups
  tables.foldl Mod.putPins (m.onDev fun d => d.onTab fun t => { t with pins := t.pins.filter fun p => p.holder ≠ holder })

/-- The holder that stands for a training step. -/
def stepHolder (n : Word32) : Nat := 2 ^ 40 + n.toNat

/-! ## Slices (R228, Table 6.9) -/

/-- A slice of `n` bytes from what a read found. -/
def sliceOf (n : Nat) (x : RowRead) : List Byte :=
  let b := if x.data = [] then zeros n else padTo n x.data
  putBytes b 6 (leBytes 2 (recFlags b % 4096 + 4096 * x.gst))

/-- The replica a plot reads a directory row from: a valid one in its quadrant, else one on its die (R242). -/
def pickReplica (d : Dev) (inst : Nat) (e : DirEntry) : Option (Nat × Nat) :=
  let at_ := e.reps.filterMap fun r => if r.valid then (physOf d.base r.plot).map fun i => (i, 64 * r.off) else none
  match at_.find? fun x => instDie x.1 = instDie inst && instQuad x.1 = instQuad inst with
  | some x => some x
  | none => at_.find? fun x => instDie x.1 = instDie inst

/-- The distinct lists of a step hold a row. -/
def inDistinct (d : Dev) (step : Word32) (table row : Nat) : Bool :=
  d.tab.distinct.any fun l => l.step = step && (kfind l.keys (rowKey table row)).isSome

/-- What a gather reads of one row: none where it must wait for a promotion (R228 to R230, R238, R242, R253). -/
def gatherRow (m : Mod) (inst : Nat) (t : TDesc) (row mode : Nat) (target : Word32) (step : Word32) (whole : Bool)
    (gran : Nat) : Option (RowRead × Mod) :=
  let v := t.verAt target
  if v.extent ≤ row then some (⟨gstBadIndex, [], 0⟩, m)
  else
    let m := if mode = 0 then needRow m v t.id row .warm else m
    let e := rowEnt m v.rowmap row
    let far := e.tier == .cold || e.tier == .lent
    if (t.id, row) ∈ m.dev.tier.lost then some (⟨gstTierError, [], 0⟩, m)
    else if far && mode == 0 then
      (m.dev.tier.waitFail.find? fun x => x.1 = t.id ∧ x.2.1 = row ∧ x.2.2.2 = inst).map fun x =>
        (⟨if x.2.2.1 then gstTimeout else gstTierError, [], 0⟩,
          m.onDev fun d => d.onTier fun k => { k with waitFail := k.waitFail.erase x })
    else if e.tier = .cold then some (⟨gstCold, [], 0⟩, m)
    else if whole then
      match verifyHome m t v row with
      | none => some (⟨gstTierError, [], 0⟩, m)
      | some m1 => some (readRow m1 t v row target gran, m1)
    else
      let rep := if e.hotdir then (dirOf m.dev t.id row).bind fun k => pickReplica m.dev inst k.2 else none
      match rep with
      | some (i, off) =>
        let m := m.onDev fun d => d.count cReplicaHit inst 1
        some (readFrom m v t.id row target (readRun (m.dev.plot i).sram off (64 * gran)), m)
      | none =>
        let st := if mode = 0 ∧ e.tier ≠ .hot then m.dev.tab.staged.find? fun x => x.table = t.id ∧ x.row = row else none
        match st with
        | some x => some (readFrom m v t.id row target x.data, m)
        | none =>
          let m := if mode = 0 ∧ e.tier = .warm ∧ inDistinct m.dev step t.id row then
            m.onDev fun d => d.count cGatherStageFull (spineOf t.id row) 1 else m
          some (readRow m t v row target gran, m)

/-- Queue the promotions a gather waits for (R230, R253). -/
def Dev.wantWarm (d : Dev) (table row : Nat) : Dev := d.queuePromote table row .warm true

/-- One entry of a gather: its slice. `fail` is the failure the surroundings give it: false an error, true no answer in
time. -/
def gatherEntry (m : Mod) (inst : Nat) (e : Exec) (t : TDesc) (w : Nat) (fail : Option Bool) (gran : Nat) :
    Option (List Byte × Mod) :=
  let mode := ctrlBits e.record 18 17
  let whole := ctrlBits e.record 19 19 == 1
  let target := if mode = 0 then e.step - 1 else e.target
  let row := bitsOf w 39 0
  let n := 64 * gran
  let u := unitOf m.dev.base inst
  let rowFail := fun (d : Dev) =>
    if mode = 0 then (d.raise evGatherRowFail { hasS := true, s := e.step.toNat, row := row, table := t.id } (instDie inst) u).failStep
      e.step 2 else d
  let bad := fun (m : Mod) => m.onDev fun d =>
    (d.raise evGatherBadIndex { row := row, table := t.id, entry := e.entry, exec := e.index } (instDie inst) u).count
      cGatherBadIndex inst 1
  if bitsOf w 63 40 ≠ 0 then some (sliceOf n ⟨gstBadIndex, [], 0⟩, bad m)
  else match fail with
    | some late =>
      some (sliceOf n ⟨if late then gstTimeout else gstTierError, [], 0⟩, m.onDev fun d =>
        rowFail (d.count (if late then cTierTimeout else cTierError) (spineOf t.id row) 1))
    | none => match gatherRow m inst t row mode target e.step whole gran with
      | none => none
      | some (x, m1) =>
        let m2 := m1.onDev fun d => d.noteRead t.id row target x
        let m3 := if x.gst = gstBadIndex then bad m2
          else if x.gst = gstNoHistory ∨ x.gst = gstTierError ∨ x.gst = gstTimeout then m2.onDev rowFail
          else if x.gst = gstCold then m2.onDev fun d => d.queuePromote t.id row .warm false else m2
        some (sliceOf n x, m3)

/-- The entries of a gather in order: their slices, and the rows to be promoted first. -/
def gatherAll (inst : Nat) (e : Exec) (t : TDesc) (fails : List (Nat × Bool)) (gran : Nat) :
    Nat → List Nat → Mod → List Nat → List (List Byte) → List (List Byte) × Mod × List Nat
  | _, [], m, wait, acc => (acc.reverse, m, wait)
  | j, w :: ws, m, wait, acc =>
    match gatherEntry m inst e t w ((fails.find? fun f => f.1 = j).map (·.2)) gran with
    | some (b, m') => gatherAll inst e t fails gran (j + 1) ws m' wait (b :: acc)
    | none => gatherAll inst e t fails gran (j + 1) ws m (bitsOf w 39 0 :: wait) acc

/-- A gather waits: its rows' promotions are queued, and evictions it meets are cancelled or waited for. -/
def gatherWait (m : Mod) (t : TDesc) (target : Word32) (rows : List Nat) : Mod :=
  rows.foldl (fun m r => (needRow m (t.verAt target) t.id r .warm).onDev fun d => d.wantWarm t.id r) m

/-- Slices of `n` bytes written one after another from OP1. -/
def writeSlices (m : Mod) (inst : Nat) (e : Exec) (k n : Nat) : Nat → List (List Byte) → Except FaultKind Mod
  | _, [] => .ok m
  | j, b :: bs => match writeOpd m inst e k (j * n) b with
    | .error f => .error f
    | .ok m' => writeSlices m' inst e k n (j + 1) bs

/-- A gather of a DENSE table: whole rows without a header (R232). -/
def denseRow (m : Mod) (t : TDesc) (row : Nat) : List Byte :=
  let n := rowPitch t.format t.width 0
  padTo n (m.load (t.rowmap + row * n) (t.format.rowBytes t.width))

/-- Entries of the buckets of a compaction in the order they are written: (entry, bucket) (R233). -/
def compactOrder (ws : List Nat) : List (Nat × Nat) :=
  let live := (ws.zipIdx).filter fun x => bitsOf x.1 39 0 ≠ 0xFFFFFFFFFF
  (List.range 256).flatMap fun b => (live.filter fun x => bitsOf x.1 39 0 = b).map fun x => (x.2, b)

/-- Run the GATHER at the head of a DMA queue; none where it waits for promotions, which are queued. -/
def runGather (m : Mod) (inst : Nat) (e : Exec) (fails : List (Nat × Bool)) :
    Except FaultKind (Option Ran × Mod) :=
  let count := ctrlBits e.record 15 0 + 1
  let compact := ctrlBits e.record 20 20 == 1
  let da := (opdBase e.record 2 e.index).toNat
  match tdescByDa m da with
  | none => .error (.tdesc 0 ((da - tdescDa m.dev.base 0) / 256 % 4096))
  | some (_, t) => match readOpd m inst e 0 0 (8 * count) with
    | .error f => .error f
    | .ok bs =>
      let ws := (List.range count).map fun j => fieldAt bs (8 * j) 8
      if t.kind = 1 then
        let k := t.route + 1
        let rowsOf := if compact then (compactOrder ws).map fun x => x.1 / k else ws
        let skip := fun (w : Nat) => compact && decide (bitsOf w 39 0 = 0xFFFFFFFFFF)
        let badBucket := compact && ws.any fun w => !skip w && decide (255 < bitsOf w 39 0 ∨ bitsOf w 63 40 ≠ 0)
        if ctrlBits e.record 18 17 ≠ 0 ∨ ctrlBits e.record 19 19 = 1 then .error (.address da)
        else if badBucket then .error (.address da)
        else if rowsOf.any fun r => decide (t.extent ≤ r) then .error (.address da)
        else
          let n := rowPitch t.format t.width 0
          let rows := rowsOf.map (denseRow m t)
          match writeSlices m inst e 1 n 0 rows with
          | .error f => .error f
          | .ok m1 =>
            if !compact then .ok (some ⟨m1, rows.flatten, [0, 0, 0, 0, 0, 0], .none⟩, m1)
            else
              let ord := compactOrder ws
              let counts := (List.range 256).flatMap fun b => leBytes 4 (ord.filter fun x => x.2 = b).length
              let names := ord.flatMap fun x => leBytes 4 x.1
              match writeOpd m1 inst e 3 0 (counts ++ names) with
              | .error f => .error f
              | .ok m2 => .ok (some ⟨m2, rows.flatten ++ counts ++ names, [0, 0, 0, 0, 0, 0], .none⟩, m2)
      else if compact then .error (.address da)
      else
        let gran := if ctrlBits e.record 19 19 = 1 then t.granRec else t.granG
        if ws.any fun w => rowHeld m t (bitsOf w 39 0) then .ok (none, m) else
        let x := gatherAll inst e t fails gran 0 ws m [] []
        if x.2.2 ≠ [] then .ok (none, gatherWait m t (e.step - 1) x.2.2)
        else match writeSlices x.2.1 inst e 1 (64 * gran) 0 x.1 with
          | .error f => .error f
          | .ok m1 => .ok (some ⟨m1, x.1.flatten, [0, 0, 0, 0, 0, 0], .none⟩, m1)

/-- A compacting gather's bucket fault also raises EV_GATHER_BAD_INDEX (R233). -/
def bucketEvent (m : Mod) (inst : Nat) (e : Exec) (f : FaultKind) : Mod :=
  match f with
  | .address _ =>
    if ctrlBits e.record 20 20 = 1 then m.onDev fun d =>
      d.raise evGatherBadIndex { entry := e.entry, exec := e.index } (instDie inst) (unitOf d.base inst) else m
  | _ => m

/-- GATHER (R228 to R233): one slice for each entry, or its rows' promotions queued while it waits. `fails` names entries
whose tier failed (false) or did not answer in time (true). -/
def execGather (plot : Fin 4352) (obs : Obs) (fails : List (Nat × Bool)) (s : State) : Out :=
  onPlane s fun m => match (m.dev.plot plot).dmaQ.head? with
    | none => m
    | some e =>
      if recOpc e.record ≠ 2 then m
      else match runGather m plot e fails with
        | .error (.remoteWait da n) => m.onDev fun d => d.askRemote (.unit plot e.fid e.index) da n
        | .error f => (bucketEvent m plot e f).onDev fun d => faultExec d plot .dma e f
        | .ok (none, m1) => m1
        | .ok (some r, _) =>
          let train := decide (ctrlBits e.record 18 17 = 0) && !(logicalOf r.m.dev.base plot).all (isExpress r.m.dev.base)
          let m1 := match train, tdescByDa r.m (opdBase e.record 2 e.index).toNat with
            | true, some (_, t) => if t.kind = 1 then r.m else r.m.pin (stepHolder e.step) t.id (t.verAt (e.step - 1)).version
            | _, _ => r.m
          m1.onDev fun d =>
          let d := if obs.ce = 0 then d else d.count cPlotSramCe plot obs.ce
          let keys := (List.range (ctrlBits e.record 15 0 + 1)).map fun j => 65536 * e.index + j
          let d := useAhead d plot e.fid obs.late keys
          noteImage (finishExec d plot .dma e r.stats r.cnt) plot e r.image

/-- The index-list entry a GATHER's run-ahead comes to next: its key, its row and the table's descriptor (R86, Table
2.10). -/
def aheadNext (m : Mod) (plot : Nat) (e : Exec) : Option (Nat × Nat × TDesc) :=
  let p := m.dev.plot plot
  let done := (p.ahead.filter fun a => a.fid = e.fid && a.key / 65536 = e.index).length
  if recOpc e.record ≠ 2 ∨ ctrlBits e.record 21 21 = 1 ∨ ctrlBits e.record 15 0 < done ∨ cfgPlotPfCfgDepth m.dev.base ≤ done then none
  else (tdescByDa m (opdBase e.record 2 e.index).toNat).map fun x =>
    (65536 * e.index + done, leNat (readRun p.sram ((opdBase e.record 0 e.index).toNat + 8 * done) 8), x.2)

/-- The row's entry as a GATHER's read mode finds it. -/
def aheadRow (m : Mod) (e : Exec) (t : TDesc) (row : Nat) : RowEnt :=
  rowEnt m (t.verAt (if ctrlBits e.record 18 17 = 0 then e.step - 1 else e.target)).rowmap row

/-- A run-ahead fetch of an index word would leave its bounds: reserved bits, EXTENT, the index window, a NO_PREFETCH page (R86,
R88, R90). -/
def aheadBarred (m : Mod) (e : Exec) (t : TDesc) (w : Nat) : Bool :=
  let row := bitsOf w 39 0
  let re := aheadRow m e t row
  decide (bitsOf w 63 40 ≠ 0)
    || decide ((t.verAt (if ctrlBits e.record 18 17 = 0 then e.step - 1 else e.target)).extent ≤ row)
    || decide (row < t.idxlo) || decide (t.idxhi ≤ row)
    || (re.near && bitOf (pageEntry m.dev.base m.dev.tier (pageIndex (64 * re.loc))).toNat 59)

/-- GATHER_RUN_AHEAD (R86, R88 to R90, R252): the plot DMA fetches ahead for the next entry of the GATHER at the head of its
queue, within the index window, EXTENT, PLOT_PF_DEPTH and the page map; a fetch outside is dropped and counted. A row in cold
tier is not fetched; with PREFETCH_PROMOTE its promotion is queued. -/
def execGatherRunAhead (plot : Fin 4352) (s : State) : Out :=
  onPlane s fun m => match (m.dev.plot plot).dmaQ.head? with
    | none => m
    | some e => match aheadNext m plot e with
      | none => m
      | some (key, w, t) =>
        let row := bitsOf w 39 0
        if aheadBarred m e t w then m.onDev fun d => (d.noteAhead plot e.fid key true).count cPfDropBound plot 1
        else if (aheadRow m e t row).tier = .cold then
          m.onDev fun d => (if t.prefPromote then d.queuePromote t.id row .warm false else d).noteAhead plot e.fid key true
        else m.onDev fun d => (d.noteAhead plot e.fid key false).count cPfIssued plot 1

/-! ## Reads of rows -/

/-- ROW_READ (R215 to R219, R223, R253): a unit reads a row as of a target, whole or only its gathered granules; what it
reads is left in `tab.answer`. A record that fails FPRINT is restored first. A read for training of a lent or cold row
waits for its promotion. -/
def execRowRead (table : Fin 4096) (row : BitVec 40) (target : Word32) (whole training : Bool) (s : State) : Out :=
  onPlane s fun m => match tdescAt m table with
    | none => m.onDev fun d => d.onTab fun x => { x with answer := some (gstTierError, []) }
    | some t =>
      let r := row.toNat
      let gran := if whole then t.granRec else t.granG
      let v := t.verAt target
      if rowHeld m t r then m
      else if v.extent ≤ r then m.onDev fun d => d.onTab fun x => { x with answer := some (gstBadIndex, zeros (64 * gran)) }
      else
        let m := if training then needRow m v table r .warm else m
        let e := rowEnt m v.rowmap r
        if training ∧ (e.tier = .cold ∨ e.tier = .lent) then m.onDev fun d => d.wantWarm table r
        else if e.tier = .cold then m.onDev fun d =>
          (d.queuePromote table r .warm false).onTab fun x => { x with answer := some (gstCold, zeros (64 * gran)) }
        else
          let x : RowRead × Mod := if whole then (match verifyHome m t v r with
              | none => (⟨gstTierError, [], 0⟩, m)
              | some m1 => (readRow m1 t v r target gran, m1))
            else (readRow m t v r target gran, m)
          x.2.onDev fun d => (d.noteRead table r target x.1).onTab fun y =>
            { y with answer := some (x.1.gst, sliceOf (64 * gran) x.1) }

/-- No warm gradient of a step up to the switch waits for a table (R223, R225). -/
def noWarmLeft (d : Dev) (t : TDesc) : Bool :=
  d.sow.grads.all fun g => g.table ≠ t.id || g.applied.isSome || stepNewer g.step (BitVec.ofNat 32 t.switchStep)

/-- Bytes at ROWMAP: a row map, or the matrix of a DENSE table (R232, R612; log 27). -/
def TDesc.mapBytes (t : TDesc) (extent : Nat) : Nat :=
  if t.kind = 1 then extent * rowPitch t.format t.width 0 else 8 * extent

/-- Free a version's records, its row map and its moves (R225, Table 7.13). -/
def dropVersion (m : Mod) (table version rowmap bytes : Nat) : Mod :=
  let locs := (m.dev.tier.slots.filter fun s => s.2.table = table && s.2.version = version).map (·.1)
  let m := locs.foldl freeSlot m
  let m := m.onDev fun d => d.onTier fun t => { t with
    moves := t.moves.filter fun x => x.table ≠ table
    cold := t.cold.filter fun c => !(c.2.slot.table = table && c.2.slot.version = version)
    lent := t.lent.filter fun c => !(c.2.slot.table = table && c.2.slot.version = version) }
  freePages m rowmap bytes

/-- VERSION_FREE (R225): the previous version goes once nothing pins it, its switch step is CLEARED and no warm update for
it waits. -/
def execVersionFree (table : Fin 4096) (s : State) : Out :=
  onPlane s fun m => match tdescAt m table with
    | none => m
    | some t =>
      let pinned := t.pinPrev ≠ 0 ∨ (m.dev.tab.pins.any fun p => p.table = table && p.version = t.prevVersion) = true
      if !t.prevValid ∨ pinned ∨ stepNewer (BitVec.ofNat 32 t.switchStep) m.dev.base.cleared ∨ !noWarmLeft m.dev t then m
      else (dropVersion m table t.prevVersion t.prevRowmap (t.mapBytes t.prevExtent)).putTd table { t with prevValid := false }

/-! ## Coalescers (R235 to R237) -/

/-- A coalescer. -/
def coalAt (d : Dev) (c : Nat) : Coal := kget Coal.reset d.tab.coal c

/-- Give it a state. -/
def Dev.setCoal (d : Dev) (c : Nat) (x : Coal) : Dev := d.onTab fun t => { t with coal := kset Coal.reset t.coal c x }

/-- Keys in the spill area of a coalescer's spine. -/
def spilled (d : Dev) (c : Nat) : Nat :=
  sumNat ((List.range 4).map fun i => sumNat ((coalAt d (c / 4 * 4 + i)).runs.map (·.length)))

/-- Two sorted lists of counts added. -/
def mergeCounts (a b : KMap Nat) : KMap Nat := b.foldl (fun m e => kmod 0 m e.1 (· + e.2)) a

/-- The runs of a coalescer merged into one. -/
def mergeRuns (x : Coal) : Coal := { x with runs := if x.runs = [] then [] else [x.runs.foldl mergeCounts []] }

/-- Write the window to the spill area as a run, merging the coalescer's runs first where it would not fit; none where it
still does not fit (R236, R237). -/
def spillRun (d : Dev) (c : Nat) : Option Dev :=
  let cap := cfgTierCoalCfgSpill d.base * miB
  let go := fun (d : Dev) =>
    let x := coalAt d c
    if 16 * (spilled d c + x.window.length) ≤ cap then
      some ((d.setCoal c { x with runs := x.runs ++ [x.window], window := [] }).count cCoalSpill (c / 4) 1)
    else none
  match go d with
  | some d' => some d'
  | none => go (d.setCoal c (mergeRuns (coalAt d c)))

/-- Add one to a key's count; one at its end stays there (R235). -/
def countKey (d : Dev) (c key : Nat) : Dev :=
  let x := coalAt d c
  let n := kget 0 x.window key
  if n = 0xFFFFFFFF then
    d.raise evCoalesceCountSat { hasS := true, s := x.step.toNat, row := key % 2 ^ 40, table := key / 2 ^ 40 } (c / 4)
  else d.setCoal c { x with window := kput x.window key (n + 1) }

/-- COALESCE_INDEX (R234 to R237): a coalescer takes one index of the step it prepares. -/
def execCoalesceIndex (step : Word32) (table : Fin 4096) (row : BitVec 40) (s : State) : Out :=
  onPlaneDev s fun d =>
    let key := rowKey table row.toNat
    let c := coalOf table row.toNat
    let x0 := coalAt d c
    let d := if x0.step = step then d else d.setCoal c { Coal.reset with step := step }
    let x := coalAt d c
    let pass := fun (d : Dev) =>
      let y := coalAt d c
      let d := (d.setCoal c { y with passing := true, passed := kmod 0 y.passed key (· + 1) }).count cCoalPass (c / 4) 1
      if d.tab.passSaid = some step then d
      else (d.raise evCoalescePass { hasS := true, s := step.toNat, n := c } (c / 4)).onTab fun t => { t with passSaid := some step }
    if x.passing then pass d
    else if (kfind x.window key).isSome ∨ x.window.length < 16384 then countKey d c key
    else match spillRun d c with
      | some d' => countKey d' c key
      | none => pass (d.setCoal c (mergeRuns x))

/-- COALESCE_MERGE (R236): at the end of a step's input a coalescer writes its window as a last run where it has runs, and
merges all into the final list, counts of equal keys added; keys passed through are read and counted apart (R237). -/
def execCoalesceMerge (coal : Fin 16) (s : State) : Out :=
  onPlaneDev s fun d =>
    let x := coalAt d coal
    let d := if x.runs = [] then d else (spillRun d coal).getD d
    let y := coalAt d coal
    let final := mergeCounts (y.runs.foldl mergeCounts y.window) y.passed
    (d.setCoal coal Coal.reset).onTab fun t => { t with
      distinct := (t.distinct.filter fun l => !(l.step = x.step && l.coal = coal.val)) ++ [⟨x.step, coal, final⟩] }

end Sys2Proof.Machine
end

