-- ==== Sys2Proof/Machine/TierOps.lean ====
section
/-!
DEFINITION. What the tier engine's commands share: estimates, cold and lent slots, copying and switching a record, the
units of memory (07_memory_tiers).
-/

namespace Sys2Proof.Machine

/-! ## Estimates (R239) -/

/-- Index of a key in counter array `i`. -/
def sketchIdx (i table row : Nat) : Nat := crc32c (leBytes 8 ((i * 2 ^ 62 + rowKey table row) % 2 ^ 64)) % 65536

/-- Place of a counter in the sketches. -/
def sketchKey (spine i table row : Nat) : Nat := (4 * spine + i) * 65536 + sketchIdx i table row

/-- The estimate of a row: the smallest of its four counters. -/
def estimate (d : Dev) (table row : Nat) : Nat :=
  let c := fun i => kget 0 d.tab.sketch (sketchKey (spineOf table row) i table row)
  min (min (c 0) (c 1)) (min (c 2) (c 3))

/-! ## Slots and versions -/

/-- The table and version of a record slot, where the table exists. -/
def slotVer (m : Mod) (s : Slot) : Option (TDesc × TabVer) := (tdescAt m s.table).map fun t => (t, t.verNum s.version)

/-- Change the ledger entry of a slot. -/
def Dev.modSlot (d : Dev) (loc : Nat) (f : Slot → Slot) : Dev :=
  d.onTier fun t => match kfind t.slots loc with
    | some s => { t with slots := kput t.slots loc (f s) }
    | none => t

/-- Slots of a pool, rising. -/
def slotsIn (t : TierState) (u : Nat) : KMap Slot :=
  t.slots.filter fun s => match daPlace (64 * s.1) with
    | .hot d _ => d = u
    | .warm q _ => q + 4 = u
    | _ => false

/-- Drop a hot record's warm copy. -/
def dropCopy (m : Mod) (loc : Nat) : Mod :=
  match (kfind m.dev.tier.slots loc).bind (·.warm) with
  | some l => (freeSlot m l).onDev fun d => d.modSlot loc fun s => { s with warm := none }
  | none => m

/-- Drop every warm copy that lies in an Iaqua (R302, R316). -/
def dropCopies (m : Mod) (q : Nat) : Mod :=
  (m.dev.tier.slots.filter fun s => match s.2.warm with
    | some l => locUnit l = q
    | none => false).foldl (fun m s => dropCopy m s.1) m

/-! ## Flash (R281 to R285) -/

/-- A cartridge. -/
def cartOf (t : TierState) (bay : Nat) : Cart := kget Cart.reset t.carts bay

/-- Change a cartridge. -/
def Dev.modCart (d : Dev) (bay : Nat) (f : Cart → Cart) : Dev :=
  d.onTier fun t => { t with carts := kmod Cart.reset t.carts bay f }

/-- Free erase blocks. -/
def Cart.freeBlocks (c : Cart) : List Nat :=
  (List.range c.blocks).filter fun b => (kfind c.full b).isNone && c.opened ≠ some b && !(c.retired.contains b)

/-- The free erase block with the lowest erase count (R282). -/
def Cart.leastWorn (c : Cart) : Option Nat := minBy (fun b => kget 0 c.erases b) c.freeBlocks

/-- Valid pages of an erase block by the map. -/
def Cart.validIn (c : Cart) (b : Nat) : Nat := (c.map.filter fun e => e.2 = b).length

/-- Write a logical block: its page goes to the erase block being filled, or to the least-worn free one. `closes`: the
write fills it. None while no free erase block remains (R282, R285). -/
def Cart.write (c : Cart) (block : Nat) (closes : Bool) : Option Cart :=
  match (match c.opened with
    | some b => some b
    | none => c.leastWorn) with
  | none => none
  | some b =>
    let map := kput c.map block b
    let c := { c with map := map, opened := some b }
    some (if closes then { c with opened := none, full := kput c.full b (c.validIn b) } else c)

/-- Move the valid data of an erase block to another, and erase it (R282 to R285). -/
def Cart.empty (c : Cart) (b : Nat) : Option Cart :=
  match c.leastWorn with
  | none => none
  | some n =>
    if c.validIn b = 0 then some { c with full := kdel c.full b, erases := kmod 0 c.erases b (· + 1) }
    else
      let c := { c with map := c.map.map fun (e : Nat × Nat) => if e.2 = b then (e.1, n) else e }
      some { c with full := kput (kdel c.full b) n (c.validIn n), erases := kmod 0 c.erases b (· + 1) }

/-- Logical blocks of a ZPX-FC15: 15.36 TB in blocks of 4 KiB (Table 0.1, R7). -/
def cartBlocks : Nat := 3750000000

/-- A cold locator (R278). -/
def coldLoc (bay block gran : Nat) : Nat := bay * 2 ^ 42 + block * 64 + gran

/-- The bay of a cold locator. -/
def coldBay (l : Nat) : Nat := l / 2 ^ 42 % 4

/-- The next place for a cold record of `gran` granules on a cartridge: block and granule (R278, R279). -/
def Cart.place (c : Cart) (gran : Nat) : Nat × Nat :=
  if c.next.2 = 0 ∨ c.next.2 + gran ≤ 64 then c.next else (c.next.1 + 1, 0)

/-- The place after it. -/
def Cart.after (p : Nat × Nat) (gran : Nat) : Nat × Nat :=
  if 64 ≤ p.2 + gran then (p.1 + (p.2 + gran + 63) / 64, 0) else (p.1, p.2 + gran)

/-- Take a cold slot on one of the bays; cold writes wait while a cartridge has no free erase block (R279, R285). -/
def allocCold (m : Mod) (bays : List Nat) (gran : Nat) : Option (Nat × Mod) :=
  bays.findSome? fun b =>
    let c := cartOf m.dev.tier b
    let p := c.place gran
    if (c.st = .inService ∨ c.st = .evacuating) ∧ p.1 + (gran + 63) / 64 ≤ cartBlocks then
      (c.write p.1 false).map fun c' => (coldLoc b p.1 p.2, m.onDev fun d => d.modCart b fun _ => { c' with next := Cart.after p gran })
    else none

/-- Bays whose cartridge takes records, but for one. -/
def baysBut (t : TierState) (bay : Option Nat) : List Nat :=
  (List.range 4).filter fun b => (cartOf t b).st = .inService ∧ bay ≠ some b

/-- Cartridges in service. -/
def cartsIn (t : TierState) : Nat := (baysBut t none).length

/-! ## Loans this module borrows (R287 to R290) -/

/-- Records in a window. -/
def lentIn (t : TierState) (w : Nat) : KMap ColdRec := t.lent.filter fun c => locUnit c.1 = w

/-- Granules of records in the loans of a lender. -/
def lentGrans (t : TierState) (lender : Nat) : Nat :=
  sumNat (t.windows.map fun l => if l.2.lender = lender then sumNat ((lentIn t l.1).map (·.2.slot.gran)) else 0)

/-- A pool is below a percentage of FREE pages. -/
def poolBelow (b : BaseState) (t : TierState) (u pct : Nat) : Bool :=
  decide (100 * poolFree b t u < pct * (poolSpan b t u).2)

/-- Some warm pool is below its low watermark (R290). -/
def warmShort (b : BaseState) (t : TierState) : Bool :=
  (List.range 4).any fun q => decide (0 < (poolSpan b t (4 + q)).2) && poolBelow b t (4 + q) (cfgTierWmCfgWarmlow b)

/-- Granules of records that the loans of one lender may hold (R288, R290). -/
def lentLimit (b : BaseState) (t : TierState) : Nat :=
  let g := cfgTierLendCfgMaxrec b
  (if warmShort b t then min g (4 * cartsIn t) else g) * giB / 64

/-- Take a slot in a loan that has room: after the records the window holds (R288). -/
def allocLent (m : Mod) (gran : Nat) : Option (Nat × Mod) :=
  m.dev.tier.windows.findSome? fun (l : Nat × LoanIn) =>
    let t := m.dev.tier
    let next := (lentIn t l.1).foldl (fun a c => max a (c.1 + c.2.slot.gran)) (windowBase l.1 / 64)
    if l.2.deadline = none ∧ lentGrans t l.2.lender + gran ≤ lentLimit m.dev.base t
        ∧ 64 * (next + gran) ≤ windowBase l.1 + l.2.pages * 0x200000 then some (next, m) else none

/-! ## Copying and switching a record (R304) -/

/-- Take a slot of a tier for a row's record. -/
def allocTier (m : Mod) (target : Tier) (s : Slot) (but : Option Nat) : Option (Nat × Mod) :=
  match target with
  | .hot => placeIn m false s
  | .warm => placeIn m true s
  | .cold => allocCold m (baysBut m.dev.tier but) s.gran
  | .lent => allocLent m s.gran
  | .absent => none

/-- Write a record and its ledger entry at a destination. -/
def putRecord (m : Mod) (target : Tier) (loc : Nat) (s : Slot) (r : List Byte) : Mod :=
  match target with
  | .hot | .warm => m.store (64 * loc) r
  | .cold => m.onDev fun d => d.onTier fun t => { t with cold := kput t.cold loc ⟨s, r⟩ }
  | .lent => m.onDev fun d =>
    (d.onTier fun t => { t with lent := kput t.lent loc ⟨s, r⟩ }).onFab fun f => { f with
      winOut := f.winOut ++ [⟨.tier, 64 * loc, r⟩] }
  | .absent => m

/-- Free the place of a record. -/
def dropRecord (m : Mod) (tier : Tier) (loc : Nat) : Mod :=
  match tier with
  | .hot => freeSlot (dropCopy m loc) loc
  | .warm => freeSlot m loc
  | .cold => m.onDev fun d => d.onTier fun t => { t with cold := kdel t.cold loc }
  | .lent => m.onDev fun d => d.onTier fun t => { t with lent := kdel t.lent loc }
  | .absent => m

/-- Move a record at once, as the steps of R304 with no other event between them: an evacuation or a re-form moves the
records it must move so. False where no place is left. -/
def relocate (m : Mod) (t : TDesc) (v : TabVer) (row : Nat) (target : Tier) (but : Option Nat) : Mod × Bool :=
  let e := rowEnt m v.rowmap row
  let s : Slot := ⟨t.id, row, v.version, t.granRec, false, none⟩
  match allocTier m target s but with
  | none => (m, false)
  | some (loc, m1) =>
    let m1 := if e.near then (verifyHome m1 t v row).getD m1 else m1
    let r := recordOf m1 e t.granRec
    (((dropRecord (putRecord m1 target loc s r) e.tier e.loc).putRow v.rowmap row ⟨target, 0, e.hotdir, loc⟩).onDev fun d =>
      d.onTier fun x => { x with moves := x.moves.filter fun y => !(y.table = t.id && y.row = row) }, true)

/-- The first of some tiers that takes a record. -/
def relocateTo (m : Mod) (t : TDesc) (v : TabVer) (row : Nat) (but : Option Nat) : List Tier → Mod × Bool
  | [] => (m, false)
  | x :: xs =>
    let r := relocate m t v row x but
    if r.2 then r else relocateTo m t v row but xs

/-- Move every record of some slots, whose entry says which row it is; false where one had no place. -/
def relocateAll (m : Mod) (slots : List Slot) (but : Option Nat) (tiers : TDesc → List Tier) : Mod × Bool :=
  slots.foldl (fun acc s => match slotVer acc.1 s with
    | none => acc
    | some (t, v) =>
      let r := relocateTo acc.1 t v s.row but (tiers t)
      (r.1, acc.2 && r.2)) (m, true)

/-- Restore every record of some slots from R246's sources; a row with none is listed as lost (R264, R270, R276). -/
def restoreAll (m : Mod) (slots : List Slot) : Mod :=
  slots.foldl (fun m s => match slotVer m s with
    | none => m
    | some (t, v) => match restoreRow m t v s.row with
      | some m' => m'
      | none => m.onDev fun d => d.onTier fun x => { x with lost := x.lost ++ [(s.table, s.row)] }) m

/-- Restore a row from a cairn into warm or hot tier, or list it as lost (R286). -/
def restoreFromCairn (m : Mod) (s : Slot) : Mod :=
  match slotVer m s with
  | none => m
  | some (t, v) =>
    let slot : Slot := { s with copy := false, warm := none }
    let place := match placeIn m true slot with
      | some x => some (Tier.warm, x)
      | none => (placeIn m false slot).map fun x => (Tier.hot, x)
    match fromCairn m s.table s.row, place with
    | some r, some (tier, loc, m1) =>
      let e := rowEnt m v.rowmap s.row
      (((m1.store (64 * loc) (padTo (64 * t.granRec) r)).putRow v.rowmap s.row ⟨tier, 0, e.hotdir, loc⟩).onDev fun d =>
        d.raise evRowRestored { hasS := true, s := (recTag r).toNat, row := s.row, table := s.table, c := 2 })
    | _, _ => m.onDev fun d => d.onTier fun x => { x with lost := x.lost ++ [(s.table, s.row)] }

/-! ## Units of memory -/

/-- A pseudo-channel. -/
def hpcOf (t : TierState) (stack pc : Nat) : Hpc := kget Hpc.reset t.hpc (64 * stack + pc)

/-- Change a pseudo-channel. -/
def Dev.modHpc (d : Dev) (stack pc : Nat) (f : Hpc → Hpc) : Dev :=
  d.onTier fun t => { t with hpc := kmod Hpc.reset t.hpc (64 * stack + pc) f }

/-- A DDR5 channel. -/
def ddrOf (t : TierState) (c : Nat) : Ddr := kget Ddr.reset t.ddr c

/-- Change a DDR5 channel. -/
def Dev.modDdr (d : Dev) (c : Nat) (f : Ddr → Ddr) : Dev :=
  d.onTier fun t => { t with ddr := kmod Ddr.reset t.ddr c f }

/-- Logical pseudo-channels of a stack. -/
def stackP (t : TierState) (stack : Nat) : Nat := t.dieP (stack / 3) / 3

/-- Physical pseudo-channels of a stack in use, by logical index (R262). -/
def stackMap (t : TierState) (stack : Nat) : List Nat :=
  (List.range (stackP t stack)).map fun i => (kfind t.chanMap (64 * stack + i)).getD i

/-- Give a stack's map its values. -/
def setStackMap (t : TierState) (stack : Nat) (l : List Nat) : TierState :=
  { t with chanMap := (t.chanMap.filter fun e => e.1 / 64 ≠ stack) |> fun base =>
      (l.zipIdx).foldl (fun m x => if x.1 = x.2 then m else kput m (64 * stack + x.2) x.1) base }

/-- A spare of a stack: not in its map and not fallow (R262, R268). -/
def stackSpare (t : TierState) (stack : Nat) : Option Nat :=
  (List.range 64).find? fun p => !((stackMap t stack).contains p) && !(hpcOf t stack p).fallow

/-- Channel of an extent of an Iaqua: as its extent table says, or e mod n of the channels it was made with, in order (R271,
R272). -/
def extentChan (t : TierState) (q e : Nat) : Nat :=
  match kfind t.extents (q * 2 ^ 20 + e) with
  | some v => v / 2 ^ 20
  | none =>
    let on := kget [] t.startCh q
    nth 0 on (e % max 1 on.length)

/-- Where memory ends with an uncorrectable error: a record read is restored, another access faults at its requester
(R264, R275). -/
def memoryUe (m : Mod) (da : Nat) (who : Option (Fin 4352 × UnitSel)) : Mod :=
  let rec_ := m.dev.tier.slots.find? fun s => s.1 ≤ da / 64 ∧ da / 64 < s.1 + s.2.gran
  match rec_ with
  | some (_, s) =>
    let m := m.onDev fun d => d.count cTierError (spineOf s.table s.row) 1
    if s.copy then m else restoreAll m [s]
  | none => match who with
    | none => m
    | some (p, u) =>
      let k : UnitK := match u with
        | .dma => .dma
        | .mat => .mat
        | .vec => .vec
        | .send => .send
        | .recv => .recv
      match (unitQ (m.dev.plot p) k).head? with
      | some e => m.onDev fun d => faultExec d p k e (.tierError da)
      | none => m

end Sys2Proof.Machine
end

