-- ==== Sys2Proof/Machine/Tier.lean ====
section
/-!
DEFINITION. The commands of the memory tiers and the tier engine: corrections and repairs, flash, moves, evictions,
evacuations and returns (07_memory_tiers).
-/

namespace Sys2Proof.Machine

/-! ## Waiting requests and failed moves (R294, R309, R310) -/

/-- The plots whose TRAIN gather waits for a row: its index buffer names the row, and it is at the head of the queue. -/
def waitersOf (m : Mod) (table row : Nat) : List Nat :=
  (m.dev.plots.filter fun p => match p.2.dmaQ.head? with
    | none => false
    | some e =>
      let n := ctrlBits e.record 15 0 + 1
      decide (recOpc e.record = 2) && decide (ctrlBits e.record 18 17 = 0)
        && (match tdescByDa m (opdBase e.record 2 e.index).toNat with
          | some (_, t) => decide (t.id = table)
          | none => false)
        && (match readOpd m p.1 e 0 0 (8 * n) with
          | .ok bs => (List.range n).any fun j => bitsOf (fieldAt bs (8 * j) 8) 39 0 = row
          | .error _ => false)).map (·.1)

/-- Free the destination of a move. -/
def freeDst (m : Mod) (x : Move) : Mod :=
  match x.dst with
  | some l => dropRecord m x.target l
  | none => m

/-- A move ends without its row: RESIDENT at the source, an event, and every request waiting on it ends (R309). -/
def failMove (m : Mod) (x : Move) (late : Bool) : Mod :=
  let m := freeDst m x
  let m := match tdescAt m x.table with
    | some t =>
      let e := rowEnt m t.curVer.rowmap x.row
      m.putRow t.curVer.rowmap x.row { e with state := 0 }
    | none => m
  let w := waitersOf m x.table x.row
  m.onDev fun d =>
    let d := d.onTier fun t => { t with
      moves := t.moves.erase x
      promote := t.promote.filter fun q => !(q.table = x.table && q.row = x.row)
      waitFail := t.waitFail ++ w.map fun i => (x.table, x.row, late, i) }
    let d := d.count (if late then cTierTimeout else cTierError) (spineOf x.table x.row) 1
    d.raise (if x.evict then evTierEvictFail else evTierPromoteFail) { row := x.row, table := x.table }

/-- TIER_TRANSACTION_TIMEOUT (R294, R309, R310): a transaction ends with TIER_TIMEOUT, naming the row; only what needed the
row ends. -/
def execTierTransactionTimeout (table : Fin 4096) (row : BitVec 40) (s : State) : Out :=
  onPlane s fun m => if (tdescAt m table).any fun t => rowHeld m t row.toNat then m else match moveOf m.dev table row.toNat with
    | some x => if x.written then m else failMove m x true
    | none => m.onDev fun d => (d.count cTierTimeout (spineOf table row.toNat) 1).onTab fun x =>
      { x with answer := some (gstTimeout, []) }

/-- MOVE_FAIL (R309): the read of a move's source fails or is late, or the write of its destination fails; the write is
tried once more in another slot. -/
def execMoveFail (table : Fin 4096) (row : BitVec 40) (late write : Bool) (s : State) : Out :=
  onPlane s fun m => match moveOf m.dev table row.toNat, tdescAt m table with
    | some x, some t =>
      if write && !x.retried then
        let m1 := freeDst m x
        match allocTier m1 x.target ⟨table, row.toNat, t.version, t.granRec, false, none⟩ none with
        | some (l, m2) => m2.onDev fun d => d.onTier fun k => { k with
            moves := k.moves.map fun y => if y = x then { x with dst := some l, retried := true, written := false } else y }
        | none => failMove m x late
      else failMove m x late
    | _, _ => m

/-! ## Scrub and tags (R265, R351) -/

/-- The DA after `da` in the backed hot or warm range, from its start again at its end. -/
def scrubNext (d : Dev) (warm : Bool) (da : Nat) : Nat :=
  let ends := (List.range 4).map fun i =>
    if warm then (warmBase i, warmBase i + d.tier.warmBacked i) else (hotBase i, hotBase i + d.tier.hotBacked i)
  match ends.find? fun r => decide (r.1 ≤ da + 64) && decide (da + 64 < r.2) with
  | some _ => da + 64
  | none => match ends.find? fun r => decide (da < r.1) && decide (r.1 < r.2) with
    | some r => r.1
    | none => ((ends.find? fun r => decide (r.1 < r.2)).map (·.1)).getD 0

/-- Queue a refresh of a row. -/
def Dev.queueRefresh (d : Dev) (table row : Nat) : Dev :=
  if (table, row) ∈ d.tier.refresh then d else d.onTier fun t => { t with refresh := t.refresh ++ [(table, row)] }

/-- A record's effective tag is more than 2^29 steps older than the latest APPLIED step (R351). -/
def tagStale (d : Dev) (v : TabVer) (r : List Byte) : Bool := decide (2 ^ 29 < (d.base.applied - effTag v r).toInt)

/-- PATROL_SCRUB (R265, R275, R351): the scrub reads the next 64 bytes of the backed hot or warm tier, writes back the
corrections it finds and counts them; a record that lies there whose tag is old has a refresh queued. -/
def execPatrolScrub (warm : Bool) (ce : Nat) (s : State) : Out :=
  onPlane s fun m =>
    let da := if warm then m.dev.tier.scrubWarm else m.dev.tier.scrubHot
    let next := scrubNext m.dev warm da
    let m := m.onDev fun d =>
      let d := d.onTier fun t => if warm then { t with scrubWarm := next } else { t with scrubHot := next }
      if ce = 0 then d else d.count (if warm then cDdrCe else cHbmCe) (locUnit (da / 64)) ce
    match kfind m.dev.tier.slots (da / 64) with
    | none => m
    | some sl => match slotVer m sl with
      | none => m
      | some (_, v) =>
        if !sl.copy && tagStale m.dev v (m.load da 64) then m.onDev fun d => d.queueRefresh sl.table sl.row else m

/-- LENT_COLD_TAG_CHECK (R351): the tier engine looks at the tag of a lent or cold record; one due a refresh is promoted to
warm, and a refresh is queued for the next milestone. -/
def execLentColdTagCheck (cold : Bool) (loc : Nat) (s : State) : Out :=
  onPlane s fun m =>
    let rec? := if cold then kfind m.dev.tier.cold loc else kfind m.dev.tier.lent loc
    match rec? with
    | none => m
    | some c => m.onDev fun d =>
      let d := d.onTier fun t => { t with checked := kput t.checked (if cold then loc else loc + 2 ^ 60) d.base.applied }
      match slotVer m c.slot with
      | some (_, v) =>
        if tagStale d v c.data then (d.queuePromote c.slot.table c.slot.row .warm false).queueRefresh c.slot.table c.slot.row
        else d
      | none => d

/-! ## Errors and repair of memory (R263 to R270, R275, R276) -/

/-- The hour since cold reset. -/
def hourOf (b : BaseState) : Nat := b.now.toNat / 3600000000000

/-- The scrub period since cold reset. -/
def periodOf (b : BaseState) : Nat := hourOf b / max 1 (cfgTierRasCfgScrubh b)

/-- HBM_CORRECTION (R263, R266, R267): counted in HBM_CE_CNT, for its DRAM row in the scrub period and for its
pseudo-channel in the hour. -/
def execHbmCorrection (stack : Fin 12) (pc : Fin 64) (row : Nat) (s : State) : Out :=
  onPlaneDev s fun d =>
    let h := hourOf d.base
    let p := periodOf d.base
    (d.count cHbmCe (stack / 3) 1).modHpc stack pc fun c => { c with
      ce := (if c.hour = h then c.ce else 0) + 1
      hour := h
      rowCe := kmod 0 (if c.period = p then c.rowCe else []) row (· + 1)
      period := p }

/-- DDR_CORRECTION (R275, R276). -/
def execDdrCorrection (channel : Fin 16) (row : Nat) (s : State) : Out :=
  onPlaneDev s fun d =>
    let h := hourOf d.base
    let p := periodOf d.base
    (d.count cDdrCe (channel / 4) 1).modDdr channel fun c => { c with
      ce := (if c.hour = h then c.ce else 0) + 1
      hour := h
      rowCe := kmod 0 (if c.period = p then c.rowCe else []) row (· + 1)
      period := p }

/-- HBM_UE (R264, R310): counted, EV_HBM_UE; a record read ends with TIER_ERROR and the record is restored, another access
faults at its requester `who`. -/
def execHbmUe (da : BitVec 56) (who : Option (Fin 4352 × UnitSel)) (s : State) : Out :=
  onPlane s fun m => match daPlace da.toNat with
    | .hot die _ => memoryUe (m.onDev fun d => (d.count cHbmUe die 1).raise evHbmUe { d := da.toNat } die) da.toNat who
    | _ => m

/-- DDR_UE (R275, R264). -/
def execDdrUe (da : BitVec 56) (who : Option (Fin 4352 × UnitSel)) (s : State) : Out :=
  onPlane s fun m => match daPlace da.toNat with
    | .warm q _ => memoryUe (m.onDev fun d => (d.count cDdrUe q 1).raise evDdrUe { d := da.toNat } q) da.toNat who
    | _ => m

/-- SOFT_PPR (R266, R275): a DRAM row with ROWCE corrections in the period is read, repaired and written back. -/
def execSoftPpr (unit : MemUnit) (row : Nat) (da : BitVec 56) (s : State) : Out :=
  onPlaneDev s fun d =>
    let need := cfgTierRasCfgRowce d.base
    match unit with
    | .hbm stack pc =>
      if kget 0 (hpcOf d.tier stack pc).rowCe row < need ∨ row ∈ (hpcOf d.tier stack pc).soft then d
      else (d.modHpc stack pc fun c => { c with soft := c.soft ++ [row], rowCe := kdel c.rowCe row }).raise evHbmSppr
        { d := da.toNat } (stack / 3)
    | .ddr ch =>
      if kget 0 (ddrOf d.tier ch).rowCe row < need ∨ row ∈ (ddrOf d.tier ch).repaired then d
      else (d.modDdr ch fun c => { c with repaired := c.repaired ++ [row], rowCe := kdel c.rowCe row }).raise evHbmSppr
        { d := da.toNat } (ch / 4)

/-- A pseudo-channel must go: past PCCE corrections in the hour, out of repair rows, with a low margin, or being evacuated
(R267, R314, R315). -/
def hpcWorn (d : Dev) (stack pc : Nat) (exhausted : Bool) : Bool :=
  let c := hpcOf d.tier stack pc
  exhausted || c.candidate || (decide (cfgTierRasCfgPcce d.base < c.ce) && decide (c.hour = hourOf d.base))
    || d.tier.evacs.any fun e => e.kind = 0 && e.unit = 64 * stack + pc

/-- Replace a pseudo-channel by a spare of its stack (R267). -/
def spareHpc (d : Dev) (stack pc sp : Nat) : Dev :=
  ((d.onTier fun t => setStackMap t stack ((stackMap t stack).map fun x => if x = pc then sp else x)).modHpc stack pc
    fun c => { c with fallow := true, candidate := false, ce := 0 }).raise evHbmPcSpared { n := 64 * stack + pc } (stack / 3)

/-- HBM_PC_SPARE (R267): copied to a spare of its stack, the channel map changed, the old pseudo-channel fallow. -/
def execHbmPcSpare (stack : Fin 12) (pc : Fin 64) (exhausted : Bool) (s : State) : Out :=
  onPlaneDev s fun d => match stackSpare d.tier stack with
    | some sp => if (stackMap d.tier stack).contains pc.val && hpcWorn d stack pc exhausted then spareHpc d stack pc sp else d
    | none => d

/-- HARD_PPR_TEST (R268): every row with a soft repair receives a hard one; a pseudo-channel that passes becomes a spare. -/
def execHardPprTest (stack : Fin 12) (pc : Fin 64) (pass : Bool) (s : State) : Out :=
  onPlaneDev s fun d =>
    if !(hpcOf d.tier stack pc).fallow then d
    else d.modHpc stack pc fun c => { c with hard := c.hard ++ c.soft, soft := [], fallow := !pass }

/-- TAG of the EVACUATE descriptor that asked for an evacuation. -/
def evacTag (d : Dev) (e : Evac) : Nat :=
  ((d.hif.descs.find? fun x => e.tag == some x.id).map fun x => x.bytes.toNat / 2 ^ 32 % 2 ^ 32).getD 0

/-- An evacuation has ended well: EV_EVACUATE_DONE and its descriptor's completion (R315). -/
def Dev.evacDone (d : Dev) (e : Evac) (moved : Nat) : Dev :=
  let d := (d.onTier fun t => { t with evacs := t.evacs.erase e }).raise evEvacuateDone { t := evacTag d e, n := e.unit }
  match e.tag with
  | some id => d.endDesc id 0 [0, moved, 0]
  | none => d

/-- Records of a pool at or beyond an offset of its unit's range. -/
def slotsBeyond (t : TierState) (u off : Nat) : List Slot :=
  let base := if u < 4 then hotBase u else warmBase (u - 4)
  ((slotsIn t u).filter fun s => decide (base + off ≤ 64 * s.1)).map (·.2)

/-- Warm copies of a unit beyond an offset are dropped, and its records beyond it moved: within the tier first, hot ones then to
warm tier, then to lent or cold tier where the table allows (R269, R316). -/
def emptyBand (m : Mod) (u off : Nat) : Mod × Bool :=
  let m := if 4 ≤ u then dropCopies m (u - 4) else m
  let l := (slotsBeyond m.dev.tier u off).filter fun s => !s.copy
  let near : Tier := if u < 4 then .hot else .warm
  let other : Tier := if u < 4 then .warm else .hot
  relocateAll m l none fun t =>
    [near] ++ (if u < 4 then [other] else []) ++ (if t.allowLent then [Tier.lent] else []) ++ (if t.allowCold then [Tier.cold] else [])

/-- Pages of a unit that are listed beyond an offset go with the pages themselves. -/
def clearBand (t : TierState) (u off : Nat) : TierState :=
  let s := pageIndex (if u < 4 then hotBase u + off else warmBase (u - 4) + off)
  let e := if u < 4 then 131072 * (u + 1) else 524288 + 2097152 * (u - 3)
  { t with pages := t.pages.filter fun p => decide (p.1 < s ∨ e ≤ p.1) }

/-- One logical index fewer in each stack of a die, the retired pseudo-channel's own in its stack (R269). -/
def reformMaps (t : TierState) (die stack pc : Nat) : TierState :=
  let maps := (List.range 3).map fun k =>
    let st := 3 * die + k
    let l := stackMap t st
    (st, if st = stack then l.filter (· ≠ pc) else l.dropLast)
  let t := { t with lostPc := kput t.lostPc die (kget 0 t.lostPc die + 3), reform := kdel t.reform die }
  maps.foldl (fun t x => setStackMap t x.1 x.2) t

/-- The new size of a die's range after a re-form. -/
def reformSize (t : TierState) (die : Nat) : Nat := (t.dieP die - 3) * 0x48000000

/-- HBM_DIE_REFORM (R269): where no spare is left for a pseudo-channel that must go, the pool beyond the new size is emptied
and the range rewritten page by page; EV_HBM_DIE_REFORM at the start and at the end. Each command rewrites `pages` more
pages of 2 MiB. -/
def execHbmDieReform (stack : Fin 12) (pc : Fin 64) (exhausted : Bool) (pages : Nat) (s : State) : Out :=
  onPlane s fun m =>
    let die : Nat := stack / 3
    match kfind m.dev.tier.reform die with
    | none =>
      if (stackSpare m.dev.tier stack).isSome ∨ !(stackMap m.dev.tier stack).contains pc.val ∨ !hpcWorn m.dev stack pc exhausted
          ∨ m.dev.tier.dieP die ≤ 3 then m
      else m.onDev fun d => (d.onTier fun t => { t with reform := kput t.reform die ⟨t.dieP die, 0⟩ }).raise evHbmDieReform
        { n := die } die
    | some r =>
      let size := reformSize m.dev.tier die
      let x := emptyBand m die size
      if !x.2 then x.1
      else
        let point := r.point + pages * 0x200000
        if point < size then x.1.onDev fun d => d.onTier fun t => { t with reform := kput t.reform die { r with point := point } }
        else x.1.onDev fun d =>
          let d := ((d.onTier fun t => reformMaps (clearBand t die size) die stack pc).modHpc stack pc
            fun c => { c with fallow := true, candidate := false, ce := 0 }).raise evHbmDieReform { n := die } die
          match d.tier.evacs.find? fun e => e.kind = 0 && e.unit = 64 * stack.val + pc.val with
          | some e => d.evacDone e (r.oldP * 0x48000000)
          | none => d

/-- Give the home of a row a slot of the same tier elsewhere, with nothing read from the old one. -/
def rehome (m : Mod) (s : Slot) : Mod :=
  match slotVer m s with
  | none => m
  | some (_, v) =>
    let e := rowEnt m v.rowmap s.row
    match placeIn m (e.tier = .warm) { s with warm := none } with
    | some (l, m1) => (freeSlot m1 e.loc).putRow v.rowmap s.row ⟨e.tier, 0, e.hotdir, l⟩
    | none => match placeIn m (e.tier ≠ .warm) { s with warm := none } with
      | some (l, m1) => (freeSlot m1 e.loc).putRow v.rowmap s.row ⟨if e.tier = .warm then .hot else .warm, 0, e.hotdir, l⟩
      | none => m

/-- HBM_PC_LOST (R270): the running step ends ABORTED, the die's soft band is lost, its journal region with it, its records
are restored, and the die is re-formed without copying. -/
def execHbmPcLost (stack : Fin 12) (pc : Fin 64) (s : State) : Out :=
  onPlane s fun m =>
    let die : Nat := stack / 3
    if !(stackMap m.dev.tier stack).contains pc.val ∨ m.dev.tier.dieP die ≤ 3 then m
    else
      let size := reformSize m.dev.tier die
      let m := m.onDev fun d =>
        let d := d.raise evHbmPcLost { n := 64 * stack.val + pc.val } die
        let d := match d.ms.cur with
          | some st => d.failStep st 6
          | none => d
        let d := d.modRegion die fun _ => Region.reset
        (d.onTier fun t => { t with
          softLost := if die ∈ t.softLost then t.softLost else t.softLost ++ [die]
          softNew := t.softNew.filter fun c => decide (daPlace c.1 ≠ .hot die (c.1 - hotBase die))
          moves := t.moves.filter fun x => !(x.target = .hot && x.unit = die) }).raise evHbmDieReform { n := die } die
      let slots := ((slotsIn m.dev.tier die).filter fun s => !s.2.copy).map (·.2)
      let far := (slotsBeyond m.dev.tier die size).filter fun s => !s.copy
      let m := m.onDev fun d => d.onTier fun t => { t with reform := kput t.reform die ⟨t.dieP die, 0⟩ }
      let m := restoreAll (far.foldl rehome m) slots
      m.onDev fun d => ((d.onTier fun t => reformMaps (clearBand t die size) die stack pc).modHpc stack pc
        fun c => { c with fallow := true }).raise evHbmDieReform { n := die } die

/-! ## Extents and channels (R271 to R277) -/

/-- Extents backed in an Iaqua's range. -/
def extentCount (t : TierState) (q : Nat) : Nat := t.warmBacked q / 0x1000000

/-- Channel extent of an extent. -/
def extentPlace (t : TierState) (q e : Nat) : Nat :=
  match kfind t.extents (q * 2 ^ 20 + e) with
  | some v => v % 2 ^ 20
  | none => e / max 1 (kget [] t.startCh q).length

/-- Extents of an Iaqua that lie on a channel. -/
def extentsOn (t : TierState) (q c : Nat) : List Nat := (List.range (extentCount t q)).filter fun e => extentChan t q e = c

/-- Move an extent to a channel: the lowest free channel extent there, the table changed in one operation (R273). -/
def moveExtent (t : TierState) (q e c : Nat) : TierState :=
  let used := (extentsOn t q c).map (extentPlace t q)
  match (List.range (t.capCh * 64)).find? fun p => !(used.contains p) with
  | some p => { t with extents := kput t.extents (q * 2 ^ 20 + e) (c * 2 ^ 20 + p) }
  | none => t

/-- EXTENT_MOVE (R273): the DA of every byte stays. -/
def execExtentMove (iaqua : Fin 4) (extent : Nat) (dst : Fin 4) (s : State) : Out :=
  onPlaneDev s fun d => d.onTier fun t =>
    if extent < extentCount t iaqua ∧ (ddrOf t (4 * iaqua + dst)).st = .inService ∧ extentChan t iaqua extent ≠ dst.val
    then moveExtent t iaqua extent dst else t

/-- Begin an evacuation of a unit (R315, R316). -/
def startEvac (d : Dev) (kind unit : Nat) (tag : Option Nat) : Dev :=
  if d.tier.evacs.any fun e => e.kind = kind && e.unit = unit then d
  else d.onTier fun t =>
    let t := { t with evacs := t.evacs ++ [⟨kind, unit, tag⟩] }
    if kind = 1 then
      { t with ddr := kmod Ddr.reset t.ddr unit fun c => { c with st := .evacuating } }
    else if kind = 2 then { t with carts := kmod Cart.reset t.carts unit fun c => { c with st := .evacuating } }
    else t

/-- A channel has stopped answering: its requests end with TIER_ERROR, its records are restored (R276). -/
def channelDead (m : Mod) (ch : Nat) : Mod :=
  let q := ch / 4
  let l := ((slotsIn m.dev.tier (4 + q)).filter fun s =>
    !s.2.copy && decide (extentChan m.dev.tier q ((64 * s.1 - warmBase q) / 0x1000000) = ch % 4)).map (·.2)
  restoreAll (m.onDev fun d => l.foldl (fun d s => d.count cTierError (spineOf s.table s.row) 1) d) l

/-- DDR_CHANNEL_FALLOW (R276): a channel past PCCE corrections in the hour, or one that stops answering, is evacuated; one
that stopped answering ends its requests with TIER_ERROR and its records are restored. -/
def execDdrChannelFallow (channel : Fin 16) (dead : Bool) (s : State) : Out :=
  onPlane s fun m =>
    let c := ddrOf m.dev.tier channel
    let worn := dead || c.candidate || (decide (cfgTierRasCfgPcce m.dev.base < c.ce) && decide (c.hour = hourOf m.dev.base))
    if c.st ≠ .inService ∨ !worn then m
    else (if dead then channelDead m channel else m).onDev fun d => startEvac d 1 channel none

/-! ## Flash (R281 to R286) -/

/-- FLASH_WRITE (R281, R282): the data and the map's journal entry are programmed, on the free erase block least worn. -/
def execFlashWrite (bay : Fin 4) (block : Nat) (closes : Bool) (s : State) : Out :=
  onPlaneDev s fun d =>
    if (cartOf d.tier bay).st ≠ .inService ∧ (cartOf d.tier bay).st ≠ .evacuating then d
    else match (cartOf d.tier bay).write block closes with
      | some c => d.modCart bay fun _ => c
      | none => d

/-- Spread of erase counts over a cartridge's erase blocks (R282). -/
def Cart.spread (c : Cart) : Nat :=
  let l := c.erases.map (·.2)
  let hi := l.foldl max 0
  let lo := if l.length < c.blocks then 0 else l.foldl min hi
  hi - lo

/-- WEAR_LEVEL (R282): when the spread passes WLDELTA, the data of the least-worn full block is moved. -/
def execWearLevel (bay : Fin 4) (s : State) : Out :=
  onPlaneDev s fun d =>
    let c := cartOf d.tier bay
    if c.spread ≤ cfgFlsFtlCfgWldelta d.base then d
    else match minBy (fun b => kget 0 c.erases b) (c.full.map (·.1)) with
      | some b => match c.empty b with
        | some c' => d.modCart bay fun _ => c'
        | none => d
      | none => d

/-- READ_DISTURB_REFRESH (R283): the block's valid data is rewritten elsewhere. -/
def execReadDisturbRefresh (bay : Fin 4) (eblock : Nat) (s : State) : Out :=
  onPlaneDev s fun d => match kfind (cartOf d.tier bay).full eblock, (cartOf d.tier bay).empty eblock with
    | some _, some c => (d.modCart bay fun _ => c).count cFtlRdrefresh bay 1
    | _, _ => d

/-- GARBAGE_COLLECTION (R285): below GCLOW free erase blocks, the block with the fewest valid pages is collected. -/
def execGarbageCollection (bay : Fin 4) (s : State) : Out :=
  onPlaneDev s fun d =>
    let c := cartOf d.tier bay
    if cfgFlsFtlCfgGclow d.base * c.blocks ≤ 1000 * c.freeBlocks.length then d
    else match minBy (fun b => c.validIn b) (c.full.map (·.1)) with
      | some b => match c.empty b with
        | some c' => (d.modCart bay fun _ => c').count cFtlGc bay 1
        | none => d
      | none => d

/-- FLASH_UE (R284): a read that stays uncorrectable is counted and its request ends with TIER_ERROR; `retire` names an
erase block that failed and is retired, its valid data moved. -/
def execFlashUe (bay : Fin 4) (block : BitVec 36) (uncorrectable : Bool) (retire : Option Nat) (s : State) : Out :=
  onPlane s fun m =>
    let at_ := bay.val * 2 ^ 36 + block.toNat
    let m := if !uncorrectable then m else
      let m := m.onDev fun d => (d.count cFlashUe bay 1).raise evFlashUe { d := at_ } bay
      (m.dev.tier.moves.filter fun x => !x.written && (match tdescAt m x.table with
        | some t =>
          let e := rowEnt m t.curVer.rowmap x.row
          decide (e.tier = .cold) && decide (e.loc / 64 = at_)
        | none => false)).foldl (fun m x => failMove m x false) m
    match retire with
    | none => m
    | some b =>
      let c := cartOf m.dev.tier bay
      let c' := (c.empty b).getD c
      m.onDev fun d => (d.modCart bay fun _ => { c' with
        retired := c'.retired ++ [b], full := kdel c'.full b, opened := if c'.opened = some b then none else c'.opened }).raise
        evFtlBlockRetired { d := at_ } bay

/-- A cartridge is gone: its cairns are invalid, and its rows are restored from cairns on the others or listed as lost
(R286). -/
def loseCart (m : Mod) (bay : Nat) : Mod :=
  let gone := (m.dev.tier.cold.filter fun c => coldBay c.1 = bay).map (·.2.slot)
  let m := m.onDev fun d =>
    ((d.raise evCartLost { n := bay } bay).onMs fun x => { x with cairns := x.cairns.filter fun c => !(c.bays.contains bay) }).onTier
      fun t => { t with
        cold := t.cold.filter fun c => coldBay c.1 ≠ bay
        carts := kdel t.carts bay
        evacs := t.evacs.filter fun e => !(e.kind = 2 && e.unit = bay)
        moves := t.moves.filter fun x => !(x.target = .cold && (x.dst.map coldBay) == some bay) }
  gone.foldl restoreFromCairn m

/-- CART_LOST (R286). -/
def execCartLost (bay : Fin 4) (s : State) : Out :=
  onPlane s fun m =>
    if (cartOf m.dev.tier bay).st = .inService ∨ (cartOf m.dev.tier bay).st = .evacuating then loseCart m bay else m

/-! ## Moves (R295 to R309) -/

/-- Start a move of a row: STATE set and the destination taken, or a clean eviction onto a current warm copy
(R301, R304). -/
def startMove (m : Mod) (t : TDesc) (row : Nat) (evict : Bool) (target : Tier) : Mod :=
  let v := t.curVer
  let e := rowEnt m v.rowmap row
  let s : Slot := ⟨t.id, row, v.version, t.granRec, false, none⟩
  let clean := evict && decide (e.tier = .hot) && decide (target = .warm) && (fromCopy m t e).isSome
  let go := fun (m : Mod) (unit : Nat) (dst : Option Nat) =>
    (m.putRow v.rowmap row { e with state := if evict then 2 else 1 }).onDev fun d => d.onTier fun k =>
      { k with moves := k.moves ++ [⟨t.id, row, evict, target, unit, dst, false, 0, 0, false, false⟩] }
  if clean then go m 0 none
  else match allocTier m target s none with
    | some (l, m1) => go m1 (if target = .cold then coldBay l else locUnit l) (some l)
    | none => m

/-- Where a warm victim goes: lent tier first if LENTFIRST, where a loan has room, else cold tier (R288, R296). -/
def warmVictimTo (m : Mod) (t : TDesc) : Option Tier :=
  let lent := t.allowLent && (allocLent m t.granRec).isSome
  let cold := t.allowCold && (allocCold m (baysBut m.dev.tier none) t.granRec).isSome
  if cfgTierPlaceCfgLentfirst m.dev.base = 1 && lent then some .lent
  else if cold then some .cold else if lent then some .lent else none

/-- Where a record of a slot may be evicted to, if it is a victim the search may choose (R296, R297, R329). -/
def victimTo (m : Mod) (warm : Bool) (s : Slot) (loc : Nat) : Option (TDesc × Tier) :=
  if s.copy then none
  else match tdescAt m s.table with
    | none => none
    | some t =>
      let e := rowEnt m t.curVer.rowmap s.row
      let waiting := m.dev.tier.promote.any fun q => q.demand && decide (q.table = s.table) && decide (q.row = s.row)
      let staged := (m.dev.sow.stage.any fun g => decide (g.table = s.table) && decide (g.row = s.row))
        || m.dev.sow.grads.any fun g => g.applied.isNone && decide (g.table = s.table) && decide (g.row = s.row)
      if staged ∨ e.state ≠ 0 ∨ e.hotdir ∨ waiting ∨ s.version ≠ t.version then none
      else if !warm then some (t, .warm)
      else
        let age := (m.dev.base.applied - effTag t.curVer (m.load (64 * loc) 64)).toInt
        if !t.allowCold && !t.allowLent then none
        else if age < (cfgTierPlaceCfgColdage m.dev.base : Int) then none
        else (warmVictimTo m t).map fun x => (t, x)

/-- The first group of 64 slots with an eligible victim: the one with the lowest estimate, and where the hand stops. -/
def findVictim (m : Mod) (warm : Bool) : Nat → KMap Slot → Option (Slot × TDesc × Tier × Nat)
  | 0, _ => none
  | fuel + 1, l =>
    if l = [] then none
    else
      let g := l.take 64
      let ok := g.filterMap fun s => (victimTo m warm s.2 s.1).map fun x => (s.2, x.1, x.2)
      match minBy (fun x => estimate m.dev x.1.table x.1.row) ok with
      | some x => some (x.1, x.2.1, x.2.2, ((g.getLast?.map (·.1)).getD 0) + 1)
      | none => findVictim m warm fuel (l.drop 64)

/-- EVICTION (R296, R297, R301, R302): a pool below its low watermark starts to evict, and goes on until it reaches its high
one. A warm pool gives up its warm copies first; then the victim search starts one victim's move. Pools 0–3 are the dies',
4–7 the Iaquas'. -/
def execEviction (pool : Fin 8) (s : State) : Out :=
  onPlane s fun m =>
    let u : Nat := pool
    let warm := decide (4 ≤ u)
    let b := m.dev.base
    let low := if warm then cfgTierWmCfgWarmlow b else cfgTierWmCfgHotlow b
    let high := if warm then cfgTierWmCfgWarmhigh b else cfgTierWmCfgHothigh b
    let has := decide (0 < (poolSpan b m.dev.tier u).2)
    let run := has && (poolBelow b m.dev.tier u low || (m.dev.tier.evicting.contains u && poolBelow b m.dev.tier u high))
    let m := m.onDev fun d => d.onTier fun t => { t with
      evicting := if run then (if t.evicting.contains u then t.evicting else t.evicting ++ [u]) else t.evicting.filter (· ≠ u) }
    if !run || (heldPool m.dev).isSome then m
    else
      let slots := slotsIn m.dev.tier u
      if warm && slots.any (·.2.copy) then
        match m.dev.tier.slots.find? fun s => match s.2.warm with
            | some l => decide (locUnit l = u - 4)
            | none => false with
        | some s => dropCopy m s.1
        | none => m
      else
        let h := kget 0 m.dev.tier.hand u
        let ring := slots.filter (fun s => decide (h ≤ s.1)) ++ slots.filter (fun s => decide (s.1 < h))
        match findVictim m warm (ring.length / 64 + 1) ring with
        | none => m
        | some (s, t, target, h') =>
          startMove (m.onDev fun d => d.onTier fun k => { k with hand := kput k.hand u h' }) t s.row true target

/-- WARM_COPY_CLEAN (R300): outside any application window, the hot row with the lowest estimate whose warm copy is missing
or older than its home gets one, from its committed record. -/
def execWarmCopyClean (s : State) : Out :=
  onPlane s fun m =>
    if cfgTierMirrorCfgEn m.dev.base = 0 ∨ cfgTierMirrorCfgBudget m.dev.base = 0 ∨ m.dev.sow.app.isSome
        ∨ (heldPool m.dev).isSome then m
    else
      let hot := m.dev.tier.slots.filter fun s => !s.2.copy && (match daPlace (64 * s.1) with
        | .hot _ _ => true
        | _ => false)
      let due := hot.filter fun s => match s.2.warm with
        | none => true
        | some l => recTag (m.load (64 * l) 64) ≠ recTag (m.load (64 * s.1) 64)
      match minBy (fun s => estimate m.dev s.2.table s.2.row) due with
      | none => m
      | some (loc, s) =>
        let done := fun (m : Mod) (l : Nat) =>
          (m.store (64 * l) (m.load (64 * loc) (64 * s.gran))).onDev fun d => d.count cMirrorWrite (spineOf s.table s.row) 1
        match s.warm with
        | some l => done m l
        | none => match placeIn m true { s with copy := true, warm := none } with
          | some (l, m1) => done (m1.onDev fun d => d.modSlot loc fun x => { x with warm := some l }) l
          | none => m

/-- The first move that a row needs: a promotion queued for it, or out of a loan that is being revoked (R289, R295). -/
def wantedMove (m : Mod) (t : TDesc) (row : Nat) : Option Tier :=
  let e := rowEnt m t.curVer.rowmap row
  let b := m.dev.base
  match m.dev.tier.promote.find? fun q => q.table = t.id && q.row = row with
  | some q =>
    let target := if q.target = .hot && !q.demand
        && !(poolAbove b m.dev.tier (spineOf t.id row) (cfgTierWmCfgHothigh b)) then (if e.tier = .warm then Tier.absent else .warm)
      else q.target
    if target.rank ≤ e.tier.rank then none else some target
  | none =>
    if e.tier = .lent ∧ ((kfind m.dev.tier.windows (locUnit e.loc)).bind (·.deadline)).isSome then
      some (if warmShort b m.dev.tier then .cold else .warm)
    else none

/-- TIER_MOVE (R295, R304): a queued promotion, or a move out of a revoked loan, is started; a move that has its destination
reads its whole source, verifies FPRINT and writes the destination, header unchanged. -/
def execTierMove (table : Fin 4096) (row : BitVec 40) (s : State) : Out :=
  onPlane s fun m => match tdescAt m table with
    | none => m
    | some t =>
      let r := row.toNat
      let e := rowEnt m t.curVer.rowmap r
      if (heldPool m.dev).isSome then m else match moveOf m.dev table r with
      | some x =>
        if x.written then m
        else match x.dst with
          | none => m
          | some l => match (if e.near then verifyHome m t t.curVer r else some m) with
            | none => failMove m x false
            | some m1 =>
              let rd := recordOf m1 e t.granRec
              if !e.near && !recGood t rd then failMove m x false
              else
                (putRecord m1 x.target l ⟨t.id, r, t.version, t.granRec, false, none⟩ rd).onDev fun d => d.onTier fun k =>
                  { k with moves := k.moves.map fun y => if y = x then
                      { x with written := true, tag := recTag rd, fprint := BitVec.ofNat 32 (recFprint rd) } else y }
      | none =>
        if e.state ≠ 0 ∨ e.tier = .absent then m
        else match wantedMove m t r with
          | some target => startMove m t r (decide (e.tier = .lent) && decide (target = .cold)) target
          | none => m.onDev fun d => d.onTier fun k => { k with
              promote := k.promote.filter fun q => !(q.table = t.id && q.row = r && decide (q.target.rank ≤ e.tier.rank)) }

/-- What a switch counts, and the promotion that follows where requests waited for an eviction (Table 7.13, R319). -/
def Dev.afterSwitch (d : Dev) (x : Move) : Dev :=
  let sp := spineOf x.table x.row
  let d := d.count (if x.evict then cTierEvict else cTierPromote) sp 1
  let d := d.onTier fun k => { k with
    moves := k.moves.erase x
    promote := k.promote.filter fun q => !(q.table = x.table && q.row = x.row && decide (q.target.rank ≤ x.target.rank)) }
  if x.evict && x.waited then (d.queuePromote x.table x.row .warm true).count cRepromote sp 1 else d

/-- MOVE_SWITCH (R301, R304 to R307): outside an application window, the engine compares the source's STEPTAG and FPRINT
with those it read; a changed source voids the copy, and the move runs again from its read. Otherwise the row map names the
destination, and the source slot is freed or kept as a warm copy. -/
def execMoveSwitch (table : Fin 4096) (row : BitVec 40) (s : State) : Out :=
  onPlane s fun m => match tdescAt m table, moveOf m.dev table row.toNat with
    | some t, some x =>
      let r := row.toNat
      let map := t.curVer.rowmap
      let e := rowEnt m map r
      let pending := m.dev.sow.grads.any fun g => g.table = t.id && g.row = r && g.iaq.isSome && g.applied.isNone
      if m.dev.sow.app.isSome ∨ (heldPool m.dev).isSome ∨ (x.target = .hot ∧ e.tier = .warm ∧ pending = true) then m
      else match x.dst with
        | none =>
          match (kfind m.dev.tier.slots e.loc).bind (·.warm), fromCopy m t e with
          | some l, some _ =>
            let m1 := m.onDev fun d => (d.modSlot l fun y => { y with copy := false, warm := none }).modSlot e.loc fun y =>
              { y with warm := none }
            ((freeSlot m1 e.loc).putRow map r ⟨.warm, 0, e.hotdir, l⟩).onDev fun d => d.afterSwitch x
          | _, _ => (m.putRow map r { e with state := 0 }).onDev fun d =>
            (d.onTier fun k => { k with moves := k.moves.erase x }).count cMoveVoid (spineOf table r) 1
        | some l =>
          if !x.written then m
          else
            let h := recordOf m e 1
            if recTag h ≠ x.tag ∨ recFprint h ≠ x.fprint.toNat then
              m.onDev fun d => (d.onTier fun k => { k with
                moves := k.moves.map fun y => if y = x then { x with written := false } else y }).count cMoveVoid (spineOf table r) 1
            else
              let keep := decide (e.tier = .warm) && decide (x.target = .hot) && decide (cfgTierMirrorCfgEn m.dev.base = 1)
              let m1 := m.putRow map r ⟨x.target, 0, e.hotdir, l⟩
              let m2 := if keep then m1.onDev fun d => (d.modSlot e.loc fun y => { y with copy := true }).modSlot l fun y =>
                  { y with warm := some e.loc }
                else dropRecord m1 e.tier e.loc
              m2.onDev fun d => d.afterSwitch x
    | _, _ => m

/-! ## Loans this module borrows (R289, R290) -/

/-- A loan of a window is revoked with a deadline, in nanoseconds: EV_LOAN_REVOKE names the window and the deadline; from now on
the tier engine moves the loan's records out (R289). A loan that is being revoked keeps its deadline. -/
def Dev.revokeWindow (d : Dev) (window deadline : Nat) : Dev := match kfind d.tier.windows window with
  | none => d
  | some l =>
    if l.deadline.isSome then d
    else (d.onTier fun t => { t with windows := kput t.windows window { l with deadline := some deadline } }).raise evLoanRevoke
      { t := l.id, n := deadline } 0 window

/-- LOAN_REVOKE_RECEIVED (R289). -/
def execLoanRevokeReceived (window : Fin 16) (deadline : Word64) (s : State) : Out :=
  onPlaneDev s fun d => d.revokeWindow window deadline.toNat

/-- LENT_LIMIT_ENFORCE (R290): while a warm pool is below its low watermark, records go from a loan over the limit to cold
tier, while it has room, until the loan is within the limit. -/
def execLentLimitEnforce (window : Fin 16) (s : State) : Out :=
  onPlane s fun m => match kfind m.dev.tier.windows window with
    | none => m
    | some l =>
      if !warmShort m.dev.base m.dev.tier then m
      else (lentIn m.dev.tier window).foldl (fun m c =>
        if lentGrans m.dev.tier l.lender ≤ lentLimit m.dev.base m.dev.tier then m
        else match slotVer m c.2.slot with
          | some (t, v) => if t.allowCold then (relocate m t v c.2.slot.row .cold none).1 else m
          | none => m) m

/-! ## Rebuild (R311) -/

/-- TIER_REBUILD (R311): after a link reset without KEEP_HOT the row maps are rebuilt from the slot ledgers of the warm and
cold tiers; a row whose only record was in hot tier is listed as lost, and EV_TIER_REBUILT reports how many. -/
def execTierRebuild (s : State) : Out :=
  onPlane s fun m =>
    let isHot := fun (l : Nat) => match daPlace (64 * l) with
      | .hot _ _ => true
      | _ => false
    let hot := m.dev.tier.slots.filter fun s => isHot s.1
    let lostRows := (hot.filter fun s => !s.2.copy).map fun s => (s.2.table, s.2.row)
    let put := fun (m : Mod) (s : Slot) (tier : Tier) (loc : Nat) => match slotVer m s with
      | some (_, v) => m.putRow v.rowmap s.row ⟨tier, 0, false, loc⟩
      | none => m
    let warm := m.dev.tier.slots.filter fun s => !isHot s.1 && !s.2.copy
    let m := m.onDev fun d => d.onTier fun t => { t with
      slots := t.slots.filter fun s => !isHot s.1 && !s.2.copy
      moves := []
      lost := t.lost ++ lostRows.filter fun x => !(t.lost.contains x) }
    let m := warm.foldl (fun m s => put m s.2 .warm s.1) m
    let m := m.dev.tier.cold.foldl (fun m c => put m c.2.slot .cold c.1) m
    m.onDev fun d => d.raise evTierRebuilt { n := lostRows.length }

/-! ## Live recalibration (R312 to R314) -/

/-- MARGIN_SAMPLE (R312): the second sampler of a data pin measures its margins on error-free reads. -/
def execMarginSample (pin : Nat) (left right : Nat) (s : State) : Out :=
  onPlaneDev s fun d =>
    if cfgTierCalCfgEn d.base = 0 then d
    else d.onTier fun t => { t with pins := kput t.pins pin ⟨left, right, ((kfind t.pins pin).map (·.delay)).getD 0⟩ }

/-- DELAY_ADJUST (R313): margins that differ by 2 or more taps move the delay 1 tap toward the centre. -/
def execDelayAdjust (pin : Nat) (unit : MemUnit) (s : State) : Out :=
  onPlaneDev s fun d => match kfind d.tier.pins pin with
    | none => d
    | some p =>
      let inst : Nat := match unit with
        | .hbm st _ => st / 3
        | .ddr c => c / 4
      let go := fun (q : Pin) => (d.onTier fun t => { t with pins := kput t.pins pin q }).count cCalAdj inst 1
      if cfgTierCalCfgEn d.base = 0 then d
      else if p.left + 2 ≤ p.right then go ⟨p.left + 1, p.right - 1, p.delay + 1⟩
      else if p.right + 2 ≤ p.left then go ⟨p.left - 1, p.right + 1, p.delay - 1⟩
      else d

/-- MEM_MARGIN_LOW (R314): a pin whose margin, the smaller of its two offsets, is below MINMARGIN makes its unit a
candidate for sparing or fallow. -/
def execMemMarginLow (pin : Nat) (unit : MemUnit) (s : State) : Out :=
  onPlaneDev s fun d => match kfind d.tier.pins pin with
    | none => d
    | some p =>
      if cfgTierCalCfgMinmargin d.base ≤ min p.left p.right then d
      else match unit with
        | .hbm st pc => (d.modHpc st pc fun c => { c with candidate := true }).raise evMemMarginLow
            { n := 64 * st.val + pc.val } (st / 3)
        | .ddr ch => (d.modDdr ch fun c => { c with candidate := true }).raise evMemMarginLow { n := ch } (ch / 4)

/-! ## Evacuation and return (R315 to R318) -/

/-- An evacuation cannot complete: its descriptor ends with EVACUATE_INCOMPLETE, naming what remains (R315). -/
def Dev.evacStuck (d : Dev) (e : Evac) (left : Nat) : Dev :=
  let d := d.onTier fun t => { t with evacs := t.evacs.erase e }
  let d := if e.kind = 1 then d.modDdr e.unit fun c => { c with st := .inService }
    else if e.kind = 2 then d.modCart e.unit fun c => { c with st := .inService } else d
  match e.tag with
  | some id => d.endDesc id 0x23 [0, 0, left]
  | none => d

/-- Bytes of the records of some slots. -/
def slotBytes (l : List Slot) : Nat := sumNat (l.map fun s => 64 * s.gran)

/-- Evacuate a DIMM channel (R316, Table 7.15). -/
def evacDimm (m : Mod) (e : Evac) : Mod :=
  let q := e.unit / 4
  let new := m.dev.tier.warmBand q
  if new < warmSoft m.dev.base then m.onDev fun d => d.evacStuck e (warmSoft d.base - new)
  else
    let before := slotBytes (slotsBeyond m.dev.tier (4 + q) new)
    let x := emptyBand m (4 + q) new
    let rest := slotsBeyond x.1.dev.tier (4 + q) new
    if !x.2 ∨ rest ≠ [] then x.1.onDev fun d => d.evacStuck e (slotBytes rest)
    else
      let mv := fun (t : TierState) =>
        let t := { clearBand t (4 + q) new with backedCh := kput t.backedCh q (kget 0 t.backedCh q - 1) }
        let others := (List.range 4).filter fun c => (ddrOf t (4 * q + c)).st = .inService
        (extentsOn t q (e.unit % 4)).foldl (fun t x =>
          match minBy (fun c => (extentsOn t q c).length) others with
          | some c => moveExtent t q x c
          | none => t) t
      x.1.onDev fun d => ((d.onTier mv).modDdr e.unit fun c => { c with st := .fallowOff, candidate := false, ce := 0 }).evacDone e
        (before + 0x1000000 * (extentsOn d.tier q (e.unit % 4)).length)

/-- Evacuate a cartridge: its cold records to the other cartridges, and those that do not fit to warm tier; its cairns'
blocks to the other cartridges (R317). -/
def evacCart (m : Mod) (e : Evac) : Mod :=
  let l := (m.dev.tier.cold.filter fun c => coldBay c.1 = e.unit).map (·.2.slot)
  let stuck := m.dev.ms.cairns.filter fun c => c.bays.contains e.unit && (baysBut m.dev.tier (some e.unit)).isEmpty
  match stuck with
  | c :: _ => m.onDev fun d => d.evacStuck e (sumNat (c.rows.map fun r => r.2.length))
  | [] =>
    let x := relocateAll m l (some e.unit) fun _ => [.cold, .warm]
    if !x.2 then x.1.onDev fun d => d.evacStuck e (slotBytes ((d.tier.cold.filter fun c => coldBay c.1 = e.unit).map (·.2.slot)))
    else x.1.onDev fun d =>
      let dst := ((baysBut d.tier (some e.unit)).head?).getD 0
      ((d.onMs fun k => { k with cairns := k.cairns.map fun c => { c with bays := (c.bays.map fun b =>
          if b = e.unit then dst else b).eraseDups } }).modCart e.unit fun c => { c with st := .fallowOff }).evacDone e (slotBytes l)

/-- Evacuate a loan: its records to warm tier, or to cold tier while a warm pool is short (R289, Table 7.15). -/
def evacLoan (m : Mod) (e : Evac) : Mod :=
  let l := (lentIn m.dev.tier e.unit).map (·.2.slot)
  let x := relocateAll m l none fun _ => if warmShort m.dev.base m.dev.tier then [.cold, .warm] else [.warm, .cold]
  if !x.2 then x.1.onDev fun d => d.evacStuck e (slotBytes ((lentIn d.tier e.unit).map (·.2.slot)))
  else x.1.onDev fun d => (d.returnLoan e.unit).evacDone e (slotBytes l)

/-- Evacuate a pseudo-channel: to a spare of its stack; with none, by the re-form of R269, which HBM_DIE_REFORM runs and which
ends the evacuation. Where the die cannot shrink the evacuation cannot complete, and a re-form begun for it stops. -/
def evacHbm (m : Mod) (e : Evac) : Mod :=
  let stack := e.unit / 64
  let pc := e.unit % 64
  let die := stack / 3
  if !(stackMap m.dev.tier stack).contains pc then m.onDev fun d => d.evacDone e 0
  else match stackSpare m.dev.tier stack with
    | some sp => m.onDev fun d => (spareHpc d stack pc sp).evacDone e 0x48000000
    | none =>
      let size := reformSize m.dev.tier die
      if m.dev.tier.dieP die ≤ 3 ∨ size < hotSoft m.dev.base ∨ !(emptyBand m die size).2 then
        m.onDev fun d => (d.onTier fun t => { t with reform := kdel t.reform die }).evacStuck e 0x48000000
      else m

/-- Table 7.15's kinds: 0 pseudo-channel, 1 DIMM channel, 2 cartridge, 3 loan; and the unit's number. -/
def evacKind : EvacUnit → Nat × Nat
  | .hbm pc => (0, pc)
  | .dimm c => (1, c)
  | .cart b => (2, b)
  | .loan w => (3, w)

/-- EVACUATION_COMPLETE (R315 to R317): the unit's content is moved as Table 7.15 gives, and the unit goes fallow; or the
evacuation ends with an error status and the unit stays in service. -/
def execEvacuationComplete (unit : EvacUnit) (s : State) : Out :=
  onPlane s fun m => match m.dev.tier.evacs.find? fun e => (e.kind, e.unit) = evacKind unit with
    | none => m
    | some e => match unit with
      | .hbm _ => evacHbm m e
      | .dimm _ => evacDimm m e
      | .cart _ => evacCart m e
      | .loan _ => evacLoan m e

/-- A channel's capacity is added: the backed range grows, and its new extents lie on it (R18, R318). -/
def addChannel (t : TierState) (ch : Nat) : TierState :=
  let q := ch / 4
  let from_ := extentCount t q
  let t := { t with backedCh := kput t.backedCh q (kget 0 t.backedCh q + 1) }
  (List.range (t.capCh * 64)).foldl (fun t k =>
    { t with extents := kput t.extents (q * 2 ^ 20 + from_ + k) (ch % 4 * 2 ^ 20 + k) }) t

end Sys2Proof.Machine
end

