-- ==== Sys2Proof/Machine/Sow.lean ====
section
/-!
DEFINITION. Sowing, the close of the gradient stages, the application of a milestone and the recovery of writers
(08_sowing_and_update, 09_training_step_and_milestones R375 to R377).
-/

namespace Sys2Proof.Machine

/-! ## The step record (R375, Table 9.5) -/

/-- DA of the step record of step n. -/
def stepRecDa (b : BaseState) (n : Word32) : Nat := cfgFabMsBaseBase b * 2 ^ 14 + 256 * (n.toNat % 64)

/-- A byte of a step record. -/
def stepRecByte (m : Mod) (n : Word32) (o : Nat) : Nat := m.loadNat (stepRecDa m.dev.base n + o) 1

/-- Write bytes of a step record. -/
def Mod.putStepRec (m : Mod) (n : Word32) (o : Nat) (bs : List Byte) : Mod := m.store (stepRecDa m.dev.base n + o) bs

/-- The step record of an attempt that becomes STAGED (R375): CAUSE is kept, or NONE for attempt 0. -/
def stageStepRec (m : Mod) (n : Word32) (attempt : Nat) : Mod :=
  let cause := if attempt = 0 then 0 else stepRecByte m n 7
  m.putStepRec n 0 (leBytes 4 n.toNat ++ leBytes 1 attempt ++ leBytes 1 0 ++ leBytes 1 0 ++ leBytes 1 cause ++ zeros 248)

/-! ## Steps (R384) -/

/-- The step with a number. -/
def stepInfo (d : Dev) (n : Word32) : Option StepInfo := d.ms.steps.find? fun x => x.step = n

/-- The attempt of a step that runs, or would run next. -/
def attemptOf (d : Dev) (n : Word32) : Nat := match stepInfo d n with
  | some x => if x.st = .aborted then x.attempt + 1 else x.attempt
  | none => 0

/-- The attempt of a step becomes STAGED and its step record is rewritten (R375, R384). -/
def stageStep (m : Mod) (n : Word32) : Mod :=
  match stepInfo m.dev n with
  | some x =>
    if x.st ≠ .aborted then m
    else stageStepRec (m.onDev fun d => d.onMs fun s => { s with
      steps := s.steps.map fun y => if y.step = n then ⟨n, y.attempt + 1, .staged, none, y.last⟩ else y }) n (x.attempt + 1)
  | none => stageStepRec (m.onDev fun d => d.onMs fun s => { s with steps := s.steps ++ [⟨n, 0, .staged, none, 0⟩] }) n 0

/-- A step whose blocks have all ended without any gather is STAGED by the start of its application (DEDUCED, log 23). -/
def stageIfDone (m : Mod) (n : Word32) : Mod :=
  if m.dev.ms.cur = some n ∧ m.dev.work.left = 0 ∧ m.dev.work.step = n ∧ !(m.dev.ms.steps.any fun x => x.step = n && x.st = .staged)
  then stageStep m n else m

/-! ## The gradient stage (R320 to R327) -/

/-- Bytes of an entry (R327). -/
def StageEntry.bytes (e : StageEntry) : Nat := 16 + 16 * e.elems.length

/-- Bytes a spine's stage holds. -/
def stageUsed (d : Dev) (spine : Nat) : Nat :=
  sumNat ((d.sow.stage.filter fun e => spineOf e.table e.row = spine).map StageEntry.bytes)

/-- x / 2^k truncated toward zero, and whether anything was dropped (R144). -/
def shiftTrunc (x : Int) (k : Nat) : Int × Bool :=
  let q := x.natAbs / 2 ^ k
  (if x < 0 then -(q : Int) else q, decide (x.natAbs % 2 ^ k ≠ 0))

/-- Raise the anchor of an entry to γ' : every element is shifted right; how many lost a bit (R324). -/
def StageEntry.raise (e : StageEntry) (g' : Int) : StageEntry × Nat :=
  match e.anchor with
  | none => (e, 0)
  | some g =>
    let sh := e.elems.map fun w => (w, shiftTrunc w.x (g' - g).toNat)
    let n := (sh.filter fun x => x.2.2).length
    ({ e with anchor := some g', elems := sh.map fun x => { x.1 with x := x.2.1 }, inexact := e.inexact || decide (0 < n) }, n)

/-- Raise an entry's anchor for a term or sum whose floor(log2) is `l`, where it reaches 2^(γ + 23) (R324). -/
def StageEntry.fit (e : StageEntry) (l : Int) : StageEntry × Nat :=
  match e.anchor with
  | none => (e, 0)
  | some g => if g + 23 ≤ l then e.raise (max (g + 1) (l - 15)) else (e, 0)

/-- A contribution element enters column `c` of an entry; how many terms lost a bit (R324). -/
def StageEntry.add (e : StageEntry) (c : Nat) (t : Num) : StageEntry × Nat :=
  let put := fun (e : StageEntry) (f : Wide → Wide) => { e with elems := modNth e.elems c f }
  match t with
  | .fin _ k x =>
    if k = 0 then (put e fun w => w.flag t, 0)
    else
      let l := floorLog2 k x
      let e := match e.anchor with
        | some _ => e
        | none => { e with anchor := some (l + 8) }
      let r1 := e.fit l
      let q := (r1.1.anchor.getD 0) - 96
      let lost := (gridInt t q).2
      let e2 := put r1.1 fun w => w.add q t
      let sum := (nth Wide.zero e2.elems c).x
      let r2 := if sum = 0 then (e2, 0) else e2.fit ((Nat.log2 sum.natAbs : Int) + q)
      ({ r2.1 with inexact := r2.1.inexact || lost }, r1.2 + r2.2 + b2n lost)
  | t => (put e fun w => w.flag t, 0)

/-- Two entries of a row put together on the larger anchor (R326). -/
def StageEntry.join (a b : StageEntry) : StageEntry × Nat :=
  match a.anchor, b.anchor with
  | some x, some y =>
    let g := max x y
    let ra := if x < g then a.raise g else (a, 0)
    let rb := if y < g then b.raise g else (b, 0)
    let sums := (ra.1.elems.zip rb.1.elems).map fun p => p.1.join p.2
    let e : StageEntry := { ra.1 with elems := sums, inexact := ra.1.inexact || rb.1.inexact }
    let top := sums.foldl (fun n w => max n w.x.natAbs) 0
    let rt := if top = 0 then (e, 0) else e.fit ((Nat.log2 top : Int) + g - 96)
    (rt.1, ra.2 + rb.2 + rt.2)
  | none, _ => ({ b with elems := (a.elems.zip b.elems).map fun p => p.1.join p.2, inexact := a.inexact || b.inexact }, 0)
  | _, none => ({ a with elems := (a.elems.zip b.elems).map fun p => p.1.join p.2, inexact := a.inexact || b.inexact }, 0)

/-- One contribution of W elements to a row: it enters the row's entry, a new one if there is room, or is dropped
(R323, R327). -/
def contribute (d : Dev) (step : Word32) (table row : Nat) (g : List Num) : Dev :=
  let isE := fun (e : StageEntry) => decide (e.table = table) && decide (e.row = row)
  let sp := spineOf table row
  let addAll := fun (e : StageEntry) => (g.zipIdx).foldl (fun (acc : StageEntry × Nat) x =>
    let r := acc.1.add x.2 x.1
    (r.1, acc.2 + r.2)) (e, 0)
  let cnt := fun (d : Dev) (n : Nat) => if n = 0 then d else d.count cSowInexact sp n
  match d.sow.stage.find? isE with
  | some e =>
    let r := addAll e
    cnt (d.onSow fun s => { s with stage := s.stage.map fun y => if isE y then r.1 else y }) r.2
  | none =>
    let e : StageEntry := ⟨table, row, none, List.replicate g.length Wide.zero, false⟩
    if cfgTierSowCfgStage d.base * giB < stageUsed d sp + e.bytes then
      (d.raise evSowStageFull { hasS := true, s := step.toNat }).failStep step 4
    else
      let r := addAll e
      cnt (d.onSow fun s => { s with stage := s.stage ++ [r.1] }) r.2

/-- Run the SOW at the head of a DMA queue (R320 to R322). -/
def runSow (m : Mod) (inst : Nat) (e : Exec) : Except FaultKind Mod :=
  let count := ctrlBits e.record 15 0 + 1
  let da := (opdBase e.record 2 e.index).toNat
  match tdescByDa m da with
  | none => .error (.tdesc 0 ((da - tdescDa m.dev.base 0) / 256 % 4096))
  | some (_, t) =>
    if t.kind = 1 then .error (.tdesc 0 t.id)
    else
      let f := (recOpd e.record 0).format
      let eb := f.bits / 8
      let pitch := alignUp 64 (t.width * eb)
      match readOpd m inst e 1 0 (8 * count), readOpd m inst e 0 0 ((count - 1) * pitch + t.width * eb) with
      | .error f, _ => .error f
      | _, .error f => .error f
      | .ok idx, .ok data =>
        let ext := (t.verAt (e.step - 1)).extent
        .ok (m.onDev fun d => (List.range count).foldl (fun d j =>
          let w := fieldAt idx (8 * j) 8
          let row := bitsOf w 39 0
          if bitsOf w 63 40 ≠ 0 ∨ ext ≤ row then
            (d.count cSowBadIndex (instDie inst) 1).raise evSowBadIndex { row := row, table := t.id } (instDie inst)
              (unitOf d.base inst)
          else contribute d e.step t.id row ((List.range t.width).map fun c =>
            f.decode (fieldAt data (j * pitch + c * eb) eb))) d)

/-- SOW (R320 to R324, R327): the execution at the head of the plot DMA's queue delivers its contributions, and completes
when the stage has accepted every one. -/
def execSow (plot : Fin 4352) (obs : Obs) (s : State) : Out :=
  onPlane s fun m => match (m.dev.plot plot).dmaQ.head? with
    | none => m
    | some e =>
      if recOpc e.record ≠ 11 then m
      else
        let m0 := m
        let m := if obs.ce = 0 then m else m.onDev fun d => d.count cPlotSramCe plot obs.ce
        match runSow m plot e with
        | .error (.remoteWait da n) => m0.onDev fun d => d.askRemote (.unit plot e.fid e.index) da n
        | .error f => m.onDev fun d => faultExec d plot .dma e f
        | .ok m1 => m1.onDev fun d => finishExec d plot .dma e [0, 0, 0, 0, 0, 0] .none

/-! ## The close of the stages (R325, R326, R329, R376) -/

/-- The engine that writes a row: 0–3 the dies', 4–7 the Iaquas' (R298, R329); none for a lent or cold row. -/
def rowEngine (m : Mod) (t : TDesc) (v : TabVer) (row : Nat) : Option Nat :=
  let e := rowEnt m v.rowmap row
  match e.tier with
  | .hot => some (locUnit e.loc)
  | .warm => some (4 + locUnit e.loc)
  | .absent =>
    match placeUnit m.dev.base m.dev.tier t.newWarm t.id row with
    | some u => some u
    | none => some ((placeUnit m.dev.base m.dev.tier (!t.newWarm) t.id row).getD (spineOf t.id row + if t.newWarm then 4 else 0))
  | _ => none

/-- An entry as it reads: one FP32 value for each column, rounded once (R325). -/
def StageEntry.round (e : StageEntry) : List Word32 :=
  e.elems.map fun w => BitVec.ofNat 32 (toF32 (w.read ((e.anchor.getD 0) - 96)))

/-- Exact Σg² of some rounded gradients, as a wide reduction line (R376, Table 5.5). -/
def squareLine (gs : List (List Word32)) : List Byte :=
  wideLineBytes ((gs.flatten).foldl (fun w x =>
    let v := ofF32 x.toNat
    w.add redGrid (v.mul v)) Wide.zero)

/-- Raise an event once for each table and step (R325, R336). -/
def Dev.sayOnce (d : Dev) (ev : Nat × Nat) (table row : Nat) (step : Word32) : Dev :=
  if (ev.1, table, step) ∈ d.sow.said then d
  else (d.onSow fun s => { s with said := s.said ++ [(ev.1, table, step)] }).raise ev
    { hasS := true, s := step.toNat, row := row, table := table }

/-- Tables of the module that are replicated and created. -/
def replicated (m : Mod) (table : Nat) : Bool := match tdescAt m table with
  | some t => t.repl
  | none => false

/-- Hold the gradient of a warm row in its Iaqua's region; with no room the step cannot commit and its warm gradients are
dropped (R329, R362). -/
def holdWarm (d : Dev) (g : Grad) (q : Nat) : Dev :=
  match roomFor d (4 + q) g.grans with
  | some (_, d) => d.onSow fun s => { s with grads := s.grads ++ [g] }
  | none =>
    let d := ((d.endLive).raise evJournalFull { hasS := true, s := g.step.toNat }).failStep g.step 5
    d.onSow fun s => { s with grads := s.grads.filter fun x => !(x.step = g.step && x.iaq.isSome) }

/-- Hold one rounded gradient where its row's engine is. -/
def holdGrad (m : Mod) (step : Word32) (e : StageEntry) : Mod :=
  match tdescAt m e.table with
  | none => m
  | some t =>
    let g := e.round
    let m := if e.inexact then m.onDev fun d => d.sayOnce evSowInexact e.table e.row step else m
    match rowEngine m t (t.gradVer step) e.row with
    | some u =>
      if u < 4 then m.onDev fun d => d.onSow fun s => { s with grads := s.grads ++ [⟨step, e.table, e.row, g, none, none⟩] }
      else m.onDev fun d => holdWarm d ⟨step, e.table, e.row, g, some (u - 4), none⟩ (u - 4)
    | none => m

/-- GRADIENT_STAGE_CLOSE (R325, R326, R329, R376): every entry of the step is rounded to its row's gradient and goes by the
tier its row holds; the exact sums of squares enter the step record. Rows in lent or cold tier are promoted first (R253), and
replicated rows wait for the sums of the job's modules. -/
def execGradientStageClose (step : Word32) (s : State) : Out :=
  onPlane s fun m =>
    let entries :=
      if cfgFabMsCfgNmod m.dev.base = 0 then some m.dev.sow.stage
      else match m.dev.sow.replIn with
        | some l => some ((m.dev.sow.stage.filter fun e => !replicated m e.table) ++ l)
        | none => if (List.range 4096).any (replicated m) then none else some m.dev.sow.stage
    match entries with
    | none => m
    | some entries =>
      if m.dev.ms.cur ≠ some step ∨ m.dev.sow.closed = some step then m
      else
        let far := entries.filter fun e => match tdescAt m e.table with
          | some t => (rowEngine m t (t.gradVer step) e.row).isNone
          | none => false
        if far ≠ [] then m.onDev fun d => far.foldl (fun d e => d.queuePromote e.table e.row .warm true) d
        else
          let sparse := (entries.filter fun e => !replicated m e.table).map StageEntry.round
          let repl := (entries.filter fun e => replicated m e.table).map StageEntry.round
          let m := entries.foldl (fun m e => holdGrad m step e) m
          let m := m.putStepRec step 24 (squareLine sparse ++ squareLine repl)
          let m := m.putStepRec step 6 (leBytes 1 (withBits (stepRecByte m step 6) 0 0 1))
          m.onDev fun d => d.onSow fun x => { x with stage := [], closed := some step, replIn := none }

/-! ## The start of an application (R340 to R342, R355, R377) -/

/-- DA of the group area. -/
def groupArea (b : BaseState) : Nat := cfgTierGrpBaseBase b * 2 ^ 16

/-- Read SELWORD, and copy and validate the bank it names where that is not the one in use (R341). -/
def chooseBank (m : Mod) (step : Word32) : Mod :=
  let a := groupArea m.dev.base
  let sel := m.loadNat a 4 % 2
  let changed := m.dev.sow.lastSel ≠ some sel
  let m := m.onDev fun d => d.onSow fun s => { s with lastSel := some sel, bankSaid := if changed then false else s.bankSaid }
  if (m.dev.sow.bank.map (·.sel)) = some sel then m
  else
    let from_ := a + 0x10000 + bankBytes * sel
    let data := (m.mem.filter fun c => decide (from_ ≤ c.1) && decide (c.1 < from_ + bankBytes)).map fun c => (c.1 - from_, c.2)
    let crc := m.loadNat (a + 4 + 4 * sel) 4
    if bankOk data crc then m.onDev fun d => d.onSow fun s => { s with bank := some ⟨sel, data, crc⟩, bankSaid := false }
    else if m.dev.sow.bankSaid then m
    else m.onDev fun d => (d.onSow fun s => { s with bankSaid := true }).raise evGroupBankInvalid
      { hasS := true, s := step.toNat, n := sel }

/-- The step that runs may be applied: it is STAGED, nothing of it applied yet, and GATE is set where CLIPGATE asks (R377). -/
def mayApply (m : Mod) (step : Word32) : Bool :=
  decide (m.dev.ms.cur = some step) && decide (m.dev.sow.app = none)
    && (m.dev.ms.steps.any fun x => decide (x.step = step) && decide (x.st = .staged))
    && (decide (cfgFabMsCfgClipgate m.dev.base = 0) || bitOf (stepRecByte m step 6) 1)

/-- MILESTONE_APPLICATION_START (R341, R355, R377). -/
def execMilestoneApplicationStart (step : Word32) (s : State) : Out :=
  onPlane s fun m0 =>
    let m := stageIfDone m0 step
    if !mayApply m step then m0
    else
      let m := if m.dev.sow.noArea then m else chooseBank m step
      let m := (openMilestone m step).1
      m.onDev fun d => d.onSow fun x => { x with app := some step, done := [] }

/-! ## The updates (R329 to R336, R348 to R351, R356, R367) -/

/-- A milestone's update is sampled for checking (R414). -/
def updSampled (d : Dev) (table row : Nat) (step : Word32) : Bool :=
  match fracK d.base with
  | some k => decide (cfgChkCfgUpdchk d.base = 1) && decide ((crc32c (leBytes 8 (rowKey table row)) / 65536 + step.toNat) % k = 0)
  | none => false

/-- A row has been written at a milestone: the sample it may make for checking (R414), and the engine's work (R415). -/
def noteUpdate (m : Mod) (t : TDesc) (v : TabVer) (row eng : Nat) (step : Word32) : Mod :=
  let e := rowEnt m v.rowmap row
  let r := recordOf m e t.granRec
  m.onDev fun d => d.onChk fun c => { c with
    upds := if updSampled d t.id row step then
        c.upds.filter (fun u => !(u.table = t.id && u.row = row && u.step = step)) ++ [⟨eng, step, t.id, row, r, none⟩]
      else c.upds
    engines := kmod EngineHealth.reset c.engines eng fun h =>
      if step ∈ h.worked then h else { h with worked := h.worked ++ [step] } }

/-- A gradient has been used at a milestone. -/
def Dev.useGrad (d : Dev) (g : Grad) (step : Word32) : Dev :=
  d.onSow fun s => { s with grads := s.grads.map fun x => if x = g then { g with applied := some step } else x }

/-- Idle steps of a record before milestone `step` (R350). -/
def idleSteps (v : TabVer) (r : List Byte) (step : Word32) : Nat := ((step - effTag v r).toInt - 1).toNat

/-- Apply one gradient to its row at a milestone (R332 to R336, R348, R350, R356). -/
def applyGrad (m : Mod) (t : TDesc) (row eng : Nat) (step : Word32) (g : Grad) (torn : Option Nat) : Mod :=
  let v := t.gradVer g.step
  let e := rowEnt m v.rowmap row
  let frozen := t.freeze || (e.near && recFrozen (recordOf m e 1)) || m.dev.sow.bank.isNone
  if frozen then m.onDev fun d => (d.useGrad g step).count cFrozenSkip eng 1
  else
    let gn := groupNum m t row
    let grp := groupOf ((m.dev.sow.bank.map (·.data)).getD []) gn
    if grp.mode ≠ 2 ∧ grp.nanpol = false ∧ nonFinite g.g = true then
      m.onDev fun d => ((d.useGrad g step).count cUpdNonfinite eng 1).raise evGradNonfinite
        { hasS := true, s := g.step.toNat, row := row, table := t.id }
    else match verifyHome m t v row with
      | none => m.onDev fun d => (d.useGrad g step).failStep step 2
      | some m =>
        let m := if shapeMismatch t grp g.step then m.onDev fun d => d.sayOnce evGroupShapeMismatch t.id row step else m
        let old := if e.near then recordOf m e t.granRec else absentRecord t v.version
        let idle := if e.near then idleSteps v old step else 0
        let pay := updatePayload t grp g.step row idle g.g (recPayload t old)
        match writeRow m ⟨t, v, row, step, g.step, jkUpdate, false, false, gn, pay, (g.g.map fun x => leBytes 4 x.toNat).flatten⟩
            torn with
        | .ok m => noteUpdate (m.onDev fun d => d.useGrad g step) t v row eng step
        | .error (_, m) => m.onDev fun d => d.useGrad g step

/-- Bytes of a block format with a slice of its columns replaced: elements and scales (R113, R366). -/
def overlay (bits cols : Nat) (old : List Byte) (col n : Nat) (new : List Byte × List Byte) (mx : Bool) : List Byte :=
  let l := putBytes old (col * bits / 8) (new.1.take (n * bits / 8))
  if mx then putBytes l (packedBytes bits cols + col / 32) (new.2.take (n / 32)) else l

/-- The payload of a row with the columns of an import written into it (R366). -/
def importPayload (t : TDesc) (i : ImportRow) (old : List Byte) : List Byte :=
  let w := overlay t.format.bits t.width (old.take t.pw) i.col i.cols i.w t.format.isMx
  let zero := fun (f : Fmt) =>
    let z := encodeMoment f (List.replicate i.cols Num.zero)
    (z.take i.cols, z.drop i.cols)
  let o1 := t.pw
  let m := if t.hasM then overlay 8 t.width ((old.drop o1).take t.pmOne) i.col i.cols (if i.moments then i.m else zero .e4m3) true else []
  let o2 := o1 + m.length
  let v := if t.hasV then overlay 8 t.width ((old.drop o2).take t.pmOne) i.col i.cols (if i.moments then i.v else zero .e5m2) true else []
  let rv := if t.hasRv then (match i.rv16 with
      | some x => leBytes 2 x
      | none => (old.drop o2).take 2) else []
  w ++ m ++ v ++ rv

/-- An import's write of FROZEN alone: STEPTAG and payloads stay (R349). -/
def writeFrozen (m : Mod) (t : TDesc) (row eng : Nat) (step : Word32) (frozen : Bool) : Mod :=
  let v := t.curVer
  let e := rowEnt m v.rowmap row
  if e.tier = .absent then
    match placeFirst m t ⟨t.id, row, v.version, t.granRec, false, none⟩ with
    | none => m.onDev fun d => (d.raise evTierFull { hasS := true, s := step.toNat, row := row, table := t.id }).failStep step 3
    | some (tier, loc, m1) =>
      let nr := mkRecord t 0 v.version (b2n frozen) noLink (zeros (t.pw + t.pm))
      let m1 := m1.onDev fun d => d.cowCopy t.id row none
      match appendEntry m1 (regionOfLoc tier loc) ⟨step, step, t.id, row, 64 * loc, v.version, jkImport, false,
          groupNum m t row, none, nr⟩ with
      | .error m2 => ({ m with dev := { m2.dev with tier := m.dev.tier } } : Mod).onDev fun d => d.failStep step 5
      | .ok (_, m2) => noteUpdate ((m2.store (64 * loc) nr).putRow v.rowmap row ⟨tier, 0, e.hotdir, loc⟩) t v row eng step
  else if !e.near then m
  else
    let old := recordOf m e t.granRec
    let nr := mkRecord t (recTag old) v.version (withBits (recFlags old % 8) 0 0 (b2n frozen)) (recPrev old) (recPayload t old)
    let m := m.onDev fun d => d.cowCopy t.id row (some old)
    match appendEntry m (regionOfLoc e.tier e.loc) ⟨step, step, t.id, row, 64 * e.loc, v.version, jkImport, false,
        groupNum m t row, some old, nr⟩ with
    | .error m => m.onDev fun d => d.failStep step 5
    | .ok (_, m) => noteUpdate ((m.store (64 * e.loc) nr).writeReplicas t row nr) t v row eng step

/-- Apply one import to its row (R349, R366, R367). -/
def applyImport (m : Mod) (t : TDesc) (row eng : Nat) (step : Word32) (i : ImportRow) (torn : Option Nat) : Mod :=
  let use := fun (m : Mod) => m.onDev fun d => d.onSow fun s => { s with
    imports := s.imports.map fun x => if x = i then { i with applied := some step } else x }
  if i.flagsOnly then use (writeFrozen m t row eng step i.frozen)
  else
    let v := t.curVer
    let e := rowEnt m v.rowmap row
    let old := if e.near then recPayload t (recordOf m e t.granRec) else zeros (t.pw + t.pm)
    match writeRow m ⟨t, v, row, step, step, jkImport, false, i.frozen, groupNum m t row, importPayload t i old, []⟩ torn with
    | .ok m => noteUpdate (use m) t v row eng step
    | .error (_, m) => use m

/-- Rewrite a record whose tag has grown old (R351). -/
def applyRefresh (m : Mod) (t : TDesc) (row eng : Nat) (step : Word32) (torn : Option Nat) : Mod :=
  let v := t.curVer
  let e := rowEnt m v.rowmap row
  let m := m.onDev fun d => d.onTier fun x => { x with refresh := x.refresh.filter fun y => y ≠ (t.id, row) }
  if !e.near then m
  else match verifyHome m t v row with
    | none => m.onDev fun d => d.failStep step 2
    | some m =>
      let old := recordOf m e t.granRec
      if recTag old = step then m
      else
        let gn := groupNum m t row
        let frozen := t.freeze || recFrozen old
        let p := recPayload t old
        let pay := match m.dev.sow.bank with
          | some b => if frozen then p else refreshPayload t (groupOf b.data gn) step row (idleSteps v old step) p
          | none => p
        match writeRow m ⟨t, v, row, step, step, jkRefresh, false, recFrozen old, gn, pay, []⟩ torn with
        | .ok m => m.onDev fun d => d.count cTagRefresh eng 1
        | .error (_, m) => m

/-- A gradient that milestone `step` applies: of that step for a hot row, of step n − D or older for a warm one, of any step
for a row being promoted (R307, R330). -/
def gradDue (d : Dev) (t : TDesc) (step : Word32) (g : Grad) : Bool :=
  g.applied.isNone && (match g.iaq with
    | none => decide (g.step = step)
    | some _ => !stepNewer g.step (step - BitVec.ofNat 32 t.stale)
        || (match moveOf d g.table g.row with
          | some x => !x.evict && decide (x.target = .hot)
          | none => false))

/-- An update belongs to the version it is applied to: the previous one (`prev`), or the current one (R223). -/
def gradOf (t : TDesc) (prev : Bool) (g : Grad) : Bool := decide (t.gradVer g.step = t.prevVer ∧ t.prevValid) == prev

/-- Gradients of a row of a version that a milestone applies, in step order. -/
def rowGrads (d : Dev) (t : TDesc) (prev : Bool) (row : Nat) (step : Word32) : List Grad :=
  sortBy (fun g => (g.step - step + 0x80000000).toNat)
    (d.sow.grads.filter fun g => decide (g.table = t.id) && decide (g.row = row) && gradOf t prev g && gradDue d t step g)

/-- A row's mark among those an engine has done. -/
def doneKey (eng : Nat) (prev : Bool) (table row : Nat) : Nat := (2 * eng + b2n prev) * 2 ^ 52 + rowKey table row

/-- A row waits for the close of the step's stage: it is hot, its table has D = 0, it is being promoted, or something else
is written into it at this milestone (R330, R367). -/
def needsClose (d : Dev) (t : TDesc) (row eng : Nat) : Bool :=
  decide (eng < 4) || decide (t.stale = 0) || (moveOf d t.id row).isSome
    || (d.sow.imports.any fun i => i.applied.isNone && decide (i.table = t.id) && decide (i.row = row))
    || d.tier.refresh.contains (t.id, row)

/-- Rows, each of the previous version or not, that an engine is still to write at a milestone and may write now. -/
def dueRows (m : Mod) (step : Word32) (eng : Nat) (all : Bool) : List (TDesc × Bool × Nat) :=
  let d := m.dev
  let keys := ((d.sow.grads.filter fun g => g.applied.isNone).map fun g => (g.table, g.row))
    ++ ((d.sow.imports.filter fun i => i.applied.isNone).map fun i => (i.table, i.row)) ++ d.tier.refresh
  (keys.eraseDups.flatMap fun k => [(k, true), (k, false)]).filterMap fun x => match tdescAt m x.1.1 with
    | none => none
    | some t =>
      let k := x.1
      let prev := x.2
      let other := (d.sow.imports.any fun i => i.applied.isNone && decide (i.table = k.1) && decide (i.row = k.2))
        || d.tier.refresh.contains k
      let due := rowGrads d t prev k.2 step != [] || (!prev && other)
      let ready := all || decide (d.sow.closed = some step) || !needsClose d t k.2 eng
      let v := if prev then t.prevVer else t.curVer
      if due && ready && rowEngine m t v k.2 == some eng && !d.sow.done.contains (doneKey eng prev k.1 k.2) then
        some (t, prev, k.2) else none

/-- Every update of a milestone has been applied (R330, R379). -/
def allApplied (m : Mod) (step : Word32) : Bool :=
  decide (m.dev.sow.app = some step) && decide (m.dev.sow.closed = some step)
    && (List.range 8).all fun eng => (dueRows m step eng true).isEmpty

/-- Write one row at a milestone: its gradients in step order, then its imports, then a refresh. -/
def applyRow (m : Mod) (t : TDesc) (prev : Bool) (row eng : Nat) (step : Word32) (torn : Option Nat) : Mod :=
  let m := (rowGrads m.dev t prev row step).foldl (fun m g => applyGrad m t row eng step g torn) m
  let m := if prev then m else
    (m.dev.sow.imports.filter fun i => i.applied.isNone && decide (i.table = t.id) && decide (i.row = row)).foldl
      (fun m i => applyImport m t row eng step i torn) m
  let m := if !prev && m.dev.tier.refresh.contains (t.id, row) then applyRefresh m t row eng step torn else m
  m.onDev fun d => d.onSow fun s => { s with done := s.done ++ [doneKey eng prev t.id row] }

/-- An engine writes the next `rows` rows of a milestone; `torn` cuts off the last of them. An engine whose domain is being cycled
waits (R431). -/
def applyRows (m : Mod) (eng rows : Nat) (torn : Option Nat) : Mod :=
  if heldPool m.dev = some eng then m else match m.dev.sow.app with
  | none => m
  | some step =>
    let l := (dueRows m step eng false).take rows
    (l.zipIdx).foldl (fun m x => applyRow m x.1.1 x.1.2.1 x.1.2.2 eng step (if x.2 + 1 = l.length then torn else none)) m

/-- HOT_UPDATE_APPLY (R330 to R336, R348 to R351, R356): the sow engine of a die writes the next `rows` rows of the
milestone; `torn`: power of the engine goes after so many granules of the last one. -/
def execHotUpdateApply (die : Fin 4) (rows : Nat) (torn : Option Nat) (s : State) : Out :=
  onPlane s fun m => applyRows m die rows torn

/-- IAQUA_UPDATE_APPLY (R330, R307): an Iaqua writes the next `rows` warm rows of the milestone. -/
def execIaquaUpdateApply (iaqua : Fin 4) (rows : Nat) (torn : Option Nat) (s : State) : Out :=
  onPlane s fun m => applyRows m (4 + iaqua) rows torn

/-! ## Recovery of a writer (R218, R360) -/

/-- Recover the entries of a region: a home that fails FPRINT takes its entry's old record, or the payload of a PENDING
entry; an entry whose ECRC fails is discarded. -/
def recoverRegion (m : Mod) (r : Nat) (step : Option Word32) : Mod :=
  ((regionOf m r).ents.filter fun e => !e.mile && (e.pending || step == some e.step)).reverse.foldl (fun m e =>
    let j := readEntry m r e.off
    if !j.good then m.onDev fun d => d.modRegion r fun g => { g with ents := g.ents.erase e }
    else match tdescAt m e.table with
      | none => m
      | some t =>
        let home := m.load j.home (64 * t.granRec)
        if recGood t home then m
        else if e.pending then m.store j.home (padTo (64 * t.granRec) j.payload)
        else if j.oldValid then m.store j.home j.old
        else undoEntry m r e) m

/-- WRITER_RECOVERY (R360): a writer that starts again recovers its region; an OPEN milestone goes on with each row whose
home does not carry its tag, and after a link reset a milestone not COMMITTED is undone. -/
def execWriterRecovery (engine : Fin 8) (afterLinkReset : Bool) (s : State) : Out :=
  onPlane s fun m =>
    let app := m.dev.sow.app
    let m := recoverRegion m engine app
    let m := m.onDev fun d => d.modRegion engine fun g => { g with opened := none }
    match app with
    | none => m
    | some step =>
      if afterLinkReset then undoStep m step
      else
        let again := m.dev.sow.grads.filter fun g => decide (g.applied = some step) && (match tdescAt m g.table with
          | some t =>
            let v := t.gradVer g.step
            let e := rowEnt m v.rowmap g.row
            rowEngine m t v g.row == some engine.val && (!e.near || decide (recTag (recordOf m e 1) ≠ step))
              && ((regionOf m engine).ents.any fun j => !j.mile && j.step = step && j.table = g.table && j.row = g.row)
          | none => false)
        m.onDev fun d => d.onSow fun x => { x with
          grads := x.grads.map fun g => if again.contains g then { g with applied := none } else g
          done := x.done.filter fun k => !(again.any fun g => k % 2 ^ 52 == rowKey g.table g.row && k / 2 ^ 53 == engine.val) }

end Sys2Proof.Machine
end

