-- ==== Sys2Proof/Machine/Issue.lean ====
section
/-!
DEFINITION. Issuing furrows, the start of a step, the phase join (02_plots_and_furrows R46 to R70, 09 R372, R384,
10_silent_error_checking R402 to R406).
-/

namespace Sys2Proof.Machine

/-! ## What an execution belongs to (R61, R402) -/

/-- The block that the furrow being issued belongs to, or that the plot's next furrow will. -/
def blockOf (d : Dev) (inst : Nat) : Option Block :=
  let p := d.plot inst
  match logicalOf d.base inst, blockAt p (match p.seq.cur with
      | some c => c.fid
      | none => p.seq.nextFid) with
  | some l, some da => (d.work.granted.find? fun g => g.1 = l ∧ g.2.da = da).map (·.2)
  | _, _ => none

/-- A physical plot is mapped to an express plot. -/
def expressAt (b : BaseState) (inst : Nat) : Bool := match logicalOf b inst with
  | some l => isExpress b l
  | none => false

/-- The step an execution belongs to: its block's, or the step that runs; on an express plot, the latest APPLIED one. -/
def stepOf (d : Dev) (inst : Nat) : Word32 :=
  if expressAt d.base inst then d.base.applied
  else match blockOf d inst with
    | some b => b.step
    | none => d.ms.cur.getD d.base.applied

/-- The stream id (R61). -/
def streamId (d : Dev) (inst : Nat) : Nat := match blockOf d inst with
  | some b => b.id
  | none => unitOf d.base inst

/-! ## Replay plots (R404, R405) -/

/-- A healthy plot of the fallow pool: not mapped, not retired, its most recent pack run passed (R404, R429). -/
def healthyPool (d : Dev) (i : Nat) : Bool :=
  let h := healthOf d i
  !h.unhealthy && !h.retired && !bitOf (cfgChkRetireCol d.base (32 * instDie i + instRow i)) (instCol i)
    && (logicalOf d.base i).isNone

/-- A training plot that may be borrowed: BRWAREA > 0, between blocks (R404). -/
def mayBorrow (d : Dev) (i : Nat) : Bool :=
  decide (cfgChkCfgBrwarea d.base ≠ 0) && (d.plot i).blocks.isEmpty && !(healthOf d i).owes
    && (match logicalOf d.base i with
      | some l => !isExpress d.base l
      | none => false)

/-- A plot may replay executions of another: on its die, in another quadrant, healthy or borrowed (R404, R405). -/
def replayOk (d : Dev) (s r : Nat) : Bool :=
  decide (instDie r = instDie s) && decide (instQuad r ≠ instQuad s) && !expressAt d.base r && (healthyPool d r || mayBorrow d r)

/-- Take a replay plot: a training plot is borrowed. -/
def takeReplay (d : Dev) (r : Nat) : Dev :=
  if (logicalOf d.base r).isSome then modHealth d r fun h => { h with borrowed := true } else d

/-! ## Issue -/

/-- Note that a plot issued a replayed opcode in a step (R413). -/
def noteWork (d : Dev) (inst : Nat) (step : Word32) : Dev :=
  modHealth d inst fun h => if step ∈ h.worked then h else { h with worked := h.worked ++ [step] }

/-- Count skipped executions (R65). -/
def countSkips (d : Dev) (inst n : Nat) : Dev := if n = 0 then d else d.count cSeqSkip inst n

/-- The furrow part-way is wholly issued. -/
def closeIssue (d : Dev) (inst : Nat) (c : Issuing) : Dev :=
  let x := endIssue (d.plot inst) c
  (d.setPlot inst x.1).deliverAll inst x.2

/-- A waymark at issue (R539). -/
def issueMark (d : Dev) (inst : Nat) (c : Issuing) (i : Nat) : Dev := d.waymark inst c.record c.entry 1 i

/-- The execution issues: into its unit's queue, sampled where it is to be (R48, R49, R402, R406). -/
def putExec (d : Dev) (inst : Nat) (c : Issuing) (i : Nat) (lastOne : Bool) (sampled : Bool) (replay : Option Nat) : Dev :=
  let op := (Opc.ofCode (recOpc c.record)).getD .idle
  let step := stepOf d inst
  let first := decide (nextExec c.record c.bitmap (recRepeat c.record + 2) 0 = (i, some i))
  let e : Exec := ⟨c.fid, c.entry, i, first, lastOne, c.record, c.srv, step, streamId d inst, sampled, c.target, replay⟩
  let d := if isReplayed c.record && !expressAt d.base inst then noteWork d inst step else d
  let d := d.modPlot inst fun p => modInflight (onUnitQ p op.unitK (· ++ [e])) c.fid fun x => { x with open_ := x.open_ + 1 }
  let d := issueMark d inst c i
  let d := if op = .waittok then finishExec d inst .own e [0, 0, 0, 0, 0, 0] .none else d
  if !sampled then d
  else
    let l := unitOf d.base inst
    let ex := expressAt d.base inst
    let d := match replay with
      | some r => takeReplay d r
      | none => d
    d.onChk fun k => { k with samples := k.samples ++ [⟨inst, l, step, c.fid, c.entry, i, if ex then some 0 else none,
      streamHead d.base l ex e, replay.getD 0, none, 0, none, none, .running⟩] }

/-- Idle slots that a plot inserts in a capping period of 2^20 A-cycles, half as many at divide-by-16: max(f, t_d) in 64 of them,
none on an express plot (R569, R570, R572; log 41). -/
def idleQuota (d : Dev) (inst : Nat) : Nat :=
  if expressAt d.base inst then 0
  else max d.pwr.f (kget 0 d.pwr.t (instDie inst)) * (if (d.plot inst).div16 then 8192 else 16384)

/-- Idle slots inserted since the period began. -/
def idleCount (d : Dev) (p : Plot) : Nat := if p.idleTick = d.pwr.capTicks then p.idleDone else 0

/-- Issue the next execution of the furrow part-way, or end it (R49, R60, R64 to R66, R406). `replay`: the replay plot that
grants credit for a sampled execution; `stall`: C-cycles it waited for that credit. -/
def issueNext (m : Mod) (inst : Nat) (c : Issuing) (replay : Option Nat) (stall : Nat) : Mod :=
  let d := m.dev
  let p := d.plot inst
  let x := nextExec c.record c.bitmap (recRepeat c.record + 2) c.next
  match x.2 with
  | none => m.onDev fun d => closeIssue (countSkips d inst x.1) inst c
  | some i =>
    let op := (Opc.ofCode (recOpc c.record)).getD .idle
    let ex := expressAt d.base inst
    if !unitRoom p op.unitK || !hazardFree p c.record i then m
    else if idleCount d p < idleQuota d inst then
      m.onDev fun d => (d.modPlot inst fun p => { p with idleTick := d.pwr.capTicks, idleDone := idleCount d p + 1 }).count cSeqIdleInject inst 1
    else
      let step := stepOf d inst
      let sampled := isReplayed c.record && plotSampled d inst step
      let r := if sampled && !ex then replay.filter fun r => replayOk d inst r else none
      if sampled && !ex && r.isNone then
        m.onDev fun d => if stall = 0 then d else d.count cChkShadowStall inst stall
      else
        let y := nextExec c.record c.bitmap (recRepeat c.record + 2) (i + 1)
        let m := if recOpc c.record = 2 ∧ ctrlBits c.record 18 17 = 0 ∧ !ex then stageStep m step else m
        m.onDev fun d =>
          let d := countSkips d inst x.1
          let d := if sampled && !ex && stall ≠ 0 then d.count cChkShadowStall inst stall else d
          let d := putExec d inst c i y.2.isNone sampled r
          if y.2.isNone then closeIssue (countSkips d inst y.1) inst c
          else d.modPlot inst fun p => { p with seq := { p.seq with cur := some { c with next := i + 1 } } }

/-- A TRAIN gather issues only once the step before its own is APPLIED (R24). -/
def trainOpen (d : Dev) (inst : Nat) (r : List Byte) : Bool :=
  decide (recOpc r ≠ 2) || decide (ctrlBits r 18 17 ≠ 0) || expressAt d.base inst
    || !stepNewer (stepOf d inst - 1) d.base.applied

/-- The phase is open for a furrow: it carries no PHASE, its plot takes no part, or the scheduler core has joined (R372). -/
def phaseJoined (d : Dev) (inst : Nat) (r : List Byte) : Bool :=
  !recBit r 17 || expressAt d.base inst || (logicalOf d.base inst).isNone || d.work.joined

/-- FURROW_ISSUE (R46 to R49, R55, R60, R64 to R67, R220, R372, R384, R402, R406, R539): the sequencer reads the record at its
entry and issues one execution of it, or of the furrow part-way, where nothing holds it back. -/
def execFurrowIssue (plot : Fin 4352) (replay : Option (Fin 4352)) (stall : Nat) (s : State) : Out :=
  onPlane s fun m =>
    let inst : Nat := plot
    let d := m.dev
    let p := d.plot inst
    match p.seq.cur with
    | some c => issueNext m inst c (replay.map (·.val)) stall
    | none =>
      if !seqOpen p.seq then m
      else
        let r := recordAt p p.seq.entry
        if !legalHere d.base inst r then
          m.onDev fun d => (d.modPlot inst fun p => { p with seq := stopSeq p.seq }).raise evFurrowIllegal
            { entry := p.seq.entry } (instDie inst) (unitOf d.base inst)
        else if !mayBegin p r || !trainOpen d inst r then m
        else if !phaseJoined d inst r then
          match logicalOf d.base inst with
          | some l => m.onDev fun d => d.onWork fun w =>
            if l ∈ w.phaseIssued then w else { w with phaseIssued := w.phaseIssued ++ [l] }
          | none => m
        else
          let op := (Opc.ofCode (recOpc r)).getD .idle
          if !unitRoom p op.unitK || !hazardFree p r 0 then m
          else
            let m := m.onDev fun d => d.modPlot inst fun p => beginFurrow d.base p r
            match (m.dev.plot inst).seq.cur with
            | some c => issueNext m inst c (replay.map (·.val)) stall
            | none => m

/-! ## Tokens of the job (R378, Table 9.6) -/

/-- The 64 bytes of a token. -/
def Token.bytes (t : Token) : List Byte :=
  let h := leBytes 1 t.type ++ leBytes 1 t.attempt ++ leBytes 2 t.src ++ leBytes 4 t.job ++ leBytes 4 t.step.toNat
    ++ leBytes 4 t.mark.toNat ++ leBytes 1 t.flags ++ leBytes 1 t.cause ++ zeros 2 ++ leBytes 4 t.aux ++ leBytes 8 t.repd
    ++ leBytes 8 t.fd ++ zeros 20
  h ++ leBytes 4 (crc32c h)

/-- The token 64 bytes spell. -/
def parseToken (b : List Byte) : Token where
  type := fieldAt b 0 1
  attempt := fieldAt b 1 1
  src := fieldAt b 2 2 % 4096
  job := fieldAt b 4 4
  step := BitVec.ofNat 32 (fieldAt b 8 4)
  mark := BitVec.ofNat 32 (fieldAt b 12 4)
  flags := fieldAt b 16 1
  cause := fieldAt b 17 1
  aux := fieldAt b 20 4
  repd := fieldAt b 24 8
  fd := fieldAt b 32 8

/-- A token of this module: TYPE, ATTEMPT, STEP; everything else zero. -/
def myToken (d : Dev) (type : Nat) (step : Word32) (attempt : Nat) : Token :=
  ⟨type, attempt, cfgFabMsCfgKidx d.base, cfgFabMsIdJob d.base, step, 0, 0, 0, 0, 0, 0⟩

/-- Send a token to a module of the job. -/
def Dev.sendToken (d : Dev) (dst : Nat) (t : Token) : Dev := d.onMs fun s => { s with out := s.out ++ [(dst, t)] }

/-- Send a token to every module of the job, itself included. -/
def Dev.sendAll (d : Dev) (t : Token) : Dev :=
  (List.range (cfgFabMsCfgNmod d.base + 1)).foldl (fun d i => d.sendToken i t) d

/-- PHASE_JOIN (R372): once every training plot in service has issued its PHASE furrow and every granted block of the old
phase is done, the phase is joined; with PHASEJOB a PHASE token is sent, and one of every module of the job awaited. -/
def execPhaseJoin (s : State) : Out :=
  onSched s fun m => m.onDev fun d =>
    let plots := (List.range 4096).filter fun l => (physOf d.base l).isSome && !isExpress d.base l
    let open_ := d.work.granted.any fun g => !g.2.backward
    if d.work.joined || open_ || plots.any (fun l => !d.work.phaseIssued.contains l) then d
    else
      let job := cfgFabMsCfgPhasejob d.base = 1
      let d := if job ∧ d.work.phaseSent = false then
          let step := d.ms.cur.getD 0
          (d.sendAll (myToken d 6 step (attemptOf d step))).onWork fun w => { w with phaseSent := true }
        else d
      let all := (List.range (cfgFabMsCfgNmod d.base + 1)).all fun i => d.work.phaseTokens.contains ((d.ms.cur.getD 0).toNat, i)
      if job ∧ all = false then d
      else d.onWork fun w => { w with joined := true, phaseIssued := [] }

end Sys2Proof.Machine
end

