-- ==== Sys2Proof/Machine/Check.lean ====
section
/-!
DEFINITION. Silent-error checking and in-service repair: replays, votes, packs, convictions, fallow and remap, update
checks (10_silent_error_checking, 02_plots_and_furrows R99).
-/

namespace Sys2Proof.Machine

/-! ## Steps and samples -/

/-- A sample of an execution. -/
def isSample (s fid index : Nat) (x : Sample) : Bool := x.s == s && x.fid == fid && x.index == index

/-- The sample of an execution, if it is not settled. -/
def sampleOf (d : Dev) (s fid index : Nat) : Option Sample := d.chk.samples.find? (isSample s fid index)

/-- Change a sample. -/
def Dev.putSample (d : Dev) (x y : Sample) : Dev :=
  d.onChk fun k => { k with samples := k.samples.map fun z => if z = x then y else z }

/-- A borrowed plot that replays nothing any more is given back (R404). -/
def Dev.giveBack (d : Dev) (i : Nat) : Dev :=
  if d.chk.samples.any (fun x => x.r == i || x.t == some i) then d
  else if (healthOf d i).borrowed then modHealth d i fun h => { h with borrowed := false } else d

/-- A sample is settled. -/
def Dev.settle (d : Dev) (x : Sample) : Dev :=
  let d := d.onChk fun k => { k with samples := k.samples.erase x }
  let d := d.giveBack x.r
  match x.t with
  | some t => d.giveBack t
  | none => d

/-- The first step at or after n in which a plot is sampled (R402). -/
def nextSampled (k : Nat) (n : Word32) (p : Nat) : Word32 := n + BitVec.ofNat 32 ((k - (n.toNat + p) % k) % k)

/-- Every sampled execution of a step on a plot is settled. -/
def stepSettled (d : Dev) (i : Nat) (n : Word32) : Bool :=
  !(d.chk.samples.any fun x => x.s == i && x.express.isNone && decide (x.step = n))

/-- The newest step every block of which has completed. -/
def doneThrough (d : Dev) : Word32 := match d.ms.cur with
  | some c => if d.work.left = 0 then c else c - 1
  | none => d.base.applied

/-- The newest step whose samples on a plot all settled in agreement (R413). -/
def agreedStep (d : Dev) (i : Nat) : Option Word32 :=
  let h := healthOf d i
  (h.worked.filter fun n => plotSampled d i n && stepSettled d i n && !h.bad.contains n && !stepNewer n (doneThrough d)).foldl
    (fun acc n => match acc with
      | some a => if stepNewer n a then some n else acc
      | none => some n) h.agreed

/-- Steps in which a plot issued a replayed opcode after its last agreement, oldest first: the conviction span (R413). -/
def plotSpan (d : Dev) (i : Nat) : List Word32 :=
  match agreedStep d i with
  | some a => (healthOf d i).worked.filter fun n => stepNewer n a
  | none => (healthOf d i).worked

/-- Keep of a plot's steps only what a conviction may still need. -/
def pruneHealth (d : Dev) (i : Nat) : Dev :=
  let a := agreedStep d i
  let w := plotSpan d i
  modHealth d i fun h => { h with agreed := a, worked := w, bad := h.bad.filter fun n => w.contains n }

/-! ## When checking is complete (R416, R417) -/

/-- Condition 3 for one plot. -/
def plotCleared (d : Dev) (k : Nat) (n : Word32) (i : Nat) : Bool :=
  let h := healthOf d i
  match logicalOf d.base i with
  | none => !h.owes
  | some p =>
    if h.fallow then !h.owes
    else
      let m := nextSampled k n p
      !stepNewer m (doneThrough d) && stepSettled d i m

/-- Checking of step n is complete on this module (R416). -/
def stepChecked (d : Dev) (n : Word32) : Bool :=
  !(d.chk.samples.any fun x => x.express.isNone && decide (x.step = n))
    && !(d.chk.upds.any fun u => decide (u.step = n))
    && (match fracK d.base with
      | none => true
      | some k =>
        decide (cfgFabMsCfgHm1 d.base + 1 < k) || d.chk.noCond3
          || d.chk.health.all fun h => !h.2.worked.contains n || plotCleared d k n h.1)

/-- The newest step up to `last` whose checking, and that of every step before it, is complete. -/
def checkedThrough (d : Dev) (last : Word32) : Nat → Word32 → Word32
  | 0, n => n
  | fuel + 1, n => if stepNewer (n + 1) last ∨ stepChecked d (n + 1) = false then n else checkedThrough d last fuel (n + 1)

/-! ## Requests for a rollback (R413, R415, R615) -/

/-- Ask for a rollback to a step; a span that begins in CLEARED steps is cut, and the cleared steps named. -/
def askRollback (d : Dev) (start : Word32) (suspect : Bool) : Dev :=
  let c := d.base.cleared
  if stepNewer start c then d.onChk fun k => { k with rbReq := k.rbReq ++ [(start, suspect)] }
  else (d.onChk fun k => { k with rbReq := k.rbReq ++ [(c + 1, suspect)] }).raise evChkBoundExceeded
    { hasS := true, s := start.toNat, s2 := some c.toNat }

/-- The step of a sample is SUSPECT (R415); an express sample affects no step (R403). -/
def suspectSample (d : Dev) (x : Sample) (units : List Nat) : Dev :=
  match x.express with
  | some tag => d.raise evExpressCheckMismatch { t := tag, entry := x.entry, exec := x.index } (instDie x.s) x.logical
  | none => (askRollback d x.step true).raise evChkSuspect { hasS := true, s := x.step.toNat, x := some units } (instDie x.s) x.logical

/-! ## Fallow and remap (R99, R243, R427 to R429) -/

/-- Distance of two plots in rows and columns (DESIGN CHOICE, log 21: what "nearest" measures). -/
def plotDist (a b : Nat) : Nat :=
  (max (instRow a) (instRow b) - min (instRow a) (instRow b)) + (max (instCol a) (instCol b) - min (instCol a) (instCol b))

/-- Healthy spares of a die. -/
def dieSpares (d : Dev) (die : Nat) : List Nat := ((List.range 1088).map (1088 * die + ·)).filter (healthyPool d)

/-- The spare a logical plot on `i` moves to: nearest in its quadrant, else the first elsewhere on its die in quadrant
order (R427). -/
def spareFor (d : Dev) (i : Nat) : Option Nat :=
  let l := dieSpares d (instDie i)
  match minBy (plotDist i) (l.filter fun j => instQuad j = instQuad i) with
  | some j => some j
  | none => (sortBy instQuad l).head?

/-- A word of the plot map (Table 2.12). -/
def mapWord (valid : Bool) (i : Nat) : Nat := b2n valid * 2 ^ 31 + instDie i * 2 ^ 11 + instRow i * 2 ^ 6 + instCol i

/-- Change an entry of the plot map. -/
def Dev.setMap (d : Dev) (l : Nat) (valid : Bool) (i : Nat) : Dev := d.onBase fun b => regStore b (0x410000 + 4 * l) (mapWord valid i)

/-- A logical plot loses its replicas (R243). -/
def Dev.dropReplicas (d : Dev) (l : Nat) : Dev :=
  d.onTab fun t => { t with dir := t.dir.map fun e =>
    (e.1, { e.2 with reps := e.2.reps.map fun r => if r.plot = l then { r with valid := false } else r }) }

/-- No healthy spare is left on the die: the logical plot goes out of service, and blocks bound to it count as completed
(R428). -/
def plotExhausted (d : Dev) (l i : Nat) : Dev :=
  let d := (d.setMap l false i).raise evPlotSparesExhausted {} (instDie i) l
  let dead := d.work.queue.filter fun b => b.bound = some l
  dead.foldl (fun d b => voidBlock (d.onWork fun w => { w with queue := w.queue.erase b }) b.step b.da) d

/-- Replays a plot was running are discarded and go to another replay plot (R427). -/
def resendReplays (d : Dev) (i : Nat) : Dev :=
  let g := fun (x : Sample) =>
    if x.r = i ∧ x.rfp = none then
      let r := ((List.range 1088).map (1088 * instDie x.s + ·)).find? (fun j => decide (j ≠ i) && replayOk d x.s j)
      { x with r := r.getD x.r }
    else if x.t = some i ∧ x.tfp = none then
      let t := (List.range 4352).find? (fun j => decide (j ≠ i) && decide (instDie j ≠ instDie x.s) && healthyPool d j)
      { x with t := t }
    else x
  d.onChk fun k => { k with samples := k.samples.map g }

/-- A plot is made fallow (R104, R243, R427, R428). -/
def makeFallow (d : Dev) (i : Nat) : Dev :=
  let d := modHealth d i fun h => { h with unhealthy := true, fallow := true, owes := false, strikes := [] }
  let d := resendReplays d i
  match logicalOf d.base i with
  | none => d
  | some l =>
    let d := (requeueBlocks (d.modPlot i fun p => { p with blocks := [] }) l).raise evPlotFallow { x := some [i] } (instDie i) l
    let d := d.dropReplicas l
    if (spareFor d i).isNone then plotExhausted d l i else d

/-- Three convictions of a quadrant's plots lie within STRIKEWIN hours (Table 10.10). -/
def quadDue (d : Dev) (q : Nat) : Bool :=
  decide (3 ≤ ((kget [] d.chk.quadConv q).filter fun t => d.nowNs ≤ t + cfgChkRepairCfgStrikewin d.base * 3600000000000).length)

/-- A plot is convicted (R413, R429). -/
def convictPlot (d : Dev) (i : Nat) (express : Bool) : Dev :=
  let span := plotSpan d i
  let again := decide (0 < (healthOf d i).convictions)
  let l := unitOf d.base i
  let d := makeFallow d i
  let d := modHealth d i fun h => { h with convictions := h.convictions + 1, retired := again, worked := [], bad := [], agreed := none }
  let q := 4 * instDie i + instQuad i
  let times := kget [] d.chk.quadConv q ++ [d.nowNs]
  let d := d.onChk fun k => { k with quadConv := kput k.quadConv q times }
  let start := span.head?
  let d := d.raise evPlotConvicted { hasS := true, s := (start.getD 0).toNat, s2 := (span.getLast?).map (·.toNat), x := some [i] } (instDie i) l
  let d := if again then d.raise evPlotRetired { x := some [i] } (instDie i) else d
  match start, express with
  | some n, false => askRollback d n false
  | _, _ => d

/-- A plot takes a strike; one that has STRIKES of them within STRIKEWIN hours is made fallow (R412). -/
def strikePlot (d : Dev) (i : Nat) : Dev :=
  let b := d.base
  let win := cfgChkRepairCfgStrikewin b * 3600000000000
  let l := ((healthOf d i).strikes.filter fun t => decide (d.nowNs ≤ t + win)) ++ [d.nowNs]
  let d := modHealth d i fun h => { h with strikes := l }
  if cfgChkRepairCfgStrikes b ≤ l.length then makeFallow d i else d

/-- What a plot keeps through its domain's cycle, and what a remap copies: SRAM, furrow store, messages; the rest is as reset leaves
it (R99, Table 15.3). -/
def cycledPlot (p : Plot) : Plot :=
  { Plot.reset with
    sram := p.sram, store := p.store, chans := p.chans, sent := p.sent, gctx := p.gctx
    seq := { Sequencer.reset with nextFid := p.seq.nextFid } }

/-- PLOT_REMAP (R99, R427, R428): a logical plot whose physical plot is fallow moves to its spare between blocks. The remap
stops the receive channels' credits first; then SRAM and furrow store are copied and the map changes. It waits while the
quadrant controller restarts (R525). -/
def execPlotRemap (plot : Fin 4096) (s : State) : Out :=
  onPlaneDev s fun d => match physOf d.base plot with
    | none => d
    | some i =>
      let p := d.plot i
      if !(healthOf d i).fallow ∨ !p.blocks.isEmpty ∨ qcUp d i = false then d
      else if !p.remapping then d.modPlot i fun p => { p with remapping := true }
      else match spareFor d i with
        | none => plotExhausted (d.modPlot i fun p => { p with remapping := false }) plot i
        | some j =>
          let np : Plot := cycledPlot p
          let d := ((d.setPlot j np).setPlot i Plot.reset).setMap plot true j
          let d := modHealth d j fun h => { h with worked := [], bad := [], agreed := none }
          d.raise evPlotRemapped { x := some [i, j] } (instDie j) plot

/-! ## Replay and vote (R408 to R411, Table 10.5) -/

/-- REPLAY_STREAM_RECEIVE (R408, R409): the replay or third plot of a sample checks ICRC; a bad stream discards the sample,
and a good one is replayed: `fp` is the fingerprint of its result. -/
def execReplayStreamReceive (plot sampled : Fin 4352) (fid index : Nat) (icrcOk : Bool) (fp : Word64) (s : State) : Out :=
  onPlaneDev s fun d => match sampleOf d sampled fid index with
    | none => d
    | some x =>
      if x.r ≠ plot.val ∧ x.t ≠ some plot.val then d
      else if !icrcOk then
        let d := (d.settle x).count cChkShadowCrc plot 1
        let d := d.raise evChkShadowCrc { hasS := true, s := x.step.toNat, entry := x.entry, exec := x.index } (instDie plot) x.logical
        modHealth d sampled fun h => { h with again := some (x.step + 1) }
      else if x.r = plot.val then d.putSample x { x with rfp := some fp }
      else d.putSample x { x with tfp := some fp }

/-- The plots of a vote that are to run the pack; with no active pack each is treated as passing (R411, the note after
Table 10.8). -/
def oweAll (d : Dev) (l : List Nat) : Dev := l.foldl (fun d i => modHealth d i fun h => { h with owes := true }) d

/-- REPLAY_COMPARE (R410): equal fingerprints settle the execution in agreement; otherwise the mismatch is counted and the
stream goes to a third plot, on another die. -/
def execReplayCompare (sampled : Fin 4352) (fid index : Nat) (third : Fin 4352) (s : State) : Out :=
  onPlaneDev s fun d => match sampleOf d sampled fid index with
    | some x => match x.st, x.rfp with
      | .replay, some fp =>
        if fp = x.ofp then d.settle x
        else if instDie third = instDie x.s ∨ (healthyPool d third = false ∧ mayBorrow d third = false) then d
        else
          let d := (d.putSample x { x with st := .third, t := some third.val }).count cChkMismatch sampled 1
          let d := takeReplay d third
          (modHealth d sampled fun h => if x.step ∈ h.bad then h else { h with bad := h.bad ++ [x.step] }).raise evChkMismatch
            { hasS := true, s := x.step.toNat, entry := x.entry, exec := x.index, x := some [x.s, x.r] } (instDie x.s) x.logical
      | _, _ => d
    | none => d

/-- The outcome of Table 10.5 for one plot of a vote that has run its pack. -/
def packOutcome (d : Dev) (x : Sample) (i : Nat) (none_ passed : Bool) : Dev :=
  let isS := decide (i = x.s)
  let ex := x.express.isSome
  if passed then (if none_ then d else strikePlot d i)
  else if isS then convictPlot d i ex else makeFallow d i

/-- VOTE_SETTLE (R410, R411, Table 10.5): with three fingerprints the odd plot is found; it is to run the pack. The step is in
doubt where S is odd or no two agree. -/
def execVoteSettle (sampled : Fin 4352) (fid index : Nat) (s : State) : Out :=
  onSched s fun m => m.onDev fun d => match sampleOf d sampled fid index with
    | some x => match x.st, x.rfp, x.tfp, x.t with
      | .third, some r, some t, some ti =>
        let none_ := decide (r ≠ t) && decide (t ≠ x.ofp)
        let odd := if none_ then [x.s, x.r, ti] else if t = x.ofp then [x.r] else [x.s]
        let doubt := none_ || decide (t ≠ x.ofp)
        match d.chk.pack with
        | some _ => oweAll (d.putSample x { x with st := .pack odd doubt }) odd
        | none =>
          let d := if doubt then suspectSample d x [x.s, x.r, ti] else d
          (odd.foldl (fun d i => packOutcome d x i none_ true) d).settle x
      | _, _, _, _ => d
    | none => d

/-- A plot has run the pack for the votes that wait for it (R410, R411, Table 10.5): R odd, or one of three, is made fallow
when it fails; S is convicted; a pass leaves a strike, and the step SUSPECT where it is in doubt. -/
def votesAfterPack (d : Dev) (i : Nat) (passed : Bool) : Dev :=
  (d.chk.samples.filter fun x => match x.st with
    | .pack l _ => l.contains i
    | _ => false).foldl (fun d x => match x.st with
      | .pack l doubt =>
        let three := decide (1 < l.length) || (match x.rfp, x.tfp with
          | some r, some t => decide (r ≠ t) && decide (t ≠ x.ofp)
          | _, _ => false)
        let first := decide (l.length = 1 ∧ three = false) || decide (l.length = 3)
        let d := if doubt && first && (three || passed) then suspectSample d x ([x.s, x.r] ++ x.t.toList) else d
        let d := packOutcome d x i three passed
        match d.chk.samples.find? (isSample x.s x.fid x.index) with
        | some y =>
          let l' := l.erase i
          if l' = [] then d.settle y else d.putSample y { y with st := .pack l' doubt }
        | none => d
      | _ => d) d

/-- Plot cases of the active pack. -/
def plotCases (d : Dev) : Nat := match d.chk.pack with
  | some p => (p.cases.filter fun c => c.unit = 0).length
  | none => 0

/-- PACK_RUN (R411, R425): a plot that owes a pack run and has finished its work runs every plot case; `fails` of them do not
give EXPFP. A plot that passes returns to service; one that fails as the odd plot of a vote is convicted or made fallow, and
one that fails a pack it was overdue for is convicted. -/
def execPackRun (plot : Fin 4352) (fails : Nat) (s : State) : Out :=
  onPlaneDev s fun d =>
    let h := healthOf d plot
    if !h.owes ∨ !(d.plot plot).blocks.isEmpty ∨ d.chk.pack.isNone ∨ qcUp d plot = false then d
    else
      let n := plotCases d
      let f := min fails n
      let d := if n = 0 then d else d.count cPackCase 0 n
      let d := if f = 0 then d else d.count cPackFail 0 f
      let voted := d.chk.samples.any fun x => match x.st with
        | .pack l _ => l.contains plot.val
        | _ => false
      let d := modHealth d plot fun h => { h with owes := false, unhealthy := decide (f ≠ 0), packDone := d.nowNs, nextCase := 0 }
      let d := votesAfterPack d plot (decide (f = 0))
      if f ≠ 0 ∧ voted = false ∧ h.fallow = false then
        (if (logicalOf d.base plot).isSome then convictPlot d plot (expressAt d.base plot) else makeFallow d plot)
      else d

/-- EXPRESS_SAMPLE_FORWARD (R403, R31): once the lookup's completion is posted, an express plot's sample goes to a replay plot
of its die. -/
def execExpressSampleForward (sampled : Fin 4352) (fid index : Nat) (tag : Nat) (replay : Fin 4352) (s : State) : Out :=
  onPlaneDev s fun d => match sampleOf d sampled fid index with
    | some x =>
      if x.express.isNone ∨ x.st ≠ .replay ∨ !replayOk d sampled replay then d
      else takeReplay (d.putSample x { x with express := some tag, r := replay }) replay
    | none => d

/-! ## Update engines (R414, R415, R426, R432) -/

/-- An engine is convicted: its domain is to be cycled; again within 24 hours of a cycle, it has failed for good (R415,
R432). -/
def convictEngine (d : Dev) (e : Nat) (home : Bool) : Dev :=
  let h := kget EngineHealth.reset d.chk.engines e
  let start := match h.agreed with
    | some a => some (a + 1)
    | none => h.worked.head?
  let failed := match h.cycledAt with
    | some t => decide (d.nowNs ≤ t + 24 * 3600000000000)
    | none => false
  let h' := { h with convicted := true, failed := h.failed || failed, agreed := none, worked := [], bad := [] }
  let d := d.onChk fun k => { k with engines := kput k.engines e h' }
  let d := d.raise evEngineConvicted { hasS := true, s := (start.getD 0).toNat, x := some [e] }
  let d := if failed then d.raise evEngineFailed { x := some [e] } else d.askCycle (if e < 4 then 16 + e else 22 + e) none
  match start, home with
  | some n, true => askRollback d n false
  | _, _ => d

/-- The samples of a milestone on an engine have all agreed: it is the engine's newest (R415). -/
def engineAgreed (d : Dev) (e : Nat) (step : Word32) : Dev :=
  if d.chk.upds.any (fun u => u.home == e && decide (u.step = step)) then d
  else
    let g := fun (h : EngineHealth) =>
      if h.bad.contains step then h
      else { h with agreed := some step, worked := h.worked.filter fun n => stepNewer n step }
    d.onChk fun k => { k with engines := kmod EngineHealth.reset k.engines e g }

/-- The home record of a sampled row: as it lies there now, or, where a later milestone has written the row again, as the sampled
write left it (R414; DEDUCED, log 76). -/
def updHome (m : Mod) (u : UpdSample) : List Byte :=
  match tdescAt m u.table with
  | none => u.record
  | some t =>
    let e := rowEnt m (t.verNum (fieldAt u.record 4 2)).rowmap u.row
    if e.near ∧ recTag (recordOf m e 1) = u.step then recordOf m e t.granRec else u.record

/-- The record the checker rebuilds from the journal entry of a sampled row (R359, R414). -/
def checkRecord (m : Mod) (u : UpdSample) : List Byte :=
  match tdescAt m u.table with
  | none => u.record
  | some t =>
    let v := t.verNum (fieldAt u.record 4 2)
    match newestEntry m u.table u.row v.version with
    | some j =>
      let bank := match mileOf m u.step with
        | some b => b.2
        | none => (m.dev.sow.bank.map (·.data)).getD []
      if j.step ≠ u.step then u.record else rebuild t v bank j u.row (entryLink m j)
    | none => u.record

/-- UPDATE_CHECK (R414, R415): the next engine rebuilds a sampled row from its journal entry and compares it with the home
record. `checker` and `third`: a record that engine gives in place of the one its inputs yield (a fault of the engine). A
disagreement is voted by a third engine. -/
def execUpdateCheck (table : Fin 4096) (row : BitVec 40) (step : Word32) (checker third : Option (List Byte)) (s : State) : Out :=
  onPlane s fun m => match m.dev.chk.upds.find? fun u => u.table = table.val && u.row = row.toNat && u.step = step with
    | none => m
    | some u =>
      let next := fun k => u.home / 4 * 4 + (u.home % 4 + k) % 4
      let home := updHome m u
      let own := checkRecord m u
      let c := checker.getD own
      let t := third.getD own
      m.onDev fun d =>
        let d := (d.onChk fun k => { k with upds := k.upds.erase u }).count cUpdCheck (next 1) 1
        if c = home then engineAgreed d u.home step
        else
          let d := d.onChk fun k => { k with engines := kmod EngineHealth.reset k.engines u.home fun h => { h with bad := h.bad ++ [step] } }
          if t = home then convictEngine d (next 1) false
          else if t = c then convictEngine d u.home true
          else (askRollback d step true).raise evChkSuspect
            { hasS := true, s := step.toNat, x := some [u.home, next 1, next 2] }

/-- ENGINE_PACK_RUN (R426): outside any application window an engine runs its cases; one that fails is convicted as an odd
home engine. -/
def execEnginePackRun (engine : Fin 8) (fails : Nat) (s : State) : Out :=
  onSched s fun m => m.onDev fun d => match d.chk.pack with
    | none => d
    | some p =>
      if d.sow.app.isSome then d
      else
        let n := (p.cases.filter fun c => c.unit = (if engine.val < 4 then 1 else 2)).length
        let f := min fails n
        let d := if n = 0 then d else d.count cPackCase 0 n
        let d := if f = 0 then d else d.count cPackFail 0 f
        let d := d.onChk fun k => { k with engines := kmod EngineHealth.reset k.engines engine fun h => { h with packDone := d.nowNs } }
        if f = 0 then d else convictEngine d engine true

/-! ## Packs in service (R59, R425, R429) -/

/-- What the CAL furrow names as scratch and tiles holds other values after content has run there: free values (R59). -/
def scramble (d : Dev) (inst : Nat) (e : Exec) : Dev :=
  let a := (opdBase e.record 0 e.index).toNat
  let n := min (64 * ctrlBits e.record 31 16) (0x100000 - a)
  let seed := d.base.fresh * 2 ^ 24
  let bytes := (List.range n).map fun k => (Config.freeWord (seed + k)).setWidth 8
  let tiles := (List.range 16).filter fun t => bitOf (ctrlBits e.record 47 32) t
  (d.modPlot inst fun p =>
    let p := { p with sram := writeRun p.sram a bytes }
    tiles.foldl (fun p t => (List.range 1024).foldl (fun p k =>
      { p with tiles := kset 0 p.tiles (1024 * t + k) ((Config.freeWord (seed + 0x400000 + 1024 * t + k)).setWidth 32) }) p) p).tickFresh

/-- The case a CAL slot may run next: its turn, SLOT set, budget, scratch and tiles covered (R425); none while the quadrant
controller restarts (R525). -/
def slotCase (d : Dev) (inst : Nat) (e : Exec) : Option Nat := match d.chk.pack with
  | none => none
  | some p =>
    if qcUp d inst = false then none
    else
    let h := healthOf d inst
    let fits := fun (c : PackCase) => c.unit = 0 && c.slot && decide (c.budget ≤ ctrlBits e.record 15 0)
      && decide (c.scratch ≤ ctrlBits e.record 31 16) && decide (c.tiles &&& ctrlBits e.record 47 32 = c.tiles)
    ((List.range p.cases.length).find? fun k => decide (h.nextCase ≤ k) && (match p.cases[k]? with
      | some c => fits c
      | none => false))

/-- CAL_SLOT (R59, R425, R426): the CAL furrow's slot runs queued calibration content, whose needs are `calib` (budget,
scratch, tile mask), or a case of the pack; with neither it completes. A case that fails convicts the plot. -/
def execCalSlot (plot : Fin 4352) (calib : Option (Nat × Nat × Nat)) (pass : Bool) (s : State) : Out :=
  onPlaneDev s fun d => match (d.plot plot).seq.own with
    | some e =>
      if recOpc e.record ≠ 13 then d
      else
        let fin := fun (d : Dev) => finishExec d plot .own e [0, 0, 0, 0, 0, 0] .none
        match calib with
        | some c =>
          if c.1 ≤ ctrlBits e.record 15 0 ∧ c.2.1 ≤ ctrlBits e.record 31 16 ∧ c.2.2 &&& ctrlBits e.record 47 32 = c.2.2 then
            fin (scramble d plot e) else fin d
        | none => match slotCase d plot e with
          | none => fin d
          | some k =>
            let d := (fin (scramble d plot e)).count cPackCase 0 1
            let n := match d.chk.pack with
              | some p => p.cases.length
              | none => 0
            let d := modHealth d plot fun h => if k + 1 < n then { h with nextCase := k + 1 }
              else { h with nextCase := 0, packDone := d.nowNs, unhealthy := false }
            if pass then d else convictPlot (d.count cPackFail 0 1) plot (expressAt d.base plot)
    | none => d

/-- PACK_OVERDUE (R425): a plot that has not completed the pack within PACKHRS hours is withheld from grants and is to run
what remains. -/
def execPackOverdue (plot : Fin 4352) (s : State) : Out :=
  onPlaneDev s fun d =>
    let h := healthOf d plot
    if d.chk.pack.isNone ∨ h.owes ∨ h.retired ∨ d.nowNs ≤ h.packDone + cfgChkRepairCfgPackhrs d.base * 3600000000000 then d
    else (modHealth d plot fun h => { h with owes := true }).raise evPackOverdue { x := some [plot.val] } (instDie plot) (unitOf d.base plot)

/-- FALLOW_HOURLY_PACK (R429): a fallow plot that failed a pack runs it every hour; RETHRS passes in a row make it a healthy
spare. -/
def execFallowHourlyPack (plot : Fin 4352) (fails : Nat) (s : State) : Out :=
  onPlaneDev s fun d =>
    let h := healthOf d plot
    if !h.unhealthy ∨ h.retired ∨ d.chk.pack.isNone ∨ (logicalOf d.base plot).isSome ∨ qcUp d plot = false then d
    else
      let n := plotCases d
      let f := min fails n
      let d := if n = 0 then d else d.count cPackCase 0 n
      let d := if f = 0 then d else d.count cPackFail 0 f
      if f ≠ 0 then modHealth d plot fun h => { h with passes := 0 }
      else if h.passes + 1 < cfgChkRepairCfgRethrs d.base then modHealth d plot fun h => { h with passes := h.passes + 1 }
      else (modHealth d plot fun h => { h with
          passes := 0, unhealthy := false, fallow := false, packDone := d.nowNs, worked := [], bad := [], agreed := none }).raise
        evPlotReturned { x := some [plot.val] } (instDie plot)

/-! ## Quadrant cycle (R431) -/

/-- Plots of a quadrant. -/
def quadPlots (q : Nat) : List Nat := (List.range 4352).filter fun i => 4 * instDie i + instQuad i = q

/-- Move a mapped plot onto a healthy spare of its die outside a quadrant. -/
def moveOut (d : Dev) (q i : Nat) : Option Dev :=
  match logicalOf d.base i, (dieSpares d (instDie i)).find? fun j => 4 * instDie j + instQuad j ≠ q with
  | some l, some j =>
    let p := d.plot i
    let np : Plot := cycledPlot p
    some ((((d.setPlot j np).setPlot i Plot.reset).setMap l true j).raise evPlotRemapped { x := some [i, j] } (instDie j) l)
  | _, _ => none

/-- Move a list of plots out, one after another. -/
def moveAllOut (q : Nat) : List Nat → Dev → Option Dev
  | [], d => some d
  | i :: l, d => match moveOut d q i with
    | some d' => moveAllOut q l d'
    | none => none

end Sys2Proof.Machine
end

