-- ==== Sys2Proof/Machine/Commit.lean ====
section
/-!
DEFINITION. What a COMMIT changes, and how steps begin and end: sketches, the hot-row directory, replicas, version
switches, promotions, the work of the next step, cairns that begin (06_tables_and_gather R222 to R246,
07_memory_tiers R295, 09_training_step_and_milestones R382 to R388, R396).
-/

namespace Sys2Proof.Machine

/-! ## Sketches and estimates (R239) -/

/-- Keys of a step with their counts. -/
def stepKeys (d : Dev) (n : Word32) : KMap Nat :=
  (d.tab.distinct.filter fun l => l.step = n).foldl (fun k l => l.keys.foldl (fun k e => kput k e.1 (kget 0 k e.1 + e.2)) k) []

/-- A key's count enters its four counters, which saturate. -/
def addKey (k : KMap Nat) (key n : Nat) : KMap Nat :=
  let t := key / 2 ^ 40
  let r := key % 2 ^ 40
  (List.range 4).foldl (fun k i => kmod 0 k (sketchKey (spineOf t r) i t r) fun c => min 65535 (c + n)) k

/-- The sketches at the COMMIT of a step: decay, then the step's counts. -/
def sketchCommit (d : Dev) (n : Word32) : Dev :=
  let w := cfgTierHotCfgWshift d.base
  let decayed := (d.tab.sketch.map fun (e : Nat × Nat) => (e.1, e.2 - e.2 / 2 ^ w)).filter fun e => e.2 ≠ 0
  let s := (stepKeys d n).foldl (fun k e => addKey k e.1 e.2) decayed
  d.onTab fun t => { t with sketch := s }

/-! ## Replicas (R241 to R246) -/

/-- First byte and length of a plot's replica area (R243). -/
def replArea (b : BaseState) : Nat × Nat := (0xFC000 - 4096 * cfgPlotReplCfgSize b, 4096 * cfgPlotReplCfgSize b)

/-- Granules a replica of a table takes. -/
def replGran (m : Mod) (table : Nat) : Nat := match tdescAt m table with
  | some t => t.granG
  | none => 0

/-- Replicas that a logical plot holds: first granule and granules. -/
def replOn (m : Mod) (l : Nat) : List (Nat × Nat) :=
  m.dev.tab.dir.flatMap fun e => (e.2.reps.filter fun r => r.valid && r.plot = l).map fun r => (r.off, replGran m e.2.table)

/-- The lowest granule of a plot's replica area at which `n` granules are free (DESIGN CHOICE, log 19). -/
def replFree (m : Mod) (l n : Nat) : Option Nat :=
  let used := replOn m l
  let a := (replArea m.dev.base).1 / 64
  let last := a + (replArea m.dev.base).2 / 64
  (a :: used.map fun u => u.1 + u.2).foldl (fun best o =>
    if o + n ≤ last ∧ (used.all fun u => u.1 + u.2 ≤ o || o + n ≤ u.1) then
      (match best with
        | some b => some (min b o)
        | none => some o)
    else best) none

/-- A logical plot may hold replicas: in service, not an express plot (R241). -/
def mayHold (d : Dev) (l : Nat) : Bool := match physOf d.base l with
  | some i => !isExpress d.base l && !(healthOf d i).fallow
  | none => false

/-- The next plot for a replica of a row: one in each die, then one more in each die in a quadrant without one (R241;
DESIGN CHOICE, log 19: dies, quadrants and plots in rising order). -/
def replPlace (m : Mod) (reps : List Replica) (n : Nat) : Option Replica :=
  let quads := reps.map fun r => r.plot / 256
  let order := (List.range 4).filter (fun die => !(quads.any fun q => q / 4 = die))
  let dies := if order = [] then (List.range 4).filter fun die => (quads.filter fun q => q / 4 = die).length < 2 else order
  dies.findSome? fun die => ((List.range 4).map (4 * die + ·)).findSome? fun q =>
    if quads.contains q then none
    else ((List.range 256).map (256 * q + ·)).findSome? fun l =>
      if mayHold m.dev l then (replFree m l n).map fun o => ⟨true, l, o⟩ else none

/-- Place replicas of an entry until it has NREP, or none fits. -/
def replFill (m : Mod) (k : Nat) : Nat → Mod
  | 0 => m
  | fuel + 1 => match kfind m.dev.tab.dir k with
    | none => m
    | some e =>
      let reps := e.reps.filter (·.valid)
      if e.nrep ≤ reps.length then m
      else match replPlace m reps (replGran m e.table) with
        | none => m
        | some r => replFill (m.onDev fun d => d.onTab fun t => { t with dir := kput t.dir k { e with reps := reps ++ [r] } }) k fuel

/-- NREP of an estimate. -/
def nrepOf (b : BaseState) (est : Nat) : Nat := min 8 (max 1 (est / max 1 (cfgTierHotCfgEnter b)))

/-- Give an entry its replicas, written from the home record. -/
def replSet (m : Mod) (k : Nat) : Mod :=
  match kfind m.dev.tab.dir k with
  | none => m
  | some e =>
    let kept := { e with reps := (e.reps.filter (·.valid)).take e.nrep }
    let m := replFill (m.onDev fun d => d.onTab fun t => { t with dir := kput t.dir k kept }) k 8
    match tdescAt m e.table with
    | none => m
    | some t =>
      let re := rowEnt m t.curVer.rowmap e.row
      if re.near then m.writeReplicas t e.row (recordOf m re t.granRec) else m

/-- Replicas of an entry whose bytes do not match REPCRC, as physical plots (R246). -/
def badReplicas (m : Mod) (e : DirEntry) : List Nat :=
  let n := 64 * replGran m e.table
  e.reps.filterMap fun r => match r.valid, physOf m.dev.base r.plot with
    | true, some i => if crc32c (readRun (m.dev.plot i).sram (64 * r.off) n) = e.crc.toNat then none else some i
    | _, _ => none

/-- Every plot checks the replicas it holds (R246). -/
def replicaCheck (m : Mod) : Mod :=
  m.dev.tab.dir.foldl (fun m (x : Nat × DirEntry) =>
    let bad := badReplicas m x.2
    if bad = [] then m
    else
      let m := m.onDev fun d => bad.foldl (fun d i => (d.raise evReplicaMismatch { row := x.2.row, table := x.2.table } (instDie i)
        (unitOf d.base i)).count cReplicaMismatch i 1) d
      match tdescAt m x.2.table with
      | none => m
      | some t =>
        let v := t.curVer
        let e := rowEnt m v.rowmap x.2.row
        if !e.near then m
        else match verifyHome m t v x.2.row with
          | some m' => m'.writeReplicas t x.2.row (recordOf m' e t.granRec)
          | none => m) m

/-! ## The hot-row directory (R227, R240) -/

/-- Set HOTDIR of a row's map entry. -/
def setHotdir (m : Mod) (table row : Nat) (v : Bool) : Mod := match tdescAt m table with
  | none => m
  | some t => m.putRow t.rowmap row { rowEnt m t.rowmap row with hotdir := v }

/-- An entry leaves the directory. -/
def dirDrop (m : Mod) (k : Nat) : Mod := match kfind m.dev.tab.dir k with
  | none => m
  | some e => (setHotdir m e.table e.row false).onDev fun d => d.onTab fun t => { t with dir := kdel t.dir k }

/-- Rows that hold a record somewhere. -/
def recordKeys (d : Dev) : List Nat :=
  ((d.tier.slots.filter fun s => !s.2.copy).map fun s => rowKey s.2.table s.2.row)
    ++ (d.tier.cold.map fun c => rowKey c.2.slot.table c.2.slot.row) ++ (d.tier.lent.map fun c => rowKey c.2.slot.table c.2.slot.row)

/-- Candidates for the directory (step 2 of R240) with their estimates, in descending order of estimate, then by key. -/
def dirCandidates (m : Mod) : List (Nat × Nat) :=
  let enter := cfgTierHotCfgEnter m.dev.base
  let l := (recordKeys m.dev).eraseDups.filterMap fun k =>
    let t := k / 2 ^ 40
    let r := k % 2 ^ 40
    let est := estimate m.dev t r
    let ok : Bool := match tdescAt m t with
      | some x => x.hoten
      | none => false
    if enter ≠ 0 ∧ enter ≤ est ∧ ok ∧ (dirOf m.dev t r).isNone then some (k, est) else none
  sortBy (fun x => (65535 - x.2) * 2 ^ 52 + x.1) l

/-- A candidate in hot tier takes a free entry, or replaces the lowest one below its own estimate. -/
def dirAdd (m : Mod) (key est : Nat) : Mod :=
  let t := key / 2 ^ 40
  let r := key % 2 ^ 40
  let put := fun (m : Mod) (k : Nat) =>
    replSet ((setHotdir m t r true).onDev fun d => d.onTab fun x =>
      { x with dir := kput x.dir k ⟨t, r, 0, est, nrepOf d.base est, []⟩ }) k
  match (List.range (m.dev.tab.dir.length + 1)).find? fun k => decide (k < 65536) && (kfind m.dev.tab.dir k).isNone with
  | some k => put m k
  | none => match minBy (fun (e : Nat × DirEntry) => e.2.est) m.dev.tab.dir with
    | some e => if e.2.est < est then put (dirDrop m e.1) e.1 else m
    | none => m

/-- The directory at a COMMIT (R240): the estimates, the entries that leave, the candidates. -/
def dirCommit (m : Mod) : Mod :=
  let leave := cfgTierHotCfgLeave m.dev.base
  let off := cfgTierHotCfgEnter m.dev.base = 0
  let m := m.onDev fun d => d.onTab fun t => { t with dir := t.dir.map fun (e : Nat × DirEntry) =>
    (e.1, { e.2 with est := estimate d e.2.table e.2.row, nrep := nrepOf d.base (estimate d e.2.table e.2.row) }) }
  let m := m.dev.tab.dir.foldl (fun m (e : Nat × DirEntry) =>
    if off ∨ e.2.est < leave then (dirDrop m e.1).onDev fun d => d.count cHotLeave (spineOf e.2.table e.2.row) 1
    else replSet m e.1) m
  (dirCandidates m).foldl (fun m x =>
    let t := x.1 / 2 ^ 40
    let r := x.1 % 2 ^ 40
    match tdescAt m t with
    | none => m
    | some td =>
      let e := rowEnt m td.curVer.rowmap r
      if e.tier = .hot ∧ e.state = 0 then dirAdd m x.1 x.2
      else if e.tier = .absent then m
      else m.onDev fun d => d.queuePromote t r .hot false) m

/-! ## Promotions (R295) -/

/-- Warm rows of HOTEN tables whose estimate reaches PROMOTE, in descending order of estimate. -/
def promoteCandidates (m : Mod) : Mod :=
  let l := m.dev.tier.slots.filterMap fun (s : Nat × Slot) =>
    let est := estimate m.dev s.2.table s.2.row
    match tdescAt m s.2.table with
    | some t =>
      let e := rowEnt m t.curVer.rowmap s.2.row
      if t.hoten ∧ !s.2.copy ∧ e.tier = .warm ∧ e.loc = s.1 ∧ cfgTierPlaceCfgPromote m.dev.base ≤ est then
        some (s.2.table, s.2.row, est) else none
    | none => none
  m.onDev fun d => (sortBy (fun x => 65535 - x.2.2) l).foldl (fun d x => d.queuePromote x.1 x.2.1 .hot false) d

/-! ## Version switches (R222 to R227) -/

/-- The pending version of a table becomes current at the COMMIT of step `n` (R222, R227, R367). -/
def switchVersion (m : Mod) (t : TDesc) (n : Word32) : Mod :=
  let ext := kget t.extent m.dev.tab.pendExtent t.id
  let t' : TDesc := { t with
    prevVersion := t.version, prevRowmap := t.rowmap, prevExtent := t.extent, prevSwitchStep := t.switchStep, prevValid := true
    version := t.pendVersion, rowmap := t.pendRowmap, extent := ext, switchStep := n.toNat, pendValid := false
    switchPending := false }
  let dirs := (m.dev.tab.dir.filter fun (e : Nat × DirEntry) => e.2.table = t.id).map (·.1)
  let m := dirs.foldl dirDrop m
  let mark := fun (e : JEnt) => if e.table = t.id ∧ e.pending ∧ e.eff = none then { e with eff := some n } else e
  ((m.putTd t.id t').putPins t.id).onDev fun d =>
    let d := (List.range 8).foldl (fun d r => d.modRegion r fun g => { g with ents := g.ents.map mark }) d
    (d.onTab fun x => { x with pendExtent := kdel x.pendExtent t.id }).raise evVersionSwitched
      { hasS := true, s := n.toNat, table := t.id, n := t'.version }

/-- A switch that names the current version changes what it names; a new map's copy takes the old one's place (R224, R339). -/
def switchFields (m : Mod) (t : TDesc) (c : SwitchChg) : Mod :=
  let t' := { t with freeze := c.freeze.getD t.freeze, policy := c.policy.getD t.policy, defgroup := c.defgroup.getD t.defgroup
                     pgmap := c.pgmap.getD t.pgmap }
  let m := m.putTd t.id t'
  match c.pgmap with
  | none => m
  | some _ =>
    let m := match kfind m.dev.sow.pgCopy t.id with
      | some (da, n) => freePages m da (64 + 8 * n)
      | none => m
    m.onDev fun d => d.onSow fun s => { s with
      pgBad := s.pgBad.filter fun x => x ≠ t.id
      pgCopy := match c.copy with
        | some x => kput s.pgCopy t.id x
        | none => kdel s.pgCopy t.id }

/-- The switches that take effect at the COMMIT of step `n`; one waits while a previous version is held (R222, R224, R226). -/
def switchCommit (m : Mod) (n : Word32) : Mod :=
  m.dev.tab.switches.foldl (fun m (w : Switch) => match tdescAt m w.table with
    | none => m
    | some t =>
      let fin := fun (m : Mod) (t : TDesc) => m.onDev fun d => (d.onTab fun x => { x with switches := x.switches.erase w }).endDesc
        w.id 0 [t.switchStep, t.version, 0]
      match w.chg with
      | some c => fin (switchFields m t c) t
      | none =>
        if t.prevValid ∨ !t.pendValid then m
        else
          let m := switchVersion m t n
          fin m ((tdescAt m w.table).getD t)) m

/-! ## Steps: beginning, clearing (R24, R382, R386, R387, R616) -/

/-- Change a step's record of states. -/
def Dev.modStep (d : Dev) (n : Word32) (f : StepInfo → StepInfo) : Dev :=
  d.onMs fun s => { s with steps := s.steps.map fun x => if x.step = n then f x else x }

/-- STATE of a step's record, where the record is still that step's (R375). -/
def putState (m : Mod) (n : Word32) (st : Nat) : Mod :=
  if m.loadNat (stepRecDa m.dev.base n) 4 = n.toNat then m.putStepRec n 5 (leBytes 1 st) else m

/-- The STEP_RUN of a step. -/
def runOf (d : Dev) (n : Word32) : Option StepRun := d.ms.runs.find? fun x => x.step = n

/-- Change the STEP_RUN of a step. -/
def Dev.modRun (d : Dev) (n : Word32) (f : StepRun → StepRun) : Dev :=
  d.onMs fun s => { s with runs := s.runs.map fun x => if x.step = n then f x else x }

/-- The blocks of a step are given to the scheduler core: each in its dependency slot, or at once where its count is 0
(R100). -/
def loadPlan (m : Mod) (n : Word32) (plan : List (Nat × Nat × Nat)) : Mod :=
  let m := m.onDev fun d => d.onWork fun w => { WorkState.reset with waiting := w.waiting, phaseTokens := w.phaseTokens, step := n, left := plan.length }
  plan.foldl (fun m x =>
    if x.2.1 = 0 then enqueueBlock m x.2.2
    else m.onDev fun d => d.onWork fun w => { w with slots := kput w.slots x.1 ⟨x.2.1, some x.2.2⟩ }) m

/-- The step after the latest APPLIED one begins, where its input has been read; a step whose input could not be read is
STAGED with cause INPUT_READ and runs nothing (R24, R616). -/
def beginStep (m : Mod) : Mod :=
  let n := m.dev.base.applied + 1
  match runOf m.dev n with
  | none => m
  | some r =>
    if r.begun ∨ m.dev.ms.halted ∨ r.input = none then m
    else
      let m := m.onDev fun d => (d.modRun n fun r => { r with begun := true }).onMs fun s => { s with cur := some n, rerun := none }
      if r.input = some true then loadPlan m n r.plan
      else ((stageStep m n).onDev fun d => d.onWork fun w => { WorkState.reset with waiting := w.waiting, phaseTokens := w.phaseTokens, step := n }).onDev
        fun d => d.failStep n 14

/-- RESULT0 of a STEP_RUN: attempts run, and CAUSE of the last abort (Table 11.12). -/
def runResult (d : Dev) (n : Word32) : Nat := match stepInfo d n with
  | some x => (x.attempt + 1) % 256 + 256 * x.last
  | none => 0

/-- Steps up to `mark` become CLEARED, oldest first, and their STEP_RUNs complete (R382, R387). -/
def clearSteps (m : Mod) (mark : Word32) : Mod :=
  let due := (m.dev.ms.steps.filter fun x => x.st = .applied && !stepNewer x.step mark).map (·.step)
  let m := if stepNewer mark m.dev.base.cleared then m.onDev fun d => d.onBase fun b => { b with cleared := mark } else m
  due.foldl (fun m n =>
    let m := (putState m n 2).onDev fun d => d.modStep n fun x => { x with st := .cleared }
    match runOf m.dev n with
    | none => m
    | some r => m.onDev fun d => (d.onMs fun s => { s with runs := s.runs.erase r }).endDesc r.id 0
        [n.toNat, runResult d n, 0]) m

/-- The plots that wait in a MILESTONE furrow are released: after COMMIT issue continues, after ABORT the sequencer stops
(R58). -/
def releasePlots (d : Dev) (commit : Bool) : Dev :=
  let l := (d.plots.filter fun p => p.2.seq.waitRelease.isSome).map (·.1)
  let d := l.foldl (fun d i =>
    let fid := (d.plot i).seq.waitRelease
    let d := (d.modPlot i fun p => { p with seq := { p.seq with waitRelease := none } }).deliverOwner i .release [b2n commit]
    let d := match (d.plot i).seq.inflight.find? fun x => some x.fid = fid with
      | some x => completeFurrow d i x
      | none => d
    if commit then d else d.modPlot i fun p => { p with seq := stopSeq p.seq }) d
  d.onWork fun w => { w with reported := [] }

/-! ## Reads of the next step (R238) -/

/-- Bytes of a spine's gather stage in use. -/
def stagedBytes (d : Dev) (sp : Nat) : Nat := sumNat ((d.tab.staged.filter fun x => x.spine = sp).map fun x => x.data.length)

/-- The distinct rows of a step that are not in hot tier are read once into the gather stages; one that finds its stage full
is not staged (R238). -/
def stageFill (m : Mod) (n : Word32) : Mod :=
  let m := m.onDev fun d => d.onTab fun t => { t with staged := [] }
  (stepKeys m.dev n).foldl (fun m e =>
    let t := e.1 / 2 ^ 40
    let r := e.1 % 2 ^ 40
    match tdescAt m t with
    | none => m
    | some td =>
      let re := rowEnt m (td.verAt (n - 1)).rowmap r
      let sp := spineOf t r
      if re.tier ≠ .warm ∨ cfgTierCoalCfgStage m.dev.base * 16 * miB < stagedBytes m.dev sp + 64 * td.granG then m
      else m.onDev fun d => d.onTab fun x => { x with staged := x.staged ++ [⟨sp, t, r, recordOf m re td.granG⟩] }) m

/-! ## Cairns that begin (R396, R397, R225) -/

/-- Descriptors of the tables that exist, in id order. -/
def tableList (m : Mod) : List TDesc := (List.range 4096).filterMap (tdescAt m)

/-- Copy the dense regions that a cairn still owes into the COW buffer; a full buffer makes it VOID (R397, R398). -/
def copyDense (m : Mod) (c : Cairn) : Mod :=
  let n := sumNat (c.denseDue.map (·.2))
  if c.denseDue = [] then m
  else if cfgFlsCairnCfgCowbuf m.dev.base * giB < c.cowBytes + n then m.onDev fun d => d.voidCairn c 0
  else
    let l := c.denseDue.map fun r => (r.1, m.load r.1 r.2)
    let c' := { c with dense := c.dense ++ l, denseDue := [], cowBytes := c.cowBytes + n }
    m.onDev fun d => d.onMs fun s => { s with cairns := s.cairns.map fun x => if x = c then c' else x }

/-- Cairns that name step `n` begin: every bit is clear, each table's version as of `n` is pinned (R225, R396, R398). -/
def beginCairns (m : Mod) (n : Word32) : Mod :=
  let named := fun (m : Mod) => m.dev.ms.cairns.filter fun c => c.state = 0 && !c.begun && c.step = n && c.role = 0
  let m := (named m).foldl copyDense m
  let due := named m
  due.foldl (fun m c =>
    let ts := (tableList m).filter fun t => t.kind = 0
    let c' := { c with begun := true, tables := (tableList m).map (·.bytes), sweep := some 0 }
    let m := m.onDev fun d => d.onMs fun s => { s with cairns := s.cairns.map fun x => if x = c then c' else x }
    ts.foldl (fun m t => m.pin c.id t.id (t.verAt n).version) m) m

/-! ## COMMIT (R382) -/

/-- Imports into current versions that a milestone has applied whole complete (Table 11.6, R367). -/
def endImports (d : Dev) (n : Word32) : Dev :=
  let d := d.onSow fun s => { s with imports := s.imports.filter fun i => i.applied ≠ some n }
  d.sow.impJobs.foldl (fun d (j : Nat × Nat × Nat) =>
    if d.sow.imports.any fun i => i.tag = j.1 then d
    else (d.onSow fun s => { s with impJobs := s.impJobs.erase j }).endDesc j.1 (if j.2.2 = 0 then 0 else 0x19)
      [n.toNat, j.2.1, j.2.2]) d

/-- Step `n` is APPLIED and every step up to `mark` CLEARED; then the changes that wait for a COMMIT, the release of the plots
and the start of the next step (R382). -/
def commitStep (m : Mod) (n : Word32) (attempt : Nat) (mark : Word32) : Mod :=
  let m := (putState (markMilestone m n 1) n 1).onDev fun d =>
    let d := (d.modStep n fun x => { x with st := .applied }).onBase fun b => { b with applied := n }
    let d := d.onSow fun s => { s with app := none, done := [], closed := none, replIn := none
                                       grads := s.grads.filter fun g => g.applied ≠ some n, said := [] }
    let d := endImports d n
    d.onMs fun s => { s with decided := some (n, attempt), commit := some (n, attempt, mark), sent := none, held := false
                             revoted := false, walk := 0, cur := none }
  let m := clearSteps m mark
  let m := switchCommit m n
  let m := (m.onDev fun d => sketchCommit d n)
  let m := promoteCandidates (dirCommit (replicaCheck m))
  let m := (beginCairns m n).unpin (stepHolder n)
  let m := m.onDev fun d =>
    let d := releasePlots d true
    let d := (List.range 8).foldl (fun d r => d.reclaim r) d
    let d := d.chk.health.foldl (fun d h => pruneHealth d h.1) d
    d.onTab fun t => { t with distinct := t.distinct.filter fun l => l.step ≠ n }
  beginStep (stageFill m (n + 1))

end Sys2Proof.Machine
end

