-- ==== Sys2Proof/Machine/Milestones.lean ====
section
/-!
DEFINITION. The milestone exchange: tokens, the leader and its deputies, COMMIT, ABORT and ROLLBACK, re-runs, the
vote on digests, rejoin (09_training_step_and_milestones, 10_silent_error_checking R420, R421, R615).
-/

namespace Sys2Proof.Machine

/-! ## Tokens received (R378) -/

/-- Modules of the job. -/
def jobSize (d : Dev) : Nat := cfgFabMsCfgNmod d.base + 1

/-- The leader's job index; none under a host leader (R368, R389). -/
def leaderOf (d : Dev) : Option Nat :=
  if cfgFabMsCfgHostlead d.base = 1 then none else some (d.ms.leader.getD (cfgFabMsCfgLeader d.base))

/-- This module leads. -/
def isLeader (d : Dev) : Bool := leaderOf d == some (cfgFabMsCfgKidx d.base)

/-- The current attempt of a step, 0 before it has one. -/
def attemptNow (d : Dev) (n : Word32) : Nat := match stepInfo d n with
  | some x => x.attempt
  | none => 0

/-- The module discards a token (R378). -/
def discards (d : Dev) (b : List Byte) : Bool :=
  let t := parseToken b
  decide (fieldAt b 60 4 ≠ crc32c (b.take 60)) || decide (t.type = 0) || decide (8 < t.type)
    || decide (t.job ≠ cfgFabMsIdJob d.base) || decide (t.attempt < attemptNow d t.step) || d.ms.noJob

/-! ## READY (R204, R379, R383, R615) -/

/-- Rows that step `n` wrote, with the version written. -/
def writtenRows (m : Mod) (n : Word32) : List (Nat × Nat × Nat) :=
  ((List.range 8).flatMap fun r => ((regionOf m r).ents.filter fun e => !e.mile && !e.pending && e.step = n).map fun e =>
    (e.table, e.row, (readEntry m r e.off).version)).eraseDups

/-- XOR of the digests of every replicated table at milestone `n` (R204). -/
def repDigest (m : Mod) (n : Word32) : Nat :=
  (writtenRows m n).foldl (fun acc x => match tdescAt m x.1 with
    | some t =>
      if !t.repl then acc
      else
        let r := recordOf m (rowEnt m (t.verNum x.2.2).rowmap x.2.1) 1
        acc ^^^ crc64 (leBytes 8 x.2.1 ++ leBytes 4 (recFprint r))
    | none => acc) 0

/-- The cause a step's READY carries NOGO for, if any (R370, R379, R432, R508, R529). -/
def nogoCause (d : Dev) (n : Word32) : Option Nat :=
  match (stepInfo d n).bind (·.cause) with
  | some c => some c
  | none =>
    if d.ms.nogoNext.isSome then d.ms.nogoNext
    else if d.work.invalid then some 7
    else if d.chk.engines.any (fun e => e.2.failed) then some 9 else d.ms.nogoAll

/-- The READY token of a step and attempt. -/
def readyToken (m : Mod) (n : Word32) (a : Nat) : Token :=
  let d := m.dev
  let no := nogoCause d n
  let rb := d.chk.rbReq
  let sus := rb.any (·.2)
  let oldest := rb.foldl (fun (acc : Option Word32) x => match acc with
    | some k => if stepNewer k x.1 then some x.1 else acc
    | none => some x.1) none
  let fd := bitOf (stepRecByte m n 6) 2
  let t := myToken d 1 n a
  { t with
    mark := checkedThrough d n 64 d.base.cleared
    flags := b2n no.isSome + 2 * b2n (rb != []) + 4 * b2n sus
    cause := no.getD (if rb = [] then 0 else if sus then 10 else 9)
    aux := (oldest.getD 0).toNat
    repd := m.loadNat (stepRecDa d.base n + 16) 8
    fd := if fd then m.loadNat (stepRecDa d.base n + 8) 8 else 0 }

/-- Send READY of a step, first or again: REPDIGEST enters the step record, the token goes to the leader, or to the host
leader in an EV_MS_READY record (R379, R383, R478). -/
def sendReady (m : Mod) (n : Word32) (a : Nat) : Mod :=
  let m := m.putStepRec n 16 (leBytes 8 (repDigest m n))
  let t := readyToken m n a
  let fd := bitOf (stepRecByte m n 6) 2
  m.onDev fun d =>
    let d := (d.onMs fun s => { s with sent := some (n, a), sentFd := fd, walk := 0, nogoNext := none }).onChk fun k => { k with rbReq := [] }
    match leaderOf d with
    | some l => d.sendToken l t
    | none =>
      let words := (List.range 8).map fun i => BitVec.ofNat 64 (fieldAt t.bytes (8 * i) 8)
      { d with base := d.base.raise evMsReady 0 0 words }

/-- The blocks of the step have ended (R105). -/
def blocksDone (d : Dev) (n : Word32) : Bool :=
  decide (d.work.left = 0) && decide (d.work.step = n) && d.work.granted.isEmpty && d.work.queue.isEmpty

/-- Checking holds READY back (R34). -/
def checkHolds (d : Dev) (n : Word32) : Bool :=
  stepNewer (n - BitVec.ofNat 32 (cfgFabMsCfgHm1 d.base + 1)) (checkedThrough d n 64 d.base.cleared)

/-- READY_SEND (R34, R379, R383, R615): once the blocks have ended, with NOGO on a cause; else once every update is applied and
checking allows it. -/
def execReadySend (s : State) : Out :=
  onSched s fun m => match m.dev.ms.cur with
    | none => m
    | some n => match stepInfo m.dev n with
      | none => m
      | some x =>
        let d := m.dev
        if x.st ≠ .staged ∨ d.ms.halted ∨ d.ms.noJob ∨ d.ms.sent = some (n, x.attempt) ∨ blocksDone d n = false then m
        else if (nogoCause d n).isSome then sendReady m n x.attempt
        else if allApplied m n = false then m
        else if checkHolds d n then
          if d.chk.heldSaid = some n then m
          else m.onDev fun d => (d.onChk fun k => { k with heldSaid := some n }).raise evReadyHeldCheck { hasS := true, s := n.toNat }
        else sendReady m n x.attempt

/-! ## Deciding (R380, R381, R389, R421) -/

/-- NOGO of a token. -/
def Token.nogo (t : Token) : Bool := bitOf t.flags 0
/-- RBREQ. -/
def Token.rbreq (t : Token) : Bool := bitOf t.flags 1
/-- SUSPECT. -/
def Token.suspect (t : Token) : Bool := bitOf t.flags 2
/-- GOTCOMMIT. -/
def Token.gotCommit (t : Token) : Bool := bitOf t.flags 3
/-- DEPUTY. -/
def Token.deputy (t : Token) : Bool := bitOf t.flags 4

/-- The oldest of some steps. -/
def oldestStep (l : List Word32) : Option Word32 :=
  l.foldl (fun acc x => match acc with
    | some k => if stepNewer k x then some x else acc
    | none => some x) none

/-- The first cause by job index among tokens that carry NOGO. -/
def firstCause (l : List Token) : Option Nat := ((sortBy (·.src) (l.filter Token.nogo)).head?).map (·.cause)

/-- A decision token of this module. -/
def decision (d : Dev) (type : Nat) (n : Word32) (a : Nat) (mark : Word32) (cause aux : Nat) : Token :=
  let t := myToken d type n a
  { t with mark := mark, cause := cause, aux := aux }

/-- Send a decision to every module; the leader's work for the step is done. -/
def sendDecision (d : Dev) (t : Token) : Dev :=
  (d.sendAll t).onMs fun s => { s with lead := s.lead.map fun l => { l with decided := true } }

/-- COMMIT's MARK: at least H steps older than n, and checked everywhere (R33, R380). -/
def commitMark (d : Dev) (n : Word32) (l : List Token) : Word32 :=
  let h := n - BitVec.ofNat 32 (cfgFabMsCfgHm1 d.base + 1)
  (oldestStep (h :: l.map (·.mark))).getD h

/-- Digest pair of a READY. -/
def Token.digests (t : Token) : Nat × Nat := (t.repd, t.fd)

/-- The pair that a strict majority of modules carries. -/
def majority (l : List Token) : Option (Nat × Nat) :=
  (l.map Token.digests).find? fun p => decide (l.length < 2 * (l.filter fun t => t.digests = p).length)

/-- The leader decides once a READY of every module is in (R380), or a re-vote of every module (R421). -/
def decideReady (d : Dev) (l : Lead) : Dev :=
  let v := if l.hold then l.revotes else l.votes
  if v.length < jobSize d then d
  else match firstCause v with
    | some c => sendDecision d (decision d 3 l.step l.attempt 0 c 0)
    | none =>
      let rb := v.filter Token.rbreq
      match oldestStep (rb.map fun t => BitVec.ofNat 32 t.aux) with
      | some k => sendDecision d (decision d 4 l.step l.attempt k (if rb.any Token.suspect then 10 else 9) 0)
      | none =>
        if (v.map Token.digests).eraseDups.length ≤ 1 then
          sendDecision d (decision d 2 l.step l.attempt (commitMark d l.step v) 0 0)
        else if !l.hold then
          (d.sendAll (decision d 5 l.step l.attempt 0 0 0)).onMs fun s => { s with lead := some { l with hold := true, revotes := [], asked := [] } }
        else match majority v with
          | some p => (sendDecision d (decision d 3 l.step l.attempt 0 11 0)).raise evDigestMinority
              { hasS := true, s := l.step.toNat, x := some ((sortBy (·.src) (v.filter fun t => t.digests ≠ p)).map (·.src)) }
          | none => sendDecision d (decision d 3 l.step l.attempt 0 10 0)

/-- Put a token among others, one of each module, the newest. -/
def addVote (l : List Token) (t : Token) : List Token := (l.filter fun x => x.src ≠ t.src) ++ [t]

/-- Modules whose READY the leader still awaits. -/
def missingReady (d : Dev) (l : Lead) : List Nat :=
  (List.range (jobSize d)).filter fun i => !((if l.hold then l.revotes else l.votes).any fun t => t.src = i)

/-- READYs, or re-votes after a HOLD. -/
def Lead.ready (l : Lead) : List Token := if l.hold then l.revotes else l.votes

/-- Modules asked that have answered neither with STATUS nor with the READY that was missing (Table 9.7). -/
def unanswered (l : Lead) : List Nat := l.asked.filter fun i => !((l.status ++ l.ready).any fun t => t.src = i)

/-- The first cause over READYs and STATUSs by job index; a module still late and without NOGO contributes READY_TIMEOUT (R381). -/
def lateCause (l : Lead) : Nat :=
  let ready := (l.ready.filter Token.nogo).map fun t => (t.src, t.cause)
  let stat := (l.status.filter fun t => t.nogo || !(l.ready.any fun r => r.src = t.src)).map fun t => (t.src, if t.nogo then t.cause else 1)
  match sortBy (·.1) (ready ++ stat) with
  | x :: _ => x.2
  | [] => 1

/-- A module is lost: a leader's ABORT goes to the modules that answered, with the event that names every index lost (R381); a
deputy's ROLLBACK goes to every module (R389). -/
def moduleLost (d : Dev) (l : Lead) : Dev :=
  let miss := unanswered l
  let low := (minBy id miss).getD 0
  if l.deputy then sendDecision d (decision d 4 l.step l.attempt l.step 12 low)
  else
    let t := decision d 3 l.step l.attempt 0 12 low
    let dst := (List.range (jobSize d)).filter fun i => !miss.contains i
    let d := (dst.foldl (fun d i => d.sendToken i t) d).onMs fun s => { s with lead := some { l with decided := true } }
    d.raise evMsModuleLost { hasS := true, s := l.step.toNat, x := some miss }

/-- The STATUSs asked for are all in, or time is up (R381, R389). -/
def decideStatus (d : Dev) (l : Lead) (timeout : Bool) : Dev :=
  let all := unanswered l = []
  if !all ∧ !timeout then d
  else match l.deputy, l.status.find? Token.gotCommit with
    | true, some t => sendDecision d (decision d 2 l.step l.attempt (BitVec.ofNat 32 t.aux) 0 0)
    | true, none =>
      if all then sendDecision d (decision d 3 l.step l.attempt 0 ((firstCause l.status).getD 1) 0) else moduleLost d l
    | false, _ => if all then sendDecision d (decision d 3 l.step l.attempt 0 (lateCause l) 0) else moduleLost d l

/-- A READY of an attempt that has been decided: a copy of a token acted on (R378). -/
def settled (d : Dev) (t : Token) : Bool :=
  !stepNewer t.step d.base.cleared || (stepInfo d t.step).any fun x => decide (x.st ≠ .staged) && decide (t.attempt ≤ x.attempt)

/-- A READY (R380, R381, R421): the leader collects READYs; one after its HOLD is a re-vote. With the last one in it decides, though
modules were queried meanwhile (DEDUCED, log 77). -/
def onReady (m : Mod) (t : Token) : Mod :=
  m.onDev fun d =>
    if !isLeader d then d
    else
      let fresh : Lead := ⟨t.step, t.attempt, [t], false, [], [], [], false, false⟩
      let go := fun (d : Dev) (l : Lead) =>
        let d := d.onMs fun s => { s with lead := some l }
        if l.asked = [] ∨ missingReady d l = [] then decideReady d l else decideStatus d l false
      match d.ms.lead with
      | none => if settled d t then d else go d fresh
      | some l =>
        if l.step = t.step ∧ l.attempt = t.attempt then
          if l.decided ∨ l.deputy then d
          else if l.hold then go d { l with revotes := addVote l.revotes t }
          else if l.votes.any (fun x => x.src = t.src) then d
          else go d { l with votes := l.votes ++ [t] }
        else if settled d t ∨ (l.step = t.step ∧ t.attempt < l.attempt) then d
        else go d fresh

/-- READYTMO_EXPIRY (R381, R421): READYTMO after the first READY the leader queries the modules that are missing. -/
def execReadytmoExpiry (s : State) : Out :=
  onSched s fun m => m.onDev fun d => match d.ms.lead with
    | none => d
    | some l =>
      let miss := missingReady d l
      if l.decided ∨ l.deputy ∨ l.asked ≠ [] ∨ miss = [] ∨ isLeader d = false then d
      else (miss.foldl (fun d i => d.sendToken i (myToken d 7 l.step l.attempt)) d).onMs fun s =>
        { s with lead := some { l with asked := miss, status := [] } }

/-- QUERY_TIMEOUT (R381, R389): a module queried has not answered within READYTMO. -/
def execQueryTimeout (s : State) : Out :=
  onSched s fun m => m.onDev fun d => match d.ms.lead with
    | some l => if l.decided ∨ l.asked = [] then d else decideStatus d l true
    | none => d

/-! ## STATUS and QUERY (R381, R389, R391) -/

/-- The STATUS of this module for a step and attempt. -/
def statusToken (d : Dev) (n : Word32) (a : Nat) : Token :=
  let no := nogoCause d n
  let got := match d.ms.commit with
    | some c => if c.1 = n then some c.2.2 else none
    | none => none
  let t := myToken d 8 n a
  { t with mark := d.base.applied, flags := b2n no.isSome + 8 * b2n got.isSome, cause := no.getD 0
           aux := ((got.map (·.toNat))).getD 0 }

/-- The newest of some steps. -/
def newestStep (l : List Word32) : Option Word32 :=
  l.foldl (fun acc x => match acc with
    | some k => if stepNewer x k then some x else acc
    | none => some x) none

/-- The leader has the STATUS of every module after a restart: it rolls back to the oldest APPLIED step reported, unless all
report the same (R391). -/
def rejoinDecide (d : Dev) : Dev :=
  if d.ms.rejoin.length < jobSize d then d
  else
    let marks := d.ms.rejoin.map (·.mark)
    let d := d.onMs fun s => { s with rejoin := [] }
    match oldestStep marks, newestStep marks with
    | some j, some m => if m = j then d else d.sendAll (decision d 4 m (attemptNow d m) (j + 1) 0 0)
    | _, _ => d

/-- A STATUS that nobody asked for: a module has restarted, and the leader collects the STATUS of the others (R391). -/
def rejoinStatus (d : Dev) (t : Token) : Dev :=
  if !isLeader d then d
  else
    let first := d.ms.rejoin = []
    let d := d.onMs fun s => { s with rejoin := addVote s.rejoin t }
    if first then
      let others := (List.range (jobSize d)).filter fun i => i ≠ t.src
      rejoinDecide (others.foldl (fun d i => d.sendToken i (myToken d 7 t.step t.attempt)) d)
    else rejoinDecide d

/-- A STATUS (R381, R389, R391). -/
def onStatus (m : Mod) (t : Token) : Mod :=
  m.onDev fun d => match d.ms.lead with
    | some l =>
      if l.step = t.step ∧ l.attempt = t.attempt ∧ l.decided = false ∧ l.asked.contains t.src then
        let l := { l with status := addVote l.status t }
        decideStatus (d.onMs fun s => { s with lead := some l }) l false
      else rejoinStatus d t
    | none => rejoinStatus d t

/-- The module takes the leader's role for a step and attempt, once: it queries every module (R389). -/
def takeRole (d : Dev) (n : Word32) (a : Nat) : Dev :=
  let k := cfgFabMsCfgKidx d.base
  let changed := leaderOf d ≠ some k
  let d := d.onMs fun s => { s with
    took := s.took ++ [(n, a)], leader := some k
    lead := some ⟨n, a, [], false, [], List.range (jobSize d), [], true, false⟩ }
  let d := if changed then d.raise evMsLeaderChanged { x := some [k] } else d
  d.sendAll (myToken d 7 n a)

/-- A QUERY (R381, R389): answered with STATUS; with DEPUTY set the receiver takes the role, once. -/
def onQuery (m : Mod) (t : Token) : Mod :=
  m.onDev fun d =>
    if t.deputy && !(d.ms.took.contains (t.step, t.attempt)) then takeRole d t.step t.attempt
    else d.sendToken t.src (statusToken d t.step t.attempt)

/-- COMMITTMO_EXPIRY (R389): with no decision, the next deputy candidate is asked to take the role; this module takes it
itself when its turn comes. -/
def execCommittmoExpiry (s : State) : Out :=
  onSched s fun m => m.onDev fun d => match d.ms.sent, leaderOf d with
    | some (n, a), some l =>
      let c := (l + 1 + d.ms.walk) % jobSize d
      let d := d.onMs fun s => { s with walk := s.walk + 1 }
      if c = cfgFabMsCfgKidx d.base then (if d.ms.took.contains (n, a) then d else takeRole d n a)
      else
        let t := myToken d 7 n a
        d.sendToken c { t with flags := 16 }
    | _, _ => d

/-- HOST_LEADER_TIMEOUT (R383). -/
def execHostLeaderTimeout (s : State) : Out :=
  onSched s fun m => m.onDev fun d => match d.ms.sent, leaderOf d with
    | some (n, _), none => d.raise evMsHostTimeout { hasS := true, s := n.toNat }
    | _, _ => d

/-! ## HOLD (R380, R420) -/

/-- HOLD_RESEND (R380): every COMMITTMO / 2 while the leader holds. -/
def execHoldResend (s : State) : Out :=
  onSched s fun m => m.onDev fun d => match d.ms.lead with
    | some l => if l.hold ∧ l.decided = false then d.sendAll (decision d 5 l.step l.attempt 0 0 0) else d
    | none => d

/-- Rebuild a replicated row that milestone `n` wrote from its journal entry; a home record that differs is rewritten
(R359, R420). -/
def repairRow (m : Mod) (n : Word32) (x : Nat × Nat × Nat) : Mod :=
  match tdescAt m x.1 with
  | none => m
  | some t =>
    let v := t.verNum x.2.2
    let e := rowEnt m v.rowmap x.2.1
    match newestEntry m x.1 x.2.1 v.version with
    | none => m
    | some j =>
      let bank := match mileOf m n with
        | some b => b.2
        | none => []
      let good := rebuild t v bank j x.2.1 (entryLink m j)
      if !t.repl ∨ !e.near ∨ j.step ≠ n ∨ recordOf m e t.granRec = good then m
      else ((m.store (64 * e.loc) good).writeReplicas t x.2.1 good).onDev fun d =>
        d.raise evReplRowRepaired { hasS := true, s := n.toNat, row := x.2.1, table := x.1 }

/-- The module takes the sender of a decision as its leader (R389). -/
def takeLeader (d : Dev) (src : Nat) : Dev := match leaderOf d with
  | none => d
  | some l => if l = src then d else (d.onMs fun s => { s with leader := some src }).raise evMsLeaderChanged { x := some [src] }

/-- HOLD restarts COMMITTMO, and with it the walk along the deputies (R380, R389); it is acted on once, a copy does nothing else
(R378, R420). -/
def onHold (m : Mod) (t : Token) : Mod :=
  if m.dev.ms.sent ≠ some (t.step, t.attempt) then m
  else if m.dev.ms.held then m.onDev fun d => d.onMs fun s => { s with walk := 0 }
  else
    let m := m.onDev fun d => (takeLeader d t.src).onMs fun s => { s with walk := 0 }
    let m := m.putStepRec t.step 6 (leBytes 1 (withBits (stepRecByte m t.step 6) 2 2 0))
    let m := (writtenRows m t.step).foldl (fun m x => repairRow m t.step x) m
    let m := m.putStepRec t.step 16 (leBytes 8 (repDigest m t.step))
    m.onDev fun d =>
      let d := d.onMs fun s => { s with held := true, revoted := false }
      if d.ms.sentFd then d.raise evMsDigestHold { hasS := true, s := t.step.toNat } else d

/-- DIGEST_REVOTE_SEND (R420): READY again, once the job program has written FDIGEST anew where the first READY carried one. -/
def execDigestRevoteSend (s : State) : Out :=
  onSched s fun m => match m.dev.ms.sent with
    | some (n, a) =>
      let d := m.dev
      if !d.ms.held ∨ d.ms.revoted ∨ (d.ms.sentFd ∧ bitOf (stepRecByte m n 6) 2 = false) then m
      else
        let fd := d.ms.sentFd
        (sendReady m n a).onDev fun d => d.onMs fun s => { s with revoted := true, sentFd := fd }
    | none => m

/-! ## ABORT and ROLLBACK (R358, R384 to R388) -/

/-- Gradients of steps before `k` that a step to be undone has applied are held again, from the journal (R307, R358). -/
def restageGrads (m : Mod) (n k : Word32) : Mod :=
  (List.range 8).foldl (fun m r =>
    ((regionOf m r).ents.filter fun e => !e.mile && !e.pending && e.step = n).foldl (fun m e =>
      let j := readEntry m r e.off
      let held := m.dev.sow.grads.any fun g => g.table = e.table && g.row = e.row && g.step = j.gstep
      match tdescAt m e.table with
      | some t =>
        if j.kind ≠ jkUpdate ∨ bitOf j.eflags 1 ∨ !stepNewer k j.gstep ∨ held then m
        else
          let g : List Word32 := (List.range t.width).map fun i => BitVec.ofNat 32 (fieldAt j.payload (4 * i) 4)
          m.onDev fun d => d.onSow fun s => { s with
            grads := s.grads ++ [⟨j.gstep, e.table, e.row, g, some (if r < 4 then spineOf e.table e.row else r - 4), none⟩] }
      | none => m) m) m

/-- Undo one step: from the journals, its state and its record (R358, R384). -/
def undoOne (m : Mod) (n k : Word32) (cause : Nat) : Mod :=
  let m := undoStep (restageGrads m n k) n
  let m := putState m n 3
  let m := if m.loadNat (stepRecDa m.dev.base n) 4 = n.toNat then m.putStepRec n 7 (leBytes 1 cause) else m
  (m.onDev fun d => d.modStep n fun x => { x with st := .aborted, last := cause }).unpin (stepHolder n)

/-- A plot whose block is cut off by the end of its step's attempt (log 24). -/
def cutPlot (d : Dev) (logical : Nat) : Dev := match physOf d.base logical with
  | none => d
  | some i => d.modPlot i fun p =>
    let q := stopSeq p.seq
    { p with blocks := [], dmaQ := [], matQ := [], vecQ := [], sendQ := [], recvQ := []
             seq := { q with cur := none, own := none, inflight := [] } }

/-- A cairn of an undone step is VOID once begun; before that its copies start again (R397, R398). -/
def undoCairns (d : Dev) (k : Word32) : Dev :=
  d.ms.cairns.foldl (fun d c =>
    if c.state ≠ 0 ∨ stepNewer k c.step then d
    else if c.begun then d.voidCairn c 1
    else d.onMs fun s => { s with cairns := s.cairns.map fun x => if x = c then
      { c with dense := [], denseDue := c.dense.map (fun r => (r.1, r.2.length)) ++ c.denseDue, cowBytes := 0 } else x }) d

/-- Steps `n` down to `k` are undone, newest first; the plots are released with ABORT, and the re-run is due (R358, R384,
R386). -/
def undoSteps (m : Mod) (n k : Word32) (attempt cause : Nat) : Mod :=
  let mine := (m.dev.ms.steps.filter fun x =>
    (x.st = .staged || x.st = .applied) && !stepNewer k x.step && !stepNewer x.step n).map (·.step)
  let m := (sortBy (fun x => (n - x).toNat) mine).foldl (fun m x => undoOne m x k cause) m
  m.onDev fun d =>
    let d := d.onSow fun s => { s with stage := [], closed := none, replIn := none, app := none, done := [], said := []
                                       grads := s.grads.filter fun g => stepNewer k g.step }
    let d := d.onBase fun b => { b with applied := if stepNewer k b.applied then b.applied else k - 1 }
    let d := undoCairns d k
    let d := d.work.granted.foldl (fun d g => cutPlot d g.1) (releasePlots d false)
    let d := d.onWork fun w => { WorkState.reset with
      waiting := w.waiting, phaseTokens := w.phaseTokens.filter fun x => stepNewer k (BitVec.ofNat 32 x.1) }
    let d := d.onTab fun t => { t with staged := [], distinct := t.distinct.filter fun l => stepNewer k l.step || stepNewer l.step n }
    let d := d.onChk fun c => { c with upds := c.upds.filter fun u => stepNewer k u.step
                                       rbReq := c.rbReq.filter fun x => stepNewer k x.1, heldSaid := none }
    let d := d.onMs fun s => { s with
      decided := some (n, attempt), sent := none, held := false, revoted := false, walk := 0, cur := none, rerun := some k
      commit := match s.commit with
        | some c => if stepNewer k c.1 then some c else none
        | none => none }
    d.raise evStepAborted { hasS := true, s := k.toNat, s2 := some n.toNat, c := cause }

/-- EV_MS_MODULE_LOST of a module that an ABORT tells of the loss; the one that found it has raised it (R381). -/
def saidLost (d : Dev) (t : Token) : Dev :=
  if t.cause = 12 ∧ t.src ≠ cfgFabMsCfgKidx d.base then d.raise evMsModuleLost { hasS := true, s := t.step.toNat, x := some [t.aux] }
  else d

/-- A step that a decision names and that this module has not begun takes its attempt first (DEDUCED, log 25). -/
def meetStep (m : Mod) (t : Token) : Mod :=
  if t.step ≠ m.dev.base.applied + 1 then m
  else match stepInfo m.dev t.step with
    | none => if t.attempt = 0 then stageStep m t.step else m
    | some x => if x.st = .aborted ∧ x.attempt + 1 = t.attempt then stageStep m t.step else m

/-- A step is STAGED in an attempt. -/
def stagedIn (d : Dev) (n : Word32) (a : Nat) : Bool := match stepInfo d n with
  | some x => decide (x.st = .staged) && decide (x.attempt = a)
  | none => false

/-- ABORT (R381, R384). -/
def onAbort (m : Mod) (t : Token) : Mod :=
  let m := if m.dev.ms.decided = some (t.step, t.attempt) then m else meetStep m t
  if m.dev.ms.decided = some (t.step, t.attempt) ∨ stagedIn m.dev t.step t.attempt = false then m
  else undoSteps (m.onDev fun d => saidLost (takeLeader d t.src) t) t.step t.step t.attempt t.cause

/-- The job halts: every STEP_RUN completes, in step order (R386, R455, R616). -/
def haltJob (d : Dev) : Dev :=
  let d := d.ms.runs.foldl (fun d r => d.endDesc r.id (if r.input = some false then 0x13 else 0x1C)
    [r.step.toNat, runResult d r.step, 0]) d
  d.onMs fun s => { s with runs := [], halted := true, cur := none, rerun := none, sent := none }

/-- ROLLBACK (R384, R385). -/
def onRollback (m : Mod) (t : Token) : Mod :=
  if m.dev.ms.decided = some (t.step, t.attempt) ∧ (stepInfo m.dev t.step).any (fun x => x.st = .aborted) then m
  else if !stepNewer t.mark m.dev.base.cleared then
    m.onDev fun d => (haltJob (takeLeader d t.src)).raise evMsRollbackRefused
      { hasS := true, s := t.mark.toNat, s2 := some t.step.toNat }
  else undoSteps ((meetStep m t).onDev fun d => takeLeader d t.src) t.step t.mark t.attempt t.cause

/-- COMMIT (R382). -/
def onCommit (m : Mod) (t : Token) : Mod :=
  if m.dev.ms.decided = some (t.step, t.attempt) ∨ stagedIn m.dev t.step t.attempt = false then m
  else commitStep (m.onDev fun d => takeLeader d t.src) t.step t.attempt t.mark

/-- The job halts rather than re-run: a step has reached RETRY re-runs, or the cause is SUSPECT, MODULE_LOST or MEMORY_LOST
(R386). -/
def mustHalt (d : Dev) (k : Word32) : Bool :=
  d.ms.steps.any fun x => decide (x.st = .aborted) && !stepNewer k x.step
    && (decide (cfgFabMsCfgRetry d.base ≤ x.attempt) || [10, 12, 6].contains x.last)

/-- STEP_RERUN (R386, R387, R455): after an undo the module re-runs from the oldest step undone, its inputs to be read again,
or halts the job. -/
def execStepRerun (s : State) : Out :=
  onSched s fun m => m.onDev fun d => match d.ms.rerun with
    | none => d
    | some k =>
      if mustHalt d k then haltJob d
      else d.onMs fun s => { s with rerun := none
                                    runs := s.runs.map fun r => if stepNewer k r.step then r else { r with input := none, begun := false } }

/-! ## The phase join, the gate, a host leader (R372, R377, R383) -/

/-- A PHASE token (R372). -/
def onPhase (m : Mod) (t : Token) : Mod :=
  m.onDev fun d => d.onWork fun w =>
    if w.phaseTokens.contains (t.step.toNat, t.src) ∨ stepNewer (d.base.applied + 1) t.step then w
    else { w with phaseTokens := w.phaseTokens ++ [(t.step.toNat, t.src)] }

/-- DECIDE_POLL (R383): with a host leader, DECIDE of the step awaited is read; a value that is not its decision is taken as not
yet written. -/
def execDecidePoll (s : State) : Out :=
  onSched s fun m => match m.dev.ms.sent, leaderOf m.dev with
    | some (n, a), none =>
      let b := m.load (stepRecDa m.dev.base n + 192) 64
      let t := parseToken b
      if fieldAt b 60 4 ≠ crc32c (b.take 60) ∨ t.job ≠ cfgFabMsIdJob m.dev.base ∨ t.step ≠ n ∨ t.attempt ≠ a then m
      else match t.type with
        | 2 => onCommit m t
        | 3 => onAbort m t
        | 4 => onRollback m t
        | 5 => onHold m t
        | _ => m
    | _, _ => m

/-- GATE_TIMEOUT (R377): GATE is not set within COMMITTMO of the last block's completion. -/
def execGateTimeout (s : State) : Out :=
  onSched s fun m0 => match m0.dev.ms.cur with
    | none => m0
    | some n =>
      let m := stageIfDone m0 n
      let gate := bitOf (stepRecByte m n 6) 1
      match stepInfo m.dev n with
      | some x =>
        if cfgFabMsCfgClipgate m.dev.base = 0 ∨ gate ∨ x.st ≠ .staged ∨ blocksDone m.dev n = false ∨ m.dev.ms.sent.isSome
            ∨ m.dev.ms.noJob then m0
        else sendReady (m.onDev fun d => (d.raise evMsGateTimeout { hasS := true, s := n.toNat }).failStep n 8) n x.attempt
      | none => m0

/-! ## Tokens arrive (R378, R511, R526, R527, R530) -/

/-- Act on a token by its TYPE (Table 9.6). -/
def tokenAct (m : Mod) (t : Token) : Mod :=
  match t.type with
  | 1 => onReady m t
  | 2 => onCommit m t
  | 3 => onAbort m t
  | 4 => onRollback m t
  | 5 => onHold m t
  | 6 => onPhase m t
  | 7 => onQuery m t
  | 8 => onStatus m t
  | _ => m

/-- A READY with NOGO and CAUSE CHECK_FAIL, to the leader (R530). -/
def nogoReady (d : Dev) (n : Word32) (a : Nat) : Dev := match leaderOf d with
  | some l => d.sendToken l { myToken d 1 n a with flags := 1, cause := 9 }
  | none => d

/-- The token path of the hub, of a module left without a scheduler role (R530). -/
def tokenPath (d : Dev) (t : Token) : Dev :=
  match t.type with
  | 3 => nogoReady d t.step (t.attempt + 1)
  | 4 => nogoReady d t.mark (t.attempt + 1)
  | 5 => nogoReady d t.step t.attempt
  | 7 => d.sendToken t.src { myToken d 8 t.step t.attempt with mark := d.base.applied, flags := 1, cause := 9 }
  | _ => d

/-- Take a token: discarded and counted (R378); answered by the token path where the scheduler role is lost (R530); held while
a scheduler core restarts (R526, R527); or acted on. With no firmware loaded nothing takes it. -/
def takeToken (m : Mod) (token : BitVec 512) : Mod :=
  let b := leBytes 64 token.toNat
  let d := m.dev
  if d.fw.lost.contains 2 then (if discards d b then m else m.onDev fun d => tokenPath d (parseToken b))
  else if schedUp d then
    (if discards d b then m.onDev fun d => d.count cMsTokenDrop 0 1 else tokenAct m (parseToken b))
  else if (procOf d (activeId d 2)).restarting then m.onDev fun d => d.onFw fun w => { w with held := w.held ++ [token] }
  else m

/-- Receive 64 bytes as a token of a type. A token of another type is for the command that receives it (log 10); one that R378
discards has no type. -/
def receive (s : State) (token : BitVec 512) (type : Nat) : Out :=
  onPlane s fun m =>
    let b := leBytes 64 token.toNat
    if discards m.dev b ∨ (parseToken b).type = type then takeToken m token else m

/-- READY_RECEIVE (R378, R380, R421). -/
def execReadyReceive (token : BitVec 512) (s : State) : Out := receive s token 1

/-- COMMIT_RECEIVE (R378, R382, R389). -/
def execCommitReceive (token : BitVec 512) (s : State) : Out := receive s token 2

/-- ABORT_RECEIVE (R378, R384, R386, R389). -/
def execAbortReceive (token : BitVec 512) (s : State) : Out := receive s token 3

/-- ROLLBACK_RECEIVE (R378, R384 to R386, R389). -/
def execRollbackReceive (token : BitVec 512) (s : State) : Out := receive s token 4

/-- HOLD_RECEIVE (R378, R380, R420). -/
def execHoldReceive (token : BitVec 512) (s : State) : Out := receive s token 5

/-- PHASE_TOKEN_RECEIVE (R372, R378). -/
def execPhaseTokenReceive (token : BitVec 512) (s : State) : Out := receive s token 6

/-- QUERY_RECEIVE (R381, R389). -/
def execQueryReceive (token : BitVec 512) (s : State) : Out := receive s token 7

/-- STATUS_RECEIVE (R381, R389, R391). -/
def execStatusReceive (token : BitVec 512) (s : State) : Out := receive s token 8

/-- TOKEN_PATH_NOGO (R530): a token comes to a module without a scheduler role. -/
def execTokenPathNogo (token : BitVec 512) (s : State) : Out :=
  onPlane s fun m => if m.dev.fw.lost.contains 2 then takeToken m token else m

/-! ## Rejoin (R391) -/

/-- MODULE_REJOIN (R360, R391): a module that has restarted with its tiers intact recovers its journals and sends STATUS to the
leader. -/
def execModuleRejoin (s : State) : Out :=
  onSched s fun m => match m.dev.ms.rejoinDue with
    | none => m
    | some link =>
      let app := m.dev.sow.app
      let m := (List.range 8).foldl (fun m r => (recoverRegion m r app).onDev fun d => d.modRegion r fun g => { g with opened := none }) m
      let m := match app with
        | some n => if link then undoStep m n else m
        | none => m
      m.onDev fun d =>
        let d := d.onMs fun s => { s with rejoinDue := none }
        match leaderOf d with
        | some l => d.sendToken l (statusToken d d.base.applied (attemptNow d d.base.applied))
        | none => d

end Sys2Proof.Machine
end

