-- ==== Sys2Proof/Machine/Cairns.lean ====
section
/-!
DEFINITION. Cairns: the sweep, the copies of dense regions, sealing and voiding (09_training_step_and_milestones R395 to
R400).
-/

namespace Sys2Proof.Machine

/-- Change a cairn. -/
def Dev.putCairn (d : Dev) (c c' : Cairn) : Dev :=
  d.onMs fun s => { s with cairns := s.cairns.map fun x => if x = c then c' else x }

/-- The own cairn in progress at a step. -/
def openCairn (d : Dev) (n : Word32) : Option Cairn := d.ms.cairns.find? fun c => c.state = 0 && c.step = n && c.role = 0

/-- The table of a cairn that a sweep position lies in, or the next one: its descriptor and the row. -/
def sweepAt (c : Cairn) (key : Nat) : Option (TDesc × Nat) :=
  ((c.tables.map parseTd).filter fun t => t.kind = 0).findSome? fun t =>
    let v := t.verAt c.step
    if key / 2 ^ 40 < t.id then some (t, 0)
    else if key / 2 ^ 40 = t.id ∧ key % 2 ^ 40 < v.extent then some (t, key % 2 ^ 40) else none

/-- Sweep one row: where its bit is clear the row is read as of the cairn's step; an ABSENT row is not written. None past the
last row. -/
def sweepOne (m : Mod) (c : Cairn) : Cairn :=
  match c.sweep with
  | none => c
  | some key => match sweepAt c key with
    | none => { c with sweep := none }
    | some (t, row) =>
      let k := rowKey t.id row
      let next := some (k + 1)
      if k ∈ c.bits then { c with sweep := next }
      else
        let x := readRow m t (t.verAt c.step) row c.step t.granRec
        { c with sweep := next, bits := c.bits ++ [k], rows := if x.gst = gstOk then kput c.rows k x.data else c.rows }

/-- Sweep up to `n` rows. -/
def sweepRows (m : Mod) : Nat → Cairn → Cairn
  | 0, c => c
  | n + 1, c => sweepRows m n (sweepOne m c)

/-- CAIRN_SWEEP (R396, R399): what the COW buffer holds is programmed first, then the next `rows` rows. -/
def execCairnSweep (step : Word32) (rows : Nat) (s : State) : Out :=
  onPlane s fun m => match openCairn m.dev step with
    | none => m
    | some c =>
      if !c.begun then m
      else
        let c1 := { c with rows := c.cow.foldl (fun r e => kput r e.1 e.2) c.rows, cow := [], cowBytes := 0 }
        m.onDev fun d => d.putCairn c (sweepRows m rows c1)

/-- DENSE_COW_COPY (R397): after every block of step c has completed, before COMMIT(c) releases the plots. -/
def execDenseCowCopy (step : Word32) (s : State) : Out :=
  onPlane s fun m => match openCairn m.dev step with
    | none => m
    | some c => if c.begun ∨ m.dev.ms.cur ≠ some step ∨ blocksDone m.dev step = false then m else copyDense m c

/-- CAIRN_VOID (R398, R400): a cairn that a reset has overtaken becomes VOID, and one that is VOID ends its descriptor, holds no
pin and is reclaimed. -/
def execCairnVoid (step : Word32) (s : State) : Out :=
  onPlane s fun m => match m.dev.ms.cairns.find? fun c => c.step = step && c.role = 0 && (c.state = 2 || (c.state = 0 && c.pastReset)) with
    | none => m
    | some c =>
      let m := if c.state = 0 then m.onDev fun d => d.raise evCairnAborted { hasS := true, s := step.toNat, c := 2 } else m
      let m := m.unpin c.id
      m.onDev fun d =>
        let blocks := (Config.freeWord d.base.fresh).toNat
        let d := (d.onMs fun s => { s with cairns := s.cairns.filter fun x => !(x.step = step && x.role = 0 && (x = c || x.state = 2)) }).tickFresh
        if c.pastReset then d else d.endDesc c.id 0x20 [step.toNat, blocks, 0]

/-- Sealed cairns of a role beyond KEEP are reclaimed, oldest first (R399). -/
def keepCairns (d : Dev) (role : Nat) : Dev :=
  let l := d.ms.cairns.filter fun c => c.state = 1 && c.role = role
  let old := l.take (l.length - cfgFlsCairnCfgKeep d.base)
  d.onMs fun s => { s with cairns := s.cairns.filter fun c => !old.contains c }

/-- CAIRN_SEAL (R399): once everything is programmed, step c is CLEARED and, with MIRROR, the mirror module has reported its
copy (`mirror`). The blocks it counts are a free value: the spec does not fix how records fill blocks (log 26). -/
def execCairnSeal (step : Word32) (mirror : Bool) (s : State) : Out :=
  onPlane s fun m => match openCairn m.dev step with
    | none => m
    | some c =>
      let d := m.dev
      if !c.begun ∨ c.cow ≠ [] ∨ c.sweep.isSome ∨ c.denseDue ≠ [] ∨ stepNewer step d.base.cleared
          ∨ (cfgFlsCairnCfgMirror d.base = 1 ∧ mirror = false) then m
      else
        let blocks := (Config.freeWord d.base.fresh).toNat
        (m.onDev fun d =>
          let d := (d.putCairn c { c with state := 1 }).tickFresh
          let d := (d.raise evCairnSealed { hasS := true, s := step.toNat, n := blocks }).endDesc c.id 0 [step.toNat, blocks, 0]
          keepCairns d 0).unpin c.id

end Sys2Proof.Machine
end

