-- ==== Sys2Proof/Machine/Coll.lean ====
section
/-!
DEFINITION. Collectives of the Azlek engine (12_azlek_fabric R503 to R510).
-/

namespace Sys2Proof.Machine

/-! ## Descriptors (Table 12.5) -/

/-- DA of a collective slot's descriptor. -/
def collDa (b : BaseState) (slot : Nat) : Nat := cfgFabCollBaseBase b * 2 ^ 19 + 128 * slot
/-- CKIND. -/
def collKind (b : List Byte) : Nat := fieldAt b 0 1
/-- EFMT. -/
def collEfmt (b : List Byte) : Nat := fieldAt b 1 1
/-- OFMT. -/
def collOfmt (b : List Byte) : Nat := fieldAt b 2 1
/-- NSRC. -/
def collNsrc (b : List Byte) : Nat := fieldAt b 8 2
/-- NBUF. -/
def collNbuf (b : List Byte) : Nat := fieldAt b 10 1
/-- SLOTSZ. -/
def collSlotsz (b : List Byte) : Nat := fieldAt b 12 4
/-- NSLOT. -/
def collNslot (b : List Byte) : Nat := fieldAt b 16 4
/-- TOTALU. -/
def collTotal (b : List Byte) : Nat := fieldAt b 20 4
/-- RBUF. -/
def collRbuf (b : List Byte) : Nat := fieldAt b 24 8
/-- RLEN. -/
def collRlen (b : List Byte) : Nat := fieldAt b 32 8
/-- PMAP. -/
def collPmap (b : List Byte) : Nat := fieldAt b 40 8

/-- Members of a slot. -/
def collMembers (d : Dev) (b : List Byte) : Nat := if bitOf (fieldAt b 3 1) 1 then fieldAt b 6 2 + 1 else jobSize d

/-- Job index of the first member. -/
def collFirst (b : List Byte) : Nat := if bitOf (fieldAt b 3 1) 1 then fieldAt b 4 2 else 0

/-- This module's position. -/
def collPos (d : Dev) (b : List Byte) : Nat := cfgFabMsCfgKidx d.base - collFirst b

/-- Module id of a position. -/
def collMod (d : Dev) (b : List Byte) (i : Nat) : Nat := cfgFabJobmapModid d.base (collFirst b + i)

/-- Position of a module. -/
def collPosOf (d : Dev) (b : List Byte) (id : Nat) : Option Nat := (List.range (collMembers d b)).find? fun i => collMod d b i = id

/-- Bytes of a unit, by EFMT (12, after Table 12.6). -/
def unitBytes (efmt : Nat) : Nat := match efmt with
  | 1 => 4
  | 2 => 2
  | 3 => 16
  | 4 => 1040
  | 5 => 2624
  | _ => 1

/-- EFMT is FP32 or BF16. -/
def efmtFloat (e : Nat) : Bool := e == 1 || e == 2

/-- Units of a full share, S (R506). -/
def collShare (d : Dev) (b : List Byte) : Nat :=
  let n := collMembers d b
  let t := collTotal b
  if efmtFloat (collEfmt b) then 32 * ((t + 32 * n - 1) / (32 * n)) else (t + n - 1) / n

/-- Units of a position's share. -/
def shareUnits (d : Dev) (b : List Byte) (i : Nat) : Nat :=
  min (collTotal b) ((i + 1) * collShare d b) - min (collTotal b) (i * collShare d b)

/-- The engine may use a range: it can be read and written, and lies in no neighbour window. -/
def collRange (d : Dev) (da n : Nat) : Bool :=
  n == 0 || ((accessFault d true da n).isNone && (accessFault d false da n).isNone && (match daPlace da with
    | .window _ _ => false
    | _ => true))

/-- Bytes of the receive area that an epoch needs. -/
def collNeeds (d : Dev) (b : List Byte) : Nat :=
  let t := collTotal b
  match collKind b with
  | 1 => collMembers d b * collNslot b * collSlotsz b
  | 2 => if collEfmt b = 3 then 0 else shareUnits d b (collPos d b) * unitBytes (collOfmt b)
  | 3 => if collEfmt b = 3 then 0 else t * unitBytes (collOfmt b)
  | 4 => if collEfmt b = 3 then 0 else t * unitBytes (collEfmt b)
  | _ => 0

/-- Bytes of the accumulator area that an epoch needs: an entry of a gradient stage for each group of 32, or a unit (R506). -/
def collAccNeeds (d : Dev) (b : List Byte) : Nat :=
  let u := shareUnits d b (collPos d b)
  if collKind b ≠ 2 ∧ collKind b ≠ 3 then 0
  else if efmtFloat (collEfmt b) then 528 * ((u + 31) / 32) else if collEfmt b = 3 then 0 else u * unitBytes (collEfmt b)

/-- The engine's check at the start of an epoch (R504, Table 12.5). -/
def collOk (d : Dev) (b : List Byte) : Bool :=
  let k := collKind b
  let e := collEfmt b
  let o := collOfmt b
  let n := collMembers d b
  let kidx := cfgFabMsCfgKidx d.base
  let reduces := k == 2 || k == 3
  decide (crc32c (b.take 92) = fieldAt b 92 4) && decide (1 ≤ k ∧ k ≤ 5) && decide (e ≤ 5)
    && (if efmtFloat e then efmtFloat o else o == e) && (!reduces || e != 0) && decide (fieldAt b 3 1 < 4)
    && decide (fieldAt b 4 2 < 4096 ∧ fieldAt b 6 2 < 4096) && decide (collFirst b + n ≤ jobSize d)
    && decide (collFirst b ≤ kidx ∧ kidx < collFirst b + n) && decide (1 ≤ collNsrc b ∧ collNsrc b ≤ 4096)
    && (k != 5 || decide (2 ≤ collNbuf b ∧ collNbuf b ≤ 4)) && decide (fieldAt b 11 1 = 0)
    && (k != 1 || decide (0 < collSlotsz b ∧ collSlotsz b % 64 = 0)) && decide (fieldAt b 64 1 ≤ 2)
    && decide (fieldAt b 65 1 < 16 ∧ fieldAt b 66 2 < 4096 ∧ fieldAt b 68 4 < 2 ^ 20) && decide (fieldAt b 74 18 = 0)
    && decide (collNeeds d b ≤ collRlen b) && collRange d (collRbuf b) (if k = 5 then collNbuf b * collRlen b else collRlen b)
    && (k != 1 || collPmap b == 0 || collRange d (collPmap b) ((n * collNslot b + 7) / 8))
    && decide (collAccNeeds d b ≤ fieldAt b 56 8) && (!reduces || collRange d (fieldAt b 48 8) (fieldAt b 56 8))

/-! ## Slots -/

/-- A slot's epoch. -/
def collOf (d : Dev) (slot : Nat) : Coll := kget Coll.reset d.fab.colls slot

/-- Change a slot's epoch. -/
def Mod.modColl (m : Mod) (slot : Nat) (f : Coll → Coll) : Mod :=
  m.onDev fun d => d.onFab fun x => { x with colls := kmod Coll.reset x.colls slot f }

/-- Write STATE and EPOCH of the live part. -/
def Mod.putColl (m : Mod) (slot state : Nat) (epoch : Word32) : Mod :=
  (m.storeNat (collDa m.dev.base slot + 96) 1 state).storeNat (collDa m.dev.base slot + 100) 4 epoch.toNat

/-- Apply DKIND: DINC to a token counter, or off a dependency slot (R508). -/
def collSignal (m : Mod) (b : List Byte) : Mod :=
  match fieldAt b 64 1 with
  | 1 => match physOf m.dev.base (fieldAt b 66 2 % 4096) with
    | some i => m.onDev fun d => d.addTok i (fieldAt b 65 1 % 16) (fieldAt b 72 2)
    | none => m
  | 2 => decSlot m (fieldAt b 68 4 % 2 ^ 20) (fieldAt b 72 2)
  | _ => m

/-- The epoch ends on this module: its record keeps only the epoch. -/
def collStop (m : Mod) (slot state : Nat) (epoch : Word32) (b : List Byte) : Mod :=
  (m.modColl slot fun _ => { Coll.reset with epoch := epoch, desc := b }).putColl slot state epoch

/-- An epoch fails: STATE FAILED, the completion's signal, and NOGO on the next READY with the cause given (R504, R508). -/
def collFail (m : Mod) (slot : Nat) (epoch : Word32) (b : List Byte) (cause : Option Nat) : Mod :=
  (collSignal (collStop m slot 3 epoch b) b).onDev fun d => match cause with
    | some c => d.onMs fun x => { x with nogoNext := some c }
    | none => d

/-- Write into the receive area. -/
def collStore (m : Mod) (slot da : Nat) (bs : List Byte) : Mod :=
  match m.demandWrite (.engine slot) da bs with
  | .ok m1 => m1
  | .error f => m.onDev fun d => d.raiseAccess f

/-- Read the receive area or the presence bitmap. -/
def collRead (m : Mod) (slot da n : Nat) : List Byte :=
  match m.demandRead (.engine slot) da n with
  | .ok b => b
  | .error _ => zeros n

/-- Terms of a reduction have lost bits: counted, and said once (R509). -/
def collLost (m : Mod) (slot n : Nat) : Mod :=
  if n = 0 then m
  else
    let a := collDa m.dev.base slot + 104
    let cnt := min (2 ^ 32 - 1) (m.loadNat a 4 + n)
    let said := (collOf m.dev slot).said
    let m := ((m.storeNat a 4 cnt).modColl slot fun c => { c with said := true }).onDev fun d => d.count cFabRedInexact 0 n
    if said then m else m.onDev fun d => d.raise evFabRedInexact { t := slot, n := cnt }

/-! ## Sums (R506) -/

/-- A sum of no terms. -/
def AccUnit.zero : AccUnit := ⟨none, 0, false, 0, List.replicate 32 Wide.zero⟩

/-- As an entry of a gradient stage (R323). -/
def AccUnit.entry (a : AccUnit) : StageEntry := ⟨0, 0, a.anchor, a.elems, a.inexact⟩

/-- From an entry. -/
def AccUnit.ofEntry (a : AccUnit) (e : StageEntry) : AccUnit := { a with anchor := e.anchor, elems := e.elems, inexact := e.inexact }

/-- Values of FP32 or BF16 units. -/
def unitVals (efmt : Nat) (bs : List Byte) : List Num :=
  let f := if efmt = 1 then Fmt.fp32 else Fmt.bf16
  (chunks (unitBytes efmt) 32 bs).map fun b => f.decode (leNat b)

/-- Add up to 32 values of a group (R324); how many lost a bit. -/
def AccUnit.addVals (a : AccUnit) (vs : List Num) : AccUnit × Nat :=
  let r := (vs.zipIdx).foldl (fun (acc : StageEntry × Nat) v =>
    let x := acc.1.add v.2 v.1
    (x.1, acc.2 + x.2)) (a.entry, 0)
  (a.ofEntry r.1, r.2)

/-- Add a WIDE208 unit (R157). -/
def AccUnit.add208 (a : AccUnit) (b : List Byte) : AccUnit × Nat :=
  let al := sext 10 (fieldAt b 0 2)
  let es := (List.range 32).map fun i => wideElem b (16 + 32 * i)
  let t := addRecords [(al, fieldAt b 2 2, bitOf (fieldAt b 4 1) 0, es)] 1024 ⟨a.anchor.getD al, a.elems, 0, 0, 0, false⟩
  ({ a with anchor := some t.al, elems := t.elems, cnt := min 65535 (a.cnt + t.inexIn + t.lost)
            inexact := a.inexact || t.inexOr || decide (0 < t.lost) }, t.lost)

/-- Line j of a wide reduction record (Table 5.5). -/
def wideLineAt (b : List Byte) (j : Nat) : Wide :=
  let v := fieldAt b (64 + 80 * j) 80
  ⟨sext 600 v, bitOf v 600, bitOf v 601, bitOf v 602, bitOf v 603, bitOf v 604⟩

/-- Add a WIDE600 unit. -/
def AccUnit.add600 (a : AccUnit) (b : List Byte) : AccUnit × Nat :=
  ({ a with cnt := a.cnt + fieldAt b 0 4, kind := fieldAt b 4 1
            elems := (a.elems.zipIdx).map fun e => e.1.join (wideLineAt b e.2) }, 0)

/-- The sum that the bytes of a SOW128 entry hold. An entry whose every X is 0 has no anchor (DESIGN CHOICE, log 37). -/
def sowSum (b : List Byte) : AccUnit :=
  let w := 32 * fieldAt b 12 2
  let es : List Wide := (List.range w).map fun i =>
    let v := fieldAt b (16 + 16 * i) 16
    ⟨sext 120 v, bitOf v 120, bitOf v 121, bitOf v 122, bitOf v 123, bitOf v 124⟩
  ⟨if es.all (fun e => e.x == 0) then none else some (sext 10 (fieldAt b 8 2)), 0, bitOf (fieldAt b 10 1) 0, 0, es⟩

/-- The bytes of an element of a gradient stage (R323). -/
def sowElemBytes (w : Wide) : List Byte :=
  leBytes 16 (modPow 120 w.x + 2 ^ 120 * b2n w.nan + 2 ^ 121 * b2n w.pinf + 2 ^ 122 * b2n w.ninf + 2 ^ 123 * b2n w.term
    + 2 ^ 124 * b2n w.notneg0)

/-- The bytes of a SOW128 entry. -/
def sowBytes (key : Nat) (a : AccUnit) : List Byte :=
  leBytes 8 key ++ leBytes 2 (modPow 10 (a.anchor.getD 0)) ++ leBytes 1 (b2n a.inexact) ++ zeros 1 ++ leBytes 2 (a.elems.length / 32)
    ++ zeros 2 ++ (a.elems.map sowElemBytes).flatten

/-- Cut a string of SOW128 entries. -/
def sowEntries : Nat → List Byte → List (List Byte)
  | 0, _ => []
  | fuel + 1, b =>
    let n := 16 + 512 * fieldAt b 12 2
    if b = [] then [] else b.take n :: sowEntries fuel (b.drop n)

/-- Entries of a string. -/
def sowSplit (b : List Byte) : List (List Byte) := sowEntries (b.length / 16 + 1) b

/-- Row and table of an entry (its key's bytes 0–7). -/
def sowKey (b : List Byte) : Nat := fieldAt b 0 8

/-- Owner of a key (R506). -/
def sowOwner (d : Dev) (desc b : List Byte) : Nat := crc32c (b.take 8) / 65536 % collMembers d desc

/-- A unit's sum as it is written: rounded once to OFMT, or unrounded (R506). -/
def AccUnit.out (a : AccUnit) (desc : List Byte) : List Byte :=
  match collEfmt desc with
  | 4 => leBytes 2 (modPow 10 (a.anchor.getD 0)) ++ leBytes 2 a.cnt ++ leBytes 1 (b2n a.inexact) ++ zeros 11
    ++ (a.elems.map wideElemBytes).flatten
  | 5 => leBytes 4 a.cnt ++ leBytes 1 a.kind ++ zeros 59 ++ (a.elems.map wideLineBytes).flatten
  | _ =>
    let vs := a.elems.map fun w => w.read ((a.anchor.getD 0) - 96)
    if collOfmt desc = 1 then (vs.map fun v => leBytes 4 (toF32 v)).flatten
    else (vs.map fun v => leBytes 2 (Fmt.bf16.convert true .rne v).code).flatten

/-! ## Chunks (Table 12.6) -/

/-- What a chunk's data holds, unit by unit: a group of 32, a unit, an entry, a slot, or a run of bytes, with its first unit. -/
def collItems (desc : List Byte) (off : Nat) (data : List Byte) : List (Nat × List Byte) :=
  let cut := fun (n step : Nat) => ((chunks n (data.length / max 1 n + 1) data).zipIdx).map fun c => (off + step * c.2, c.1)
  if collKind desc = 1 then cut (collSlotsz desc) 1
  else match collEfmt desc with
    | 0 => cut 4096 4096
    | 1 => cut 128 32
    | 2 => cut 64 32
    | 3 => (sowSplit data).map fun b => (0, b)
    | e => cut (unitBytes e) 1

/-- Units of an item. -/
def itemUnits (desc : List Byte) (bs : List Byte) : Nat :=
  if collKind desc = 1 ∨ collEfmt desc = 3 then 1 else (bs.length + unitBytes (collEfmt desc) - 1) / unitBytes (collEfmt desc)

/-- Send an item to another member: SC1 messages; an item longer than a message in pieces, each with its place (DESIGN CHOICE,
log 34). -/
def Dev.sendColl (d : Dev) (slot dst : Nat) (c : Coll) (off : Nat) (share : Bool) (bs : List Byte) : Dev :=
  let aux := collPos d c.desc + 2 ^ 31 * b2n share
  let send := fun (d : Dev) (rtag : Nat) (p : List Byte) =>
    d.sendMsg (collMod d c.desc dst) clsSc1 0x10 (slot + 2 ^ 16 * off) c.epoch.toNat rtag aux p
  if bs.length ≤ 4096 then send d 0 bs
  else ((chunks 4096 (bs.length / 4096 + 1) bs).zipIdx).foldl (fun d p => send d (bs.length * 65536 + 4096 * p.2) p.1) d

/-- Send COLL_END to a member. -/
def Dev.sendEnd (d : Dev) (slot dst : Nat) (c : Coll) (rtag n : Nat) : Dev :=
  d.sendMsg (collMod d c.desc dst) clsCtrl 0x11 slot c.epoch.toNat rtag n []

/-- Add to a number kept by position. -/
def bump (k : KMap Nat) (i n : Nat) : KMap Nat := kset 0 k i (kget 0 k i + n)

/-- A slot of ALLTOALL arrives: written in the receive area, its presence bit set (R505). -/
def takeSlot (m : Mod) (slot src s : Nat) (bs : List Byte) : Mod :=
  let c := collOf m.dev slot
  let b := c.desc
  let j := src * collNslot b + s
  if collNslot b ≤ s then m
  else
    let m := collStore m slot (collRbuf b + j * collSlotsz b) bs
    let pa := collPmap b + j / 8
    let m := if collPmap b = 0 then m
      else collStore m slot pa (leBytes 1 (withBits (leNat (collRead m slot pa 1)) (j % 8) (j % 8) 1))
    m.modColl slot fun c => { c with got := bump c.got src 1, written := if c.written.contains j then c.written else c.written ++ [j] }

/-- A contribution arrives at its owner and is added, in the order of arrival (R506, R509). -/
def takeTerm (m : Mod) (slot src off : Nat) (bs : List Byte) : Mod :=
  let c := collOf m.dev slot
  let b := c.desc
  let got := fun (m : Mod) => m.modColl slot fun c => { c with got := bump c.got src (itemUnits b bs) }
  if collEfmt b = 3 then
    let key := sowKey bs
    let new := sowSum bs
    match c.keys.find? fun x => x.1 = key with
    | none => got (m.modColl slot fun c => { c with keys := c.keys ++ [(key, new)] })
    | some x =>
      let r := x.2.entry.join new.entry
      collLost (got (m.modColl slot fun c => { c with
        keys := c.keys.map fun y => if y.1 = key then (key, x.2.ofEntry r.1) else y })) slot r.2
  else
    let k := if efmtFloat (collEfmt b) then off / 32 else off
    let a := kget AccUnit.zero c.acc k
    let r := match collEfmt b with
      | 4 => a.add208 bs
      | 5 => a.add600 bs
      | e => a.addVals (unitVals e bs)
    collLost (got (m.modColl slot fun c => { c with acc := kput c.acc k r.1 })) slot r.2

/-- Units of another member's share, or of its part of an ALL_GATHER, arrive and are written (R507). -/
def takeShare (m : Mod) (slot src off : Nat) (share : Bool) (bs : List Byte) : Mod :=
  let b := (collOf m.dev slot).desc
  let ub := unitBytes (if collKind b = 3 then collOfmt b else collEfmt b)
  let n := if collEfmt b = 3 then 1 else (bs.length + ub - 1) / ub
  let m := m.modColl slot fun c => if share then { c with got2 := bump c.got2 src n } else { c with got := bump c.got src n }
  if collEfmt b = 3 then m.modColl slot fun c => { c with shares := kset [] c.shares src (kget [] c.shares src ++ bs) }
  else if off * ub + bs.length ≤ collRlen b then collStore m slot (collRbuf b + off * ub) bs else m

/-- An item arrives at this member. -/
def takeItem (m : Mod) (slot src off : Nat) (share : Bool) (bs : List Byte) : Mod :=
  let b := (collOf m.dev slot).desc
  match collKind b with
  | 1 => takeSlot m slot src off bs
  | 4 => takeShare m slot src off false bs
  | _ => if share then takeShare m slot src off true bs else takeTerm m slot src off bs

/-- Give an item to a position: this member takes it at once, another one is sent it. -/
def giveItem (m : Mod) (slot dst off : Nat) (share : Bool) (bs : List Byte) : Mod :=
  let c := collOf m.dev slot
  if dst = collPos m.dev c.desc then takeItem m slot dst off share bs else m.onDev fun d => d.sendColl slot dst c off share bs

/-- The data of a local chunk goes where it belongs (R505 to R507); what names no member, slot or unit of the slot is dropped. -/
def giveChunk (m : Mod) (k : Chunk) : Mod :=
  let b := (collOf m.dev k.slot).desc
  let n := collMembers m.dev b
  let sent := fun (m : Mod) (dst u : Nat) => m.modColl k.slot fun c => { c with sent := bump c.sent dst u }
  let off := if collKind b = 1 then k.sl else k.off
  let bad := efmtFloat (collEfmt b) && decide (collKind b ≠ 1) && decide (k.off % 32 ≠ 0)
  if bad then m
  else (collItems b off k.data).foldl (fun m i =>
    let u := itemUnits b i.2
    match collKind b with
    | 1 => if n ≤ k.dpos ∨ collNslot b ≤ i.1 ∨ i.2.length < collSlotsz b then m else giveItem (sent m k.dpos 1) k.slot k.dpos i.1 false i.2
    | 4 => (List.range n).foldl (fun m dst => giveItem (sent m dst u) k.slot dst i.1 false i.2) m
    | _ =>
      if collEfmt b = 3 then
        let dst := sowOwner m.dev b i.2
        giveItem (sent m dst 1) k.slot dst 0 false i.2
      else if collTotal b ≤ i.1 then m
      else
        let bs := i.2.take ((collTotal b - i.1) * unitBytes (collEfmt b))
        let dst := i.1 / max 1 (collShare m.dev b)
        giveItem (sent m dst (itemUnits b bs)) k.slot dst i.1 false bs) m

/-! ## Ring pass (R510) -/

/-- A local chunk of the block, or a RELEASE of a buffer. -/
def ringChunk (m : Mod) (k : Chunk) : Mod :=
  m.modColl k.slot fun c =>
    if k.cop = 3 then
      match (sortBy id (c.arrived.filter fun r => !c.freed.contains r)).find? fun r => decide (r % max 1 (collNbuf c.desc) = k.sl) with
      | some r => { c with released := bump c.released r 1 }
      | none => c
    else if collRlen c.desc < k.off + k.data.length ∨ k.data = [] then c
    else { c with block := c.block ++ [(k.off, k.data)] }

/-- A piece of the block of a rotation arrives. -/
def ringTake (m : Mod) (slot r off : Nat) (bs : List Byte) : Mod :=
  let b := (collOf m.dev slot).desc
  if collRlen b < off + bs.length ∨ r = 0 ∨ collMembers m.dev b ≤ r then m
  else (collStore m slot (collRbuf b + r % collNbuf b * collRlen b + off) bs).modColl slot fun c =>
    { c with rotGot := bump c.rotGot r bs.length }

/-- Send the block of the next rotation, once it is here and its buffer is granted. -/
def ringSend (m : Mod) (slot : Nat) : Mod :=
  let c := collOf m.dev slot
  let b := c.desc
  let n := collMembers m.dev b
  let r := c.nextRot
  let here := if r = 1 then decide (collNsrc b ≤ c.lasts) else c.arrived.contains (r - 1)
  if n ≤ r ∨ here = false ∨ c.grants.contains (r % collNbuf b) = false then m
  else
    let parts : List (Nat × List Byte) := if r = 1 then c.block
      else [(0, collRead m slot (collRbuf b + (r - 1) % collNbuf b * collRlen b) (kget 0 c.rotGot (r - 1)))]
    let dst := (collPos m.dev b + 1) % n
    let pieces := parts.flatMap fun p => ((chunks 4096 (p.2.length / 4096 + 1) p.2).zipIdx).map fun x => (p.1 + 4096 * x.2, x.1)
    (m.onDev fun d =>
      let d := pieces.foldl (fun (d : Dev) p => d.sendMsg (collMod d b dst) clsSc1 0x10 (slot + 2 ^ 16 * p.1) c.epoch.toNat r
        (collPos d b) p.2) d
      d.sendEnd slot dst c r (sumNat (pieces.map (·.2.length)))).modColl slot fun c =>
        { c with nextRot := r + 1, grants := c.grants.erase (r % collNbuf b) }

/-- Rotations that have arrived whole: DKIND once for each. -/
def ringArrive (m : Mod) (slot : Nat) : Mod :=
  let c := collOf m.dev slot
  match (c.rotEnd.map (·.1)).find? fun r => !c.arrived.contains r && decide (kget 0 c.rotEnd r ≤ kget 0 c.rotGot r) with
  | some r => collSignal (m.modColl slot fun c => { c with arrived := c.arrived ++ [r] }) c.desc
  | none => m

/-- Free the buffers that have been forwarded and released, and grant them again to the member before. -/
def ringFree (m : Mod) (slot : Nat) : Mod :=
  let c := collOf m.dev slot
  let b := c.desc
  let n := collMembers m.dev b
  match c.arrived.find? fun r => !c.freed.contains r && decide (collNsrc b ≤ kget 0 c.released r)
      && (decide (n ≤ r + 1) || decide (r + 1 < c.nextRot)) with
  | none => m
  | some r =>
    let m := m.modColl slot fun c => { c with freed := c.freed ++ [r] }
    if n ≤ r + collNbuf b then m
    else m.onDev fun d => d.sendMsg (collMod d b ((collPos d b + n - 1) % n)) clsCtrl 0x12 slot c.epoch.toNat 0 (r % collNbuf b) []

/-- The ring moves on as far as it can. -/
def ringRun : Nat → Mod → Nat → Mod
  | 0, m, _ => m
  | fuel + 1, m, slot => ringRun fuel (ringFree (ringSend (ringArrive m slot) slot) slot) slot

/-- The ring pass is over: its last rotation is released, and every block has been passed on. -/
def ringOver (d : Dev) (c : Coll) : Bool :=
  let n := collMembers d c.desc
  decide (collNsrc c.desc ≤ c.lasts) && decide (n ≤ c.nextRot) && (decide (n = 1) || c.freed.contains (n - 1))

/-! ## Completion (R505 to R508) -/

/-- Everything that the COLL_ENDs of every member name has come. -/
def allIn (d : Dev) (b : List Byte) (ends got : KMap Nat) : Bool :=
  (List.range (collMembers d b)).all fun i => match kfind ends i with
    | some n => decide (n ≤ kget 0 got i)
    | none => false

/-- STATE DONE, and DKIND (R508). The sums of replicated rows that the step's ALL_REDUCE delivers go to the gradient stages
(R326). -/
def collDone (m : Mod) (slot : Nat) (signal : Bool) : Mod :=
  let c := collOf m.dev slot
  let m := collStop m slot 2 c.epoch c.desc
  let m := if collKind c.desc = 3 && collEfmt c.desc == 3 && decide (m.dev.ms.cur = some c.epoch) then
      let es : List StageEntry := (sowSplit (c.shares.flatMap (·.2))).map fun b =>
        { (sowSum b).entry with table := bitsOf (sowKey b) 51 40, row := bitsOf (sowKey b) 39 0 }
      m.onDev fun d => d.onSow fun s => { s with replIn := some ((s.replIn.getD []) ++ es) }
    else m
  if signal then collSignal m c.desc else m

/-- A result would pass RLEN: FAILED with EV_SOW_STAGE_FULL, and the step ends as under R327 (R507). -/
def collFull (m : Mod) (slot : Nat) : Mod :=
  let c := collOf m.dev slot
  (collFail m slot c.epoch c.desc none).onDev fun d =>
    (d.raise evSowStageFull { hasS := true, s := c.epoch.toNat }).failStep (d.ms.cur.getD c.epoch) 4

/-- Write packed SOW128 entries, if they fit, and complete. -/
def collPacked (m : Mod) (slot : Nat) (bs : List Byte) : Mod :=
  let b := (collOf m.dev slot).desc
  if collRlen b < bs.length then collFull m slot else collDone (collStore m slot (collRbuf b) bs) slot true

/-- The owner's share of a reduction is complete: written, and for ALL_REDUCE sent to every member (R506, R507). -/
def shareDone (m : Mod) (slot : Nat) : Mod :=
  let c := collOf m.dev slot
  let b := c.desc
  let me := collPos m.dev b
  let first := me * collShare m.dev b
  let n := shareUnits m.dev b me
  let items : List (Nat × List Byte) :=
    if collEfmt b = 3 then c.keys.map fun x => (0, sowBytes x.1 x.2)
    else if efmtFloat (collEfmt b) then (List.range ((n + 31) / 32)).map fun j =>
      (first + 32 * j, ((kget AccUnit.zero c.acc (first / 32 + j)).out b).take (unitBytes (collOfmt b) * (n - 32 * j)))
    else (List.range n).map fun j => (first + j, (kget AccUnit.zero c.acc (first + j)).out b)
  if collKind b = 2 then
    if collEfmt b = 3 then collPacked m slot (items.flatMap (·.2))
    else collDone (collStore m slot (collRbuf b) (items.flatMap (·.2))) slot true
  else
    let units := if collEfmt b = 3 then items.length else n
    let m := m.modColl slot fun c => { c with phase2 := true }
    let m := items.foldl (fun m i => (List.range (collMembers m.dev b)).foldl (fun m dst => giveItem m slot dst i.1 true i.2) m) m
    let m := m.modColl slot fun c => { c with ends2 := kput c.ends2 me units }
    m.onDev fun d => ((List.range (collMembers d b)).filter fun i => i ≠ me).foldl (fun d i => d.sendEnd slot i c 1 units) d

/-- Zeros into every slot whose bit is clear (R505). -/
def zeroFill (m : Mod) (slot : Nat) : Mod :=
  let c := collOf m.dev slot
  let b := c.desc
  let clear := fun (m : Mod) (j : Nat) => if collPmap b = 0 then !c.written.contains j
    else !bitOf (leNat (collRead m slot (collPmap b + j / 8) 1)) (j % 8)
  if bitOf (fieldAt b 3 1) 0 = false then m
  else (List.range (collMembers m.dev b * collNslot b)).foldl (fun m j =>
    if clear m j then collStore m slot (collRbuf b + j * collSlotsz b) (zeros (collSlotsz b)) else m) m

/-- COLL_END to every member, once every local stream has ended. -/
def collEnds (m : Mod) (slot : Nat) : Mod :=
  let c := collOf m.dev slot
  let b := c.desc
  if c.ended ∨ c.lasts < collNsrc b ∨ collKind b = 5 then m
  else
    let me := collPos m.dev b
    let m := m.modColl slot fun c => { c with ended := true, ends := kput c.ends me (kget 0 c.sent me) }
    m.onDev fun d => ((List.range (collMembers d b)).filter fun i => i ≠ me).foldl (fun d i => d.sendEnd slot i c 0 (kget 0 c.sent i)) d

/-- Whatever the slot's epoch can do now. -/
def collMove (m : Mod) (slot : Nat) : Mod :=
  let c := collOf m.dev slot
  let b := c.desc
  if !c.running then m
  else match collKind b with
    | 1 => if allIn m.dev b c.ends c.got then collDone (zeroFill m slot) slot true else m
    | 4 =>
      if !allIn m.dev b c.ends c.got then m
      else if collEfmt b = 3 then collPacked m slot (c.shares.flatMap (·.2)) else collDone m slot true
    | 5 =>
      let m := ringRun 8 m slot
      if ringOver m.dev (collOf m.dev slot) then collDone m slot false else m
    | _ =>
      if c.phase2 then
        if !allIn m.dev b c.ends2 c.got2 then m
        else if collEfmt b = 3 then collPacked m slot (c.shares.flatMap (·.2)) else collDone m slot true
      else if allIn m.dev b c.ends c.got then shareDone m slot else m

/-- A slot moves on: its COLL_ENDs go out, its share is written, it completes. -/
def collProgress (m : Mod) (slot : Nat) : Mod := collMove (collMove (collEnds m slot) slot) slot

/-! ## Epochs (R504) -/

/-- An epoch starts: the descriptor is checked, and for a ring pass every buffer is granted to the member before (DEDUCED,
log 38). -/
def collStart (m : Mod) (slot : Nat) (epoch : Word32) : Mod :=
  let b := m.load (collDa m.dev.base slot) 96
  let b92 := b.take 92
  if !collOk m.dev b then
    (collFail m slot epoch b92 (some 7)).onDev fun d => d.raise evFabCollInvalid { t := slot }
  else
    let m := (m.modColl slot fun _ => { Coll.reset with epoch := epoch, running := true, desc := b92 }).putColl slot 1 epoch
    let m := m.storeNat (collDa m.dev.base slot + 104) 4 0
    if collKind b ≠ 5 then m
    else
      let n := collMembers m.dev b
      m.onDev fun d => (List.range (min (collNbuf b) (n - 1))).foldl (fun d j =>
        d.sendMsg (collMod d b ((collPos d b + n - 1) % n)) clsCtrl 0x12 slot epoch.toNat 0 ((j + 1) % collNbuf b) []) d

/-- A chunk of the running epoch. -/
def collJoin (m : Mod) (k : Chunk) (rtag : Nat) (share : Bool) : Mod :=
  let c := collOf m.dev k.slot
  let ring := decide (collKind c.desc = 5)
  match k.src with
  | none =>
    let m := if ring then ringChunk m k else if k.cop = 3 then m else giveChunk m k
    collProgress (if k.cop = 2 then m.modColl k.slot fun c => { c with lasts := c.lasts + 1 } else m) k.slot
  | some i =>
    if collMembers m.dev c.desc ≤ i then m
    else if ring then collProgress (ringTake m k.slot rtag k.off k.data) k.slot
    else if rtag = 0 then collProgress (takeItem m k.slot i k.off share k.data) k.slot
    else
      let fk := 2 * i + b2n share
      let part := kget [] c.frag fk ++ k.data
      if part.length < rtag / 65536 then m.modColl k.slot fun c => { c with frag := kset [] c.frag fk part }
      else collProgress (takeItem (m.modColl k.slot fun c => { c with frag := kdel c.frag fk }) k.slot i k.off share part) k.slot

/-- A chunk arrives, local or remote (R504): it starts or joins an epoch; an older one is dropped and counted; a newer one waits for
the running epoch to end. -/
def collChunk (m : Mod) (k : Chunk) (rtag : Nat) (share : Bool) : Mod :=
  let c := collOf m.dev k.slot
  if k.epoch = c.epoch then (if c.running then collJoin m k rtag share else m)
  else if stepNewer c.epoch k.epoch then m.onDev fun d => d.count cFabCollStale 0 1
  else if c.running then m.onDev fun d => d.onFab fun x => { x with later := x.later ++ [⟨k, rtag, share⟩] }
  else
    let m := collStart m k.slot k.epoch
    if (collOf m.dev k.slot).running then collJoin m k rtag share else m

/-- Chunks that waited join the epochs that now run. -/
def collSettle : Nat → Mod → Mod
  | 0, m => m
  | fuel + 1, m => match m.dev.fab.later.find? fun w => !(collOf m.dev w.chunk.slot).running
        || decide ((collOf m.dev w.chunk.slot).epoch = w.chunk.epoch) with
    | none => m
    | some w =>
      collSettle fuel (collChunk (m.onDev fun d => d.onFab fun x => { x with later := x.later.erase w }) w.chunk w.rtag w.share)

/-- A command of a collective, then what waited for its end. -/
def onColl (s : State) (f : Mod → Mod) : Out := onFabric s fun m =>
  let m := f m
  collSettle (m.dev.fab.later.length + 1) m

/-- The chunk that a SEND's payload or a submission holds (Table 12.6); none where it is cut short. -/
def parseChunk (slot : Nat) (b : List Byte) : Option Chunk :=
  let n := fieldAt b 2 2
  let cop := fieldAt b 0 1
  if b.length < 64 + n ∨ cop = 0 ∨ 3 < cop then none
  else some ⟨slot, none, cop, BitVec.ofNat 32 (fieldAt b 4 4), fieldAt b 8 2, fieldAt b 12 4, fieldAt b 16 8, (b.drop 64).take n⟩

/-- The oldest message of an operation. -/
def nextMsg (d : Dev) (op : Nat) : Option InMsg := d.fab.inbox.find? fun x => x.op = op

/-- A message has been acted on. -/
def Dev.dropMsg (d : Dev) (x : InMsg) : Dev := d.onFab fun f => { f with inbox := f.inbox.erase x }

/-- COLL_CHUNK (R504 to R510): the oldest chunk a plot has sent, a chunk that a spine core or the scheduler core submits, or the
oldest one that has come from another member. -/
def execCollChunk (source : CollSource) (s : State) : Out :=
  onColl s fun m => match source with
    | .plot => match m.dev.meshOut.find? fun x => x.1 = 2 with
      | none => m
      | some x =>
        let m := m.onDev fun d => { d with meshOut := d.meshOut.erase x }
        match parseChunk x.2.1 x.2.2.2.2 with
        | some k => collChunk m k 0 false
        | none => m
    | .core slot bytes => match parseChunk slot bytes with
      | some k => collChunk m k 0 false
      | none => m
    | .fabric => match nextMsg m.dev 0x10 with
      | none => m
      | some x =>
        let k : Chunk := ⟨x.addr % 4096, some (x.aux % 4096), 1, BitVec.ofNat 32 x.id, 0, 0, x.addr / 2 ^ 16 % 2 ^ 40, x.data⟩
        collChunk (m.onDev fun d => d.dropMsg x) k x.rtag (bitOf x.aux 31)

/-- Whether a control message of a collective can be taken: its epoch runs or is over; it waits for an epoch that has not begun. -/
def collDue (d : Dev) (x : InMsg) : Bool := !stepNewer (BitVec.ofNat 32 x.id) (collOf d (x.addr % 4096)).epoch

/-- The oldest message of an operation that can be taken. -/
def nextDue (d : Dev) (op : Nat) : Option InMsg := d.fab.inbox.find? fun x => decide (x.op = op) && collDue d x

/-- COLL_END (R505, R506, R508): a member says how many units or slots it has sent here. -/
def execCollEnd (s : State) : Out :=
  onColl s fun m => match nextDue m.dev 0x11 with
    | none => m
    | some x =>
      let m := m.onDev fun d => d.dropMsg x
      let slot := x.addr % 4096
      let c := collOf m.dev slot
      match collPosOf m.dev c.desc x.src with
      | none => m
      | some i =>
        if c.running = false ∨ c.epoch ≠ BitVec.ofNat 32 x.id then m
        else collProgress (m.modColl slot fun c =>
          if collKind c.desc = 5 then { c with rotEnd := kput c.rotEnd x.rtag x.aux }
          else if x.rtag = 1 then { c with ends2 := kput c.ends2 i x.aux } else { c with ends := kput c.ends i x.aux }) slot

/-- COLL_CREDIT (R510): the next member of a ring grants a buffer. -/
def execCollCredit (s : State) : Out :=
  onColl s fun m => match nextDue m.dev 0x12 with
    | none => m
    | some x =>
      let m := m.onDev fun d => d.dropMsg x
      let slot := x.addr % 4096
      let c := collOf m.dev slot
      if c.running = false ∨ c.epoch ≠ BitVec.ofNat 32 x.id then m
      else collProgress (m.modColl slot fun c => { c with grants := c.grants ++ [x.aux] }) slot

/-- A member cannot be reached: every epoch it takes part in fails (R508, Table 12.7). -/
def collsLost (m : Mod) (id : Nat) : Mod :=
  let hit := m.dev.fab.colls.filter fun e => e.2.running && (collPosOf m.dev e.2.desc id).isSome
  let m := hit.foldl (fun m e => collFail m e.1 e.2.epoch e.2.desc (some 12)) m
  collSettle (m.dev.fab.later.length + 1) m

end Sys2Proof.Machine
end

