-- ==== Sys2Proof/Machine/Control.lean ====
section
/-!
DEFINITION. The commands of a control core: the furrow-issue extension, device memory, AMO and LR/SC, FENCE, thread
start (02_plots_and_furrows R36 to R44, R68 to R70).
-/

namespace Sys2Proof.Machine

/-- A thread's instruction: nothing happens unless the thread can issue one (R40, R41, log 10). -/
def Dev.onThread (d : Dev) (inst t : Nat) (f : Dev → Plot → Thread → Dev) : Dev :=
  let p := d.plot inst
  let h := threadOf p t
  if canIssue h then f d p h else d

/-- The same for an instruction that may also touch device memory. -/
def Mod.onThread (m : Mod) (inst t : Nat) (f : Mod → Plot → Thread → Mod) : Mod :=
  let p := m.dev.plot inst
  let h := threadOf p t
  if canIssue h then f m p h else m

/-- Put a thread back into its plot. -/
def Dev.putThread (d : Dev) (inst t : Nat) (h : Thread) : Dev := d.modPlot inst fun p => setThread p t h

/-- A status word goes to rd and the pc moves on; the word's layout is open (log 5). -/
def Dev.statusTo (d : Dev) (inst t rd : Nat) : Dev :=
  (d.modPlot inst fun p =>
    setThread p t (pcNext (setX (threadOf p t) rd (Config.statusWord d.base.fresh).toNat) 4)).tickFresh

/-- FSTART (R67 to R69, Table 2.3): the issuing thread becomes the owner; a mode word that is not allowed, or a running
sequencer, starts nothing (log 10). -/
def execFstart (plot : Fin 4352) (thread : Fin 8) (rd rs1 rs2 : Fin 32) (s : State) : Out :=
  onPlaneDev s fun d => d.onThread plot thread fun d p h =>
    let entry := xReg h rs1
    let mode := xReg h rs2
    let d := if modeLegal mode && decide (entry < 2048) && !p.seq.running && p.seq.cur.isNone then
        d.modPlot plot fun p => { p with seq := startSeq p.seq thread entry mode }
      else d
    d.statusTo plot thread rd

/-- FSTOP (Table 2.3, R69): issue stops, in-flight furrows complete, rd takes the status. -/
def execFstop (plot : Fin 4352) (thread : Fin 8) (rd : Fin 32) (s : State) : Out :=
  onPlaneDev s fun d => d.onThread plot thread fun d _ _ =>
    (d.modPlot plot fun p => { p with seq := stopSeq p.seq }).statusTo plot thread rd

/-- FREADY (R69): a FREE half becomes READY; rs1 is 0 for A and 1 for B. -/
def execFready (plot : Fin 4352) (thread : Fin 8) (rs1 : Fin 32) (s : State) : Out :=
  onPlaneDev s fun d => d.onThread plot thread fun d p h =>
    let b := decide (xReg h rs1 = 1)
    let p := if xReg h rs1 ≤ 1 ∧ halfSt p.seq b = .free then { p with seq := setHalf p.seq b .ready } else p
    d.setPlot plot (setThread p thread (pcNext h 4))

/-- An exception taken by a thread. -/
def Dev.except (d : Dev) (inst t cause val : Nat) : Dev :=
  d.modPlot inst fun p => setThread p t (takeException (threadOf p t) cause val)

/-- A store into the furrow store that is refused: the exception and EV_FURROW_STORE_BUSY (R70). -/
def Dev.storeRefused (d : Dev) (inst t addr : Nat) : Dev :=
  (d.except inst t exStore addr).raise evFurrowStoreBusy { d := addr } (instDie inst) (unitOf d.base inst)

/-- FLOAD (R70, Table 2.3): a load of 64 KiB from DA rs1 into half rs2 starts, 0 for A and 1 for B; into a half that is ACTIVE it is refused;
a DA that faults raises the access fault (R37). -/
def execFload (plot : Fin 4352) (thread : Fin 8) (rs1 rs2 : Fin 32) (s : State) : Out :=
  onPlaneDev s fun d => d.onThread plot thread fun d p h =>
    let da := xReg h rs1
    let b := decide (xReg h rs2 = 1)
    if 1 < xReg h rs2 then d.putThread plot thread (pcNext h 4)
    else if storeBusy p (if b then 0x10000 else 0) then d.storeRefused plot thread (0x100000 + (if b then 0x10000 else 0))
    else match accessFault d false da 0x10000 with
      | some f => (d.except plot thread exLoad da).raiseAccess f
      | none => d.setPlot plot (setThread { p with fload := p.fload ++ [⟨da, b⟩] } thread (pcNext h 4))

/-- LOAD_DONE (R70): the oldest FLOAD's 64 KiB are in its half, unless the half has become ACTIVE, and the owner gets
LOAD_DONE. -/
def execLoadDone (plot : Fin 4352) (s : State) : Out :=
  onPlaneDev s fun d =>
    let p := d.plot plot
    match p.fload with
    | [] => d
    | l :: rest =>
      let off := if l.half then 0x10000 else 0
      let p := { p with fload := rest }
      let ovr := fun (w : Who) => decide (w = .fload plot)
      match s.mod.demandRead (.fload plot) l.da 0x10000 with
      | .error (.remoteWait da n) => d.askRemote (.fload plot) da n
      | .error f => ((d.setPlot plot p).dropGot ovr).raiseAccess f
      | .ok bs =>
        let d := d.dropGot ovr
        if storeBusy p off then
          (d.setPlot plot p).raise evFurrowStoreBusy { d := 0x100000 + off } (instDie plot) (unitOf d.base plot)
        else (d.setPlot plot { p with store := writeRun p.store off bs }).deliverOwner plot .loadDone [if l.half then 1 else 0]

/-- FWAIT (R41, Table 2.3): parks until an event of the mask is pending; the event word goes to rd. -/
def execFwait (plot : Fin 4352) (thread : Fin 8) (rd rs1 : Fin 32) (s : State) : Out :=
  onPlaneDev s fun d => d.onThread plot thread fun d p h =>
    let mask := xReg h rs1 % 128
    if (pendingFor p thread mask).isEmpty then d.setPlot plot (setThread p thread { h with park := .fwait rd mask })
    else (d.setPlot plot (takeEvents p thread rd mask d.base.fresh)).tickFresh

/-- FTOK (R56, Table 2.3): signed rs2 added to token counter rs1; rd takes the old value. A sum below zero is open
(log 5). -/
def execFtok (plot : Fin 4352) (thread : Fin 8) (rd rs1 rs2 : Fin 32) (s : State) : Out :=
  onPlaneDev s fun d => d.onThread plot thread fun d p h =>
    let c := xReg h rs1 % 16
    let old := tokOf p c
    let inc := sext 64 (xReg h rs2)
    let d := d.putThread plot thread (pcNext (setX h rd old) 4)
    if 0 ≤ inc then d.addTok plot c inc.toNat
    else if 0 ≤ (old : Int) + inc then d.modPlot plot fun p => setTok p c ((old : Int) + inc).toNat
    else (d.modPlot plot fun p => setTok p c (Config.tokenUnder d.base.fresh).toNat).tickFresh

/-- FSTAT (R140, Table 2.3): selector 0x20 + t gives ACC_STATt; the spec lays out no other status word (log 5). -/
def execFstat (plot : Fin 4352) (thread : Fin 8) (rd rs1 : Fin 32) (s : State) : Out :=
  onPlaneDev s fun d => d.onThread plot thread fun d p h =>
    let sel := xReg h rs1
    if 0x20 ≤ sel ∧ sel < 0x24 then
      d.putThread plot thread (pcNext (setX h rd (accStatWord (accStatOf p (sel - 0x20)))) 4)
    else d.statusTo plot thread rd

/-- FWORK (R101, R102): asks for a block and parks until it is granted. -/
def execFwork (plot : Fin 4352) (thread : Fin 8) (rd : Fin 32) (s : State) : Out :=
  onPlaneDev s fun d => d.onThread plot thread fun d p h =>
    let d := d.setPlot plot (setThread p thread { h with park := .fwork rd })
    match logicalOf d.base plot with
    | some l => { d with work := { d.work with waiting := d.work.waiting ++ [(l, thread.val)] } }
    | none => d

/-- A custom-0 instruction with non-zero funct7 (R39): the illegal-instruction exception. A word that is not such an
instruction is not this command's occasion (log 10). -/
def execIllegalInstruction (plot : Fin 4352) (thread : Fin 8) (word : Word32) (s : State) : Out :=
  onPlaneDev s fun d => d.onThread plot thread fun d _ _ =>
    if bitsOf word.toNat 6 0 = 0x0B ∧ bitsOf word.toNat 31 25 ≠ 0 then d.except plot thread exIllegal word.toNat else d

/-! ## Memory accesses of a control core (Table 2.2) -/

/-- Where a control-core address lies (Table 2.2). -/
inductive CorePlace where
  | sram (off : Nat)
  | store (off : Nat)
  | control (off : Nat)
  | device (da : Nat)
  | nowhere
  deriving DecidableEq, Repr

/-- Table 2.2, for an access of `n` bytes. -/
def corePlace (a n : Nat) : CorePlace :=
  if a + n ≤ 0x100000 then .sram a
  else if 0x100000 ≤ a ∧ a + n ≤ 0x120000 then .store (a - 0x100000)
  else if 0x120000 ≤ a ∧ a + n ≤ 0x121000 then .control (a - 0x120000)
  else if 2 ^ 63 ≤ a ∧ a + n ≤ 2 ^ 64 then .device (a - 2 ^ 63)
  else .nowhere

/-- PMP entry i: its configuration byte, pmpcfg0 at CSR 0x3A0 and pmpcfg2 at 0x3A2 (PRESUMED, log 4). -/
def pmpCfg (h : Thread) (i : Nat) : Nat := byteOf (csrGet h (if i < 8 then 0x3A0 else 0x3A2)) (i % 8)

/-- The address range of a PMP entry, [lo, hi), if it is on (PRESUMED, log 4). -/
def pmpRange (h : Thread) (i : Nat) : Option (Nat × Nat) :=
  let a := csrGet h (0x3B0 + i)
  match bitsOf (pmpCfg h i) 4 3 with
  | 1 => some (if i = 0 then 0 else csrGet h (0x3B0 + i - 1) * 4, a * 4)
  | 2 => some (a * 4, a * 4 + 4)
  | 3 =>
    let ones := ((List.range 54).takeWhile fun k => bitOf a k).length
    let size := 2 ^ (ones + 3)
    some (a * 4 / size * size, a * 4 / size * size + size)
  | _ => none

/-- The PMP allows an access: the first entry that touches it decides; in machine mode an entry that is not locked
does not bind; without an entry machine mode may and user mode may not (PRESUMED, log 4). `bit` is 0 for a read and 1
for a write. -/
def pmpAllows (h : Thread) (a n bit : Nat) : Bool :=
  match (List.range 16).find? fun i => match pmpRange h i with
    | some (lo, hi) => decide (lo < a + n ∧ a < hi)
    | none => false with
  | none => h.machineMode
  | some i =>
    let cfg := pmpCfg h i
    let whole := match pmpRange h i with
      | some (lo, hi) => decide (lo ≤ a ∧ a + n ≤ hi)
      | none => false
    whole && ((h.machineMode && !bitOf cfg 7) || bitOf cfg bit)

/-- The address of a load or store: register plus sign-extended immediate. -/
def effAddr (h : Thread) (rs1 : Nat) (imm : BitVec 12) : Nat := modPow 64 ((xReg h rs1 : Int) + imm.toInt)

/-- A loaded value as it enters the register. -/
def extendLoad (n : Nat) (signed : Bool) (v : Nat) : Nat := if signed then modPow 64 (sext (8 * n) v) else v

/-- Threads of a plot that are parked on device memory (R42). -/
def parkedOnMem (p : Plot) : Nat := (p.threads.filter fun e => match e.2.park with
  | .mem _ _ _ _ _ => true
  | _ => false).length

/-- A load from plot control: PLOT_GCTX at 0x100 (Table 6.8); the spec lays out no other word of it (log 5). -/
def controlRead (p : Plot) (off n fresh : Nat) : Nat :=
  if 0x100 ≤ off ∧ off + n ≤ 0x108 then (p.gctx.toNat >>> (8 * (off - 0x100))) % 2 ^ (8 * n)
  else (Config.plotControl fresh).toNat % 2 ^ (8 * n)

/-- A control-core load (R37, R41, R42): own memory answers at once; device memory parks the thread, or holds it where six
are parked. -/
def execDeviceLoad (plot : Fin 4352) (thread : Fin 8) (rd rs1 : Fin 32) (imm : BitVec 12) (log2w : Fin 4)
    (signed short : Bool) (s : State) : Out :=
  onPlaneDev s fun d => d.onThread plot thread fun d p h =>
    let a := effAddr h rs1 imm
    let n := 2 ^ log2w.val
    let h' := pcNext h (if short then 2 else 4)
    if !pmpAllows h a n 0 then d.except plot thread exLoad a
    else match corePlace a n with
      | .sram o => d.putThread plot thread (setX h' rd (extendLoad n signed (leNat (readRun p.sram o n))))
      | .store o => d.putThread plot thread (setX h' rd (extendLoad n signed (leNat (readRun p.store o n))))
      | .control o =>
        (d.putThread plot thread (setX h' rd (extendLoad n signed (controlRead p o n d.base.fresh)))).tickFresh
      | .nowhere => d.except plot thread exLoad a
      | .device da => match accessFault d false da n with
        | some f => (d.except plot thread exLoad a).raiseAccess f
        | none =>
          let len := if short then 2 else 4
          let d := match daPlace da with
            | .window _ _ => d.askRemote (.thread plot thread) da n
            | _ => d
          d.putThread plot thread { h with
            park := if parkedOnMem p < 6 then .mem rd n signed da len else .held rd n signed da len }

/-- Carry a store of a control core out. -/
def coreStore (m : Mod) (inst t a n v : Nat) (h' : Thread) : Mod :=
  let p := m.dev.plot inst
  match corePlace a n with
  | .sram o => m.onDev fun d =>
    let p := clearResv { p with sram := writeRun p.sram o (leBytes n v) } a n
    d.setPlot inst (setThread p t { h' with resv := (threadOf p t).resv })
  | .store o =>
    if storeBusy p o then m.onDev fun d => d.storeRefused inst t a
    else m.onDev fun d => d.setPlot inst (setThread { p with store := writeRun p.store o (leBytes n v) } t h')
  | .control o => m.onDev fun d =>
    let p := if o = 0x100 ∧ n = 8 then { p with gctx := BitVec.ofNat 64 (withBits v 62 32 0) } else p
    d.setPlot inst (setThread p t h')
  | .nowhere => m.onDev fun d => d.except inst t exStore a
  | .device da => match m.demandWrite (.thread inst t) da (leBytes n v) with
    | .error (.remoteWait _ _) => m
    | .error f => m.onDev fun d => (d.except inst t exStore a).raiseAccess f
    | .ok m' => m'.onDev fun d => d.modPlot inst fun p =>
      setThread p t { h' with posted := (threadOf p t).posted + 1, resv := (threadOf p t).resv }

/-- A control-core store (R37, R41): device memory is written and the store counts as posted until it is
acknowledged. -/
def execDeviceStore (plot : Fin 4352) (thread : Fin 8) (rs1 rs2 : Fin 32) (imm : BitVec 12) (log2w : Fin 4)
    (short : Bool) (s : State) : Out :=
  onPlane s fun m => m.onThread plot thread fun m _ h =>
    let a := effAddr h rs1 imm
    let n := 2 ^ log2w.val
    if !pmpAllows h a n 1 then m.onDev fun d => d.except plot thread exStore a
    else coreStore m plot thread a n (xReg h rs2 % 2 ^ (8 * n)) (pcNext h (if short then 2 else 4))

/-- A store into the furrow store (R70): takes effect in a FREE or READY half, otherwise is refused. -/
def execFurrowStoreWrite (plot : Fin 4352) (thread : Fin 8) (rs1 rs2 : Fin 32) (imm : BitVec 12) (log2w : Fin 4)
    (short : Bool) (s : State) : Out :=
  onPlane s fun m => m.onThread plot thread fun m _ h =>
    let a := effAddr h rs1 imm
    let n := 2 ^ log2w.val
    match corePlace a n with
    | .store _ =>
      if !pmpAllows h a n 1 then m.onDev fun d => d.except plot thread exStore a
      else coreStore m plot thread a n (xReg h rs2 % 2 ^ (8 * n)) (pcNext h (if short then 2 else 4))
    | _ => m

/-- A posted store of a thread is acknowledged (R41): a FENCE ends with the last. -/
def Dev.ackStore (d : Dev) (inst t : Nat) : Dev :=
  d.modPlot inst fun p =>
    let h := { threadOf p t with posted := (threadOf p t).posted - 1 }
    setThread p t (if h.posted = 0 ∧ h.park = .fence then { h with park := .no } else h)

/-- Stores of a thread into neighbour windows whose WRITE_ACK has not come (R497). -/
def windowStores (d : Dev) (inst t : Nat) : Nat :=
  (d.fab.winOut.filter fun w => w.who = .thread inst t).length
    + (d.fab.reqs.filter fun r => r.write && r.who = .thread inst t).length

/-- A thread parked on memory runs on, and a held thread takes the place it leaves (R42). -/
def wakeHeld (p : Plot) : Plot :=
  match (List.range 8).find? fun t => match (threadOf p t).park with
      | .held _ _ _ _ _ => true
      | _ => false with
    | some t => match (threadOf p t).park with
      | .held rd n sg da len => setThread p t { threadOf p t with park := .mem rd n sg da len }
      | _ => p
    | none => p

/-- The completion token of a load, or the acknowledgement of a posted store, arrives (R41 to R43): the thread runs on,
and a held thread takes the place it leaves. A load that faults raises its access fault (R37); one from a neighbour window
completes once its lender has answered (R499), and a store into one is acknowledged by its WRITE_ACK (R497). -/
def execDeviceAccessCompletion (plot : Fin 4352) (thread : Fin 8) (store : Bool) (s : State) : Out :=
  onPlaneDev s fun d =>
    let p := d.plot plot
    let h := threadOf p thread
    if store then (if h.posted ≤ windowStores d plot thread then d else d.ackStore plot thread)
    else match h.park with
      | .mem rd n signed da len =>
        let ovr := fun (w : Who) => decide (w = .thread plot thread)
        match s.mod.demandRead (.thread plot thread) da n with
        | .error (.remoteWait da n) => d.askRemote (.thread plot thread) da n
        | .error f =>
          let p := wakeHeld (setThread p thread (takeException { h with park := .no } exLoad da))
          ((d.setPlot plot p).dropGot ovr).raiseAccess f
        | .ok bs =>
          let p := wakeHeld (setThread p thread { setX (pcNext h len) rd (extendLoad n signed (leNat bs)) with park := .no })
          (d.setPlot plot p).dropGot ovr
      | _ => d

/-- The value an AMO writes (RV64A). -/
def amoResult (op : AmoOp) (w old v : Nat) : Nat :=
  let so := sext w old
  let sv := sext w v
  match op with
  | .swap | .sc | .lr => v
  | .add => (old + v) % 2 ^ w
  | .xor => old ^^^ v
  | .and => old &&& v
  | .or => old ||| v
  | .min => if so ≤ sv then old else v
  | .max => if so ≤ sv then v else old
  | .minu => min old v
  | .maxu => max old v

/-- AMO and LR/SC (R38): on own plot SRAM and hot-tier DAs; any other address raises an access fault. A store
conditional succeeds while the thread holds the reservation of its address; rd takes 0, otherwise 1. -/
def execAmoLrsc (plot : Fin 4352) (thread : Fin 8) (op : AmoOp) (dword : Bool) (rd rs1 rs2 : Fin 32) (s : State) : Out :=
  onPlane s fun m => m.onThread plot thread fun m p h =>
    let a := xReg h rs1
    let n := if dword then 8 else 4
    let v := xReg h rs2 % 2 ^ (8 * n)
    let ex := if op = .lr then exLoad else exStore
    let h' := pcNext h 4
    let place := corePlace a n
    let bad : Option FaultKind := match place with
      | .device da => match daPlace da with
        | .warm _ _ | .sram _ _ | .window _ _ => some (.address da)
        | _ => accessFault m.dev (op != .lr) da n
      | _ => none
    let legal := match place with
      | .sram _ | .device _ => true
      | _ => false
    let held := match place with
      | .device da => daHeld m.dev da
      | _ => false
    if !legal || a % n != 0 || !pmpAllows h a n (if op = .lr then 0 else 1) then m.onDev fun d => d.except plot thread ex a
    else match bad with
    | some f => m.onDev fun d => (d.except plot thread ex a).raiseAccess f
    | none =>
      if held then m else
      let old := match place with
        | .device da => leNat (m.load da n)
        | _ => leNat (readRun p.sram a n)
      let write := fun (w : Nat) (m : Mod) => match place with
        | .device da => (m.store da (leBytes n w)).onDev fun d => d.clearResvDa da n
        | _ => m.onDev fun d => d.modPlot plot fun p => clearResv { p with sram := writeRun p.sram a (leBytes n w) } a n
      let load := modPow 64 (sext (8 * n) old)
      match op with
      | .lr => m.onDev fun d => d.putThread plot thread { setX h' rd load with resv := some a }
      | .sc =>
        if h.resv = some a then (write v m).onDev fun d => d.putThread plot thread { setX h' rd 0 with resv := none }
        else m.onDev fun d => d.putThread plot thread { setX h' rd 1 with resv := none }
      | op => (write (amoResult op (8 * n) old v) m).onDev fun d =>
        d.modPlot plot fun p => setThread p thread { setX h' rd load with resv := (threadOf p thread).resv }

/-- FENCE (R41): parks the thread until every posted store of it is acknowledged. -/
def execFenceInstruction (plot : Fin 4352) (thread : Fin 8) (s : State) : Out :=
  onPlaneDev s fun d => d.onThread plot thread fun d _ h =>
    let h' := pcNext h 4
    d.putThread plot thread (if h.posted = 0 then h' else { h' with park := .fence })

/-- A write of a thread's start word starts that thread (R40); the word is its first pc (DEDUCED, log 10). -/
def execThreadStartWord (plot : Fin 4352) (thread target : Fin 8) (rs2 : Fin 32) (s : State) : Out :=
  onPlaneDev s fun d => d.onThread plot thread fun d p h =>
    let p := setThread p thread (pcNext h 4)
    let t := threadOf p target
    d.setPlot plot (if t.started then p
      else setThread p target { t with started := true, pc := BitVec.ofNat 64 (xReg h rs2) })

end Sys2Proof.Machine
end

