-- ==== Sys2Proof/Machine/Rings.lean ====
section
/-!
DEFINITION. The rings of the host interface: doorbells, fetching descriptors, completions, the event ring, express
latency, failed host reads, function-level reset (11_host_rings).
-/

namespace Sys2Proof.Machine

/-! ## Rings (R445, R446) -/

/-- A submission ring. -/
def sqOf (d : Dev) (n : Nat) : Sq := kget Sq.reset d.hif.sqs n

/-- Change a submission ring. -/
def Dev.modSq (d : Dev) (n : Nat) (f : Sq → Sq) : Dev := d.onHif fun h => { h with sqs := kmod Sq.reset h.sqs n f }

/-- A completion ring. -/
def cqOf (d : Dev) (n : Nat) : Cq := kget Cq.reset d.hif.cqs n

/-- Change a completion ring. -/
def Dev.modCq (d : Dev) (n : Nat) (f : Cq → Cq) : Dev := d.onHif fun h => { h with cqs := kmod Cq.reset h.cqs n f }

/-- A submission ring is enabled, and the module serves it (R446, R573). -/
def sqUsable (d : Dev) (n : Nat) : Bool := d.base.lockHif && decide (cfgRingSqCfgEn d.base n = 1) && !(sqOf d n).disabled && !d.stopped

/-- A completion ring is enabled (R446). -/
def cqUsable (d : Dev) (n : Nat) : Bool := d.base.lockHif && decide (cfgRingCqCfgEn d.base n = 1) && !(cqOf d n).disabled

/-- Entries of a submission ring. -/
def sqSize (b : BaseState) (n : Nat) : Nat := 2 ^ cfgRingSqCfgLog2size b n

/-- Entries of a completion ring. -/
def cqSize (b : BaseState) (n : Nat) : Nat := 2 ^ cfgRingCqCfgLog2size b n

/-- A command of the rings: nothing is served while PD_HIF is off (Table 15.3). -/
def onRing (s : State) (f : Dev → Dev) : Out := onDev s fun d => if d.hifUp then f d else d

/-- Host address of the doorbell page (Table 11.4). -/
def doorbells (b : BaseState) : Nat := cfgHifDbBaseBase b * 4096

/-! ## Doorbells (R447, R448) -/

/-- A read of SQ_TAIL has returned: the descriptors it covers for the first time are observed now (R448, R28). -/
def observe (d : Dev) (ring : Nat) (tail : Word32) : Dev :=
  if sqUsable d ring && stepNewer tail (sqOf d ring).tail then
    d.modSq ring fun q => { q with tail := tail, seen := q.seen ++ [⟨tail, d.base.now, d.base.applied, d.base.cleared⟩] }
  else d

/-- KICK_SQ (R448): the SQ_TAIL of every enabled ring that the mask names is read; `tails` is what the host's words held. -/
def execKickSq (g : Fin 4) (rings : Word64) (tails : List (Fin 256 × Word32)) (s : State) : Out :=
  onRing s fun d => tails.foldl (fun d x =>
    if x.1.val / 64 = g.val ∧ rings.getLsbD (x.1.val % 64) then observe d x.1 x.2 else d) d

/-- SQ_POLL (R448): a ring with POLL set has its SQ_TAIL read at each period. -/
def execSqPoll (ring : Fin 256) (tail : Word32) (s : State) : Out :=
  onRing s fun d => if cfgRingSqCfgPoll d.base ring = 0 ∨ d.hif.ready = false then d else observe d ring tail

/-! ## Descriptors (Table 11.5 to Table 11.8) -/

/-- Bytes [o, o + n) of a descriptor as a number. -/
def descFld (w o n : Nat) : Nat := (w >>> (8 * o)) % 2 ^ (8 * n)

/-- A field of a fetched descriptor. -/
def Desc.fld (x : Desc) (o n : Nat) : Nat := descFld x.bytes.toNat o n

/-- KIND. -/
def Desc.kind (x : Desc) : Nat := x.fld 0 1
/-- ORDERED. -/
def Desc.ordered (x : Desc) : Bool := bitOf (x.fld 1 1) 0
/-- QUIET. -/
def Desc.quiet (x : Desc) : Bool := bitOf (x.fld 1 1) 1
/-- TAG. -/
def Desc.tag (x : Desc) : Nat := x.fld 4 4

/-- Bytes [o, o + n) are zero. -/
def zeroBytes (w o n : Nat) : Bool := descFld w o n == 0

/-- An 8-byte address or length at `o` is a multiple of 64. -/
def by64 (w o : Nat) : Bool := descFld w o 8 % 64 == 0

/-- The header is well formed but for CQ (R453): a known KIND, no reserved flag. -/
def headOk (w : Nat) : Bool := decide (1 ≤ descFld w 0 1 ∧ descFld w 0 1 ≤ 12) && decide (descFld w 1 1 < 4)

/-- The body is well formed for its KIND: no reserved value, every unlisted byte zero, addresses and lengths multiples of 64
(R453, Table 11.7, Table 11.8). -/
def bodyOk (w : Nat) : Bool :=
  let f := descFld w
  let z := zeroBytes w
  match f 0 1 with
  | 1 => decide (f 8 2 < 4096) && decide (f 10 1 < 16) && z 11 1 && decide (f 12 2 < 2048)
      && (if bitsOf (f 10 1) 2 1 = 0 then z 14 2 else decide (f 14 2 < 2048)) && by64 w 24 && by64 w 32 && by64 w 40
      && by64 w 48 && z 56 8
  | 2 => z 12 4 && by64 w 16 && by64 w 24 && by64 w 32 && by64 w 40 && decide (f 48 1 < 2) && z 49 15
  | 3 => by64 w 8 && decide (f 16 1 < 2) && z 17 47
  | 4 => decide (f 8 2 < 4096) && decide (f 12 1 < 8) && z 13 3 && by64 w 16 && by64 w 24 && decide (f 32 8 ≤ 2 ^ 40) && z 40 24
  | 5 => decide (f 8 2 < 4096) && decide (f 10 1 < 8) && z 11 1 && decide (f 16 8 < 2 ^ 40) && decide (f 24 8 < 2 ^ 40) && by64 w 32
      && by64 w 40 && z 56 8
  | 6 => decide (f 8 2 < 4096) && decide (f 12 1 < 16) && decide (f 13 1 < 2) && decide (f 14 1 < 64)
      && decide (bitsOf (f 14 1) 5 4 < 2) && by64 w 16 && z 24 40
  | 7 => decide (f 12 1 ≤ 16) && decide (f 13 1 < 2) && z 14 2 && by64 w 16 && z 24 40
  | 8 => decide (f 12 1 < 2) && z 13 51
  | 9 => (bitOf (f 32 1) 2 || by64 w 8) && by64 w 16 && by64 w 24 && decide (f 32 1 < 8) && z 33 31
  | 10 => decide (f 8 1 < 4) && z 9 3 && z 16 48
  | 11 => decide (f 8 1 < 4) && z 12 52
  | 12 => decide (f 8 8 % 4096 = 0) && decide (6 ≤ f 16 1 ∧ f 16 1 ≤ 16) && decide (f 17 1 < 4) && decide (f 18 2 < 1024)
      && decide (f 20 2 < 4096) && z 22 42
  | _ => false

/-- A kind is allowed on rings of a class: 0 SC0, 1 SC1, 2 SC2 (R454, Table 11.6). -/
def kindAllowed (w cls : Nat) : Bool :=
  match descFld w 0 1 with
  | 1 => cls == 0
  | 2 | 6 => cls == 1
  | 10 => cls != 0 || decide (descFld w 8 1 = 0)
  | _ => cls != 0

/-- The status a descriptor ends with as soon as it is fetched, if its header, its class or its body is wrong (R453, R454; that
order is log 28). -/
def fetchFault (d : Dev) (ring w : Nat) : Option Nat :=
  if !headOk w || !cqUsable d (descFld w 2 1) then some 0x10
  else if !kindAllowed w (cfgRingSqCfgClass d.base ring) then some 0x11
  else if !bodyOk w then some 0x10 else none

/-- Descriptors in progress leave room for one of a kind (R452). -/
def descRoom (d : Dev) (kind : Nat) : Bool :=
  let n := (d.hif.descs.filter fun x => decide (x.kind = 1)).length
  if kind = 1 then decide (n < 64) else decide (d.hif.descs.length - n < 4096)

/-- SEQ that the next entry of a ring must carry (R447). -/
def wantSeq (d : Dev) (ring : Nat) : Nat := (sqOf d ring).next.toNat / sqSize d.base ring % 256

/-- The first read that covered a descriptor (R448). -/
def seenFor (d : Dev) (q : Sq) : Seen :=
  (q.seen.find? fun x => stepNewer x.upto q.next).getD ⟨q.next, d.base.now, d.base.applied, d.base.cleared⟩

/-- Take the next descriptor of a ring, whose SEQ matches (R451 to R454). -/
def takeDesc (d : Dev) (ring : Nat) (entry : BitVec 512) : Dev :=
  let w := entry.toNat
  if !descRoom d (descFld w 0 1) then d
  else
    let q := sqOf d ring
    let seen := seenFor d q
    let bad := fetchFault d ring w
    let cq := if cqUsable d (descFld w 2 1) then descFld w 2 1 else cfgRingSqCfgDefcq d.base ring
    let x : Desc := ⟨d.hif.nextId, ring, q.next, entry, cq, bad.isSome, false, seen⟩
    let d := d.modSq ring fun q => { q with
      next := q.next + 1, recheck := false, ahead := kdel q.ahead q.next.toNat
      seen := q.seen.filter fun y => stepNewer y.upto (q.next + 1) }
    let d := d.onHif fun h => { h with
      descs := h.descs ++ [x], nextId := h.nextId + 1
      lookups := if descFld w 0 1 = 1 ∧ bad = none then h.lookups ++ [(seen.time, descFld w 12 2 + 1)] else h.lookups }
    match bad with
    | some st => d.endDesc x.id st
    | none => d

/-- Fetching is allowed on a ring and a descriptor is due (R442, R448, R450). -/
def mayFetch (d : Dev) (ring : Nat) : Bool :=
  sqUsable d ring && d.hif.ready && !(sqOf d ring).stopped && stepNewer (sqOf d ring).tail (sqOf d ring).next

/-- DESCRIPTOR_FETCH (R447, R449, R451 to R454): the next entry below SQ_TAIL is read, `entry` from host memory unless an entry
read ahead matches; a mismatched SEQ is to be read again. -/
def execDescriptorFetch (ring : Fin 256) (entry : BitVec 512) (s : State) : Out :=
  onRing s fun d =>
    let q := sqOf d ring
    if !mayFetch d ring || q.recheck then d
    else
      let ok := fun (e : BitVec 512) => decide (descFld e.toNat 3 1 = wantSeq d ring)
      match (kfind q.ahead q.next.toNat).filter ok with
      | some e => takeDesc d ring e
      | none => if ok entry then takeDesc d ring entry else d.modSq ring fun q => { q with recheck := true, ahead := kdel q.ahead q.next.toNat }

/-- DESCRIPTOR_RUN_AHEAD (R449): an entry at or beyond SQ_TAIL is read within the ring. -/
def execDescriptorRunAhead (ring : Fin 256) (number : Word32) (entry : BitVec 512) (s : State) : Out :=
  onRing s fun d =>
    let q := sqOf d ring
    if !sqUsable d ring || !d.hif.ready || q.stopped || decide (sqSize d.base ring ≤ (number - q.next).toNat) then d
    else d.modSq ring fun q => { q with ahead := kput q.ahead number.toNat entry }

/-- A ring stops (R450). -/
def stopRing (d : Dev) (ring : Nat) (num : Word32) : Dev :=
  if (sqOf d ring).stopped then d
  else (d.modSq ring fun q => { q with stopped := true, recheck := false }).raise evRingStopped { n := num.toNat } 0 ring

/-- SEQ_MISMATCH_RECHECK (R449, R450): the read made 2 µs after the covering read; a second mismatch stops the ring. -/
def execSeqMismatchRecheck (ring : Fin 256) (entry : BitVec 512) (s : State) : Out :=
  onRing s fun d =>
    let q := sqOf d ring
    if !mayFetch d ring || !q.recheck then d
    else if descFld entry.toNat 3 1 = wantSeq d ring then takeDesc d ring entry
    else stopRing d ring q.next

/-- KICK_RESTART (R450): fetching of a stopped ring resumes at a descriptor number. -/
def execKickRestart (ring : Fin 256) (pos : Word32) (s : State) : Out :=
  onRing s fun d =>
    if !sqUsable d ring || !(sqOf d ring).stopped then d
    else d.modSq ring fun q => { q with stopped := false, recheck := false, next := pos, ahead := [] }

/-! ## Beginning and ending (R475, R477) -/

/-- A descriptor in progress. -/
def descOf (d : Dev) (id : Nat) : Option Desc := d.hif.descs.find? fun x => x.id = id

/-- Descriptors of its ring fetched before it and not completed. -/
def earlier (d : Dev) (x : Desc) : List Desc :=
  d.hif.descs.filter fun y => decide (y.ring = x.ring) && decide (y.id < x.id) && y.lost == x.lost

/-- A descriptor may begin: the earlier ones of its ring have begun (a FENCE, once its condition holds), and with ORDERED they
have completed (R475, R477). -/
def descMayBegin (d : Dev) (x : Desc) : Bool :=
  !x.begun && (earlier d x).all (·.begun) && (!x.ordered || (earlier d x).isEmpty)

/-- A descriptor has begun. -/
def Dev.begin (d : Dev) (id : Nat) : Dev :=
  d.onHif fun h => { h with descs := h.descs.map fun x => if x.id = id then { x with begun := true } else x }

/-- The module does a descriptor's work now: PD_HIF is on, and, where it reads or writes rows or device memory, no range is held
(R565, Table 15.3). -/
def mayRun (d : Dev) (kind : Nat) : Bool :=
  d.hifUp && !d.stopped && ((heldPool d).isNone || kind == 2 || kind == 6 || 10 ≤ kind)

/-- Run a descriptor of a kind that may begin; otherwise its occasion has not come (log 10). -/
def runDesc (m : Mod) (id kind : Nat) (f : Mod → Desc → Mod) : Mod :=
  match descOf m.dev id with
  | some x => if x.kind = kind ∧ descMayBegin m.dev x = true ∧ mayRun m.dev kind = true then f (m.onDev fun d => d.begin id) x else m
  | none => m

/-- FENCE (R477). -/
def execFence (desc : Nat) (s : State) : Out :=
  onRing s fun d => match descOf d desc with
    | none => d
    | some x =>
      let step := BitVec.ofNat 32 (x.fld 12 4)
      let holds : Bool := match x.fld 8 1 with
        | 0 => (earlier d x).isEmpty
        | 1 => d.hif.descs.all fun y => decide (x.id ≤ y.id)
        | 2 => !stepNewer step d.base.applied
        | _ => !stepNewer step d.base.cleared
      if x.kind = 10 ∧ descMayBegin d x = true ∧ holds = true then (d.begin desc).endDesc desc 0 else d

/-! ## The event ring (R478, Table 11.14) -/

/-- EVENT_RING_SET (R478): the new ring is in use for every record not yet posted. -/
def execEventRingSet (desc : Nat) (s : State) : Out :=
  onMod s fun m => runDesc m desc 12 fun m x => m.onDev fun d =>
    let d := if x.lost then d else d.onBase fun b => { b with evt := { b.evt with
      ringSet := true, base := x.fld 8 8, log2 := x.fld 16 1, minSev := x.fld 17 1, vector := x.fld 18 2, areas := x.fld 20 2
      posted := 0, head := 0 } }
    d.endDesc desc 0

/-- The bytes of an event record. -/
def Event.bytes (e : Event) (phase lost : Nat) : List Byte :=
  leBytes 2 e.code ++ leBytes 1 e.sev ++ leBytes 1 phase ++ leBytes 4 e.seq.toNat ++ leBytes 8 e.time.toNat
    ++ leBytes 4 e.step.toNat ++ leBytes 4 lost ++ leBytes 1 (e.code / 256) ++ leBytes 1 e.die
    ++ leBytes 2 (e.unit % 4096) ++ zeros 4 ++ padTo 96 (e.args.flatMap fun w => leBytes 8 w.toNat)

/-- Entries of the event ring that are free to the module's knowledge. -/
def evFree (b : BaseState) : Nat := 2 ^ b.evt.log2 - (b.evt.posted - b.evt.head).toNat

/-- Post the oldest record that the ring takes; masked ones before it go (R478). -/
def postEvent (b : BaseState) : BaseState :=
  if !b.evt.ringSet then b
  else match b.evt.held.dropWhile fun e => !b.posts e with
    | [] => { b with evt := { b.evt with held := [] } }
    | e :: l =>
      if evFree b = 0 then { b with evt := { b.evt with held := e :: l } }
      else
        let n := 2 ^ b.evt.log2
        let p := b.evt.posted.toNat
        let rec_ := e.bytes (ringPhase p n) b.evt.lost
        let b' := b.hostWrite (b.evt.base + 128 * (p % n)) rec_
        BaseState.msixSend { b' with evt := { b'.evt with held := l, posted := b'.evt.posted + 1, lost := 0 } } b.evt.vector

/-- Post up to `n` records. -/
def postEvents : Nat → BaseState → BaseState
  | 0, b => b
  | n + 1, b => postEvents n (postEvent b)

/-- EVENT_RECORD_POST (R478). -/
def execEventRecordPost (s : State) : Out := onRing s fun d => d.onBase postEvent

/-! ## Express latency (R466, R467, R469) -/

/-- Express plots in service (R466). -/
def expressIn (d : Dev) : Nat :=
  ((List.range 4096).filter fun l => isExpress d.base l && (match physOf d.base l with
    | some i => !(healthOf d i).fallow
    | none => false)).length

/-- Some interval of 512 µs about a lookup's doorbell carries more than 2,048 indices (R466). -/
def crowded (d : Dev) (t : Word64) : Bool :=
  let w := 512000
  d.hif.lookups.any fun x => decide (x.1.toNat ≤ t.toNat ∧ t.toNat < x.1.toNat + w)
    && decide (2048 < sumNat ((d.hif.lookups.filter fun y => decide (x.1.toNat ≤ y.1.toNat ∧ y.1.toNat < x.1.toNat + w)).map (·.2)))

/-- A protective action or a reset is in progress or has come since a doorbell; a cycle of PD_SPd, PD_IQq or PD_HIF counts as one
(R466, R567). -/
def resetSince (d : Dev) (t : Word64) : Bool :=
  d.stopped || (match d.pwr.cycle with
    | some c => decide (16 ≤ c.dom ∧ c.dom ≤ 20) || decide (26 ≤ c.dom)
    | none => false) || d.pwr.lastReset.any fun r => decide (t.toNat ≤ r)

/-- The conditions of R466 (bits 0 to 2) and R467 (bits 3 to 5) that did not hold for a lookup. -/
def lateMask (d : Dev) (t : Word64) (slow held : Bool) : Nat :=
  b2n (decide (expressIn d < 32)) + 2 * b2n (crowded d t) + 4 * b2n (resetSince d t)
    + 8 * b2n (decide (d.hif.rate < 64 ∨ d.hif.width < 16)) + 16 * b2n slow + 32 * b2n held

/-! ## Completions (R472, R473, R611, Table 11.11) -/

/-- Entries of a completion ring that are free to the module's knowledge. -/
def cqFree (d : Dev) (n : Nat) : Nat := cqSize d.base n - ((cqOf d n).posted - (cqOf d n).head).toNat

/-- A completion ring sends its MSI-X message. -/
def signalCq (d : Dev) (n : Nat) : Dev := (d.modCq n fun q => { q with unsig := 0 }).msixSend (cfgRingCqCfgVector d.base n)

/-- LAT of a lookup, in units of 10 ns (R469). -/
def latOf (d : Dev) (x : Desc) : Nat := (d.base.now - x.seen.time).toNat / 10

/-- Write a completion into its ring, then signal it (R469, R472, R473, R476). -/
def writeCpl (d : Dev) (h : HeldCpl) (held : Bool) : Dev :=
  let x := h.desc
  let n := x.cq
  let q := cqOf d n
  let p := q.posted.toNat
  let lat := latOf d x
  let r1 := if x.kind = 1 then lat else nth 0 h.ended.words 2
  let bytes := leBytes 4 x.tag ++ leBytes 1 h.ended.status ++ leBytes 1 x.kind ++ leBytes 1 x.ring
    ++ leBytes 1 (ringPhase p (cqSize d.base n)) ++ leBytes 4 (sqOf d x.ring).next.toNat ++ leBytes 4 (nth 0 h.ended.words 0)
    ++ leBytes 8 (nth 0 h.ended.words 1) ++ leBytes 8 r1
  let d := (d.hostWrite (cfgRingCqBaseBase d.base n * 4096 + 32 * (p % cqSize d.base n)) bytes).modCq n fun q =>
    { q with posted := q.posted + 1, unsig := q.unsig + 1, first := if q.unsig = 0 then d.base.now else q.first }
  let d := if x.kind = 1 ∧ 3000 < lat then
      (d.count cExprLate 0 1).raise evExpressLate { t := x.tag, c := lateMask d x.seen.time h.slow held, n := lat }
    else d
  let cnt := cfgRingCqCfgCoalcnt d.base n
  if (cnt = 0 ∧ cfgRingCqCfgCoalus d.base n = 0) ∨ (cnt ≠ 0 ∧ cnt ≤ (cqOf d n).unsig) then signalCq d n else d

/-- A completion of a descriptor fetched before a function-level reset is discarded and counted (R479). -/
def loseCpl (d : Dev) : Dev :=
  (d.count cHifLostCompl 0 1).onHif fun h => { h with flrLost := h.flrLost.map (· + 1) }

/-- COMPLETION_POST (R472, R473, R476): the oldest completion due is written, held for a full ring, left out for QUIET, or
discarded after a function-level reset. `slow`: a device read of host memory it needed took longer than 2 µs (R467). -/
def execCompletionPost (slow : Bool) (s : State) : Out :=
  onRing s fun d => match d.base.ended with
    | [] => d
    | e :: l =>
      let d := d.onBase fun b => { b with ended := l }
      match descOf d e.id with
      | none => d
      | some x =>
        let d := d.onHif fun h => { h with descs := h.descs.filter fun y => y.id ≠ x.id }
        if x.quiet ∧ e.status = 0 then d
        else if x.lost then loseCpl d
        else
          let q := cqOf d x.cq
          if q.held != [] || decide (cqFree d x.cq = 0) then
            let d := (d.modCq x.cq fun q => { q with full := true, held := q.held ++ [⟨x, e, slow⟩] }).count cCqFull x.cq 1
            if q.full then d else d.raise evCqFull {} 0 x.cq
          else writeCpl d ⟨x, e, slow⟩ false

/-- CQ_COALESCE_TIMER (R473): COALUS after the first completion not signalled. -/
def execCqCoalesceTimer (cq : Fin 256) (s : State) : Out :=
  onRing s fun d => if cfgRingCqCfgCoalus d.base cq = 0 ∨ (cqOf d cq).unsig = 0 then d else signalCq d cq

/-- A count of consumed entries is taken only as far as the entries written (R611). -/
def takeCount (posted head value : Word32) : Word32 := if (value - head).toNat ≤ (posted - head).toNat then value else head

/-- Write held completions while room is known (R472). -/
def releaseHeld (cq : Nat) : Nat → Dev → Dev
  | 0, d => d
  | n + 1, d => match (cqOf d cq).held with
    | [] => d
    | h :: l =>
      if cqFree d cq = 0 then d
      else releaseHeld cq n (writeCpl (d.modCq cq fun q => { q with held := l }) h true)

/-- CQ_HEAD has been read again (R472, R611). -/
def rereadCq (d : Dev) (cq : Nat) (value : Word32) : Dev :=
  if !cqUsable d cq || decide (64 ≤ cqFree d cq) then d
  else
    let d := d.modCq cq fun q => { q with head := takeCount q.posted q.head value }
    let d := if cqFree d cq = 0 then d else d.modCq cq fun q => { q with full := false }
    releaseHeld cq ((cqOf d cq).held.length) d

/-- EV_HEAD has been read again (R478, R611). -/
def rereadEv (d : Dev) (value : Word32) : Dev :=
  if !d.base.evt.ringSet || decide (64 ≤ evFree d.base) then d
  else d.onBase fun b =>
    let b := { b with evt := { b.evt with head := takeCount b.evt.posted b.evt.head value } }
    postEvents b.evt.held.length b

/-! ## Failed host reads (R435) -/

/-- A descriptor that waits for host data ends with HOST_READ_ERROR (R435). -/
def hostFail (m : Mod) (id addr : Nat) : Mod := match descOf m.dev id with
  | none => m
  | some x =>
    if x.begun ∨ descMayBegin m.dev x = false ∨ x.kind = 2 ∨ x.kind = 6 ∨ x.kind = 8 ∨ 10 ≤ x.kind then m
    else m.onDev fun d => ((d.begin id).raise evHostReadError { t := x.tag, d := addr } 0 x.ring).endDesc id 0x13

/-! ## The share of SC1 (R471) -/

/-- SC1_SHARE_CHECK (R471): once a tick, a spine in which SC1 held less than its share, by `shortfall` slots. -/
def execSc1ShareCheck (spine : Fin 4) (shortfall : Nat) (s : State) : Out :=
  onDev s fun d =>
    let t := tickIdx d.base
    if shortfall = 0 ∨ kfind d.hif.shareSaid spine = some t then d
    else (d.onHif fun h => { h with shareSaid := kput h.shareSaid spine t }).raise evSc1ShareShort { n := shortfall } spine

/-! ## Function-level reset (R479) -/

/-- The STEP_RUNs that keep their place: those whose input has been read in full. -/
def keptRuns (d : Dev) : List StepRun := d.ms.runs.filter fun r => decide (r.input = some true)

/-- The last step whose STEP_RUN is kept; the latest APPLIED step where none is. -/
def lastKept (d : Dev) : Word32 := match (keptRuns d).getLast? with
  | some r => r.step
  | none => d.base.applied

/-- FUNCTION_LEVEL_RESET (R479, R537). -/
def execFunctionLevelReset (s : State) : Out :=
  onRing s fun d =>
    let kept := (keptRuns d).map (·.id)
    let stay := fun (x : Desc) => decide (x.kind ≠ 1) && (decide (x.kind ≠ 2) || kept.contains x.id
      || d.base.ended.any fun e => decide (e.id = x.id))
    let heldLost := sumNat (d.hif.cqs.map fun q => (q.2.held.filter fun c => decide (c.desc.kind ≠ 1)).length)
    let hadJob := d.hif.stepNext.isSome
    let last := lastKept d
    let d := d.onMs fun m => { m with runs := keptRuns d }
    let d := d.onFw fun w => { w with rsps := [], kicked := false, reqTail := 0, reqTaken := 0, rspHead := 0, rspPosted := 0 }
    let d := d.onBase fun b =>
      let b := { b with regs := b.regs.filter fun r => !flrReg r.1, fallback := b.fallback.filter fun r => !flrReg r, lockHif := false }
      let b := regStoreField b 0x8 29 29 1
      { b with evt := { b.evt with ringSet := false, base := 0, log2 := 0, minSev := 0, vector := 0, areas := 0, posted := 0, head := 0 } }
    let d := d.onHif fun h => { h with
      sqs := [], cqs := [], flrLost := some (h.flrLost.getD 0), lookups := []
      descs := (h.descs.filter stay).map fun x => { x with lost := true }
      stepNext := if hadJob then some (last + 1) else none }
    (List.range heldLost).foldl (fun d _ => loseCpl d) d

end Sys2Proof.Machine
end

