-- ==== Sys2Proof/Machine/Descs.lean ====
section
/-!
DEFINITION. What descriptors do: express lookups, STEP_RUN, tables, imports and exports, version switches, cairns, COPY,
EVACUATE (11_host_rings, 06_tables_and_gather, 08_sowing_and_update R338 to R367, 09_training_step_and_milestones R392 to R395).
-/

namespace Sys2Proof.Machine

/-! ## What a descriptor names -/

/-- `n` bytes that a descriptor reads from host memory, where they are `host`, or from a DA. -/
def descData (m : Mod) (id : Nat) (isDa : Bool) (addr n : Nat) (host : List Byte) : Except FaultKind (List Byte) :=
  if isDa then m.demandRead (.desc id) addr n else .ok (padTo n host)

/-- A descriptor ends with ADDRESS_ERROR (R15, R461), or waits for bytes of a neighbour window (R499). -/
def addrError (m : Mod) (id : Nat) (f : FaultKind) (words : List Nat) : Mod :=
  m.onDev fun d => match f with
    | .remoteWait da n => d.askRemote (.desc id) da n
    | f => (d.raiseAccess f).endDesc id 0x12 words

/-! ## Express lookups (R463 to R465) -/

/-- Offsets of the bags start at 0, do not decrease and end at the number of indices (R464). -/
def bagsOk (count : Nat) (offs : List Int) : Bool :=
  (offs.head? == some 0) && (offs.getLast? == some (count : Int)) && (offs.zip (offs.drop 1)).all fun p => decide (p.1 ≤ p.2)

/-- The completion status a GST stands for (R465). -/
def gstStatus (g : Nat) : Nat :=
  if g = gstCold then 1 else if g = gstBadIndex then 2 else if g = gstNoHistory then 3 else if g = gstTimeout then 4
  else if g = gstTierError then 5 else 0

/-- The physical plot that runs index `j` of a lookup: the express plots in service in turn (DESIGN CHOICE, log 30). -/
def expressPlot (d : Dev) (j : Nat) : Nat :=
  let l := (List.range 4096).filterMap fun p => if isExpress d.base p then
      (match physOf d.base p with
        | some i => if (healthOf d i).fallow then none else some i
        | none => none) else none
  nth 0 l (j % max 1 l.length)

/-- One index of a lookup: its GST and weight payload (R464, Table 6.9). -/
def expressRow (m : Mod) (t : TDesc) (target : Word32) (j w : Nat) (fail : Option Bool) : Nat × List Byte × Mod :=
  let row := bitsOf w 39 0
  let zero := zeros t.pw
  if bitsOf w 63 40 ≠ 0 then (gstBadIndex, zero, m)
  else match fail with
    | some late => (if late then gstTimeout else gstTierError, zero, m.onDev fun d =>
        d.count (if late then cTierTimeout else cTierError) (spineOf t.id row) 1)
    | none => match gatherRow m (expressPlot m.dev j) t row 1 target 0 false t.granG with
      | none => (gstTimeout, zero, m)
      | some (x, m1) =>
        let m2 := m1.onDev fun d => d.noteRead t.id row target x
        let m3 := if x.gst = gstCold then m2.onDev fun d => d.queuePromote t.id row .warm false else m2
        (x.gst, if x.data = [] then zero else padTo t.pw (x.data.drop 16), m3)

/-- The indices of a lookup in order. -/
def expressRows (t : TDesc) (target : Word32) (fails : List (Nat × Bool)) :
    Nat → List Nat → Mod → List (Nat × List Byte) → List (Nat × List Byte) × Mod
  | _, [], m, acc => (acc.reverse, m)
  | j, w :: ws, m, acc =>
    let x := expressRow m t target j w ((fails.find? fun f => f.1 = j).map (·.2))
    expressRows t target fails (j + 1) ws x.2.2 ((x.1, x.2.1) :: acc)

/-- The pooled bags of a lookup, and what their sums and conversions count (R170 to R173, R249, R464). -/
def expressBags (d : Dev) (t : TDesc) (pool : Nat) (bf16 : Bool) (offs : List Int) (ws : List Word32) (rows : List (List Byte)) :
    List Byte × Dev :=
  let vals := (rows.zipIdx).map fun r =>
    let v := t.format.decodeRow t.width r.1
    if pool = 3 then v.map fun x => x.mul (ofF32 (nth 0#32 ws r.2).toNat) else v
  let inst := expressPlot d 0
  let rd : Rounding := ⟨none, cfgPlotArithModeInfOnOverflow d.base == 1⟩
  (offs.zip (offs.drop 1)).foldl (fun acc p =>
    let n := (p.2 - p.1).toNat
    let runs := sumBag t.width ((vals.drop p.1.toNat).take n)
    let v := bagValues ⟨runs, n⟩
    let v := if pool = 2 ∧ n ≠ 0 then v.map fun x => x.div (.fin false n 0) else v
    let r := (if bf16 then Fmt.bf16 else Fmt.fp32).encodeRow none rd v
    let d := runs.foldl (fun d x => countRun d inst x) acc.2
    let d := if r.cnt.sat = 0 then d else d.count cConvSat inst r.cnt.sat
    let d := if r.cnt.cnan = 0 then d else d.count cConvNan inst r.cnt.cnan
    (acc.1 ++ r.bytes, d)) ([], d)

/-- EXPRESS_LOOKUP (R28, R30, R463 to R465, R470): `idx`, `bags` and `weights` are the host's lists; `fails` names indices whose
tier failed (false) or did not answer in time (true). -/
def execExpressLookup (desc : Nat) (idx : List Word64) (bags weights : List Word32) (fails : List (Nat × Bool)) (s : State) : Out :=
  onPlane s fun m => runDesc m desc 1 fun m x => match tdescAt m (x.fld 8 2) with
    | none => m.onDev fun d => d.endDesc desc 0x15
    | some t =>
      let fl := x.fld 10 1
      let pool := bitsOf fl 2 1
      let bf := bitOf fl 3
      let count := x.fld 12 2 + 1
      let nb := x.fld 14 2 + 1
      let offs := (List.range (nb + 1)).map fun i => (nth 0#32 bags i).toInt
      let out := if pool = 0 then count * t.pw else nb * t.width * (if bf then 2 else 4)
      if t.kind = 1 ∨ 0x100000 < out ∨ (pool ≠ 0 ∧ bagsOk count offs = false) then m.onDev fun d => d.endDesc desc 0x10
      else
        let target := if bitOf fl 0 then x.seen.applied else x.seen.cleared
        let ws := (List.range count).map fun j => (nth 0#64 idx j).toNat
        let r := expressRows t target fails 0 ws m []
        let gsts := r.1.map (·.1)
        r.2.onDev fun d =>
          let o : List Byte × Dev := if pool = 0 then ((r.1.map (·.2)).flatten, d) else
            expressBags d t pool bf offs weights (r.1.map (·.2))
          let d := o.2.hostWrite (x.fld 24 8) o.1
          let d := if x.fld 32 8 = 0 then d else d.hostWrite (x.fld 32 8) (gsts.map fun g => BitVec.ofNat 8 g)
          let bad := (gsts.zipIdx).filter fun g => decide (g.1 ≠ gstOk)
          let first := match bad with
            | b :: _ => b.2
            | [] => 0
          d.endDesc desc (gsts.foldl (fun a g => max a (gstStatus g)) 0)
            [target.toNat, bad.length + 65536 * first + 2 ^ 32 * (t.verAt target).version, 0]

/-! ## STEP_RUN (R455, R616) -/

/-- Bits [63:56] of some DAs are zero (R15). -/
def daOk (l : List Nat) : Bool := l.all fun a => decide (a < 2 ^ 56)

/-- STEP_RUN (R369, R455): the next consecutive step is queued. -/
def execStepRun (desc : Nat) (s : State) : Out :=
  onPlane s fun m => runDesc m desc 2 fun m x => m.onDev fun d =>
    let step := BitVec.ofNat 32 (x.fld 8 4)
    let fail := fun (st : Nat) => d.endDesc desc st [step.toNat, 0, 0]
    if d.ms.noJob then fail 0x14
    else if d.ms.halted then fail 0x1C
    else if (d.hif.stepRing.any fun r => decide (r ≠ x.ring)) ∨ step ≠ d.hif.stepNext.getD (d.base.applied + 1) then fail 0x1A
    else if daOk [x.fld 32 8, x.fld 40 8] = false ∨ (x.fld 48 1 = 1 ∧ daOk [x.fld 16 8] = false) then fail 0x12
    else (d.onMs fun k => { k with runs := k.runs ++ [⟨x.ring, desc, step, none, [], false⟩] }).onHif fun h =>
      { h with stepRing := some x.ring, stepNext := some (step + 1) }

/-- STEP_INPUT_READ (R25, R100, R616): when preparation of a step begins its input is read, well (`ok`) or not; `plan` is what the
plan makes of it: dependency slot, count and DA of each block's descriptor. -/
def execStepInputRead (step : Word32) (ok : Bool) (plan : List (Nat × Nat × Nat)) (s : State) : Out :=
  onPlane s fun m => match runOf m.dev step with
    | none => m
    | some r =>
      if r.input.isSome ∨ m.dev.ms.halted ∨ 3 < (step - m.dev.base.applied).toNat then m
      else
        let m := m.onDev fun d =>
          let d := d.modRun step fun r => { r with input := some ok, plan := plan, begun := false }
          if ok then d else match descOf d r.id with
            | some x => d.raise evHostReadError { t := x.tag, d := x.fld 16 8 } 0 r.ring
            | none => d.raise evHostReadError {} 0 r.ring
        beginStep m

/-! ## Group maps and TABLE_CREATE (R338, R339, R456, R612) -/

/-- Entries of the group map at a DA, where it is valid (R338, R339). -/
def groupMap (m : Mod) (da : Nat) : Option Nat :=
  let ok := fun n => inHotSoft m.dev.base m.dev.tier da n
  if !ok 64 then none
  else
    let h := m.load da 64
    let n := fieldAt h 0 4
    if n = 0 ∨ 65535 < n ∨ fieldAt h 4 60 ≠ 0 ∨ ok (64 + 8 * n) = false then none
    else
      let ws := (List.range n).map fun i => m.loadNat (da + 64 + 8 * i) 8
      let rows := ws.map fun w => bitsOf w 39 0
      if (ws.any fun w => bitsOf w 63 49 ≠ 0) ∨ ((rows.zip (rows.drop 1)).any fun p => decide (p.2 ≤ p.1)) then none else some n

/-- Copy a valid group map into META pages: DA and entries of the copy; none where no run fits. -/
def copyMap (m : Mod) (da n : Nat) : Option ((Nat × Nat) × Mod) :=
  (allocMeta m (64 + 8 * n)).map fun x => ((x.1, n), x.2.store x.1 (m.load da (64 + 8 * n)))

/-- A field of a new descriptor breaks Table 6.2 (R456). -/
def imageBad (b : BaseState) (i : List Byte) : Bool :=
  let f := fieldAt i
  let kind := f 2 2 / 4096
  let repl := f 12 1
  decide (1 < kind) || (match Fmt.ofCode (f 4 1) with
      | some g => !(g == .fp32 || g == .bf16 || g == .fp16 || g.isMx)
      | none => true)
    || decide (4 < f 5 1) || decide (f 6 2 % 32 ≠ 0 ∨ f 6 2 < 32 ∨ 4096 < f 6 2) || decide (4095 < f 8 2 ∨ 4095 < f 10 2)
    || decide (1 < repl) || (if repl = 1 then decide (f 8 2 ≠ 0 ∨ f 10 2 ≠ 0)
        else decide (f 8 2 ≠ cfgFabMsCfgKidx b ∨ f 10 2 ≠ cfgFabMsCfgNmod b))
    || decide (63 < f 13 1 ∨ 1 < bitsOf (f 13 1) 5 4) || decide (4 < f 14 1) || decide (1 < f 15 1)
    || decide (f 16 8 = 0 ∨ 2 ^ 40 < f 16 8) || decide (2 ^ 40 ≤ f 24 8 ∨ 2 ^ 40 ≤ f 32 8) || decide (f 40 8 ≠ 0)
    || decide (7 < f 57 1 ∨ (kind ≠ 1 ∧ f 57 1 ≠ 0)) || decide (f 58 2 ≠ 0 ∨ f 60 2 ≠ 0) || decide (f 62 126 ≠ 0)

/-- A table's row map is made: a run of META pages, every entry ABSENT (R456, R612). A DENSE table's matrix keeps what its
pages hold (log 27). -/
def newMap (m : Mod) (t : TDesc) (extent : Nat) : Option (Nat × Mod) :=
  (allocMeta m (t.mapBytes extent)).map fun x =>
    (x.1, if t.kind = 1 then x.2 else { x.2 with mem := x.2.mem.filter fun c => decide (c.1 < x.1 ∨ x.1 + 8 * extent ≤ c.1) })

/-- Create a table from its image: the status, and the module after it (R456). -/
def createTable (m : Mod) (i : List Byte) : Nat × Mod :=
  let id := fieldAt i 2 2 % 4096
  if m.dev.tab.noArray then (0x24, m)
  else if fieldAt i 188 4 ≠ crc32c (i.take 188) then (0x10, m)
  else if (tdescAt m id).isSome then (0x16, m)
  else if imageBad m.dev.base i then (0x10, m)
  else
    let t := parseTd (i ++ zeros 64)
    let map := if t.pgmap = 0 then some 0 else groupMap m t.pgmap
    match map with
    | none => (0x18, m)
    | some n => match newMap m t t.extent with
      | none => (0x24, m)
      | some (rm, m1) =>
        let t' := { t with rowmap := rm, granG := t.grans.1, granRec := t.grans.2 }
        let fin := fun (m : Mod) => m.putTd id t'
        if n = 0 then (0, fin m1)
        else match copyMap m1 t.pgmap n with
          | none => (0x24, m)
          | some (c, m2) =>
            let good := fun (y : Nat) => decide (y ≠ id)
            (0, fin (m2.onDev fun d => d.onSow fun k => { k with pgCopy := kput k.pgCopy id c, pgBad := k.pgBad.filter good }))

/-- TABLE_CREATE (R456): `image` is what host memory returned. -/
def execTableCreate (desc : Nat) (image : List Byte) (s : State) : Out :=
  onPlane s fun m => runDesc m desc 3 fun m x => match descData m desc (x.fld 16 1 == 1) (x.fld 8 8) 192 image with
    | .error f => addrError m desc f []
    | .ok i =>
      let r := createTable m i
      r.2.onDev fun d => d.endDesc desc r.1

/-! ## TABLE_IMPORT (R349, R366, R367, R457) -/

/-- A shard record: its header and its row entries. -/
structure ShardRec where
  /-- The 128 bytes of the header. -/
  hdr : List Byte
  /-- The row entries' bytes. -/
  body : List Byte
  deriving DecidableEq, Repr

/-- HCRC of a header passes. -/
def hcrcOk (h : List Byte) : Bool := decide (fieldAt h 124 4 = crc32c (h.take 124))

/-- The shard records in a run of bytes. One whose HCRC fails is the last: nothing says where the next begins (log 29). -/
def shardRecs : Nat → List Byte → List ShardRec
  | 0, _ => []
  | fuel + 1, b =>
    if b.length < 128 then []
    else
      let h := b.take 128
      if !hcrcOk h then [⟨h, []⟩]
      else
        let n := fieldAt h 40 8 * fieldAt h 60 4
        ⟨h, (b.drop 128).take n⟩ :: shardRecs fuel (b.drop (128 + n))

/-- Columns of a record. -/
def ShardRec.cols (r : ShardRec) : Nat := fieldAt r.hdr 56 2

/-- Row entries of a record. -/
def ShardRec.ents (r : ShardRec) : List (List Byte) :=
  let n := fieldAt r.hdr 60 4
  (List.range (fieldAt r.hdr 40 8)).map fun i => (r.body.drop (n * i)).take n

/-- A record's rows are taken (R366). One whose layout fields break Table 8.11 cannot be read (log 29). -/
def ShardRec.ok (r : ShardRec) (t : TDesc) (extent : Nat) : Bool :=
  let f := fieldAt r.hdr
  let n := f 60 4
  hcrcOk r.hdr && decide (f 0 4 = 0x3148535A) && decide (f 5 1 = 1) && decide (f 6 1 = t.kind) && decide (f 58 1 = t.fmt)
    && decide (f 59 1 = t.mshape) && decide (r.body.length = f 40 8 * n) && decide (f 120 4 = crc32c r.body)
    && decide (n % 64 = 0 ∧ 16 + t.format.rowBytes r.cols
        + (if bitOf (f 7 1) 1 then (b2n t.hasM + b2n t.hasV) * (r.cols + r.cols / 32) else 0) ≤ n)
    && decide (f 48 4 % 32 = 0 ∧ r.cols % 32 = 0 ∧ 32 ≤ r.cols ∧ r.cols ≤ 4096)
    && r.ents.all fun e => decide (bitsOf (fieldAt e 0 8) 39 0 < extent)

/-- The part of a row entry that a slice takes: none where no column of the slice is covered (R366). Without CONTENT[0] no weights
are written (log 29). -/
def importRow (t : TDesc) (r : ShardRec) (e : List Byte) (flagsOnly : Bool) (tag : Nat) : Option ImportRow :=
  let c0 := fieldAt r.hdr 48 4
  let a := max c0 t.col0
  let z := min (c0 + r.cols) (t.col0 + t.width)
  let part := fun (bits : Nat) (mx : Bool) (b : List Byte) =>
    ((b.drop ((a - c0) * bits / 8)).take ((z - a) * bits / 8),
      if mx then (b.drop (packedBytes bits r.cols + (a - c0) / 32)).take ((z - a) / 32) else [])
  let w0 := t.format.rowBytes r.cols
  let one := r.cols + r.cols / 32
  let p := e.drop 16
  let row := fieldAt e 0 8
  if z ≤ a ∧ flagsOnly = false then none
  else some {
    table := t.id, row := bitsOf row 39 0, frozen := bitOf row 40, col := a - t.col0, cols := z - a
    moments := bitOf (fieldAt r.hdr 7 1) 1, flagsOnly := flagsOnly
    rv16 := if c0 ≤ t.col0 ∧ t.col0 < c0 + r.cols then some (fieldAt e 12 2) else none
    w := if bitOf (fieldAt r.hdr 7 1) 0 then part t.format.bits t.format.isMx p else ([], []), m := part 8 true (p.drop w0)
    v := part 8 true (p.drop (if t.hasM then w0 + one else w0)), tag := tag, applied := none }

/-- Write one row of a pending version at once (R367). -/
def importPending (m : Mod) (t : TDesc) (v : TabVer) (i : ImportRow) : Except Mod Mod :=
  let e := rowEnt m v.rowmap i.row
  let oldRec := recordOf m e t.granRec
  let old := if e.near then recPayload t oldRec else zeros (t.pw + t.pm)
  let pay := if i.flagsOnly then old else importPayload t i old
  match writeRow m ⟨t, v, i.row, 0, 0, jkImport, true, i.frozen, groupNum m t i.row, pay, []⟩ with
  | .ok m => .ok m
  | .error (_, m) => .error m

/-- Write rows of a pending version until one finds no room (R362): rows written, whether all were. -/
def importAll (t : TDesc) (v : TabVer) : List ImportRow → Nat → Mod → Nat × Bool × Mod
  | [], n, m => (n, true, m)
  | i :: l, n, m => match importPending m t v i with
    | .ok m => importAll t v l (n + 1) m
    | .error m => (n, false, m)

/-- Write a row of a DENSE table's matrix: the columns that the entry covers (log 27). -/
def importDense (m : Mod) (t : TDesc) (rowmap : Nat) (i : ImportRow) : Mod :=
  let da := rowmap + i.row * rowPitch t.format t.width 0
  if i.flagsOnly then m
  else m.store da (overlay t.format.bits t.width (m.load da t.pw) i.col i.cols i.w t.format.isMx)

/-- The version an import writes, created where it is a new pending one (R221, R457); or its error status. -/
def importTarget (m : Mod) (t : TDesc) (pending : Bool) (version pext : Nat) : Except Nat (TabVer × Mod) :=
  if !pending then (if version = t.version then .ok (t.curVer, m) else .error 0x17)
  else if t.pendValid then
    (if version = t.pendVersion then .ok (⟨version, t.pendRowmap, kget t.extent m.dev.tab.pendExtent t.id, 0⟩, m) else .error 0x17)
  else
    let ext := if pext = 0 then t.extent else pext
    let newer := (version + 65536 - t.version) % 65536
    if newer = 0 ∨ 32768 ≤ newer ∨ ext < t.extent ∨ 2 ^ 40 < ext then .error 0x17
    else match newMap m t ext with
      | none => .error 0x24
      | some (rm, m1) =>
        let m2 := m1.putTd t.id { t with pendValid := true, pendVersion := version, pendRowmap := rm }
        .ok (⟨version, rm, ext, 0⟩, m2.onDev fun d => d.onTab fun k => { k with pendExtent := kput k.pendExtent t.id ext })

/-- TABLE_IMPORT (R349, R366, R367, R457, R462): `recs` is what host memory returned. -/
def execTableImport (desc : Nat) (recs : List Byte) (s : State) : Out :=
  onPlane s fun m => runDesc m desc 4 fun m x => match tdescAt m (x.fld 8 2) with
    | none => m.onDev fun d => d.endDesc desc 0x15
    | some t =>
      let fl := x.fld 12 1
      let pending := bitOf fl 0
      match descData m desc (bitOf fl 2) (x.fld 16 8) (x.fld 24 8) recs with
      | .error f => addrError m desc f []
      | .ok b => match importTarget m t pending (x.fld 10 2) (x.fld 32 8) with
        | .error st => m.onDev fun d => d.endDesc desc st
        | .ok (v, m) =>
          let all := shardRecs (b.length / 128 + 1) b
          let good := all.filter fun r => r.ok t v.extent
          let bad := all.length - good.length
          let rows := good.flatMap fun r => r.ents.filterMap fun e => importRow t r e (bitOf fl 1) desc
          let st := if bad = 0 then 0 else 0x19
          if t.kind = 1 then
            (rows.foldl (fun m i => importDense m t v.rowmap i) m).onDev fun d => d.endDesc desc st [0, rows.length, bad]
          else if pending then
            let r := importAll t v rows 0 m
            r.2.2.onDev fun d => d.endDesc desc (if r.2.1 then st else 0x24) [0, r.1, bad]
          else if rows = [] then m.onDev fun d => d.endDesc desc st [0, 0, bad]
          else m.onDev fun d => d.onSow fun k => { k with
            imports := k.imports ++ rows, impJobs := k.impJobs ++ [(desc, rows.length, bad)] }

/-! ## SHARD_EXPORT (R362, R364, R365, R458, R462) -/

/-- A row entry (Table 8.12) of a record: weights and moments byte for byte. -/
def exportEntry (t : TDesc) (moments : Bool) (row : Nat) (r : List Byte) : List Byte :=
  let p := recPayload t r
  let mv := (if t.hasM then t.pmOne else 0) + (if t.hasV then t.pmOne else 0)
  let rv := if t.hasRv then fieldAt p t.pw 2 else 0
  let e := leBytes 8 (row + 2 ^ 40 * b2n (recFrozen r)) ++ leBytes 4 (recTag r).toNat ++ leBytes 2 rv ++ zeros 2 ++ p.take t.pw
    ++ (if moments then (p.drop t.pw).take mv else [])
  padTo (alignUp 64 e.length) e

/-- Bytes of a row entry of a table. -/
def entBytes (t : TDesc) (moments : Bool) : Nat :=
  alignUp 64 (16 + t.pw + (if moments then (if t.hasM then t.pmOne else 0) + (if t.hasV then t.pmOne else 0) else 0))

/-- A shard record's bytes (Table 8.11). The table keeps no D: DCOLS is W × (NSHARD + 1) (log 29). -/
def shardBytes (t : TDesc) (version step job first last : Nat) (moments : Bool) (ents : List (List Byte)) : List Byte :=
  let body := ents.flatten
  let h := leBytes 4 0x3148535A ++ leBytes 2 0x0100 ++ leBytes 1 t.kind ++ leBytes 1 (1 + 2 * b2n moments) ++ leBytes 8 job
    ++ leBytes 2 t.id ++ leBytes 2 version ++ leBytes 4 step ++ leBytes 8 first ++ leBytes 8 last ++ leBytes 8 ents.length
    ++ leBytes 4 t.col0 ++ leBytes 4 (t.width * (t.nshard + 1)) ++ leBytes 2 t.width ++ leBytes 1 t.fmt ++ leBytes 1 t.mshape
    ++ leBytes 4 (entBytes t moments) ++ zeros 56 ++ leBytes 4 (crc32c body)
  h ++ leBytes 4 (crc32c h) ++ body

/-- Rows with what a read of each found; ABSENT ones are left out, and one whose tier fails gives its status (R365). -/
structure ExportRow where
  /-- Row. -/
  row : Nat
  /-- GST. -/
  gst : Nat
  /-- Record. -/
  data : List Byte
  deriving DecidableEq, Repr

/-- Read rows [a, a + n) of a version as of a step, whole, restoring records that fail FPRINT (R219). -/
def exportRows (t : TDesc) (v : TabVer) (step : Word32) : Nat → Nat → Mod → List ExportRow → List ExportRow × Mod
  | _, 0, m, acc => (acc.reverse, m)
  | a, n + 1, m, acc => match verifyHome m t v a with
    | none => exportRows t v step (a + 1) n m (⟨a, gstTierError, []⟩ :: acc)
    | some m1 =>
      let r := readRow m1 t v a step t.granRec
      exportRows t v step (a + 1) n m1 (if r.gst = gstAbsent then acc else ⟨a, r.gst, r.data⟩ :: acc)

/-- Write the record of some rows at DST, as many as fit, and end the descriptor (R458). -/
def writeShard (m : Mod) (x : Desc) (t : TDesc) (version : Nat) (step : Word32) (rows : List ExportRow) (last : Nat) : Mod :=
  let mom := bitOf (x.fld 10 1) 1
  let bad := rows.foldl (fun a r => max a (gstStatus r.gst)) 0
  let good := rows.filter fun r => decide (r.gst = gstOk)
  let eb := entBytes t mom
  let room := x.fld 40 8
  let first := x.fld 16 8
  let fit := (room - 128) / eb
  let short := decide (room < 128) || decide (fit < good.length)
  let next := if room < 128 then first else match good.drop fit with
    | r :: _ => r.row
    | [] => last
  let ents := (good.take fit).map fun r => if t.kind = 1 then
      padTo eb (leBytes 8 r.row ++ zeros 8 ++ r.data.take t.pw) else exportEntry t mom r.row r.data
  let bytes := if room < 128 then [] else shardBytes t version step.toNat (x.fld 48 8) first next mom ents
  let fin := fun (m : Mod) => m.onDev fun d => d.endDesc x.id (if short then 0x21 else bad)
    [step.toNat, bytes.length, if short then next else 0]
  if bitOf (x.fld 10 1) 2 then (match m.demandWrite (.desc x.id) (x.fld 32 8) bytes with
    | .ok m => fin m
    | .error f => addrError m x.id f [step.toNat, 0, 0])
  else if x.lost then fin m else fin (m.onDev fun d => d.hostWrite (x.fld 32 8) bytes)

/-- The newest sealed own cairn, or the one of a step where that is not 0. -/
def cairnNamed (d : Dev) (step : Nat) : Option Cairn :=
  let l := d.ms.cairns.filter fun c => c.state = 1 && c.role = 0
  if step = 0 then l.getLast? else l.find? fun c => decide (c.step.toNat = step)

/-- SHARD_EXPORT (R362, R364, R365, R458, R462). A LIVE export begins: it reads as of cleared-through, pins its version and holds
back reclaim; the command given again finishes it. -/
def execShardExport (desc : Nat) (s : State) : Out :=
  onPlane s fun m =>
    let id := fun (x : Desc) => x.fld 8 2
    match m.dev.sow.live.find? fun l => l.1 = desc, descOf m.dev desc with
    | some l, some x =>
      let m := m.onDev fun d => d.onSow fun k => { k with live := k.live.filter fun y => y.1 ≠ desc }
      if l.2.2 then (m.onDev fun d => d.endDesc desc 0x22 [l.2.1.toNat, 0, 0]).unpin desc
      else match tdescAt m (id x) with
        | none => (m.onDev fun d => d.endDesc desc 0x15).unpin desc
        | some t =>
          let v := t.verAt l.2.1
          let last := min (x.fld 24 8) v.extent
          let r : List ExportRow × Mod := if t.kind = 1 then
              ((List.range (last - x.fld 16 8)).map fun i => (⟨x.fld 16 8 + i, gstOk, denseRow m t (x.fld 16 8 + i)⟩ : ExportRow), m)
            else exportRows t v l.2.1 (x.fld 16 8) (last - x.fld 16 8) m []
          (writeShard r.2 x t v.version l.2.1 r.1 (x.fld 24 8)).unpin desc
    | _, _ => runDesc m desc 5 fun m x =>
      if bitOf (x.fld 10 1) 0 then
        if cartsIn m.dev.tier = 0 then m.onDev fun d => d.endDesc desc 0x1E
        else match cairnNamed m.dev (x.fld 12 4) with
          | none => m.onDev fun d => d.endDesc desc 0x1F
          | some c => match (c.tables.map parseTd).find? fun t => t.id = id x with
            | none => m.onDev fun d => d.endDesc desc 0x15
            | some t =>
              let rows := c.rows.filterMap fun (r : Nat × List Byte) =>
                let row := r.1 % 2 ^ 40
                if r.1 / 2 ^ 40 = t.id ∧ x.fld 16 8 ≤ row ∧ row < x.fld 24 8 then some (⟨row, gstOk, r.2⟩ : ExportRow) else none
              writeShard m x t (t.verAt c.step).version c.step rows (x.fld 24 8)
      else match tdescAt m (id x) with
        | none => m.onDev fun d => d.endDesc desc 0x15
        | some t =>
          let step := m.dev.base.cleared
          (m.onDev fun d => d.onSow fun k => { k with live := k.live ++ [(desc, step, false)] }).pin desc t.id (t.verAt step).version

/-! ## VERSION_SWITCH (R224, R226, R339, R459) -/

/-- VERSION_SWITCH (R222, R224, R226, R339, R459, R462): accepted for the first COMMIT it can take effect at. -/
def execVersionSwitch (desc : Nat) (s : State) : Out :=
  onPlane s fun m => runDesc m desc 6 fun m x => match tdescAt m (x.fld 8 2) with
    | none => m.onDev fun d => d.endDesc desc 0x15
    | some t =>
      let v := x.fld 10 2
      let chg := x.fld 12 1
      let fail := fun (st : Nat) => m.onDev fun d => d.endDesc desc st
      let accept := fun (m : Mod) (c : Option SwitchChg) => m.onDev fun d => d.onTab fun k => { k with
        switches := k.switches ++ [⟨desc, t.id, c⟩] }
      if (m.dev.tab.switches.any fun w => w.table = t.id) = true then fail 0x17
      else if t.pendValid ∧ v = t.pendVersion then
        if chg ≠ 0 then fail 0x10
        else if kget t.extent m.dev.tab.pendExtent t.id < t.extent then fail 0x17
        else accept (m.putTd t.id { t with switchPending := true }) none
      else if v = t.version then
        let pg := x.fld 16 8
        let c : SwitchChg := ⟨if bitOf chg 0 then some (x.fld 13 1 == 1) else none, if bitOf chg 1 then some (x.fld 14 1) else none,
          if bitOf chg 2 then some (x.fld 15 1) else none, if bitOf chg 3 then some pg else none, none⟩
        if bitOf chg 3 = false ∨ pg = 0 then accept m (some c)
        else match groupMap m pg with
          | none => fail 0x18
          | some n => match copyMap m pg n with
            | none => fail 0x24
            | some (k, m1) => accept m1 (some { c with copy := some k })
      else fail 0x17

/-! ## Cairns (R8, R393 to R395, R460) -/

/-- CAIRN_WRITE (R8, R395): `dlist` is what host memory returned of the list of dense regions. -/
def execCairnWrite (desc : Nat) (dlist : List Byte) (s : State) : Out :=
  onPlane s fun m => runDesc m desc 7 fun m x =>
    let c := BitVec.ofNat 32 (x.fld 8 4)
    let n := x.fld 12 1
    let fail := fun (st : Nat) => m.onDev fun d => d.endDesc desc st [c.toNat, 0, 0]
    if cartsIn m.dev.tier = 0 then fail 0x1E
    else if !stepNewer c m.dev.base.applied then fail 0x1B
    else match descData m desc (x.fld 13 1 == 1) (x.fld 16 8) (16 * n) dlist with
      | .error f => addrError m desc f [c.toNat, 0, 0]
      | .ok b =>
        let l := (List.range n).map fun i => (fieldAt b (16 * i) 8, fieldAt b (16 * i + 8) 8)
        match l.findSome? fun r => accessFault m.dev false r.1 r.2 with
        | some f => addrError m desc f [c.toNat, 0, 0]
        | none => m.onDev fun d =>
          let b := d.base
          d.onMs fun k => { k with cairns := k.cairns ++ [{
            step := c, state := 0, role := 0, job := cfgFabMsIdJob b, kidx := cfgFabMsCfgKidx b, nmod := cfgFabMsCfgNmod b
            h := cfgFabMsCfgHm1 b + 1, tables := [], rows := [], dense := [], denseDue := l, bays := baysBut d.tier none, id := desc
            begun := false, bits := [], cow := [], cowBytes := 0, sweep := none, pastReset := false }] }

/-- A cairn's content as a restore takes it: descriptors, rows, dense regions. -/
structure CairnData where
  /-- The 256 bytes of each descriptor as of c. -/
  tables : List (List Byte)
  /-- Rows by key. -/
  rows : List (Nat × List Byte)
  /-- Dense regions. -/
  dense : List (Nat × List Byte)
  deriving DecidableEq, Repr

/-- Free all that tables hold: records everywhere, row maps of previous and pending versions, copies of group maps; every entry of
a current row map becomes ABSENT (R393). -/
def wipeTables (m : Mod) (recreated : List Nat) : Mod :=
  let m := (tableList m).foldl (fun m t =>
    let m := if t.prevValid then freePages m t.prevRowmap (t.mapBytes t.prevExtent) else m
    let m := if t.pendValid then freePages m t.pendRowmap (t.mapBytes (kget t.extent m.dev.tab.pendExtent t.id)) else m
    let m := match kfind m.dev.sow.pgCopy t.id with
      | some (da, n) => if recreated.contains t.id then freePages m da (64 + 8 * n) else m
      | none => m
    if recreated.contains t.id then freePages m t.rowmap (t.mapBytes t.extent)
    else
      let m := if t.kind = 1 then m else
        { m with mem := m.mem.filter fun c => decide (c.1 < t.rowmap ∨ t.rowmap + 8 * t.extent ≤ c.1) }
      m.putTd t.id { t with prevValid := false, pendValid := false, switchPending := false, pinPrev := 0 }) m
  m.onDev fun d =>
    let d := d.onTier fun t => { t with
      slots := [], cold := [], lent := [], moves := [], promote := [], refresh := [], lost := [], evicting := [], waitFail := []
      pages := t.pages.filter fun p => decide (bitsOf p.2.toNat 63 60 ≠ pkRecord) }
    d.onTab fun k => { k with dir := [], staged := [], distinct := [], pendExtent := [], coal := [] }

/-- Write a cairn's row as a first-written row: its STEPTAG, LINKED 0, no PREVLINK (R298, R393). -/
def restoreRowTo (m : Mod) (t : TDesc) (v : TabVer) (row : Nat) (r : List Byte) : Option Mod :=
  match placeFirst m t ⟨t.id, row, v.version, t.granRec, false, none⟩ with
  | none => none
  | some (tier, loc, m1) =>
    let fl := recFlags r
    let nr := mkRecord t (recTag r) v.version (fl % 2 + 2 * (fl / 2 % 2)) noLink (recPayload t r)
    some ((m1.store (64 * loc) nr).putRow v.rowmap row ⟨tier, 0, (rowEnt m v.rowmap row).hotdir, loc⟩)

/-- Recreate a table from a cairn's descriptor: its current version as of c alone, a fresh row map, its group map copied; false in
the pair's second place where the map fails, none where no row map fits (R393). -/
def recreate (m : Mod) (c : Word32) (b : List Byte) : Option (Mod × Bool) :=
  let t0 := parseTd b
  let v := t0.verAt c
  let t := { t0 with version := v.version, extent := v.extent, switchStep := v.switched.toNat, prevValid := false, pendValid := false
                     switchPending := false, pinCur := 0, pinPrev := 0 }
  match newMap m t t.extent with
  | none => none
  | some (rm, m1) =>
    let m2 := m1.putTd t.id { t with rowmap := rm }
    let set := fun (m : Mod) (bad : Bool) (copy : Option (Nat × Nat)) => m.onDev fun d => d.onSow fun k => { k with
      pgBad := (k.pgBad.filter fun y => y ≠ t.id) ++ (if bad then [t.id] else [])
      pgCopy := match copy with
        | some x => kput k.pgCopy t.id x
        | none => kdel k.pgCopy t.id }
    if t.pgmap = 0 then some (set m2 false none, true)
    else match (groupMap m2 t.pgmap).bind fun n => copyMap m2 t.pgmap n with
      | some (x, m3) => some (set m3 false (some x), true)
      | none => some (set m2 true none, false)

/-- Rebuild everything from a cairn: rows restored, group maps all good, and the module; none where the pools hold no row map. -/
def restoreJob (m : Mod) (c : Word32) (k : CairnData) : Option (Nat × Bool × Mod) :=
  let ids := k.tables.map fun b => (parseTd b).id
  let m := wipeTables m ids
  let r := k.tables.foldl (fun acc b => match acc with
    | none => none
    | some (m, ok) => (recreate m c b).map fun x => (x.1, ok && x.2)) (some (m, true))
  match r with
  | none => none
  | some (m, ok) =>
    let w := k.rows.foldl (fun (acc : Nat × Mod) x => match tdescAt acc.2 (x.1 / 2 ^ 40) with
      | none => acc
      | some t => match restoreRowTo acc.2 t t.curVer (x.1 % 2 ^ 40) x.2 with
        | some m => (acc.1 + 1, m)
        | none => (acc.1, acc.2.onDev fun d => (d.onTier fun y => { y with lost := y.lost ++ [(t.id, x.1 % 2 ^ 40)] }).raise evTierFull
            { hasS := true, s := c.toNat, row := x.1 % 2 ^ 40, table := t.id })) (0, m)
    let m := k.dense.foldl (fun m r => m.store r.1 r.2) w.2
    some (w.1, ok, m.onDev fun d =>
      let d := d.onSow fun s => { s with
        regions := [], stage := [], grads := [], closed := none, app := none, done := [], replIn := none, said := []
        live := s.live.map fun l => (l.1, l.2.1, true) }
      let d := d.onBase fun b => { b with applied := c, cleared := c }
      let d := d.onMs fun s => { s with
        steps := [], cur := none, sent := none, decided := none, commit := none, lead := none, took := [], walk := 0, held := false
        revoted := false, halted := false, rerun := none, rejoin := [], rejoinDue := none }
      let d := d.onChk fun h => { h with upds := [], rbReq := [], heldSaid := none, complete := c }
      let d := d.onWork fun w => { WorkState.reset with waiting := w.waiting }
      d.onHif fun h => { h with stepNext := none })

/-- Run a CAIRN_RESTORE of a scope that may begin. -/
def runRestore (m : Mod) (id scope : Nat) (f : Mod → Desc → Mod) : Mod :=
  match descOf m.dev id with
  | some x => if x.fld 12 1 = scope then runDesc m id 8 f else m
  | none => m

/-- CAIRN_RESTORE_JOB (R8, R392, R393, R455, R460): `served` is the content that a module holding the mirror of this index serves
over the fabric, where this module has no cairn of the step itself. -/
def execCairnRestoreJob (desc : Nat) (served : Option (List (List Byte) × List (Nat × List Byte) × List (Nat × List Byte)))
    (s : State) : Out :=
  onPlane s fun m => runRestore m desc 0 fun m x =>
    let c := BitVec.ofNat 32 (x.fld 8 4)
    let fail := fun (st : Nat) => m.onDev fun d => d.endDesc desc st [c.toNat, 0, 0]
    if cartsIn m.dev.tier = 0 then fail 0x1E
    else if !m.dev.ms.halted ∧ m.dev.ms.runs ≠ [] then fail 0x1D
    else
      let own := m.dev.ms.cairns.find? fun k => k.state = 1 && k.step = c && decide (k.kidx = cfgFabMsCfgKidx m.dev.base)
      let data : Option CairnData := match own with
        | some k => some ⟨k.tables, k.rows, k.dense⟩
        | none => served.map fun k => ⟨k.1, k.2.1, k.2.2⟩
      match data with
      | none => fail 0x1F
      | some k => match restoreJob m c k with
        | none => fail 0x24
        | some (n, ok, m1) => m1.onDev fun d =>
          let dead := d.tab.switches.filter fun w => w.chg.isNone
          let d := dead.foldl (fun d w => (d.onTab fun y => { y with switches := y.switches.erase w }).endDesc w.id 0x17) d
          d.endDesc desc (if ok then 0 else 0x18) [c.toNat, n, 0]

/-- CAIRN_RESTORE_ROWS (R8, R394, R460): the rows listed as lost, from the newest sealed cairn or the one named. -/
def execCairnRestoreRows (desc : Nat) (s : State) : Out :=
  onPlane s fun m => runRestore m desc 1 fun m x =>
    let fail := fun (st : Nat) => m.onDev fun d => d.endDesc desc st [x.fld 8 4, 0, 0]
    if cartsIn m.dev.tier = 0 then fail 0x1E
    else match cairnNamed m.dev (x.fld 8 4) with
      | none => fail 0x1F
      | some c =>
        let r := m.dev.tier.lost.foldl (fun (acc : Nat × Mod) k => match kfind c.rows (rowKey k.1 k.2), tdescAt acc.2 k.1 with
          | some b, some t => match restoreRowTo acc.2 t t.curVer k.2 b with
            | some m => (acc.1 + 1, m.onDev fun d => d.onTier fun y => { y with lost := y.lost.filter fun z => z ≠ k })
            | none => acc
          | _, _ => acc) (0, m)
        r.2.onDev fun d => (d.raise evCairnRowsMixed { hasS := true, s := c.step.toNat, n := r.1 }).endDesc desc 0 [c.step.toNat, r.1, 0]

/-! ## COPY and EVACUATE (R461) -/

/-- Copy pieces of 64 bytes in order: bytes done, the fault that ended it. -/
def copyPieces (desc src dst fl : Nat) (lost : Bool) (host : List Byte) : Nat → Nat → Mod → Nat × Option FaultKind × Mod
  | 0, done, m => (done, none, m)
  | n + 1, done, m =>
    let data : Except FaultKind (List Byte) :=
      if bitOf fl 2 then .ok ((List.replicate 8 (leBytes 8 src)).flatten)
      else descData m desc (bitOf fl 0) (src + done) 64 (host.drop done)
    match data with
    | .error f => (done, some f, m)
    | .ok b =>
      if bitOf fl 1 then (match m.demandWrite (.desc desc) (dst + done) b with
        | .ok m => copyPieces desc src dst fl lost host n (done + 64) m
        | .error f => (done, some f, m))
      else copyPieces desc src dst fl lost host n (done + 64) (if lost then m else m.onDev fun d => d.hostWrite (dst + done) b)

/-- The bytes of a window that a COPY still waits for: its source as far as the loan reaches. -/
def copyWaits (m : Mod) (desc src n : Nat) : Option (Nat × Nat) :=
  match daPlace src with
  | .window w off =>
    let k := min n (loanExtent m.dev.tier w - off)
    match windowRead m.dev (.desc desc) src k with
    | .error (.remoteWait da k) => some (da, k)
    | _ => none
  | _ => none

/-- COPY (R256, R461, R476): `host` is what host memory returned of the source. -/
def execCopy (desc : Nat) (host : List Byte) (s : State) : Out :=
  onPlane s fun m => runDesc m desc 9 fun m x =>
    match (if bitOf (x.fld 32 1) 0 && !bitOf (x.fld 32 1) 2 then copyWaits m desc (x.fld 8 8) (x.fld 24 8) else none) with
    | some (da, k) => m.onDev fun d => d.askRemote (.desc desc) da k
    | none =>
    let r := copyPieces desc (x.fld 8 8) (x.fld 16 8) (x.fld 32 1) x.lost host (x.fld 24 8 / 64) 0 m
    match r.2.1 with
    | some f => addrError r.2.2 desc f [0, r.1, 0]
    | none => r.2.2.onDev fun d => d.endDesc desc 0 [0, r.1, 0]

/-- The unit an EVACUATE names, where it exists and is in service: its kind and number (R461, Table 7.15). -/
def evacNamed (d : Dev) (x : Desc) : Option (Nat × Nat) :=
  let a := x.fld 9 1
  let b := x.fld 10 1
  let c := x.fld 11 1
  match x.fld 8 1 with
  | 0 => if a < 4 ∧ b < 3 ∧ (stackMap d.tier (3 * a + b)).contains c then some (0, 64 * (3 * a + b) + c) else none
  | 1 => if a < 4 ∧ b < 4 ∧ (ddrOf d.tier (4 * a + b)).st = .inService then some (1, 4 * a + b) else none
  | 2 => if a < 4 ∧ (cartOf d.tier a).st = .inService then some (2, a) else none
  | _ => if (kfind d.tier.windows a).isSome then some (3, a) else none

/-- EVACUATE (R315, R461). -/
def execEvacuate (desc : Nat) (s : State) : Out :=
  onPlane s fun m => runDesc m desc 11 fun m x => m.onDev fun d => match evacNamed d x with
    | some (k, u) =>
      if (d.tier.evacs.any fun e => decide (e.kind = k ∧ e.unit = u)) then d.endDesc desc 0x10 else startEvac d k u (some desc)
    | none => d.endDesc desc 0x10

end Sys2Proof.Machine
end

