-- ==== Sys2Proof/Machine/Fab.lean ====
section
/-!
DEFINITION. Links, ports, lanes and end-to-end flows of the Azlek fabric (12_azlek_fabric R480 to R496, R511 to R515).
-/

namespace Sys2Proof.Machine

/-! ## Frames arrive (R482 to R484) -/

/-- How far an LSEQ lies after another one. -/
def seqAfter (a b : Nat) : Nat := (a + 4096 - b) % 4096

/-- ACKSEQ covers the frames kept up to it (R483). -/
def Dev.linkAck (d : Dev) (p ack : Nat) : Dev :=
  let q := portOf d p
  let left := q.kept.filter fun k => !decide (seqAfter ack k.1 < 2048)
  if left.length = q.kept.length then d
  else (d.modPort p fun q => { q with kept := left, replays := 0 }).pumpPort p

/-- Payload bytes of a frame's header (Table 12.2). -/
def frameLen (b : List Byte) : Nat := 64 * (bitsOf (fieldAt b 1 1) 6 4 + 1)

/-- A frame's bytes are whole and its LCRC is right. -/
def frameOk (b : List Byte) : Bool :=
  decide (80 ≤ b.length) && decide (b.length = 16 + frameLen b) && decide (crc32c (b.take 12 ++ b.drop 16) = fieldAt b 12 4)

/-- What a DATA or TOKEN frame carries on. -/
def parseFrame (b : List Byte) : Frame :=
  ⟨decide (fieldAt b 0 1 = 2), bitsOf (fieldAt b 1 1) 2 0, bitOf (fieldAt b 1 1) 3, fieldAt b 4 2, fieldAt b 6 2, b.drop 16⟩

/-- A frame of a message for this module: the message is whole with its last frame (R486, Table 12.3). -/
def takeData (d : Dev) (p : Nat) (f : Frame) : Dev :=
  let ch := chanNo f.cls f.dl
  let part := kget [] (portOf d p).parts ch ++ f.payload
  let n := 32 + fieldAt part 2 2
  if part.length < alignUp 64 n then d.modPort p fun q => { q with parts := kset [] q.parts ch part }
  else (d.modPort p fun q => { q with parts := kdel q.parts ch }).onFab fun x => { x with
    arrived := x.arrived ++ [(f.src, f.cls, part.take n)] }

/-- A frame taken by a port in order: it goes on, or it is for this module (R483, R495, R511). -/
def takeFrame (m : Mod) (p : Nat) (f : Frame) : Mod :=
  if f.dst ≠ m.dev.fab.modid then m.onDev fun d => d.onFab fun x => { x with transit := x.transit ++ [⟨p, f⟩] }
  else
    let m := m.onDev fun d => d.fabOut (.credit p f.cls f.dl)
    if f.token then takeToken m (BitVec.ofNat 512 (leNat (f.payload.take 64))) else m.onDev fun d => takeData d p f

/-- A frame is refused: the first time with a negative acknowledgement, which is counted as a replay (R483; log 31). -/
def refuseFrame (d : Dev) (p : Nat) : Dev :=
  let q := portOf d p
  if q.discarding then d
  else ((d.modPort p fun q => { q with discarding := true }).count cFabReplay p 1).fabOut (.nak p (prevSeq q.rxSeq))

/-- FRAME_RECEIVE (R482, R483): a port receives the bytes of a frame; `fec` is how many errors FEC corrected in it. A frame with
a bad LCRC or after a gap is discarded, as is every later one until the sender sends again, and a second copy. What a LINK, CAL
or IDENT frame says comes by a command of its own (log 32). -/
def execFrameReceive (port : Fin 16) (bytes : List Byte) (fec : Nat) (s : State) : Out :=
  onFabric s fun m =>
    if !(portOf m.dev port).up then m
    else
      let m := if fec = 0 then m else m.onDev fun d => d.count cFabFecCorr port fec
      if !frameOk bytes then m.onDev fun d => refuseFrame d port
      else
        let m := if bitOf (fieldAt bytes 8 2) 15 then m.onDev fun d => d.linkAck port (fieldAt bytes 8 2 % 4096) else m
        let type := fieldAt bytes 0 1
        if type ≠ 1 ∧ type ≠ 2 then m
        else
          let n := fieldAt bytes 2 2 % 4096
          let q := portOf m.dev port
          if n = q.rxSeq then
            let m := m.onDev fun d => (d.modPort port fun q => { q with rxSeq := (n + 1) % 4096, discarding := false }).fabOut (.ack port n)
            takeFrame m port (parseFrame bytes)
          else if seqAfter (prevSeq q.rxSeq) n < 2048 then m.onDev fun d => d.fabOut (.ack port (prevSeq q.rxSeq))
          else m.onDev fun d => refuseFrame d port

/-! ## A port goes down (R484, R493, R494) -/

/-- The messages not acknowledged end to end of a flow are sent again (R496). -/
def Dev.resendFlow (d : Dev) (dst cls : Nat) : Dev :=
  (flowOut d dst cls).unacked.foldl (fun d o => ((d.setFlowOut dst cls { flowOut d dst cls with
      unacked := (flowOut d dst cls).unacked.map fun x => if x.eseq = o.eseq then { x with sent := d.nowNs } else x }).count
    cFabE2eRetry 0 1).sendFrames dst cls o.bytes) d

/-- A port stops carrying frames. Tokens that wait on it go another way and tokens in flight are lost; its flows are hashed anew,
and this module's messages on it are sent again end to end; those of others are sent again by their sources (R493, R496,
Table 12.7). -/
def Dev.portDown (d : Dev) (p : Nat) (st : PortSt) : Dev :=
  let q := portOf d p
  let on := fun (key : Nat) => kfind d.fab.pins key == some p
  let mine := (d.fab.flowsOut.filter fun f => on (flowKey d.fab.modid (f.1 / 8) (f.1 % 8))).map (·.1)
  let tokens := q.txq.filter fun t => t.frame.token
  let d := (d.modPort p fun q => { Port.reset with st := st, peer := q.peer, pport := q.pport, margins := q.margins
                                                   downSaid := q.downSaid }).onFab fun x => { x with
    pins := x.pins.filter fun e => e.2 ≠ p
    transit := (x.transit.filter fun t => t.owner ≠ p || t.frame.token) ++ tokens }
  mine.foldl (fun d k => d.resendFlow (k / 8) (k % 8)) d

/-- PORT_DOWN (R493): a port that carries frames goes down. -/
def execPortDown (port : Fin 16) (s : State) : Out :=
  onFabric s fun m => if (portOf m.dev port).up then m.onDev fun d => d.portDown port .down else m

/-- FRAME_REPLAY (R483, R484): a negative acknowledgement, with the newest LSEQ the far end received in order: every frame after
it is sent again. After 8 replays without progress the port is brought down and trains again. -/
def execFrameReplay (port : Fin 16) (acked : BitVec 12) (s : State) : Out :=
  onFabric s fun m => m.onDev fun d =>
    if !(portOf d port).up then d
    else
      let d := d.linkAck port acked.toNat
      let q := portOf d port
      if q.kept = [] then d
      else if 8 ≤ q.replays + 1 then d.portDown port .training
      else
        let d := d.modPort port fun q => { q with replays := q.replays + 1 }
        q.kept.foldl (fun d k => d.fabOut (.frame port k.1 (prevSeq q.rxSeq) k.2)) d

/-- LINK_CREDIT (R482): a LINK frame returns credits of a channel. -/
def execLinkCredit (port : Fin 16) (cls : Fin 5) (dl : Bool) (n : Nat) (s : State) : Out :=
  onFabric s fun m => m.onDev fun d =>
    if !(portOf d port).up then d
    else (d.modPort port fun q => { q with credits := kset 0 q.credits (chanNo cls dl) (kget 0 q.credits (chanNo cls dl) + n) }).pumpPort port

/-! ## Training and lanes (R490, R513 to R515) -/

/-- A port may train: FAB_PORT_CFG.EN has its bit, HIF_SETUP_DONE has been written with a good topology, and its half of the fabric
is powered (R489, R490, Table 15.2). -/
def mayTrain (d : Dev) (p : Nat) : Bool :=
  d.fab.trainAt.isSome && !d.fab.topoBad && bitOf (cfgFabPortCfgEn d.base) p && bitOf d.pwr.on.toNat (21 + p % 2)

/-- IDENT_FRAME (R488, R490): a port that trains has linked up with some of its lanes, and its peer says who it is and from which
port; each end sends its own. A peer that R488 does not prescribe makes the port MISCABLED. -/
def execIdentFrame (port : Fin 16) (lanes : BitVec 4) (peer : BitVec 16) (pport : Fin 16) (s : State) : Out :=
  onFabric s fun m => m.onDev fun d =>
    let n := ((List.range 4).filter fun l => bitOf lanes.toNat l).length
    if (portOf d port).st ≠ .training ∨ mayTrain d port = false ∨ n < 3 then d
    else
      let good := peerOf d port = some peer.toNat ∧ portDim pport = portDim port ∧ portPlus pport ≠ portPlus port
      let d := d.fabOut (.ident port d.fab.modid)
      let set := fun (st : PortSt) => d.modPort port fun q => { Port.reset with
        st := st, lanes := lanes.toNat, peer := peer.toNat, pport := pport, margins := q.margins }
      if good then set (if n = 4 then .up4 else .up3)
      else (set .miscabled).raise evFabCableMismatch { n := port }

/-- PORT_TRAIN_RETRY (R490): a port that is not up trains again; `waitOver` once the 10 s that start-up waits are over. -/
def execPortTrainRetry (port : Fin 16) (waitOver : Bool) (s : State) : Out :=
  onFabric s fun m => m.onDev fun d =>
    let q := portOf d port
    if mayTrain d port = false ∨ (q.st ≠ .down ∧ q.st ≠ .training) then d
    else
      let say := waitOver && !q.downSaid
      let d := d.modPort port fun q => { q with st := .training, downSaid := q.downSaid || say }
      if say then d.raise evFabPortDown { n := port } else d

/-- LANE_CALIBRATION (R513): a lane of a port has measured its margin, and may adjust the far transmitter through a CAL frame. -/
def execLaneCalibration (port : Fin 16) (lane : Fin 4) (margin : Nat) (adjust : Bool) (s : State) : Out :=
  onDev s fun d =>
    let q := portOf d port
    if cfgFabCalCfgEn d.base = 0 ∨ q.up = false then d
    else
      let low := fun (x : Nat) => decide (x < cfgFabCalCfgMinmargin d.base)
      let was := (kfind q.margins lane).any low
      let d := d.modPort port fun q => { q with margins := kput q.margins lane margin }
      let d := if adjust then (d.fabOut (.adjust port lane)).count cFabCalAdj port 1 else d
      if low margin && !was then d.raise evFabLaneMargin { n := 4 * port.val + lane.val } else d

/-- A port's lanes are to change at a frame boundary that CAL frames agree (R515). -/
def Dev.agreeLanes (d : Dev) (p mask : Nat) : Dev :=
  (d.modPort p fun q => { q with nextLanes := some mask }).fabOut (.lanes p mask)

/-- LANE_DEGRADE (R514): a lane whose margin is below MINMARGIN, or that has lost lock or fails its FEC (`lost`), is taken out of
its port; a port with two lanes out goes DOWN. -/
def execLaneDegrade (port : Fin 16) (lane : Fin 4) (lost : Bool) (s : State) : Out :=
  onFabric s fun m => m.onDev fun d =>
    let q := portOf d port
    let low := (kfind q.margins lane).any fun x => decide (x < cfgFabCalCfgMinmargin d.base)
    if q.up = false ∨ bitOf (q.nextLanes.getD q.lanes) lane = false ∨ (lost = false ∧ low = false) then d
    else
      let mask := withBits (q.nextLanes.getD q.lanes) lane lane 0
      let d := (d.count cFabLaneDegrade port 1).raise evFabLaneDegraded { n := 4 * port.val + lane.val }
      if ((List.range 4).filter fun l => bitOf mask l).length < 3 then d.portDown port .down else d.agreeLanes port mask

/-- LANE_RESTORE (R514): a lane that was taken out and retrained has reached MINMARGIN + 2. -/
def execLaneRestore (port : Fin 16) (lane : Fin 4) (margin : Nat) (s : State) : Out :=
  onFabric s fun m => m.onDev fun d =>
    let q := portOf d port
    if q.up = false ∨ bitOf (q.nextLanes.getD q.lanes) lane ∨ margin < cfgFabCalCfgMinmargin d.base + 2 then d
    else
      let d := d.modPort port fun q => { q with margins := kput q.margins lane margin }
      (d.raise evFabLaneRestored { n := 4 * port.val + lane.val }).agreeLanes port (withBits (q.nextLanes.getD q.lanes) lane lane 1)

/-- LANE_COUNT_CHANGE (R493, R515): the agreed boundary has come: the port runs on its new lanes, frames in flight are sent again,
and flows are spread again once theirs are acknowledged. -/
def execLaneCountChange (port : Fin 16) (s : State) : Out :=
  onFabric s fun m => m.onDev fun d =>
    let q := portOf d port
    match q.nextLanes with
    | none => d
    | some mask =>
      let st : PortSt := if mask = 15 then .up4 else .up3
      let flows := (d.fab.pins.filter fun e => portDim e.2 = portDim port).map (·.1)
      let d := (d.modPort port fun q => { q with st := st, lanes := mask, nextLanes := none }).onFab fun x => { x with
        repin := (x.repin ++ flows).eraseDups }
      (q.kept.foldl (fun d k => d.fabOut (.frame port k.1 (prevSeq q.rxSeq) k.2)) d).pumpPort port

/-! ## Transit (R495) -/

/-- TRANSIT_FORWARD (R492 to R495): the oldest transit frame goes to the port of its flow, and its buffer's credit goes back; a
frame whose destination cannot be reached from here is dropped. A token of this module that waited on a port that went down
is among them. -/
def execTransitForward (s : State) : Out :=
  onFabric s fun m => m.onDev fun d => match d.fab.transit with
    | [] => d
    | t :: rest =>
      let d := ((d.onFab fun x => { x with transit := rest }).place t).1
      if t.owner < 16 ∧ (portOf d t.owner).up then d.fabOut (.credit t.owner t.frame.cls t.frame.dl) else d

/-! ## End to end (R496) -/

/-- A message's bytes are whole and its ECRC is right. -/
def msgOk (b : List Byte) : Bool :=
  decide (32 ≤ b.length) && decide (b.length = 32 + fieldAt b 2 2) && decide (crc32c (b.take 28 ++ zeros 4 ++ b.drop 32) = fieldAt b 28 4)

/-- A message as delivered. -/
def parseMsg (src cls : Nat) (b : List Byte) : InMsg :=
  ⟨src, cls, fieldAt b 0 1, fieldAt b 8 8, fieldAt b 16 4, fieldAt b 20 4, fieldAt b 24 4, b.drop 32⟩

/-- ESEQ of a message. -/
def msgSeq (b : List Byte) : Word32 := BitVec.ofNat 32 (fieldAt b 4 4)

/-- Deliver the messages of a flow that are next in order. -/
def Dev.deliverFlow (d : Dev) (src cls : Nat) : Nat → Dev
  | 0 => d
  | fuel + 1 =>
    let k := 8 * src + cls
    let f := kget ⟨0, []⟩ d.fab.flowsIn k
    match kfind f.early f.next.toNat with
    | none => d
    | some b => Dev.deliverFlow (d.onFab fun x => { x with
        flowsIn := kset ⟨0, []⟩ x.flowsIn k ⟨f.next + 1, kdel f.early f.next.toNat⟩
        inbox := x.inbox ++ [parseMsg src cls b] }) src cls fuel

/-- A DATA message of a flow: delivered in ESEQ order, held where it is early, discarded where it is a second copy; acknowledged
each time (R496). -/
def Dev.takeMsg (d : Dev) (src cls : Nat) (b : List Byte) : Dev :=
  let k := 8 * src + cls
  let f := kget ⟨0, []⟩ d.fab.flowsIn k
  let d := if stepNewer f.next (msgSeq b) then d
    else d.onFab fun x => { x with flowsIn := kset ⟨0, []⟩ x.flowsIn k { f with early := kput f.early (msgSeq b).toNat b } }
  let d := d.deliverFlow src cls (f.early.length + 1)
  d.sendAck src ((kget ⟨0, []⟩ d.fab.flowsIn k).next - 1)

/-- The oldest whole message that is an E2E_ACK, or that is not. -/
def nextArrived (d : Dev) (ack : Bool) : Option (Nat × Nat × List Byte) :=
  d.fab.arrived.find? fun a => (fieldAt a.2.2 0 1 == 0x30) == ack

/-- E2E_MESSAGE_RECEIVE (R496): the oldest message is checked against its ECRC and delivered, or discarded. -/
def execE2eMessageReceive (s : State) : Out :=
  onFabric s fun m => m.onDev fun d => match nextArrived d false with
    | none => d
    | some a =>
      let d := d.onFab fun x => { x with arrived := x.arrived.erase a }
      if msgOk a.2.2 then d.takeMsg a.1 a.2.1 a.2.2 else d

/-- E2E_ACK (R496): the oldest E2E_ACK releases the messages of a flow to its sender up to the ESEQ it names. `cls` is the class
of the flow, which Table 12.4 gives no field for (DESIGN CHOICE, log 36). -/
def execE2eAck (cls : Fin 5) (s : State) : Out :=
  onFabric s fun m => m.onDev fun d => match nextArrived d true with
    | none => d
    | some a =>
      let d := d.onFab fun x => { x with arrived := x.arrived.erase a }
      if !msgOk a.2.2 then d
      else
        let upTo : Word32 := BitVec.ofNat 32 (fieldAt a.2.2 8 8)
        let f := flowOut d a.1 cls
        d.setFlowOut a.1 cls { f with unacked := f.unacked.filter fun o => stepNewer o.eseq upTo }

/-- E2E_RETRANSMIT (R496): RETX has passed without an acknowledgement, and the flow's messages are sent again. -/
def execE2eRetransmit (dst : BitVec 16) (cls : Fin 5) (s : State) : Out :=
  onFabric s fun m => m.onDev fun d => d.resendFlow dst.toNat cls

/-! ## Tokens (R511) -/

/-- TOKEN_FRAME (R511): the oldest token of the scheduler core goes out in one TOKEN frame to the module its job index is bound to,
or is looped back in the hub. -/
def execTokenFrame (s : State) : Out :=
  onFabric s fun m => match m.dev.ms.out with
    | [] => m
    | (dst, t) :: rest =>
      let m := m.onDev fun d => d.onMs fun x => { x with out := rest }
      if dst = cfgFabMsCfgKidx m.dev.base then takeToken m (BitVec.ofNat 512 (leNat t.bytes))
      else m.onDev fun d => (d.place ⟨16, ⟨true, 0, false, cfgFabJobmapModid d.base dst, d.fab.modid, t.bytes⟩⟩).1

end Sys2Proof.Machine
end

