-- ==== Sys2Proof/Machine/SecOps.lean ====
section
/-!
DEFINITION. Fuses, signatures, measurements and keys of the security core (14_security R540 to R549).
-/

namespace Sys2Proof.Machine

/-- Bits blown of a thermometer fuse (Table 14.1). -/
def blown (w v : Nat) : Nat := ((List.range w).filter fun i => bitOf v i).length

/-- Value of SECVER_FW. -/
def Fuses.svFw (f : Fuses) : Nat := blown 64 f.secverFw.toNat
/-- Value of SECVER_PACK. -/
def Fuses.svPack (f : Fuses) : Nat := blown 64 f.secverPack.toNat
/-- Life-cycle state: 0 MANUFACTURE, 1 DEPLOYED, 2 RMA, 3 SCRAPPED (Tables 14.1, 14.7). -/
def Fuses.lc (f : Fuses) : Nat := blown 8 f.lifecycle.toNat - 1

/-- A thermometer with at least `n` bits blown: no bit is ever cleared (R540). -/
def thermometer (w n : Nat) (v : BitVec w) : BitVec w := v ||| BitVec.ofNat w (2 ^ min n w - 1)

/-- An authority (R541). -/
inductive Authority where
  | firmware | debug
  deriving DecidableEq, Repr

/-- A key slot's fused hash: of its RSA key, or of its SLH-DSA key. -/
def keyHash (f : Fuses) (a : Authority) (i : Nat) (slh : Bool) : BitVec 384 := match a with
  | .firmware => f.fwKey.extractLsb' (384 * (2 * i + b2n slh)) 384
  | .debug => f.dbgKey.extractLsb' (384 * (2 * i + b2n slh)) 384

/-- A slot of an authority exists and is not revoked. -/
def keyLive (f : Fuses) (a : Authority) (i : Nat) : Bool := match a with
  | .firmware => decide (i < 4) && !f.fwRevoke.getLsbD i
  | .debug => decide (i < 2) && !f.dbgRevoke.getLsbD i

/-- The key slot that a signature block names. -/
def sigSlot (b : List Byte) (sigoff : Nat) : Nat := fieldAt b (sigoff + 4) 1

/-- An object verifies under R541. -/
def verifies (f : Fuses) (a : Authority) (b : List Byte) (sigoff : Nat) : Bool :=
  let s := b.drop sigoff
  let msg := b.take sigoff
  let i := fieldAt s 4 1
  decide (b.length = sigoff + 17088) && decide (fieldAt s 0 4 = 0x4B474953) && keyLive f a i
    && decide (Config.sha384 ((s.drop 16).take 388) = keyHash f a i false)
    && decide (Config.sha384 ((s.drop 788).take 48) = keyHash f a i true)
    && Config.rsaVerify ((s.drop 16).take 384) ((s.drop 400).take 4) ((s.drop 404).take 384) msg
    && Config.slhVerify ((s.drop 788).take 48) ((s.drop 836).take 16224) msg

/-- A SECVER that R543 refuses. -/
def secverBad (v fuse : Nat) : Bool := decide (64 < v) || decide (v < fuse)

/-- The bytes that a mailbox message names by DA and length (R554); none where they cannot be read. A held range gives what it
keeps (R565). -/
def namedBytes (m : Mod) (p : List Byte) : Option (List Byte) :=
  let da := fieldAt p 0 8
  let n := fieldAt p 8 4
  if n = 0 then some []
  else match daPlace da with
    | .window _ _ => none
    | _ => match m.demandRead .bar2 da n with
      | .ok b => some b
      | .error (.remoteWait _ _) => some (m.load da n)
      | .error _ => none

/-- Keep a measurement (R545). -/
def Dev.measure (d : Dev) (i : Nat) (v : BitVec 384) : Dev := d.onSec fun s => { s with meas := kput s.meas i v }

/-- A measurement (Table 14.3). Index 1 is that of the boot ROM and the fuses. -/
def measurement (f : Fuses) (d : Dev) (i : Nat) : BitVec 384 :=
  if i = 1 then Config.sha384 (Config.bootRom ++ leBytes 1 f.lifecycle.toNat ++ leBytes 8 f.secverFw.toNat
    ++ leBytes 8 f.secverPack.toNat ++ leBytes 1 f.fwRevoke.toNat ++ leBytes 1 f.dbgRevoke.toNat)
  else kget 0 d.sec.meas i

/-- The debug state is OPENED or FAILED (R558). -/
def dbgOver (d : Dev) : Bool := d.sec.dbg == 2 || d.sec.dbg == 3

/-- A key of Table 14.4: label, LIFECYCLE and context (R546). -/
def derived (f : Fuses) (label ctx : List Byte) : BitVec 512 :=
  Config.deriveKey (leBytes 32 f.seed.toNat ++ label ++ [0#8] ++ leBytes 1 f.lifecycle.toNat ++ ctx)

end Sys2Proof.Machine
end

