-- ==== Sys2Proof/Machine/Firmware.lean ====
section
/-!
DEFINITION. The firmware processors, the mailbox, the log ring and pattern packs (13_firmware; 10_silent_error_checking R422 to
R424).
-/

namespace Sys2Proof.Machine

/-! ## The mailbox (R534 to R536) -/

/-- MAILBOX_KICK (R534, R611): a write of KICK_MBX; the first one starts the mailbox. -/
def execMailboxKick (reqTail rspHead : Word32) (s : State) : Out :=
  onDev s fun d => if !d.hifUp then d else
    let d := d.onFw fun w => { w with
      kicked := true, reqTail := if stepNewer reqTail w.reqTail then reqTail else w.reqTail
      rspHead := takeCount w.rspPosted w.rspHead rspHead }
    flushRsps d.fw.rsps.length d

/-- Payload bytes of an opcode this release knows (Tables 13.5, 14.8, 15.9). -/
def opcodeLen (op : Nat) : Option Nat := match op with
  | 0x0701 => some 12
  | 0x0801 => some 9
  | 0x0802 => some 1
  | 0x0803 => some 4
  | 0x0901 => some 4
  | 0x0902 => some 12
  | 0x0903 => some 0
  | 0x0904 => some 1
  | 0x0905 => some 12
  | 0x0A01 => some 0
  | 0x0A02 => some 12
  | 0x0A03 => some 1
  | 0x0A04 => some 12
  | 0x0A05 => some 12
  | 0x0A06 => some 12
  | 0x0A07 => some 1
  | 0x0B01 => some 0
  | 0x0B02 => some 2
  | 0x0B03 => some 1
  | _ => none

/-- The boot ROM serves an opcode (R519). -/
def bootServes (op : Nat) : Bool := op == 0x0901 || op == 0x0903

/-- The status a request is refused with before any operation sees it (R535, R536, Table 13.6). -/
def requestFault (d : Dev) (b : List Byte) : Option Nat :=
  let op := fieldAt b 2 2
  let len := fieldAt b 4 2
  let major := mbVersion d / 256
  let minor := mbVersion d % 256
  if 240 < len then some mbBadLength
  else if crc32c (b.take 12 ++ zeros 4 ++ (b.drop 16).take len) ≠ fieldAt b 12 4 then some mbBadCrc
  else if fieldAt b 0 1 ≠ major then some mbBadVersion
  else
    let newer := decide (minor < fieldAt b 1 1)
    match opcodeLen op with
    | none => some (if newer then mbBadVersion else mbBadOpcode)
    | some n =>
      if newer ∧ ((b.drop (16 + n)).take (len - n)).any (fun x => x ≠ 0#8) then some mbBadVersion
      else if !d.fw.run ∧ !bootServes op then some mbBadOpcode
      else if len < n ∨ (!newer ∧ len ≠ n) then some mbBadLength else none

/-- Someone serves the mailbox: a scheduler core, or the boot ROM before firmware is loaded. -/
def mailboxUp (d : Dev) : Bool := d.fw.kicked && (if d.fw.run then schedUp d else bitOf d.pwr.on.toNat 23)

/-- MAILBOX_REQUEST (R534 to R536): the next request that a KICK_MBX covers is read from its entry and checked; a good one goes to the
processor whose area owns its opcode. -/
def execMailboxRequest (msg : BitVec 2048) (s : State) : Out :=
  onDev s fun d => if !d.hifUp then d else
    if !mailboxUp d ∨ d.fw.reqTaken = d.fw.reqTail then d
    else
      let b := leBytes 256 msg.toNat
      let op := fieldAt b 2 2
      let tag := fieldAt b 8 4
      let d := d.onFw fun w => { w with reqTaken := w.reqTaken + 1 }
      match requestFault d b with
      | some st => d.answer op st true tag []
      | none => d.onFw fun w => { w with reqs := w.reqs ++ [⟨op, tag, (b.drop 16).take (fieldAt b 4 2), false⟩] }

/-! ## Bundles (Table 13.2, R520 to R523, R543) -/

/-- A bundle's header is well formed and its parts lie in it. -/
def bundleOk (b : List Byte) : Bool :=
  let sig := fieldAt b 20 4
  decide (fieldAt b 0 4 = 0x4C444E42) && decide (fieldAt b 5 1 = 1) && decide (fieldAt b 6 2 = 4)
    && decide (fieldAt b 16 4 = b.length) && decide (b.length ≤ 0x2000000) && decide (b.length = sig + 17088) && decide (128 ≤ sig)
    && ((List.range 4).all fun i => decide (128 ≤ fieldAt b (24 + 8 * i) 4)
      && decide (fieldAt b (24 + 8 * i) 4 + fieldAt b (28 + 8 * i) 4 ≤ sig))
    && ((b.drop 60).take 64).all (· == 0#8) && decide (crc32c (b.take 124) = fieldAt b 124 4)

/-- The status a bundle is refused with (R521, R543). -/
def bundleFault (f : Fuses) (b : List Byte) : Option Nat :=
  if !bundleOk b then some mbBadArg
  else if !verifies f .firmware b (fieldAt b 20 4) then some mbSigFail
  else if secverBad (fieldAt b 12 4) f.svFw then some mbRollback else none

/-- What is kept of a verified bundle. -/
def parseBundle (b : List Byte) : Bundle where
  ver := fieldAt b 8 4
  secver := fieldAt b 12 4
  mbx := fieldAt b 56 2
  header := b.take 128
  images := (List.range 4).map fun i => (b.drop (fieldAt b (24 + 8 * i) 4)).take (fieldAt b (28 + 8 * i) 4)

/-- Measure the images of a bundle: 2 to 4 the security, power and scheduler cores', 5 the quadrant controllers' (Table 14.3). -/
def measureImages (d : Dev) (b : Bundle) (l : List Nat) : Dev :=
  l.foldl (fun d i => d.measure (2 + i) (Config.sha384 (nth [] b.images i))) d

/-- A processor runs a bundle's image. -/
def Dev.runImage (d : Dev) (id : Nat) (b : Bundle) : Dev :=
  d.modProc id fun p => { p with run := true, restarting := false, failed := false, ver := b.ver, secver := b.secver, mbx := b.mbx }

/-- FW_LOAD (R519 to R522): the bundle in the staging buffer is verified, its images placed in the image store and measured, and the
six management cores are started. -/
def execFwLoad (s : State) : Out :=
  onDev s fun d =>
    if d.fw.run ∧ schedUp d = false then d
    else match nextReq d 0x0901 with
      | none => d
      | some r =>
        if d.fw.run then d.endReq r mbNotAllowed
        else if d.fw.store.isSome then d.endReq r mbBusy
        else
          let n := fieldAt r.payload 0 4
          let b := readRun d.fw.staging 0 (min n 0x2000000)
          match (if n ≠ b.length then some mbBadArg else bundleFault s.fuses b) with
          | some st => d.endReq r st
          | none =>
            let x := parseBundle b
            ((measureImages (d.onFw fun w => { w with store := some x }) x [0, 1, 2, 3]).measure 6 (Config.sha384 x.header)).beginReq r

/-- FW_LOAD_COMPLETE (R522, R523): the six processors have been started; `failed` of them did not start. -/
def execFwLoadComplete (failed : List (Fin 8)) (s : State) : Out :=
  onDev s fun d => match d.fw.store, begunReq d 0x0901 with
    | some b, some r =>
      let bad := failed.map (·.val)
      if [0, 1, 2].any fun i => bad.contains i then
        ((d.onFw fun w => { w with store := none }).onPwr fun p => { p with startBad := true }).endReq r mbProcFailed
      else
        let up := [0, 1, 2, 4, 5, 6].filter fun i => !bad.contains i
        let d := up.foldl (fun d i => d.runImage i b) d
        let d := d.onFw fun w => { w with run := true, bar2Open := true, active := 0 }
        let noB := [4, 5, 6].filter fun i => bad.contains i
        let d := if noB = [] then d else d.raise evFwNoStandby { x := some noB }
        d.endReq r mbOk
    | _, _ => d

/-- FW_STATUS (R523): bundle versions by processor, the active domain, whether the standby runs, restart counts. The layout of the
answer is open (log 39). -/
def execFwStatus (s : State) : Out :=
  onDev s fun d =>
    if d.fw.run ∧ schedUp d = false then d
    else match nextReq d 0x0903 with
      | none => d
      | some r =>
        let ids := [0, 1, 2, 4, 5, 6] ++ (List.range 16).map (16 + ·)
        let vals := ids.map (fun i => (procOf d i).ver) ++ [d.fw.active]
          ++ ((List.range 3).map fun k => b2n (procUp d (standbyId d k))) ++ ids.map fun i => (procOf d i).restarts
        d.endReq r mbOk (padTo 240 (Config.layout 0x0903 vals))

/-! ## Restart and handover (R524 to R530) -/

/-- The role of a management core: 0 security, 1 power, 2 scheduler; none for a quadrant controller (Table 13.1). -/
def roleOf (id : Nat) : Option Nat := if id < 8 ∧ id % 4 < 3 then some (id % 4) else none

/-- A processor of Table 13.1. -/
def procId (id : Nat) : Bool := (roleOf id).isSome || (decide (16 ≤ id) && decide (id < 32))

/-- A role moves to its standby: EV_FW_HANDOVER; an SPDM handshake in progress ends with the security role (R526, R528). -/
def Dev.handover (d : Dev) (role : Nat) : Dev :=
  let d := d.onFw fun w => { w with active := withBits w.active role role (1 - bitsOf w.active role role) }
  let d := if role = 0 then d.onSec fun k => { k with sessions := k.sessions.filter (·.open_) } else d
  d.raise evFwHandover { x := some [activeId d role] }

/-- The module is left without a role: every READY carries NOGO with CHECK_FAIL, and without the scheduler's the token path sends one
at once (R529, R530). -/
def Dev.loseRole (d : Dev) (role : Nat) : Dev :=
  let d := (d.onFw fun w => { w with lost := w.lost ++ [role] }).onMs fun x => { x with nogoAll := some 9 }
  if role = 2 then nogoReady d (d.base.applied + 1) (attemptNow d (d.base.applied + 1)) else d

/-- Times of a processor's restarts and handovers in the last hour. -/
def hourTimes (d : Dev) (p : Proc) : List Nat := p.times.filter fun t => decide (d.nowNs < t + 3600000000000)

/-- A processor has restarted or handed over more than 3 times in one hour (R529). -/
def restartsTooOften (d : Dev) (id : Nat) : Bool := decide (3 < (hourTimes d (procOf d id)).length)

/-- A processor is failed (R529): a quadrant controller has its quadrant's domain cycled; the role of a scheduler or security core is
handed over and its management domain cycled; a second failure of a role within an hour, or one with no standby, leaves the
module without that role. -/
def Dev.failProc (d : Dev) (id : Nat) : Dev :=
  let d := (d.modProc id fun p => { p with run := false, failed := true }).raise evFwProcFailed { x := some [id] }
  match roleOf id with
  | none => d.askCycle (id - 16) none
  | some r =>
    let again := (kfind d.fw.roleFail r).any fun t => decide (d.nowNs < t + 3600000000000)
    let d := d.onFw fun w => { w with roleFail := kput w.roleFail r d.nowNs }
    let mine := decide (activeId d r = id)
    let alone := mine && !procUp d (standbyId d r)
    let d := if mine && !alone then d.handover r else d
    let d := if (again || alone) && !d.fw.lost.contains r then d.loseRole r else d
    if r = 1 then d else d.askCycle (23 + id / 4) none

/-- A processor restarts: alone, or by handover where it serves the scheduler or security role and a standby runs (R524, R526, R527,
R529). -/
def Dev.restartProc (d : Dev) (id : Nat) : Dev :=
  let d := d.modProc id fun p => { p with times := p.times ++ [d.nowNs], restarts := p.restarts + 1 }
  if restartsTooOften d id then d.failProc id
  else
    let d := match roleOf id with
      | some r => if r ≠ 1 ∧ activeId d r = id ∧ procUp d (standbyId d r) then d.handover r else d
      | none => d
    d.modProc id fun p => { p with restarting := true }

/-- PROC_RESTART (R527). -/
def execProcRestart (s : State) : Out :=
  onReq s 0x0904 fun m r => m.onDev fun d =>
    let id := fieldAt r.payload 0 1
    if !procId id then d.endReq r mbBadArg
    else if (procOf d id).failed then d.endReq r mbProcFailed
    else if !procUp d id then d.endReq r mbNotAllowed
    else (d.endReq r mbOk).restartProc id

/-- WATCHDOG_EXPIRY (R524, R527, R529): a processor's watchdog of 100 ms expires. -/
def execWatchdogExpiry (proc : BitVec 8) (s : State) : Out :=
  onDev s fun d =>
    if procId proc.toNat && procUp d proc.toNat then (d.raise evFwWatchdog { x := some [proc.toNat] }).restartProc proc.toNat else d

/-- PROCESSOR_RESTART_DONE (R524 to R527): a processor runs again; the scheduler core takes the tokens that were held, in order,
and one that restarted alone is to rejoin (R391). -/
def execProcessorRestartDone (proc : BitVec 8) (s : State) : Out :=
  onMod s fun m =>
    let id := proc.toNat
    if (procOf m.dev id).restarting = false then m
    else
      let m := m.onDev fun d => d.modProc id fun p => { p with restarting := false }
      let m := if id = activeId m.dev 2 then m.onDev fun d => d.onMs fun x => { x with rejoinDue := some false } else m
      if schedUp m.dev then
        let held := m.dev.fw.held
        held.foldl takeToken (m.onDev fun d => d.onFw fun w => { w with held := [] })
      else m

/-! ## Update in service (R531 to R533) -/

/-- FW_UPDATE (R531, R533, R558): a new bundle is verified. -/
def execFwUpdate (s : State) : Out :=
  onRole s 0 0x0902 fun m r => match namedBytes m r.payload with
    | none => m.onDev fun d => d.endReq r mbBadArg
    | some b => m.onDev fun d =>
      if dbgOver d then d.endReq r mbNotAllowed
      else if d.fw.update.isSome then d.endReq r mbBusy
      else match bundleFault s.fuses b with
        | some st => d.endReq r st
        | none =>
          let x := parseBundle b
          if x.mbx / 256 ≠ mbVersion d / 256 then d.endReq r mbBadVersion
          else (d.onFw fun w => { w with update := some x }).beginReq r

/-- A processor takes a new image by restart, which counts as one (R529). -/
def Dev.updateProc (d : Dev) (b : Bundle) (id : Nat) : Dev :=
  if !procUp d id then d
  else
    let d := d.modProc id fun p => { p with times := p.times ++ [d.nowNs], restarts := p.restarts + 1 }
    if restartsTooOften d id then d.failProc id else d.runImage id b

/-- FW_UPDATE_COMPLETE (R531, R532): the images have been replaced in the order of R531; without a standby only those of the
quadrant controllers and power cores. -/
def execFwUpdateComplete (s : State) : Out :=
  onDev s fun d => match d.fw.update, begunReq d 0x0902 with
    | some b, some r =>
      let standby := (List.range 3).all fun k => procUp d (standbyId d k)
      let d := ((List.range 16).map (16 + ·)).foldl (fun d i => d.updateProc b i) d
      let d := (d.updateProc b (standbyId d 1)).updateProc b (activeId d 1)
      let d := measureImages d b [1, 3]
      let done := fun (d : Dev) (st : Nat) => (d.onFw fun w => { w with update := none, store := some b }).endReq r st
      if !standby then done d mbDeferred
      else
        let d := (d.updateProc b (standbyId d 2)).updateProc b (standbyId d 0)
        let d := (d.handover 2).handover 0
        let d := (d.updateProc b (standbyId d 2)).updateProc b (standbyId d 0)
        done ((measureImages d b [0, 2]).measure 6 (Config.sha384 b.header)) mbOk
    | _, _ => d

/-! ## The log ring and the trace ring (R538, R539, R611) -/

/-- LOG_SET (R538). -/
def execLogSet (s : State) : Out :=
  onReq s 0x0905 fun m r => m.onDev fun d =>
    let p := r.payload
    if fieldAt p 8 1 < 6 ∨ 16 < fieldAt p 8 1 ∨ 3 < fieldAt p 9 1 ∨ 1024 ≤ fieldAt p 10 2 then d.endReq r mbBadArg
    else (d.onFw fun w => { w with log := some ⟨fieldAt p 0 8, fieldAt p 8 1, fieldAt p 9 1, fieldAt p 10 2, 0, 0⟩ }).endReq r mbOk

/-- LOG_ENTRY_WRITE (R538): a processor makes a log entry; it is written where the consumption word shows room, or dropped and
counted. -/
def execLogEntryWrite (proc : BitVec 8) (level : Fin 4) (code : BitVec 16) (args : BitVec 368) (s : State) : Out :=
  onDev s fun d =>
    if !(procId proc.toNat && procUp d proc.toNat) then d
    else
      let seq := d.fw.logSeq
      let d := d.onFw fun w => { w with logSeq := w.logSeq + 1 }
      match d.fw.log with
      | none => d
      | some l =>
        let n := 2 ^ l.log2 - 1
        if level.val < l.level then d
        else if n ≤ (BitVec.ofNat 32 l.posted - l.head).toNat then d.count cLogDrop 0 1
        else
          let p := l.posted
          let b := leBytes 8 d.base.now.toNat ++ leBytes 4 seq.toNat ++ leBytes 1 proc.toNat ++ leBytes 1 level.val
            ++ leBytes 1 (ringPhase p n) ++ zeros 1 ++ leBytes 2 code.toNat ++ leBytes 46 args.toNat
          ((d.hostWrite (l.base + 64 * (1 + p % n)) b).onFw fun w => { w with log := some { l with posted := l.posted + 1 } }).msixSend l.vector

/-- The log ring's consumption word has been read again (R538, R611). -/
def rereadLog (d : Dev) (value : Word32) : Dev := match d.fw.log with
  | none => d
  | some l =>
    if 8 ≤ 2 ^ l.log2 - 1 - (BitVec.ofNat 32 l.posted - l.head).toNat then d
    else d.onFw fun w => { w with log := some { l with head := takeCount (BitVec.ofNat 32 l.posted) l.head value } }

/-- TRC_HEAD_WRITE (R539, R611): a write of TRC_HEAD adds to HEAD, unless that would pass the records written. -/
def execTrcHeadWrite (value : Word32) (s : State) : Out :=
  onDev s fun d => d.onBase fun b =>
    let head : Word32 := BitVec.ofNat 32 (regVal b 0xC00010)
    if value.toNat ≤ (b.trcTail - head).toNat then regStore b 0xC00010 (head + value).toNat else b

/-! ## Pattern packs (R422 to R424) -/

/-- A case of a pack (Table 10.7). -/
def parseCase (b : List Byte) (i : Nat) : PackCase :=
  let e := (b.drop (fieldAt b 20 4 + 64 * i)).take 64
  { id := fieldAt e 0 2, unit := fieldAt e 2 1, slot := bitOf (fieldAt e 3 1) 0, budget := fieldAt e 4 2, scratch := fieldAt e 6 2
    tiles := fieldAt e 8 2, image := (b.drop (fieldAt e 12 4)).take (fieldAt e 16 4), expfp := BitVec.ofNat 64 (fieldAt e 20 8) }

/-- A case entry is well formed and its image lies in the pack. -/
def caseOk (b : List Byte) (i : Nat) : Bool :=
  let e := (b.drop (fieldAt b 20 4 + 64 * i)).take 64
  decide (fieldAt e 2 1 ≤ 2) && decide (fieldAt e 3 1 < 2) && decide (fieldAt e 10 2 = 0) && (e.drop 30).all (· == 0#8)
    && decide (fieldAt e 12 4 + fieldAt e 16 4 ≤ fieldAt b 24 4)

/-- The cause a pack is refused with, in the order of R424 (codes of Table 17.7). `broken`: a case's furrows break R423. -/
def packFault (f : Fuses) (d : Dev) (b : List Byte) (broken : Bool) : Option Nat :=
  let n := fieldAt b 6 2
  if dbgOver d then some 6
  else if !verifies f .firmware b (fieldAt b 24 4) then some 0
  else if crc32c (b.take 124) ≠ fieldAt b 124 4 then some 1
  else if fieldAt b 5 1 ≠ 1 then some 2
  else if secverBad (fieldAt b 12 4) f.svPack then some 5
  else if (d.chk.pack.any fun p => decide (fieldAt b 8 4 ≤ p.ver.toNat)) then some 3
  else if n = 0 ∨ 4096 < n ∨ 0x4000000 < fieldAt b 16 4 ∨ fieldAt b 16 4 ≠ b.length ∨ fieldAt b 0 4 ≠ 0x4B434150 ∨ broken
      ∨ ¬((List.range n).all (caseOk b)) then some 4
  else none

/-- The mailbox status of a refused pack (log 40). -/
def packStatus (c : Nat) : Nat := match c with
  | 0 => mbSigFail
  | 2 => mbBadVersion
  | 5 => mbRollback
  | 6 => mbNotAllowed
  | _ => mbBadArg

/-- PACK_LOAD (R424, R543, R545): a pack is checked in order and becomes active, or is refused with a cause. `broken`: a case's furrows
break R423, which the case table does not bound (log 40). -/
def execPackLoad (broken : Bool) (s : State) : Out :=
  onRole s 0 0x0701 fun m r => match namedBytes m r.payload with
    | none => m.onDev fun d => d.endReq r mbBadArg
    | some b => m.onDev fun d => match packFault s.fuses d b broken with
      | some c => (d.raise evPackRefused { c := c }).endReq r (packStatus c)
      | none =>
        let dig := Config.sha384 b
        let p : Pack := ⟨BitVec.ofNat 32 (fieldAt b 8 4), fieldAt b 12 4, (List.range (fieldAt b 6 2)).map (parseCase b), dig⟩
        (((d.onChk fun c => { c with pack := some p }).measure 7 dig).raise evPackLoaded { n := p.ver.toNat }).endReq r mbOk

end Sys2Proof.Machine
end

