-- ==== Sys2Proof/Machine/Loans.lean ====
section
/-!
DEFINITION. Remote READs and WRITEs, lending and borrowing, and a module that cannot be reached (12_azlek_fabric R496 to R502,
07_memory_tiers R287 to R290).
-/

namespace Sys2Proof.Machine

/-! ## The lender's side (R497 to R502) -/

/-- A loan of this module's memory under which a module asks. -/
def loanTo (d : Dev) (id src : Nat) : Option LoanOut := d.fab.loans.find? fun l => decide (l.id = id) && decide (l.borrower = src)

/-- DA of an offset of a loan. -/
def LoanOut.da (l : LoanOut) (off : Nat) : Nat := pageDa (nth 0 l.pages (off / 0x200000)) + off % 0x200000

/-- STATUS of an access of a loan: OK, OUTSIDE, NO_LOAN, MEMORY_ERROR (R499). -/
def loanStatus (l : Option LoanOut) (off n : Nat) (err : Bool) : Nat :=
  match l with
  | none => 2
  | some l => if l.pages.length * 0x200000 < off + n ∨ off % 64 ≠ 0 ∨ n % 64 ≠ 0 ∨ n = 0 ∨ 4096 < off % 4096 + n then 1
    else if err then 3 else 0

/-- An access or a RENEW has come: the loan stays (R500). -/
def Dev.seenLoan (d : Dev) (id : Nat) : Dev :=
  d.onFab fun x => { x with loans := x.loans.map fun l => if l.id = id then { l with seen := d.nowNs } else l }

/-- REMOTE_READ (R497, R499, R502): the oldest READ is served; `err` where memory answers with an error. One that follows a WRITE
of its module not yet served waits for it. -/
def execRemoteRead (err : Bool) (s : State) : Out :=
  onFabric s fun m => match nextMsg m.dev 1 with
    | none => m
    | some x =>
      let before := m.dev.fab.inbox.takeWhile fun y => y ≠ x
      if (before.any fun y => decide (y.op = 3) && decide (y.src = x.src)) then m
      else
        let l := loanTo m.dev x.id x.src
        let st := loanStatus l x.addr x.aux err
        let data := match l with
          | some l => if st = 0 then m.load (l.da x.addr) x.aux else []
          | none => []
        m.onDev fun d => ((d.dropMsg x).seenLoan x.id).sendMsg x.src x.cls 2 0 0 x.rtag st data

/-- REMOTE_WRITE (R497, R499, R502): the oldest WRITE is performed and acknowledged. -/
def execRemoteWrite (err : Bool) (s : State) : Out :=
  onFabric s fun m => match nextMsg m.dev 3 with
    | none => m
    | some x =>
      let l := loanTo m.dev x.id x.src
      let st := loanStatus l x.addr x.data.length err
      let m := match l with
        | some l => if st = 0 then m.store (l.da x.addr) x.data else m
        | none => m
      m.onDev fun d => ((d.dropMsg x).seenLoan x.id).sendMsg x.src x.cls 4 0 0 x.rtag st []

/-- Pages of this module's memory that are lent. -/
def lentPages (d : Dev) : Nat := sumNat (d.fab.loans.map (·.pages.length))

/-- Give pages of the page map a kind. -/
def Dev.setPages (d : Dev) (l : List Nat) (kind : Nat) : Dev :=
  d.onTier fun t => l.foldl (fun t i => setPage d.base t i (pageWord kind)) t

/-- LEND_REQ (R287, R498): the oldest request is granted from the FREE pages of this module's pools, warm ones first (log 19), or
refused. -/
def execLendReq (s : State) : Out :=
  onFabric s fun m => m.onDev fun d => match nextMsg d 0x20 with
    | none => d
    | some x =>
      let d := d.dropMsg x
      let refuse := d.sendMsg x.src clsCtrl 0x22 0 0 x.rtag 0 []
      if cfgFabLendCfgEn d.base = 0 ∨ x.addr = 0 ∨ 512 * cfgFabLendCfgLendmax d.base < lentPages d + x.addr then refuse
      else
        let free := ([4, 5, 6, 7, 0, 1, 2, 3].flatMap fun u =>
          if poolEmptied d.tier u then [] else (poolPages d.base d.tier u).filter fun i => pageKind d.base d.tier i = pkFree).take x.addr
        if free.length < x.addr then refuse
        else
          let id := d.fab.nextLoan
          let d := (d.setPages free pkLentOut).onFab fun f => { f with
            nextLoan := id + 1, loans := f.loans ++ [⟨id, x.src, x.aux % 16, free, d.nowNs, none⟩] }
          d.sendMsg x.src clsCtrl 0x21 x.addr id x.rtag 0 []

/-- The lender has its pages back (R498, R500, R501). -/
def Dev.endLoan (d : Dev) (l : LoanOut) : Dev :=
  (d.setPages l.pages pkFree).onFab fun x => { x with loans := x.loans.filter fun y => y.id ≠ l.id }

/-- RENEW (R500): the oldest RENEW keeps its loan. -/
def execRenew (s : State) : Out :=
  onFabric s fun m => m.onDev fun d => match nextMsg d 0x24 with
    | none => d
    | some x => match loanTo d x.id x.src with
      | some l => (d.dropMsg x).seenLoan l.id
      | none => d.dropMsg x

/-- RETURN (R498): the oldest RETURN gives a loan back. -/
def execReturnLoan (s : State) : Out :=
  onFabric s fun m => m.onDev fun d => match nextMsg d 0x25 with
    | none => d
    | some x => match loanTo d x.id x.src with
      | some l => (d.dropMsg x).endLoan l
      | none => d.dropMsg x

/-- LOAN_IDLE_RECLAIM (R500): a loan with no RENEW and no access for 10 s is reclaimed. -/
def execLoanIdleReclaim (loan : Nat) (s : State) : Out :=
  onFabric s fun m => m.onDev fun d => match d.fab.loans.find? fun l => l.id = loan with
    | some l => (d.endLoan l).raise evLoanReclaimed { t := l.id }
    | none => d

/-- The lender sends REVOKE: the deadline lies 1 s ahead (R501). -/
def Dev.sendRevoke (d : Dev) (l : LoanOut) : Dev :=
  (d.onFab fun x => { x with loans := x.loans.map fun y =>
    if y.id = l.id then { y with deadline := some (d.nowNs + 1000000000) } else y }).sendMsg l.borrower clsCtrl 0x23 1000 l.id 0 0 []

/-- A page lies in a pool. -/
def pageInPool (d : Dev) (u i : Nat) : Bool :=
  let s := poolSpan d.base d.tier u
  decide (s.1 ≤ i) && decide (i < s.1 + s.2)

/-- LOAN_AUTO_REVOKE (R289): the oldest loan whose pages lie in a pool that is below 1 % free, or that an evacuation empties, is
revoked. -/
def execLoanAutoRevoke (s : State) : Out :=
  onFabric s fun m => if !schedUp m.dev then m
    else m.onDev fun d =>
      let short := (List.range 8).filter fun u => decide (0 < (poolSpan d.base d.tier u).2) && poolBelow d.base d.tier u 1
      let emptied := d.tier.evacs.flatMap fun e => if e.kind = 0 then [e.unit / 192] else if e.kind = 1 then [4 + e.unit / 4] else []
      match d.fab.loans.find? fun l => l.deadline.isNone && l.pages.any fun i => (short ++ emptied).any fun u => pageInPool d u i with
      | some l => d.sendRevoke l
      | none => d

/-! ## The borrower's side -/

/-- The mailbox request of a LOAN_REQUEST ends. -/
def Dev.endAsk (d : Dev) (a : LoanAsk) (status : Nat) : Dev :=
  let d := d.onFab fun x => { x with asks := x.asks.erase a }
  match d.fw.reqs.find? fun r => decide (r.op = 0x0801) && decide (r.tag = a.tag) && r.begun with
  | some r => d.endReq r status
  | none => d

/-- LEND_GRANT (R20, R498): the window asked for is bound to the loan from offset 0. -/
def execLendGrant (s : State) : Out :=
  onFabric s fun m => m.onDev fun d => match nextMsg d 0x21 with
    | none => d
    | some x =>
      let d := d.dropMsg x
      match d.fab.asks.find? fun a => a.lender = x.src with
      | none => d
      | some a =>
        let d := (d.onTier fun t => { t with
          windows := kput t.windows a.window ⟨x.id, x.src, x.addr, d.nowNs + 10000000000, none⟩ }).onFab fun f => { f with
            renewed := kput f.renewed a.window d.nowNs }
        d.endAsk a mbOk

/-- LEND_REFUSE (R498). -/
def execLendRefuse (s : State) : Out :=
  onFabric s fun m => m.onDev fun d => match nextMsg d 0x22 with
    | none => d
    | some x =>
      let d := d.dropMsg x
      match d.fab.asks.find? fun a => a.lender = x.src with
      | some a => d.endAsk a mbNotAllowed
      | none => d

/-- RENEW_TIMER (R500): RENEW goes out for the loan of a window. -/
def execRenewTimer (window : Fin 16) (s : State) : Out :=
  onFabric s fun m => m.onDev fun d => match kfind d.tier.windows window with
    | none => d
    | some l =>
      ((d.onTier fun t => { t with windows := kput t.windows window { l with lease := d.nowNs + 10000000000 } }).onFab fun x => { x with
        renewed := kput x.renewed window d.nowNs }).sendMsg l.lender clsCtrl 0x24 0 l.id 0 0 []

/-- REVOKE (R289, R501): the oldest REVOKE names a deadline, and the borrower runs the revocation. -/
def execRevoke (s : State) : Out :=
  onFabric s fun m => m.onDev fun d => match nextMsg d 0x23 with
    | none => d
    | some x => match d.tier.windows.find? fun w => decide (w.2.id = x.id) && decide (w.2.lender = x.src) with
      | some w => (d.dropMsg x).revokeWindow w.1 (d.nowNs + x.addr * 1000000)
      | none => d.dropMsg x

/-- The loan of a window is gone: the window is unmapped, and the records still in it are lost and restored as under R286
(R289, R290, R501). EV_LOAN_LOST is raised where `say`, or where records were lost. -/
def loseLoan (m : Mod) (window : Nat) (say : Bool) : Mod :=
  match kfind m.dev.tier.windows window with
  | none => m
  | some l =>
    let gone := (lentIn m.dev.tier window).map (·.2.slot)
    let evacs := m.dev.tier.evacs.filter fun e => decide (e.kind = 3) && decide (e.unit = window)
    let m := m.onDev fun d => d.onTier fun t => { t with
      windows := kdel t.windows window
      lent := t.lent.filter fun c => locUnit c.1 ≠ window
      moves := t.moves.filter fun x => !(x.target = .lent && (x.dst.map locUnit) == some window) }
    let m := m.onDev fun d => evacs.foldl (fun d e => d.evacStuck e (slotBytes gone)) d
    let m := if say ∨ gone ≠ [] then m.onDev fun d => d.raise evLoanLost { t := l.id, n := gone.length } else m
    gone.foldl restoreFromCairn m

/-- REVOKE_DEADLINE (R289, R290, R501): the deadline of a revoked loan has come. `lender`: this module lent it, and `n` is its id; else
`n` is the window it is bound to. -/
def execRevokeDeadline (lender : Bool) (n : Nat) (s : State) : Out :=
  onFabric s fun m =>
    if lender then match m.dev.fab.loans.find? fun l => decide (l.id = n) && l.deadline.isSome with
      | some l => m.onDev fun d => d.endLoan l
      | none => m
    else match kfind m.dev.tier.windows n with
      | some l => if l.deadline.isSome then loseLoan m n false else m
      | none => m

/-! ## Answers (R497, R499, Table 12.7) -/

/-- READ_RSP (R499): the oldest answer to a READ: its data, or its status, goes to whoever read. -/
def execReadRsp (s : State) : Out :=
  onFabric s fun m => m.onDev fun d => match nextMsg d 2 with
    | none => d
    | some x =>
      let d := d.dropMsg x
      match d.fab.reqs.find? fun r => decide (r.rtag = x.rtag) && decide (r.lender = x.src) && !r.write with
      | some r => d.onFab fun f => { f with reqs := f.reqs.erase r, got := f.got ++ [⟨r.who, r.da, r.n, x.aux % 256, x.data⟩] }
      | none => d

/-- A WRITE has failed: the fault of its answer at whoever wrote (R20, R37, R57, Table 12.7). -/
def storeFault (m : Mod) (r : InFlightReq) (status : Nat) : Mod :=
  let f : FaultKind := if status = 3 then .tierError r.da else .daBarred r.da
  match r.who with
  | .thread i t => m.onDev fun d => (d.except i t exStore r.da).raiseAccess f
  | .unit i fid idx => m.onDev fun d => (d.modPlot i fun p => modInflight p fid fun x =>
      { x with fault := some (idx, f), issued := true, open_ := 0 }).raiseAccess f
  | .desc id => if m.dev.hif.descs.any fun x => x.id = id then addrError m id f [] else m
  | .tier => m.onDev fun d => d.count cTierError 0 1
  | _ => m.onDev fun d => d.raiseAccess f

/-- A WRITE is over: its posted store is acknowledged (R41, R497), or faults. -/
def endWrite (m : Mod) (r : InFlightReq) (status : Nat) : Mod :=
  let m := m.onDev fun d => d.onFab fun f => { f with reqs := f.reqs.erase r }
  let m := match r.who with
    | .thread i t => m.onDev fun d =>
      if windowStores d i t < (threadOf (d.plot i) t).posted then d.ackStore i t else d
    | _ => m
  if status = 0 then m else storeFault m r status

/-- WRITE_ACK (R497, R499): the oldest WRITE_ACK. -/
def execWriteAck (s : State) : Out :=
  onFabric s fun m => match nextMsg m.dev 4 with
    | none => m
    | some x =>
      let m := m.onDev fun d => d.dropMsg x
      match m.dev.fab.reqs.find? fun r => decide (r.rtag = x.rtag) && decide (r.lender = x.src) && r.write with
      | some r => endWrite m r (x.aux % 256)
      | none => m

/-! ## A module that cannot be reached (R496, R501, Table 12.7) -/

/-- DESTINATION_UNREACHABLE (R496, R501, R508): no acknowledgement has come within E2E. EV_FAB_UNREACHABLE names the module; READs and
WRITEs to it end, collectives with it fail, its loans are lost. -/
def execDestinationUnreachable (dst : BitVec 16) (s : State) : Out :=
  onFabric s fun m =>
    let id := dst.toNat
    if !(m.dev.fab.flowsOut.any fun f => decide (f.1 / 8 = id) && f.2.unacked != []) then m
    else
      let reqs := m.dev.fab.reqs.filter fun r => r.lender = id
      let asks := m.dev.fab.asks.filter fun a => a.lender = id
      let m := m.onDev fun d => (d.raise evFabUnreachable { n := id }).onFab fun x => { x with
        flowsOut := x.flowsOut.map fun f => if f.1 / 8 = id then (f.1, { f.2 with unacked := [] }) else f
        reqs := x.reqs.filter fun r => r.lender ≠ id || r.write
        got := x.got ++ (reqs.filter fun r => !r.write).map fun r => ⟨r.who, r.da, r.n, 0x80, []⟩ }
      let m := (reqs.filter (·.write)).foldl (fun m r => endWrite m r 0x80) m
      let m := m.onDev fun d => asks.foldl (fun d a => d.endAsk a mbNotAllowed) d
      let m := (m.dev.tier.windows.filter fun w => w.2.lender = id).foldl (fun m w => loseLoan m w.1 true) m
      collsLost m id

/-! ## The mailbox (Table 13.5) -/

/-- A mailbox request of the fabric. -/
def onLoanReq (s : State) (op : Nat) (f : Mod → MbxReq → Mod) : Out :=
  onFabric s fun m => if !schedUp m.dev then m
    else match nextReq m.dev op with
      | some r => f m r
      | none => m

/-- The lender a LOAN_REQUEST names: by job index, or by module id where bit 0 of its id kind is set. -/
def namedLender (d : Dev) (p : List Byte) : Option Nat :=
  let v := fieldAt p 0 2
  if bitOf (fieldAt p 2 2) 0 then some v
  else if v ≤ cfgFabMsCfgNmod d.base ∧ cfgFabJobmapValid d.base v = 1 then some (cfgFabJobmapModid d.base v) else none

/-- LOAN_REQUEST (R498): the scheduler core sends a LEND_REQ. -/
def execLoanRequest (s : State) : Out :=
  onLoanReq s 0x0801 fun m r => m.onDev fun d =>
    let w := fieldAt r.payload 8 1
    let n := fieldAt r.payload 4 4
    match namedLender d r.payload with
    | none => d.endReq r mbBadArg
    | some l =>
      if 16 ≤ w ∨ n = 0 ∨ l = d.fab.modid then d.endReq r mbBadArg
      else if (d.fab.asks.any fun a => a.window = w) then d.endReq r mbBusy
      else if (kfind d.tier.windows w).isSome then d.endReq r mbNotAllowed
      else
        ((d.beginReq r).onFab fun x => { x with asks := x.asks ++ [⟨l, w, n, r.tag⟩] }).sendMsg l clsCtrl 0x20 n 0 r.tag w []

/-- LOAN_RETURN (R498): the loan's records move out, and it goes back to its lender. -/
def execLoanReturn (s : State) : Out :=
  onLoanReq s 0x0802 fun m r =>
    let w := fieldAt r.payload 0 1
    if (kfind m.dev.tier.windows w).isNone then m.onDev fun d => d.endReq r mbBadArg
    else
      let x := relocateAll m ((lentIn m.dev.tier w).map (·.2.slot)) none fun _ =>
        if warmShort m.dev.base m.dev.tier then [.cold, .warm] else [.warm, .cold]
      x.1.onDev fun d => if x.2 then (d.returnLoan w).endReq r mbOk else d.endReq r mbNotAllowed

/-- LOAN_REVOKE (R501): REVOKE goes out for a loan this module has lent. -/
def execLoanRevoke (s : State) : Out :=
  onLoanReq s 0x0803 fun m r => m.onDev fun d => match d.fab.loans.find? fun l => l.id = fieldAt r.payload 0 4 with
    | none => d.endReq r mbBadArg
    | some l => if l.deadline.isSome then d.endReq r mbBusy else (d.sendRevoke l).endReq r mbOk

end Sys2Proof.Machine
end

