-- ==== Sys2Proof/Machine/Setup.lean ====
section
/-!
DEFINITION. BAR0 and BAR2 accesses, the setup lock and its checks, failed host reads, and counts read again (11_host_rings R435 to
R446, R472, R478; 17_register_event_reference R600 to R603).
-/

namespace Sys2Proof.Machine

/-! ## BAR0 (R436, R441, R600) -/

/-- An access that BAR0 completes with Unsupported Request: not 4 or 8 bytes, or not naturally aligned (R436). -/
def badAccess (off size : Nat) : Bool := !(size == 4 || size == 8) || decide (off % size ≠ 0)

/-- An access completes with Unsupported Request. -/
def Dev.unsupported (d : Dev) : Dev := d.onBase fun b => { b with out := b.out ++ [.ur] }

/-- BAR0_BAD_ACCESS (R436). -/
def execBar0BadAccess (off : BitVec 26) (size : Nat) (s : State) : Out :=
  onRing s fun d => if badAccess off.toNat size then d.unsupported else d

/-- Registers whose writes are commands of their own: HIF_SETUP_DONE, the KICK block, SEC_LOCK and TRC_HEAD. -/
def ownCommand (off : Nat) : Bool := decide (off = 0 ∨ (0x200000 ≤ off ∧ off < 0x200030) ∨ off = 0xA00008 ∨ off = 0xC00010)

/-- Write bits [hi:lo] of the register at an offset. -/
def writeReg (b : BaseState) (r : RegRow) (off hi lo v : Nat) : BaseState :=
  if ownCommand off then b else regStore b off (regWritten b r off hi lo (v % 2 ^ (hi + 1 - lo)))

/-- A 4-byte write reaches the 32-bit register at its offset, or half of the 64-bit register that covers it (R600). -/
def writeWord (b : BaseState) (off v : Nat) : BaseState := match regAt off with
  | some (r, _) => writeReg b r off 31 0 v
  | none => match (if 4 ≤ off then regAt (off - 4) else none) with
    | some (r, _) => if r.wide then writeReg b r (off - 4) 63 32 v else b
    | none => b

/-- A dword of the MSI-X table lies at an offset (R438). -/
def msixWord (off : Nat) : Option Nat :=
  if 0x10000 ≤ off ∧ off < 0x14000 ∧ off % 4 = 0 then some ((off - 0x10000) / 4) else none

/-- Write a dword of the MSI-X table. A vector that loses its mask sends the message it holds back (PRESUMED, log 9). -/
def writeMsix (b : BaseState) (k v : Nat) : BaseState :=
  let b := { b with msix := kset (if k % 4 = 3 then 1 else 0) b.msix k (BitVec.ofNat 32 v) }
  if k % 4 = 3 ∧ v % 2 = 0 ∧ k / 4 ∈ b.msixPend then
    { b with msixPend := b.msixPend.filter fun x => x ≠ k / 4, out := b.out ++ [.msix (k / 4)] }
  else b

/-- REGISTER_WRITE (R436, R441, R600): an 8-byte write reaches the 64-bit register at its offset, or the 32-bit registers there and 4
beyond. After the lock only W1C and WA fields change; the MSI-X table is a field of BAR0 that the lock holds too (log 42). -/
def execRegisterWrite (off : BitVec 26) (wide : Bool) (value : Word64) (s : State) : Out :=
  onRing s fun d =>
    let o := off.toNat
    let v := value.toNat
    if badAccess o (if wide then 8 else 4) then d.unsupported
    else match msixWord o with
      | some k => if d.base.lockHif then d else d.onBase fun b =>
          let b := writeMsix b k (v % 2 ^ 32)
          if wide then writeMsix b (k + 1) (v / 2 ^ 32) else b
      | none => d.onBase fun b => match wide, regAt o with
        | false, _ => writeWord b o v
        | true, some (r, _) => if r.wide then writeReg b r o 63 0 v else writeWord (writeReg b r o 31 0 v) (o + 4) (v / 2 ^ 32)
        | true, none => match regAt (o + 4) with
          | some _ => writeWord b (o + 4) (v / 2 ^ 32)
          | none => b

/-! ## BAR2 (R437, R520, R260) -/

/-- The DA that a BAR2 offset addresses (R437, R444). -/
def bar2Da (d : Dev) (off : Nat) : Nat := (if d.hif.badBar2 then 0 else cfgHifBar2BaseBase d.base * 2 ^ 36) + off

/-- BAR2_READ (R437, R520): a read of device memory, or of the staging buffer until FW_LOAD has succeeded. A read whose DA faults
completes with Unsupported Request. The memories do not answer in a protective action (R573; log 10). -/
def execBar2Read (off : BitVec 36) (n : Nat) (s : State) : Out :=
  onMod s fun m =>
    let d := m.dev
    if !d.hifUp || n == 0 then m
    else
      let answer := fun (m : Mod) (b : List Byte) => m.onDev fun d => d.onBase fun x => { x with out := x.out ++ [.answer b] }
      if !d.fw.bar2Open && decide (off.toNat < 0x2000000) then answer m (readRun d.fw.staging off.toNat n)
      else if d.stopped then m
      else match m.demandRead .bar2 (bar2Da d off.toNat) n with
        | .ok b => answer (m.onDev fun d => d.dropGot fun w => w == .bar2) b
        | .error (.remoteWait da k) => m.onDev fun d => d.askRemote .bar2 da k
        | .error f => m.onDev fun d => ((d.dropGot fun w => w == .bar2).raiseAccess f).unsupported

/-- A page-map entry whose KIND is SOFT takes its NPF bit from an aligned 8-byte write (R260). -/
def writeNpf (m : Mod) (da : Nat) (data : List Byte) : Option Mod :=
  let pb := pmapBase m.dev.base
  let i := (da - pb) / 8
  if m.dev.tier.started = true ∧ data.length = 8 ∧ da % 8 = 0 ∧ pb ≤ da ∧ da < pb + 0x4400000
      ∧ pageKind m.dev.base m.dev.tier i = pkSoft then
    let w := (pageEntry m.dev.base m.dev.tier i).toNat
    some (m.onDev fun d => d.onTier fun t => setPage d.base t i (BitVec.ofNat 64 (withBits w 59 59 (bitsOf (leNat data) 59 59))))
  else none

/-- BAR2_WRITE (R437, R520, R260): a write of device memory, or of the staging buffer until FW_LOAD has succeeded. A write to a DA
that faults is dropped. -/
def execBar2Write (off : BitVec 36) (data : List Byte) (s : State) : Out :=
  onMod s fun m =>
    let d := m.dev
    if !d.hifUp then m
    else if !d.fw.bar2Open && decide (off.toNat < 0x2000000) then
      m.onDev fun d => d.onFw fun w => { w with staging := writeRun w.staging off.toNat (data.take (0x2000000 - off.toNat)) }
    else if d.stopped then m
    else
      let da := bar2Da d off.toNat
      match writeNpf m da data with
      | some m => m
      | none => match m.demandWrite .bar2 da data with
        | .ok m => m.onDev Dev.carry
        | .error f => m.onDev fun d => d.raiseAccess f

/-! ## Failed host reads and counts read again (R435, R472, R478, R538, R611) -/

/-- CQ_HEAD_REREAD (R472, R478, R538, R611): CQ_HEAD of a ring, EV_HEAD or the log ring's word is read again. -/
def execCqHeadReread (which : HeadWord) (value : Word32) (s : State) : Out :=
  onRing s fun d => match which with
    | .cq n => rereadCq d n value
    | .event => rereadEv d value
    | .log => rereadLog d value

/-- HOST_READ_FAILURE (R435): a read that a descriptor needed ends it with HOST_READ_ERROR; a read of a descriptor or of an SQ_TAIL
word stops its ring; a read of a consumption word keeps the count last known. -/
def execHostReadFailure (read : HostRead) (addr : Word64) (s : State) : Out :=
  onMod s fun m =>
    let a := addr.toNat
    let stop := fun (ring : Nat) => m.onDev fun d =>
      if !sqUsable d ring || (sqOf d ring).stopped then d
      else stopRing (d.raise evHostReadError { d := a } 0 ring) ring (sqOf d ring).next
    if !m.dev.hifUp then m
    else match read with
      | .data desc => hostFail m desc a
      | .descriptor ring => stop ring
      | .tail ring => stop ring
      | .count => m.onDev fun d => d.raise evHostReadError { d := a }

/-! ## The setup checks (R440) -/

/-- A setup check that finds its fault does what its rule says, and counts in SETUPERR. -/
def setupCheck (bad : Bool) (f : Dev → Dev) (x : Dev × Nat) : Dev × Nat := if bad then (f x.1, x.2 + 1) else x

/-- Put a register's reset value in force. -/
def Dev.fallBack (d : Dev) (off : Nat) : Dev := d.onBase fun b => { b with fallback := b.fallback ++ [off] }

/-- A register of the plot map. -/
def isMapReg (off : Nat) : Bool := decide (0x410000 ≤ off ∧ off < 0x414000)

/-- A position that CHK_RETIRE_d_r retires (R430). -/
def isRetired (b : BaseState) (i : Nat) : Bool := bitOf (cfgChkRetireCol b (32 * instDie i + instRow i)) (instCol i)

/-- The first logical plot whose entry breaks R96 or names a retired plot (R430). The default map with no retirement breaks nothing. -/
def mapFault (b : BaseState) : Option Nat :=
  if !(b.regs.any fun r => isMapReg r.1 || decide (0x501000 ≤ r.1 ∧ r.1 < 0x501400)) then none
  else
    let l := (List.range 4096).filterMap fun p => (physOf b p).map fun i => (p, i)
    (l.find? fun x => decide (34 ≤ cfgPlotMapCol b x.1) || decide (instDie x.2 ≠ x.1 / 1024)
      || (decide (x.1 % 4 = 0) && !hasEpilogue x.2) || isRetired b x.2
      || (l.any fun y => decide (y.1 < x.1) && decide (y.2 = x.2))).map (·.1)

/-- A logical plot that the default map puts on a retired position moves to a healthy spare, or goes out of service (R97). -/
def moveRetired (d : Dev) (l : Nat) : Dev := match physOf d.base l with
  | none => d
  | some i => if !isRetired d.base i then d else match spareFor d i with
    | some j => (d.setMap l true j).raise evPlotRemapped { x := some [i, j] } (instDie j) l
    | none => plotExhausted d l i

/-- The plot map (R96, R97). N of its event is the first logical plot at fault (log 43). -/
def checkMap (x : Dev × Nat) : Dev × Nat := match mapFault x.1.base with
  | none => x
  | some p =>
    let d := (x.1.onBase fun b => { b with regs := b.regs.filter fun r => !isMapReg r.1 }).raise evPlotMapInvalid { n := p } 0 p
    ((List.range 4096).foldl moveRetired d, x.2 + 1)

/-- The smallest pool that R257 finds too small, in GiB. -/
def smallPool (d : Dev) : Option Nat :=
  let b := d.base
  let t := d.tier
  let hot := ((List.range 4).map fun k => (t.hotBacked k - hotSoft b) / giB).filter fun g => decide (g < 32)
  let full := (List.range 4).filter fun q => (List.range 4).all fun c => decide ((ddrOf t (4 * q + c)).st = .inService)
  let warm := (full.map fun q => (t.warmBacked q - warmSoft b) / giB).filter fun g => decide (g < 64)
  minBy id (hot ++ warm)

/-- The tiers (R205, R257, R340). -/
def checkTiers (x : Dev × Nat) : Dev × Nat :=
  let x := match smallPool x.1 with
    | none => x
    | some n => setupCheck true (fun d => (d.fallBack 0x300210).raise evTierPoolSmall { n := n }) x
  let b := x.1.base
  let inBand := fun (da n : Nat) => inHotSoft b x.1.tier da n
  let x := setupCheck (!inBand (tdescDa b 0) 0x100000)
    (fun d => (d.onTab fun t => { t with noArray := true }).raise evTierCfgInvalid { d := 0x300200 }) x
  setupCheck (!inBand (cfgTierGrpBaseBase b * 0x10000) 0x40000)
    (fun d => (d.onSow fun w => { w with noArea := true }).raise evTierCfgInvalid { d := 0x300248 }) x

/-- The entry of FAB_JOBMAP that R491 finds wrong. -/
def jobmapFault (d : Dev) : Option Nat :=
  let b := d.base
  (List.range (jobSize d)).find? fun j => decide (cfgFabJobmapValid b j = 0)
    || ((List.range j).any fun i => decide (cfgFabJobmapModid b i = cfgFabJobmapModid b j))
    || (decide (j = cfgFabMsCfgKidx b) && decide (cfgFabJobmapModid b j ≠ d.fab.modid))

/-- Milestones, checking horizon and topology (R369, R417, R489, R491). -/
def checkJob (x : Dev × Nat) : Dev × Nat :=
  let b := x.1.base
  let x := setupCheck (decide (cfgFabMsTmoCommittmo b < 2 * cfgFabMsTmoReadytmo b + 100))
    (fun d => (d.fallBack 0x600110).raise evMsCfgInvalid { d := 0x600110 }) x
  let x := setupCheck (decide (cfgFabMsCfgNmod b < cfgFabMsCfgKidx b)
      || (decide (cfgFabMsCfgNmod b < cfgFabMsCfgLeader b) && decide (cfgFabMsCfgHostlead b = 0)))
    (fun d => (d.onMs fun s => { s with noJob := true }).raise evMsCfgInvalid { d := 0x600100 }) x
  let x := match fracK b with
    | some k => setupCheck (decide (cfgFabMsCfgHm1 b + 1 < k))
        (fun d => (d.onChk fun c => { c with noCond3 := true }).raise evChkHorizonShort { n := k }) x
    | none => x
  let x := setupCheck ((List.range 4).any fun k => decide (dimSize b k ≤ coord x.1.fab.modid k))
    (fun d => (d.onFab fun f => { f with topoBad := true }).raise evFabTopoInvalid) x
  match jobmapFault x.1 with
  | some j => setupCheck true (fun d => (d.onMs fun s => { s with noJob := true }).raise evFabJobmapInvalid { n := j }) x
  | none => x

/-- The BAR2 window, the voltage thresholds and the snapshot area (R444, R582, R603). -/
def checkRest (x : Dev × Nat) : Dev × Nat :=
  let b := x.1.base
  let x := setupCheck (decide (0xFF000000000000 < cfgHifBar2BaseBase b * 2 ^ 36 + 2 ^ 36))
    (fun d => (d.onHif fun h => { h with badBar2 := true }).raise evHifCfgInvalid { d := 0x18 }) x
  let x := setupCheck (decide (cfgPwrVoltCfgBrownv b ≤ cfgPwrVoltCfgPfailv b))
    (fun d => (d.fallBack 0x900008).raise evPwrCfgInvalid) x
  setupCheck (decide (cfgEvtSnapBaseEn b = 1) && !inHotSoft b x.1.tier (cfgEvtSnapBaseBase b * 0x100000) 0x100000)
    (fun d => d.raise evEvtCfgInvalid) x

/-- The rings (R446): completion rings first, since a submission ring's DEFCQ must name an enabled one. -/
def checkRings (x : Dev × Nat) : Dev × Nat :=
  let b := x.1.base
  let size := fun (n : Nat) => n < 4 || 16 < n
  let cqs := (List.range 256).filter fun n => cfgRingCqCfgEn b n = 1
  let sqs := (List.range 256).filter fun n => cfgRingSqCfgEn b n = 1
  let x := cqs.foldl (fun x n => setupCheck (size (cfgRingCqCfgLog2size b n))
    (fun d => (d.modCq n fun q => { q with disabled := true }).raise evRingCfgInvalid {} 0 n) x) x
  let cqOk := fun (d : Dev) (n : Nat) => decide (cfgRingCqCfgEn b n = 1) && !(cqOf d n).disabled
  let x := sqs.foldl (fun x n => setupCheck (size (cfgRingSqCfgLog2size b n) || decide (cfgRingSqCfgClass b n = 3)
      || !cqOk x.1 (cfgRingSqCfgDefcq b n))
    (fun d => (d.modSq n fun q => { q with disabled := true }).raise evRingCfgInvalid {} 0 n) x) x
  setupCheck (decide (cfgHifDbBaseBase b = 0)) (fun d =>
    let d := cqs.foldl (fun d n => d.modCq n fun q => { q with disabled := true }) d
    (sqs.foldl (fun d n => d.modSq n fun q => { q with disabled := true }) d).raise evHifCfgInvalid { d := 0x10 }) x

/-! ## KEEP_HOT (R576) -/

/-- Registers that must be locked as before for the hot tier to be kept (R576). -/
def keepOffsets : List Nat :=
  [0x18, 0x300200, 0x300208, 0x300210, 0x300240, 0x300244, 0x300248, 0x600038, 0x600118, 0x800008]

/-- Their values, and the plot map in force. -/
def keepValues (b : BaseState) : List (Nat × Nat) :=
  (keepOffsets.map fun o => (o, regVal b o)) ++ (b.regs.filter fun r => isMapReg r.1).map fun r => (r.1, r.2.toNat)

/-- The least offset at which two lists of values differ. -/
def keepDiffers (a b : List (Nat × Nat)) : Option Nat :=
  minBy id (((a.filter fun x => !b.contains x) ++ (b.filter fun x => !a.contains x)).map (·.1))

/-- The hot tier is lost, and with it every journal, table and step whose state it held (Table 15.5, R311). -/
def loseHot (m : Mod) : Mod :=
  let d := m.dev
  { mem := m.mem.filter fun c => decide (0x100000000000 ≤ c.1)
    dev := { d with
      base := { d.base with applied := 0, cleared := 0 }
      tier := { d.tier with pages := d.tier.pages.filter fun p => decide (524288 ≤ p.1), reform := [], softLost := [], softNew := [] }
      sow := .reset
      ms := { d.ms with steps := [], rejoinDue := none }
      pwr := { d.pwr with hotKept := false, keepRegs := [] } } }

/-- The check of R576 after a link reset that kept the hot tier: any difference discards it. -/
def checkKeepHot (x : Mod × Nat) : Mod × Nat :=
  if !x.1.dev.pwr.hotKept then x
  else match keepDiffers x.1.dev.pwr.keepRegs (keepValues x.1.dev.base) with
    | none => x
    | some o => ((loseHot x.1).onDev fun d => d.raise evKeepHotDiscarded { d := o }, x.2 + 1)

/-! ## The lock (R440) -/

/-- Values of every RWL register that differs from reset, in ascending offset (Table 14.3, index 8). -/
def lockedValues (b : BaseState) : List Nat :=
  (b.regs.filter fun r => match regAt r.1 with
    | some (w, _) => w.fields.any fun f => f.acc == .rwl
    | none => false).flatMap fun r => [r.1, r.2.toNat]

/-- The checks of every block, at the first lock. -/
def checkAll (m : Mod) : Mod × Nat :=
  let x := checkRest (checkJob (checkTiers (checkMap (m.dev, 0))))
  checkKeepHot ({ m with dev := x.1 }, x.2)

/-- The group area is zero-filled, and no bank is in use (R342). -/
def clearGroups (m : Mod) : Mod :=
  let da := cfgTierGrpBaseBase m.dev.base * 0x10000
  let m := m.onDev fun d => d.onSow fun w => { w with bank := none, lastSel := none, bankSaid := false }
  if m.dev.sow.noArea then m else { m with mem := m.mem.filter fun c => decide (c.1 < da ∨ da + 0x40000 ≤ c.1) }

/-- Ports that may carry traffic begin training (R489, R490). -/
def trainPorts (d : Dev) : Dev :=
  let d := d.onFab fun f => { f with trainAt := some d.nowNs }
  (List.range 16).foldl (fun d p =>
    if mayTrain d p && (peerOf d p).isSome && (portOf d p).st == .disabled then d.modPort p fun q => { q with st := .training } else d) d

/-- EV_FLR_RECOVERED at the lock after a function-level reset (R479). -/
def flrRecovered (d : Dev) : Dev := match d.hif.flrLost with
  | some n => (d.onHif fun h => { h with flrLost := none }).raise evFlrRecovered
      { hasS := true, s := d.base.applied.toNat, s2 := some (lastKept d).toNat, n := n }
  | none => d

/-- HIF_SETUP_DONE (R440): a write of 1 runs the setup checks of every chapter, locks every RWL field and sets LOCKED. After a
function-level reset only the host interface was unlocked, and only its rings are checked again (R479). -/
def execHifSetupDone (value : Word32) (s : State) : Out :=
  onMod s fun m =>
    if !m.dev.hifUp || m.dev.base.lockHif || !value.getLsbD 0 then m
    else
      let m := m.onDev flrRecovered
      let again := m.dev.base.lockAll
      let x := if again then (m, 0) else
        let y := checkAll m
        (clearGroups y.1, y.2)
      let y := checkRings (x.1.dev, x.2)
      let d := (y.1.onBase fun b => { b with lockHif := true, lockAll := true }).onHif fun h => { h with setupErr := min 255 y.2 }
      let d := d.measure 8 (Config.sha384 (Config.layout 8 (lockedValues d.base)))
      { x.1 with dev := if again then d else trainPorts d }

end Sys2Proof.Machine
end

