-- ==== Sys2Proof/Machine/Security.lean ====
section
/-!
DEFINITION. Fuse tokens, the debug port, security versions, certificates, measurements and attestation (14_security R540 to
R558).
-/

namespace Sys2Proof.Machine

/-! ## Fuse tokens (R554, Table 14.6) -/

/-- DEBUG_CHALLENGE (R554): DEVID and a fresh nonce. -/
def execDebugChallenge (s : State) : Out :=
  onRole s 0 0x0A01 fun m r => m.onDev fun d =>
    let n := padTo 32 (Config.randomBytes d.sec.draws 32)
    (d.onSec fun x => { x with nonce := some n, draws := x.draws + 1 }).endReq r mbOk (leBytes 16 s.fuses.devid.toNat ++ n)

/-- The status a token is refused with (R541, R554): its form, its DEVID and its nonce answer BAD_ARG, its signatures SIG_FAIL
(log 44). -/
def tokenFault (f : Fuses) (d : Dev) (op : Nat) (a : Authority) (b : List Byte) : Option Nat :=
  if fieldAt b 0 4 ≠ 0x4E4B4244 ∨ fieldAt b 5 1 ≠ 1 ∨ fieldAt b 6 1 ≠ op ∨ ¬(((b.drop 56).take 68).all (· == 0#8))
      ∨ crc32c (b.take 124) ≠ fieldAt b 124 4 then some mbBadArg
  else if fieldAt b 8 16 ≠ f.devid.toNat ∨ d.sec.nonce ≠ some ((b.drop 24).take 32) then some mbBadArg
  else if !verifies f a b 128 then some mbSigFail else none

/-- Fuse tokens are refused (R558, Table 14.7). -/
def tokensOff (d : Dev) : Bool := dbgOver d || d.sec.locks.getLsbD 2

/-- Check a token: the check consumes the nonce (R554). `f` acts on an accepted token's ARG and bytes. -/
def withToken (f : Fuses) (m : Mod) (r : MbxReq) (op : Nat) (a : Authority) (g : Mod → Nat → List Byte → Fuses × Mod) : Fuses × Mod :=
  match namedBytes m r.payload with
  | none => (f, m.onDev fun d => d.endReq r mbBadArg)
  | some b =>
    let m1 := m.onDev fun d => d.onSec fun x => { x with nonce := none }
    match tokenFault f m.dev op a b with
    | some st => (f, m1.onDev fun d => d.endReq r st)
    | none => g m1 (fieldAt b 7 1) b

/-- Run a mailbox operation of the security core that may blow fuses. -/
def onFuses (s : State) (op : Nat) (f : Fuses → Mod → MbxReq → Fuses × Mod) : Out :=
  match nextReq s.mod.dev op with
  | some r =>
    if schedUp s.mod.dev && roleUp s.mod.dev 0 then
      let x := f s.fuses s.mod r
      .next { s with fuses := x.1, mod := x.2 }
    else onRole s 0 op fun m _ => m
  | none => .next s

/-- LIFECYCLE_ADVANCE (R554): blows LIFECYCLE toward RMA or SCRAPPED. -/
def execLifecycleAdvance (s : State) : Out :=
  onFuses s 0x0A04 fun f m r =>
    if tokensOff m.dev then (f, m.onDev fun d => d.endReq r mbNotAllowed)
    else withToken f m r 2 .firmware fun m arg _ =>
      if arg ≠ 2 ∧ arg ≠ 3 then (f, m.onDev fun d => d.endReq r mbBadArg)
      else ({ f with lifecycle := thermometer 8 (arg + 1) f.lifecycle }, m.onDev fun d => d.endReq r mbOk)

/-- KEY_REVOKE (R554): blows revoke bits of the firmware authority's slots, but not the signing slot's nor every slot's. -/
def execKeyRevoke (s : State) : Out :=
  onFuses s 0x0A05 fun f m r =>
    if tokensOff m.dev then (f, m.onDev fun d => d.endReq r mbNotAllowed)
    else withToken f m r 3 .firmware fun m arg b =>
      let v := f.fwRevoke ||| BitVec.ofNat 4 arg
      if 16 ≤ arg ∨ bitOf arg (sigSlot b 128) ∨ v = 15 then (f, m.onDev fun d => d.endReq r mbBadArg)
      else ({ f with fwRevoke := v }, m.onDev fun d => d.endReq r mbOk)

/-! ## The debug opening (R555 to R558) -/

/-- Steps 1 to 4 of R555. -/
def beginErase (d : Dev) (scope : Nat) (token : List Byte) : Dev :=
  (d.onSec fun x => { x with
    dbg := 1, scope := scope, token := Config.sha384 token, seedLocked := true, keys := false
    warmKeys := [], cartKeys := [], sessions := [], ide := [], signed := [] }).raise evDebugErasing { n := scope }

/-- DEBUG_UNLOCK (R555): refused once setup is locked, while a descriptor is in progress or once DBGDIS is set; otherwise the token is
checked and the erasure begins. -/
def execDebugUnlock (s : State) : Out :=
  onFuses s 0x0A02 fun f m r =>
    let d := m.dev
    if d.base.lockHif || d.hif.descs != [] || d.sec.locks.getLsbD 0 || tokensOff d then (f, m.onDev fun d => d.endReq r mbNotAllowed)
    else if d.sec.dbg = 1 then (f, m.onDev fun d => d.endReq r mbBusy)
    else withToken f m r 1 .debug fun m arg b =>
      if 16 ≤ arg then (f, m.onDev fun d => d.endReq r mbBadArg)
      else (f, m.onDev fun d => (beginErase d arg b).beginReq r)

/-- The plots with SRAM and furrow stores scrubbed. -/
def scrubPlots (p : KMap Plot) : KMap Plot :=
  (p.map fun e => (e.1, { e.2 with sram := [], store := [] })).filter fun e => decide (e.2 ≠ Plot.reset)

/-- What step 5 of R555 and R557 leave of the memories: hot and warm tiers, plot SRAM and furrow stores zero, no ledger, and the
cartridges out of service. -/
def scrub (d : Dev) : Dev :=
  let t := d.tier
  let off := fun (c : Cart) => if c.st = .empty ∨ c.st = .refused then c else { c with st := .fallowOff }
  { d with
    plots := scrubPlots d.plots
    tier := { t with
      pages := [], slots := [], lent := [], moves := [], promote := [], refresh := [], reform := [], softLost := [], softNew := []
      evacs := [], waitFail := [], carts := t.carts.map fun c => (c.1, off c.2) }
    tab := { TabState.reset with noArray := d.tab.noArray }
    sow := { SowState.reset with noArea := d.sow.noArea } }

/-- The end of the erasure (R555 to R557): the scrub verifies and the port opens for the token's SCOPE, or fails and the port stays dead;
what a hot soft band then holds is open. -/
def eraseDone (m : Mod) (ok : Bool) : Mod :=
  let d := scrub m.dev
  let d := if ok then
      let d := d.onSec fun x => { x with dbg := 2 }
      (d.measure 9 (Config.sha384 (leBytes 1 2 ++ leBytes 48 d.sec.token.toNat))).raise evDebugOpened { n := d.sec.scope }
    else ((d.onSec fun x => { x with dbg := 3 }).onTier fun t => { t with softLost := [0, 1, 2, 3] }).raise evDebugEraseFailed
  let d := match begunReq d 0x0A02 with
    | some r => d.endReq r (if ok then mbOk else mbNotAllowed)
    | none => d
  { mem := [], dev := d }

/-! ## Security versions, certificates, measurements (R544, R545, R550) -/

/-- The lowest SECVER among the bundles that the processors run (R533, R544). -/
def runningSecver (d : Dev) : Option Nat := minBy id ((d.fw.procs.filter fun p => p.2.run).map fun p => p.2.secver)

/-- SECVER_COMMIT (R544): a security-version fuse is raised to what runs. -/
def execSecverCommit (s : State) : Out :=
  onFuses s 0x0A03 fun f m r =>
    let d := m.dev
    let k := fieldAt r.payload 0 1
    let stop := fun (st : Nat) => (f, m.onDev fun d => d.endReq r st)
    let blow := fun (f' : Fuses) (v : Nat) => (f', m.onDev fun d => (d.raise evSecverCommitted { n := v }).endReq r mbOk)
    if 1 < k then stop mbBadArg
    else if tokensOff d then stop mbNotAllowed
    else if d.fw.update.isSome then stop mbBusy
    else match (if k = 0 then runningSecver d else d.chk.pack.map (·.secver)) with
      | none => stop mbNotAllowed
      | some v =>
        if k = 0 then (if v ≤ f.svFw then stop mbOk else blow { f with secverFw := thermometer 64 v f.secverFw } v)
        else if v ≤ f.svPack then stop mbOk else blow { f with secverPack := thermometer 64 v f.secverPack } v

/-- CERT_SET (R550): a certificate chain that passes its checks is installed. -/
def execCertSet (s : State) : Out :=
  onRole s 0 0x0A06 fun m r =>
    if m.dev.sec.locks.getLsbD 1 then m.onDev fun d => d.endReq r mbNotAllowed
    else match (if 0x10000 < fieldAt r.payload 8 4 then none else namedBytes m r.payload) with
      | none => m.onDev fun d => d.endReq r mbBadArg
      | some b => m.onDev fun d =>
        if Config.certOk s.fuses.fwKey b then (d.onSec fun x => { x with cert := some b }).endReq r mbOk else d.endReq r mbBadArg

/-- MEAS_GET (R545): the digest of a measurement index. -/
def execMeasGet (s : State) : Out :=
  onRole s 0 0x0A07 fun m r => m.onDev fun d =>
    let i := fieldAt r.payload 0 1
    if i = 0 ∨ 9 < i then d.endReq r mbBadArg else d.endReq r mbOk (leBytes 48 (measurement s.fuses d i).toNat)

/-- SEC_LOCK (Table 14.7): set a lock bit. -/
def setLock (s : State) (bit : Nat) : Out :=
  onRing s fun d => d.onSec fun x => { x with locks := x.locks ||| BitVec.ofNat 3 (2 ^ bit) }

/-- SEC_LOCK.DBGDIS (R555, Table 14.7). -/
def execSecLockDbgdis (s : State) : Out := setLock s 0
/-- SEC_LOCK.CERTDIS (R550, Table 14.7). -/
def execSecLockCertdis (s : State) : Out := setLock s 1
/-- SEC_LOCK.FUSEDIS (R544, Table 14.7). -/
def execSecLockFusedis (s : State) : Out := setLock s 2

/-! ## Attestation (R551 to R553) -/

/-- The bytes that an SPDM answer is made from: the request, the measurements and the certificate chain. -/
def spdmInput (f : Fuses) (d : Dev) (req : List Byte) : List Byte :=
  req ++ ((List.range 9).flatMap fun i => leBytes 48 (measurement f d (i + 1)).toNat) ++ d.sec.cert.getD []

/-- An SPDM ERROR response: code and data. PRESUMED: the codes of SPDM 1.3 (log 45). -/
def spdmError (code data : Nat) : List Byte := leBytes 4 (0x7F13 + code * 2 ^ 16 + data * 2 ^ 24)

/-- Request codes that the module does not support: PSK, encapsulated requests, SET_CERTIFICATE, GET_CSR, event notification
(Table 14.5; PRESUMED: their numbers, log 45). -/
def spdmUnsupported (code : Nat) : Bool :=
  [0xE6, 0xE7, 0xEA, 0xEB, 0xED, 0xEE, 0xEF, 0xF0, 0xF1].contains code

/-- An IDE_KM KEY_PROG inside a secured session: the key set it programs (Table 14.5; PRESUMED: the layout, log 45). -/
def ideKeySet (req : List Byte) : Option Nat :=
  if fieldAt req 1 1 = 0xFE ∧ fieldAt req 4 2 = 3 ∧ fieldAt req 6 1 = 2 ∧ fieldAt req 7 2 = 1 ∧ fieldAt req 11 2 = 0x0200
  then some (fieldAt req 19 1 % 2) else none

/-- What a request does to the sessions: KEY_EXCHANGE begins one, FINISH ends its handshake, END_SESSION ends it (R551). -/
def spdmSessions (x : SecState) (mctp : Bool) (session : Option Nat) (code : Nat) : List Session :=
  let id := (x.sessions.foldl (fun a s => max a s.id) 0) + 1
  if code = 0xE4 then x.sessions ++ [⟨id, mctp, false⟩]
  else if code = 0xE5 then x.sessions.map fun s => if some s.id = session then { s with open_ := true } else s
  else if code = 0xEC then x.sessions.filter fun s => some s.id ≠ session
  else x.sessions

/-- SPDM_REQUEST (R551, R552): the security core answers a request over DOE or MCTP, `session` naming the secured session it came in.
What DSP0274 fixes of an answer's bytes is open here (log 6). -/
def execSpdmRequest (mctp : Bool) (session : Option Nat) (req : List Byte) (s : State) : Out :=
  onDev s fun d =>
    let code := fieldAt req 1 1
    let tr := b2n mctp
    let x := d.sec
    let signs := decide (code = 0x83) || decide (code = 0xE4) || (decide (code = 0xE0) && bitOf (fieldAt req 2 1) 0)
    let say := fun (b : List Byte) (d : Dev) => d.onSec fun x => { x with answers := x.answers ++ [(tr, b)] }
    let fail := fun (c v : Nat) => say (spdmError c v) (d.onSec fun x => { x with signed := kdel x.signed tr })
    if !secUp d ∨ (mctp = false ∧ d.hifUp = false) ∨ (session.any fun i => !(x.sessions.any fun s => s.id == i && s.mctp == mctp)) then d
    else if spdmUnsupported code then fail 7 code
    else if x.cert.isNone ∧ (code = 0x82 ∨ code = 0x83 ∨ code = 0xE4) then fail 5 0
    else if code = 0xE4 ∧ 4 ≤ x.sessions.length then fail 10 0
    else
      let inp := spdmInput s.fuses d req
      let b := Config.spdmBytes x.draws inp
      say b (d.onSec fun x => { x with
        draws := x.draws + 1, sessions := spdmSessions x mctp session code
        ide := match (if session.isSome then ideKeySet req else none) with
          | some k => if x.ide.contains k then x.ide else x.ide ++ [k]
          | none => x.ide
        signed := if signs then kput x.signed tr b else kdel x.signed tr })

/-- SLH_SIGNATURE_REQUEST (R552): the SLH-DSA signature of the previous response over a transport, where that carried an RSA signature. -/
def execSlhSignatureRequest (mctp : Bool) (s : State) : Out :=
  onDev s fun d =>
    let tr := b2n mctp
    if !secUp d ∨ (mctp = false ∧ d.hifUp = false) then d
    else
      let b := match kfind d.sec.signed tr with
        | some i => [0x81#8, 0x00#8, 0x00#8, 0x00#8] ++ padTo 16224 (Config.deviceSign 1 i)
        | none => [0x81#8, 0x01#8, 0x00#8, 0x00#8]
      d.onSec fun x => { x with answers := x.answers ++ [(tr, b)], signed := kdel x.signed tr }

end Sys2Proof.Machine
end

