-- ==== Sys2Proof/Machine/Power.lean ====
section
/-!
DEFINITION. Capping, throttling, brown-out, protective actions and domain cycles (15_clocks_power_reset R559 to R573;
10_silent_error_checking R431).
-/

namespace Sys2Proof.Machine

/-! ## Power limits (R569, Tables 15.4, 15.9) -/

/-- The power limit in watts: the lower of LIMIT and the run-time limit (R569). -/
def powerLimit (d : Dev) : Nat := min (cfgPwrCapCfgLimit d.base) (d.pwr.limit.getD (cfgPwrCapCfgLimit d.base))

/-- The next capping fraction, from the mean input power of the tick in milliwatts (R569). -/
def nextCap (limit f mw : Nat) : Nat :=
  if 1000 * (limit + 100) < mw then min (f + 2) 56
  else if 1000 * limit < mw then min (f + 1) 56
  else if mw + 50000 < 1000 * limit then f - 1 else f

/-- Give the capping fraction a value: EV_PWR_CAPPING when it leaves 0 and when it returns to 0 (R569). -/
def Dev.setCap (d : Dev) (f : Nat) : Dev :=
  let old := d.pwr.f
  let d := d.onPwr fun p => { p with f := f }
  if decide (old = 0) = decide (f = 0) then d else d.raise evPwrCapping { n := f }

/-- POWER_CAP_TICK (R569): the end of a management tick, with its mean input power in milliwatts and the input voltage in 0.1 V. The
last rate holds while the power core restarts (R525). -/
def execPowerCapTick (mw vin : Nat) (s : State) : Out :=
  onPlaneDev s fun d =>
    let d := d.onPwr fun p => { p with pin := mw / 1000, vin := vin, capTicks := p.capTicks + 1 }
    let d := if 0 < d.pwr.f then d.count cPwrCapTick 0 1 else d
    if powerUp d then d.setCap (nextCap (powerLimit d) d.pwr.f mw) else d

/-- FAST_POWER_LIMIT (Table 15.4): the input has exceeded 2,450 W over 50 µs. -/
def execFastPowerLimit (s : State) : Out :=
  onPlaneDev s fun d =>
    let f := max d.pwr.f 32
    (d.setCap f).raise evPwrFastLimit { n := f }

/-- Set the run-time limit, where it is in range (R569, R593). -/
def setLimit (d : Dev) (w : Nat) : Option Dev :=
  if 1200 ≤ w ∧ w ≤ cfgPwrCapCfgLimit d.base then some (d.onPwr fun p => { p with limit := some w }) else none

/-- CAP_SET (R569, Table 15.9). -/
def execCapSet (s : State) : Out :=
  onRole s 1 0x0B02 fun m r => m.onDev fun d => match setLimit d (fieldAt r.payload 0 2) with
    | some d => d.endReq r mbOk
    | none => d.endReq r mbBadArg

/-- PWR_STATUS (Table 15.9). The layout of the answer is open (log 39). -/
def execPwrStatus (s : State) : Out :=
  onRole s 1 0x0B01 fun m r => m.onDev fun d =>
    let p := d.pwr
    d.endReq r mbOk (padTo 240 (Config.layout 0x0B01 ([p.pin, p.vin, p.f, b2n p.clkLost, b2n p.pfail, b2n p.trip, b2n p.brown, p.on.toNat]
      ++ (List.range 9).map (kget 0 p.temps) ++ (List.range 4).map (kget 0 p.t) ++ (List.range 12).map (kget 0 p.stackTemps))))

/-! ## Heat and brown-out (R570, R571, Table 15.4) -/

/-- One die's throttle fraction at a tick (R570). -/
def nextThrottle (throttle t temp : Nat) : Nat :=
  if throttle ≤ temp then min (t + 1) 56 else if temp + 3 < throttle then t - 1 else t

/-- Throttle one die. -/
def throttleDie (d : Dev) (die : Nat) : Dev :=
  let old := kget 0 d.pwr.t die
  let new := nextThrottle (cfgPwrThermCfgThrottle d.base) old (kget 0 d.pwr.temps die)
  let d := d.onPwr fun p => { p with t := kset 0 p.t die new }
  if decide (old = 0) = decide (new = 0) then d else d.raise evThermThrottle { n := new } die

/-- THERMAL_THROTTLE_TICK (R570, Table 15.4): a management tick ends with these junctions in °C: field dies 0 to 3, hub, Iaquas 0 to 3. -/
def execThermalThrottleTick (temps : List Nat) (s : State) : Out :=
  onPlaneDev s fun d =>
    let d := d.onPwr fun p => { p with
      temps := (temps.take 9).zipIdx.foldl (fun k x => kset 0 k x.2 x.1) p.temps }
    let d := if d.pwr.t ≠ [] then d.count cThermThrottleTick 0 1 else d
    if !powerUp d then d
    else
      let d := (List.range 4).foldl throttleDie d
      d.onPwr fun p => { p with hotDies := (List.range 4).filter fun k => cfgPwrThermCfgThrottle d.base + 5 ≤ kget 0 p.temps k }

/-- HBM_STACK_HOT (Table 15.4): a stack's sensor reads a temperature; from 95 °C on its refresh rate is doubled and its controller's SC1
and SC2 commands are held back. -/
def execHbmStackHot (stack : Fin 12) (temp : Nat) (s : State) : Out :=
  onPlaneDev s fun d => d.onPwr fun p => { p with
    stackTemps := kset 0 p.stackTemps stack temp
    hotStacks := (p.hotStacks.filter fun x => x ≠ stack.val) ++ (if 95 ≤ temp then [stack.val] else []) }

/-- BROWNOUT_ENTER (R571): the input has been below BROWNV for 100 µs. -/
def execBrownoutEnter (vin : Nat) (s : State) : Out :=
  onPlaneDev s fun d =>
    if d.pwr.brown ∨ cfgPwrVoltCfgBrownv d.base ≤ vin then d
    else ((d.onPwr fun p => { p with brown := true, vin := vin }).raise evBrownoutEnter { n := vin }).count cBrownout 0 1

/-- BROWNOUT_EXIT (R571): the input has stayed at BROWNV + 1.0 V or above for 10 ms. -/
def execBrownoutExit (vin : Nat) (s : State) : Out :=
  onPlaneDev s fun d =>
    if !d.pwr.brown ∨ vin < cfgPwrVoltCfgBrownv d.base + 10 then d
    else (d.onPwr fun p => { p with brown := false, vin := vin }).raise evBrownoutExit { n := vin }

/-! ## Ending a domain cycle's request -/

/-- The mailbox request that asked for a cycle ends. -/
def Dev.endCycleReq (d : Dev) (c : CycleReq) (status : Nat) : Dev :=
  match c.tag.bind fun t => d.fw.reqs.find? fun r => r.op = 0x0B03 && r.begun && r.tag = t with
  | some r => d.endReq r status
  | none => d

/-- A cycle is refused with a cause (R568, Table 17.7). -/
def Dev.refuseCycle (d : Dev) (c : CycleReq) (cause : Nat) : Dev :=
  (d.raise evCycleRefused { c := cause, n := c.dom }).endCycleReq c mbNotAllowed

/-! ## Protective actions (R562, R572, R573) -/

/-- What every protective action does: a running cycle is abandoned and those that wait are refused (R568); every descriptor in
progress is abandoned without a completion (R573). -/
def beginProtective (d : Dev) : Dev :=
  let run := d.pwr.cycle
  let wait := d.pwr.waiting
  let d := d.onPwr fun p => { p with cycle := none, waiting := [] }
  let d := match run with
    | some c => d.endCycleReq c mbNotAllowed
    | none => d
  let d := wait.foldl (fun d c => d.refuseCycle c 3) d
  ((d.onHif fun h => { h with descs := [], cqs := h.cqs.map fun q => (q.1, { q.2 with held := [] }) }).onBase fun b => { b with ended := [] }).onMs
    fun x => { x with runs := [] }

/-- The domains that stay on in a trip or power fail: PD_HIF, PD_MGA, PD_MGB (R573). -/
def protectiveOn : BitVec 30 := 0x1900000#30

/-- Steps 1 to 4 of R573: plots, spines, fabric halves, Iaquas and flash controller are switched off; memory contents stay. -/
def switchOff (d : Dev) : Dev :=
  let d := beginProtective d
  let d := d.onPwr fun p => { p with on := p.on &&& protectiveOn }
  let d := d.onFab fun f => { f with
    ports := f.ports.map fun p => (p.1, if p.2.st = .disabled then p.2 else { Port.reset with st := .down }) }
  let d := ((List.range 16).map (16 + ·)).foldl (fun d i => d.modProc i fun p => { p with run := false }) d
  { d with plots := [] }

/-- THERMAL_TRIP (R573, Table 15.4): a junction at 110 °C, or a stack at 105 °C. -/
def execThermalTrip (stack : Bool) (source temp : Nat) (s : State) : Out :=
  onDev s fun d =>
    if !d.pwr.powered ∨ d.pwr.clkLost ∨ d.pwr.trip ∨ temp < (if stack then 105 else 110) then d
    else
      let d := d.onPwr fun p => if stack then { p with stackTemps := kset 0 p.stackTemps source temp }
        else { p with temps := kset 0 p.temps source temp }
      (switchOff (d.onPwr fun p => { p with trip := true })).raise evThermTrip { n := temp }

/-- POWER_FAIL (R573, Table 15.4): the input has been below PFAILV for 20 µs, or its power-good is gone. -/
def execPowerFail (vin : Option Nat) (s : State) : Out :=
  onDev s fun d =>
    if !d.pwr.powered ∨ d.pwr.clkLost ∨ d.pwr.pfail ∨ (vin.any fun v => decide (cfgPwrVoltCfgPfailv d.base ≤ v)) then d
    else (switchOff (d.onPwr fun p => { p with pfail := true, vin := vin.getD 0 })).raise evPwrFail { n := vin.getD 0 }

/-- CLOCK_LOST (R562): the root PLL has lost lock or the reference has failed. Hot and warm contents are lost. -/
def execClockLost (s : State) : Out :=
  onMod s fun m => if !m.dev.pwr.powered ∨ m.dev.pwr.clkLost then m else
    let d := (beginProtective (m.dev.onPwr fun p => { p with clkLost := true })).raise evClkLost
    { mem := [], dev := d }

/-! ## Domain cycles (R431, R563 to R568, Tables 15.2, 15.3) -/

/-- What the power core finds when it turns to a cycle: its work is still to end, it is refused, or it begins. -/
inductive CycleTurn where
  /-- The work of the domain is not yet moved or held. -/
  | wait (d : Dev)
  /-- Refused with a cause (R568). -/
  | refuse (cause : Nat)
  /-- The domain is switched off. -/
  | go (d : Dev)
  deriving DecidableEq, Repr

/-- A quadrant (R431): between milestones, its express plots moved out, its blocks complete. -/
def turnQuad (d : Dev) (q : Nat) : CycleTurn :=
  if d.sow.app.isSome then .wait d
  else match moveAllOut q ((quadPlots q).filter fun i => expressAt d.base i) d with
    | none => .refuse 2
    | some d =>
      let plots := quadPlots q
      if plots.any fun i => !(d.plot i).blocks.isEmpty then .wait d
      else
        let d := plots.foldl (fun d i => if (kfind d.plots i).isSome then d.modPlot i cycledPlot else d) d
        .go (d.modProc (16 + q) fun p => { p with run := false })

/-- A spine or an Iaqua: at the end of an application window; what its coalescers had begun starts again (R565, R566). An engine whose
conviction the cycle answers is noted (R432). -/
def turnEngine (d : Dev) (dom : Nat) : CycleTurn :=
  if d.sow.app.isSome then .wait d
  else
    let eng := if dom < 20 then dom - 16 else dom - 22
    let conv := (kget EngineHealth.reset d.chk.engines eng).convicted
    let d := if !conv then d else d.onChk fun c => { c with
      engines := kmod EngineHealth.reset c.engines eng fun e => { e with convicted := false, cycledAt := some d.nowNs } }
    .go (if dom < 20 then d.onTab fun t => { t with coal := t.coal.filter fun c => c.1 / 4 ≠ eng } else d)

/-- Half h of the fabric has a port up in each direction of every wrapped dimension (Table 15.3). -/
def halfServes (d : Dev) (h : Nat) : Bool :=
  (List.range 4).all fun k => !dimWraps d.base k || [true, false].all fun plus =>
    (dirPorts k plus).any fun p => decide (p % 2 = h) && (portOf d p).up

/-- A fabric half: refused unless the other half serves (R568). -/
def turnFabric (d : Dev) (h : Nat) : CycleTurn :=
  if !bitOf d.pwr.on.toNat (22 - h) || !halfServes d (1 - h) then .refuse 1
  else .go (((List.range 16).filter fun p => p % 2 = h ∧ (portOf d p).st ≠ .disabled).foldl (fun d p => d.portDown p .down) d)

/-- A management domain: every active role of it is handed over, or it is refused (R568). -/
def turnMg (d : Dev) (mg : Nat) : CycleTurn :=
  let mine := (List.range 3).filter fun r => activeId d r / 4 = mg ∧ ¬(d.fw.lost.contains r)
  if mine.any fun r => !procUp d (standbyId d r) then .refuse 0
  else
    let d := mine.foldl (fun d r => d.handover r) d
    .go ([0, 1, 2].foldl (fun d r => d.modProc (4 * mg + r) fun p => { p with run := false }) d)

/-- Step 1 of R564 for a domain. -/
def turnCycle (d : Dev) (dom : Nat) : CycleTurn :=
  if dom < 16 then turnQuad d dom
  else if dom < 20 ∨ 26 ≤ dom then turnEngine d dom
  else if dom = 21 ∨ dom = 22 then turnFabric d (dom - 21)
  else if dom = 23 ∨ dom = 24 then turnMg d (dom - 23)
  else .go d

/-- The power core turns to the cycle asked for first, when none runs (R564). -/
def startCycle (d : Dev) : Dev :=
  if d.pwr.cycle.isSome || !powerUp d then d
  else match d.pwr.waiting with
    | [] => d
    | c :: rest => match turnCycle d c.dom with
      | .wait d => d
      | .refuse k =>
        let d := (d.onPwr fun p => { p with waiting := rest }).refuseCycle c k
        if c.dom < 16 then d.onChk fun x => { x with quadConv := kdel x.quadConv c.dom } else d
      | .go d => d.onPwr fun p => { p with waiting := rest, cycle := some c, on := p.on &&& ~~~(BitVec.ofNat 30 (2 ^ c.dom)) }

/-- DOMAIN_CYCLE (R564, R568, Table 15.9): a mailbox request for a cycle waits its turn, or is refused in a protective action; then the
power core turns to the cycle that waits first. -/
def execDomainCycle (s : State) : Out :=
  onDev s fun d =>
    let d := if !(schedUp d && powerUp d) then d else match nextReq d 0x0B03 with
      | none => d
      | some r =>
        let dom := fieldAt r.payload 0 1
        if 30 ≤ dom then d.endReq r mbBadArg
        else if d.stopped then (d.raise evCycleRefused { c := 3, n := dom }).endReq r mbNotAllowed
        else (d.beginReq r).askCycle dom (some r.tag)
    if d.stopped then d else startCycle d

/-- QUADRANT_CYCLE (R431, Table 10.10): three convictions within STRIKEWIN hours have the quadrant's domain cycled. -/
def execQuadrantCycle (quad : Fin 16) (s : State) : Out :=
  onPlaneDev s fun d =>
    let asked := d.cycling quad || d.pwr.waiting.any fun c => decide (c.dom = quad.val)
    startCycle (if quadDue d quad && !asked then d.askCycle quad none else d)

/-- What comes up with a domain: its processors run the image of the image store, its ports train, its plots run the pack before they
are granted blocks (R431, R564). -/
def domainUp (d : Dev) (dom : Nat) : Dev :=
  let run := fun (d : Dev) (i : Nat) => match d.fw.store with
    | some b => if (procOf d i).failed then d else d.runImage i b
    | none => d
  if dom < 16 then
    let d := run (d.modProc (16 + dom) fun p => { p with failed := false }) (16 + dom)
    oweAll (d.onChk fun c => { c with quadConv := kdel c.quadConv dom }) ((quadPlots dom).filter fun i => (logicalOf d.base i).isSome)
  else if dom = 21 ∨ dom = 22 then
    ((List.range 16).filter fun p => p % 2 = dom - 21).foldl (fun d p =>
      if mayTrain d p && (peerOf d p).isSome && (portOf d p).st == .down then d.modPort p fun q => { q with st := .training } else d) d
  else if dom = 23 ∨ dom = 24 then
    [0, 1, 2].foldl (fun d r => run (d.modProc (4 * (dom - 23) + r) fun p => { p with failed := false }) (4 * (dom - 23) + r)) d
  else d

/-- DOMAIN_CYCLE_END (R564): the domain is back up, what was held resumes, the request ends and the next cycle may begin. A cycle of
a spine or an Iaqua has the module rejoin (R391); one of those and of PD_HIF counts as a reset for the express bound (R567). -/
def execDomainCycleEnd (s : State) : Out :=
  onPlaneDev s fun d => match d.pwr.cycle with
    | none => d
    | some c =>
      let mem := decide (16 ≤ c.dom ∧ c.dom < 20) || decide (26 ≤ c.dom)
      let d := d.onPwr fun p => { p with
        cycle := none, on := p.on ||| BitVec.ofNat 30 (2 ^ c.dom)
        lastReset := if mem ∨ c.dom = 20 then some d.nowNs else p.lastReset }
      let d := domainUp d c.dom
      let d := if mem then d.onMs fun x => { x with rejoinDue := some false } else d
      startCycle ((d.raise evDomainCycled { n := c.dom }).endCycleReq c mbOk)

end Sys2Proof.Machine
end

