-- ==== Sys2Proof/Machine/Reset.lean ====
section
/-!
DEFINITION. Cold and link resets, loss of power, and the stages of start-up (15_clocks_power_reset R574 to R581; 16_module_hardware
R586, R588).
-/

namespace Sys2Proof.Machine

/-! ## What a reset keeps (R575, Table 15.5) -/

/-- A cartridge as a reset leaves it: its contents, map and wear stay; it enters service in stage 8. -/
def cartReset (c : Nat × Cart) : Nat × Cart := (c.1, { c.2 with st := .empty, opened := none })

/-- A cairn as a reset leaves it: one that was being written is past a reset (R398, Table 15.6). -/
def cairnReset (c : Cairn) : Cairn := if c.state = 0 then { c with pastReset := true, cow := [], cowBytes := 0, bits := [], sweep := none } else c

/-- Everything but memory and fuses after a cold reset: flash contents stay, and with them what the surroundings hold (presence, latches,
straps) and what has already left the module. -/
def coldDev (d : Dev) : Dev :=
  let r := Dev.reset
  { r with
    base := { r.base with out := d.base.out, fresh := d.base.fresh }
    tier := { r.tier with cold := d.tier.cold, carts := d.tier.carts.map cartReset }
    ms := { r.ms with cairns := d.ms.cairns.map cairnReset, out := d.ms.out }
    fab := { r.fab with straps := d.fab.straps, modid := d.fab.modid, out := d.fab.out }
    sec := { r.sec with draws := d.sec.draws, answers := d.sec.answers, dbgOut := d.sec.dbgOut }
    hw := { r.hw with present := d.hw.present, latch := d.hw.latch, answers := d.hw.answers }
    meshOut := d.meshOut }

/-- COLD_POWER_ON (R575, R580, R588): module power is applied; `straps` and `en` are what the carrier holds. -/
def execColdPowerOn (straps : BitVec 16) (en : Bool) (s : State) : Out :=
  onMod s fun m =>
    let d := coldDev m.dev
    { mem := [], dev := (d.onFab fun f => { f with straps := straps.toNat }).onPwr fun p => { p with en := en } }

/-- POWER_REMOVED (R579): nothing survives but flash contents and fuses. -/
def execPowerRemoved (s : State) : Out :=
  onMod s fun m => { mem := [], dev := (coldDev m.dev).onPwr fun p => { p with powered := false, en := false } }

/-- EN_MATE (R586). -/
def execEnMate (s : State) : Out := onDev s fun d => if d.pwr.powered then d.onPwr fun p => { p with en := true } else d

/-! ## Link reset (R574 to R578, Tables 15.5, 15.6) -/

/-- A pending version is discarded with its rows (Table 15.6). -/
def dropPending (m : Mod) (t : TDesc) : Mod :=
  let ext := kget t.extent m.dev.tab.pendExtent t.id
  let m := if !t.pendValid then m else
    let rows := m.dev.tier.slots.filter fun x => x.2.table = t.id && x.2.version = t.pendVersion
    let m := rows.foldl (fun m x => freeSlot m x.1) m
    let m := m.onDev fun d => d.onTier fun k => { k with
      cold := k.cold.filter fun x => !(x.2.slot.table = t.id && x.2.slot.version = t.pendVersion) }
    freePages m t.pendRowmap (t.mapBytes ext)
  m.putTd t.id { t with pendValid := false, switchPending := false, pinCur := 0, pinPrev := 0 }

/-- The hot tier as a reset with KEEP_HOT leaves it: no pending version, no row in the directory (R576, Table 15.6). -/
def keepHot (m : Mod) : Mod :=
  let m := m.dev.tab.dir.foldl (fun m e => setHotdir m e.2.table e.2.row false) m
  ((tableList m).filter fun t => t.pendValid || t.switchPending || t.pinCur ≠ 0 || t.pinPrev ≠ 0).foldl dropPending m

/-- The tiers after a link reset: record ledgers, extent tables and repairs stay, what was in progress ends, loans are gone. -/
def linkTier (t : TierState) (hot : Bool) : TierState :=
  let back := fun (s : UnitSt) => if s = .evacuating then .inService else if s = .returning then .fallowOff else s
  { TierState.reset with
    pages := t.pages.filter fun p => (hot || decide (524288 ≤ p.1)) && decide (bitsOf p.2.toNat 63 60 ≠ pkLentOut)
    slots := t.slots, cold := t.cold, carts := t.carts.map cartReset
    lostPc := t.lostPc, chanMap := t.chanMap, hpc := t.hpc
    softLost := if hot then t.softLost else [], softNew := if hot then t.softNew else []
    ddr := t.ddr.map fun c => (c.1, { c.2 with st := back c.2.st })
    capCh := t.capCh, backedCh := t.backedCh, startCh := t.startCh, extents := t.extents }

/-- Plots retired until cold reset (R429). -/
def linkHealth (h : KMap PlotHealth) : KMap PlotHealth :=
  (h.filter fun e => e.2.retired).map fun e => (e.1, { PlotHealth.reset with retired := true, unhealthy := true, convictions := e.2.convictions })

/-- Journals, staged gradients and group maps as a reset with KEEP_HOT leaves them: the entries of a pending version go with it (R367,
R576). -/
def linkSow (x : SowState) : SowState :=
  { SowState.reset with
    regions := x.regions.map fun g => (g.1, { g.2 with ents := g.2.ents.filter fun e => !e.pending || e.eff.isSome })
    app := x.app, done := x.done, grads := x.grads, pgCopy := x.pgCopy, pgBad := x.pgBad }

/-- The module after a link reset. -/
def linkReset (m0 : Mod) : Mod :=
  let hot := decide (cfgPwrRstCfgKeepHot m0.dev.base = 1)
  let m := if hot then keepHot m0 else m0
  let d := m.dev
  let c := coldDev d
  let b := d.base
  { mem := if hot then m.mem else m.mem.filter fun x => decide (0x100000000000 ≤ x.1)
    dev := { c with
      base := { c.base with
        now := b.now, applied := if hot then b.applied else 0, cleared := if hot then b.cleared else 0
        regs := b.regs.filter fun r => r.1 = 0x900018 }
      tier := linkTier d.tier hot
      chk := { c.chk with health := linkHealth d.chk.health }
      sow := if hot then linkSow d.sow else .reset
      ms := { c.ms with steps := if hot then d.ms.steps else [], rejoinDue := if hot then some true else none }
      sec := { c.sec with
        dbg := d.sec.dbg, scope := d.sec.scope, token := d.sec.token, seedLocked := d.sec.seedLocked, locks := d.sec.locks
        cert := d.sec.cert, meas := d.sec.meas.filter fun x => x.1 = 9 }
      pwr := { c.pwr with
        powered := d.pwr.powered, en := d.pwr.en, perst := d.pwr.perst, kind := 1, hotKept := hot
        keepRegs := if hot then keepValues b else [], afterTrip := d.pwr.trip, afterPfail := d.pwr.pfail
        temps := d.pwr.temps, stackTemps := d.pwr.stackTemps, pin := d.pwr.pin, vin := d.pwr.vin } } }

/-- Every junction is below THROTTLE − 10 °C and the input is at BROWNV or above (R574). -/
def coolEnough (d : Dev) : Bool :=
  ((List.range 9).all fun i => decide (kget 0 d.pwr.temps i + 10 < cfgPwrThermCfgThrottle d.base))
    && decide (cfgPwrVoltCfgBrownv d.base ≤ d.pwr.vin)

/-- The module acts on PERST# now: not in a trip or power fail that is not over (R574), not while debug is ERASING (R577). -/
def mayReset (d : Dev) : Bool := ((!d.pwr.trip && !d.pwr.pfail) || coolEnough d) && d.sec.dbg != 1

/-- A reset that is held is acted on once nothing holds it; the straps are sampled where PERST# is already deasserted (R588, R590). -/
def releaseReset (m : Mod) : Mod :=
  if !m.dev.pwr.holding || !mayReset m.dev then m
  else (linkReset m).onDev fun d => if d.pwr.perst then d else d.onFab fun f => { f with modid := f.straps }

/-- PERST_ASSERT (R574 to R577): a link reset, at once or held. Clock loss ends only by a cold reset (R562). -/
def execPerstAssert (s : State) : Out :=
  onMod s fun m =>
    if !m.dev.pwr.powered ∨ m.dev.pwr.clkLost ∨ m.dev.pwr.perst then m
    else releaseReset (m.onDev fun d => d.onPwr fun p => { p with perst := true, holding := true })

/-- PERST_DEASSERT (R588, R590): start-up may go on; the straps are sampled. -/
def execPerstDeassert (straps : BitVec 16) (s : State) : Out :=
  onDev s fun d =>
    if !d.pwr.powered ∨ !d.pwr.perst then d
    else
      let d := d.onPwr fun p => { p with perst := false }
      d.onFab fun f => { f with straps := straps.toNat, modid := if d.pwr.holding then f.modid else straps.toNat }

/-- RESET_HOLD_RELEASE (R574): the junctions and the input voltage are read while the module holds a reset. -/
def execResetHoldRelease (temps : List Nat) (vin : Nat) (s : State) : Out :=
  onMod s fun m =>
    if !m.dev.pwr.holding then m
    else releaseReset (m.onDev fun d => d.onPwr fun p => { p with
      temps := (temps.take 9).zipIdx.foldl (fun k x => kset 0 k x.2 x.1) p.temps, vin := vin })

/-- DEBUG_ERASE_COMPLETE (R555 to R557, R577): the scrub verifies and the port opens, or fails; a reset held for it is acted on. -/
def execDebugEraseComplete (ok : Bool) (s : State) : Out :=
  onMod s fun m => if m.dev.sec.dbg ≠ 1 then m else releaseReset (eraseDone m ok)

/-! ## Start-up (R580, R581, Table 15.7) -/

/-- Set domains on. -/
def Dev.domainsOn (d : Dev) (l : List Nat) : Dev :=
  d.onPwr fun p => { p with on := l.foldl (fun v i => v ||| BitVec.ofNat 30 (2 ^ i)) p.on }

/-- A domain that fails to come up: the fabric halves, the flash controller and the Iaquas are left out; any other keeps the module from
READY (R581). -/
def domainFailed (d : Dev) (dom : Nat) : Dev :=
  if dom = 21 ∨ dom = 22 ∨ dom = 25 ∨ 26 ≤ dom then d
  else (d.onPwr fun p => { p with startBad := true }).raise evDomainStartFailed { n := dom }

/-- Stage 4: the remaining domains but the Iaquas, the quadrant controllers, the keys (R522, R547). -/
def stageDomains (d : Dev) (failed : List Nat) : Dev :=
  let up := (List.range 26).filter fun i => !failed.contains i
  let d := failed.foldl domainFailed (d.domainsOn up)
  let d := match d.fw.store with
    | some b => (up.filter fun i => i < 16).foldl (fun (d : Dev) q => d.runImage (16 + q) b) d
    | none => d
  d.onSec fun x => { x with keys := !x.seedLocked }

/-- Stage 6: pseudo-channels that failed training are spared; a stack that failed keeps the module from READY (R267, R581). -/
def stageHbm (d : Dev) (pcs stks : List Nat) : Dev :=
  let d := pcs.foldl (fun d x => match stackSpare d.tier (x / 64) with
    | some sp => if (stackMap d.tier (x / 64)).contains (x % 64) then spareHpc d (x / 64) (x % 64) sp else d
    | none => d) d
  stks.foldl (fun d k => (d.onPwr fun p => { p with startBad := true }).raise evHbmStackFailed { n := k } (k / 3)) d

/-- Stage 7 after a cold reset: the channels that have a DIMM and trained come into service at the smallest capacity fitted (R4, R5,
R18, R272). -/
def coldDdr (d : Dev) (fitted : List (Nat × Nat)) (failed lostIaq : List Nat) : Dev :=
  let sizes := fitted.map (·.2)
  let cap := (minBy id sizes).getD 0
  let serves := fun (c : Nat) => (fitted.any fun f => f.1 = c) && !failed.contains c && !lostIaq.contains (c / 4)
  let d := fitted.foldl (fun d f => d.modDdr f.1 fun _ =>
    { Ddr.reset with cap := f.2, st := if serves f.1 then .inService else .fallowOff }) d
  let d := d.onTier fun t => (List.range 4).foldl (fun t q =>
    let on := (List.range 4).filter fun c => serves (4 * q + c)
    if on = [] then t else { t with startCh := kput t.startCh q on, backedCh := kput t.backedCh q on.length }) { t with capCh := cap }
  if sizes.any (· ≠ cap) then d.raise evDimmMismatch { n := cap } else d

/-- Stage 7 after a link reset: extent tables stand; a channel that failed is fallow, and a part found in a fallow slot is to be
returned (R575, Table 15.6). -/
def linkDdr (d : Dev) (fitted : List (Nat × Nat)) (failed lostIaq : List Nat) : Dev :=
  let d := fitted.foldl (fun d f =>
    if (ddrOf d.tier f.1).st = .inService ∨ (d.hw.found.any fun x => x.1 = f.1) then d
    else d.onHw fun h => { h with found := h.found ++ [(f.1, f.2, true)] }) d
  let d := failed.foldl (fun d c => d.modDdr c fun x => if x.st = .inService then { x with st := .fallowOff } else x) d
  d.onTier fun t => { t with backedCh := t.backedCh.filter fun e => !lostIaq.contains e.1 }

/-- Stage 7. -/
def stageDdr (d : Dev) (fitted : List (Nat × Nat)) (failed lostIaq : List Nat) : Dev :=
  let up := (List.range 4).filter fun q => !lostIaq.contains q
  let d := d.domainsOn (up.map (26 + ·))
  let d := if d.pwr.kind = 0 then coldDdr d fitted failed lostIaq else linkDdr d fitted failed lostIaq
  if d.sec.keys then d.onSec fun x => { x with warmKeys := up } else d

/-- Stage 8: cartridges of this module come into service; one that is no ZPX-FC15 is refused, and one of another module stays out (R6,
R7, R547, R548): `own` says that its identity block is of this module and of this LIFECYCLE. After a debug opening none does until cold reset (R557). -/
def stageFlash (d : Dev) (found : List (Nat × Nat × Bool × Bool)) : Dev :=
  if !bitOf d.pwr.on.toNat 25 || d.sec.dbg ≥ 2 then d
  else found.foldl (fun d x =>
    let (b, blocks, genuine, own) := x
    if !genuine then (d.modCart b fun c => { c with st := .refused }).raise evCartRefused { n := b } b
    else if !own then d.modCart b fun c => { c with st := .fallowOff }
    else
      let d := d.modCart b fun c => { c with st := .inService, blocks := blocks }
      if d.sec.keys then d.onSec fun k => { k with cartKeys := k.cartKeys ++ [b] } else d) d

/-- Stage 11: the tier engine starts, and a cairn left OPEN or VOID is reclaimed (R258, R400). -/
def stageEngine (m : Mod) : Mod :=
  let m := m.onDev fun d => d.onTier fun t => { t with started := true }
  let bad := m.dev.ms.cairns.filter fun c => c.state ≠ 1
  m.onDev fun d =>
    let d := (bad.filter fun c => c.state = 0).foldl (fun d c => d.raise evCairnAborted { hasS := true, s := c.step.toNat, c := 2 }) d
    d.onMs fun x => { x with cairns := x.cairns.filter fun c => c.state = 1 }

/-- Number of a stage in Table 15.7. -/
def stageNo : StartStage → Nat
  | .bootRom => 1 | .link _ _ => 2 | .firmware => 3 | .domains _ => 4 | .plots => 5 | .hbm _ _ => 6
  | .ddr _ _ _ => 7 | .flash _ => 8 | .journals => 9 | .fabric => 10 | .engine => 11

/-- A stage starts when Table 15.7 says. -/
def stageDue (d : Dev) (n : Nat) : Bool :=
  let done := fun (k : Nat) => d.pwr.stages.contains k
  let p := d.pwr
  match n with
  | 1 => p.en && (p.kind == 0 || !p.perst)
  | 2 => done 1 && !p.perst
  | 3 => d.fw.run
  | 4 => done 3
  | 5 => done 4
  | 6 => done 4
  | 7 => done 6
  | 8 => done 7
  | 9 => done 8 && p.hotKept
  | 10 => d.base.lockAll
  | _ => done 8 && d.base.lockAll && (done 9 || !p.hotKept)

/-- Every stage has completed (R580). -/
def stagesDone (d : Dev) : Bool :=
  [1, 2, 3, 4, 5, 6, 7, 8, 10, 11].all fun k => d.pwr.stages.contains k

/-- What a stage does. -/
def stageEffect (m : Mod) : StartStage → Mod
  | .bootRom => m.onDev fun d =>
    let d := d.domainsOn [23]
    if d.pwr.kind = 0 then d.onFab fun f => { f with modid := f.straps } else d
  | .link rate width => m.onDev fun d => (d.domainsOn [20]).onHif fun h => { h with rate := rate, width := width }
  | .domains failed => m.onDev fun d => stageDomains d (failed.map (·.val))
  | .hbm pcs stks => m.onDev fun d => stageHbm d (pcs.map (·.val)) (stks.map (·.val))
  | .ddr fitted failed iaquas => m.onDev fun d => stageDdr d (fitted.map fun x => (x.1.val, x.2)) (failed.map (·.val)) (iaquas.map (·.val))
  | .flash found => m.onDev fun d => stageFlash d (found.map fun x => (x.1.val, x.2))
  | .engine => stageEngine m
  | .firmware => m
  | .plots => m
  | .journals => m
  | .fabric => m

/-- STARTUP_STAGE_COMPLETE (R580, R581): a stage of Table 15.7 ends; READY is set when all have, unless a failure forbids it. -/
def execStartupStageComplete (stage : StartStage) (s : State) : Out :=
  onMod s fun m =>
    let n := stageNo stage
    if m.dev.stopped || m.dev.pwr.holding || m.dev.pwr.stages.contains n || !stageDue m.dev n then m
    else
      let m := (stageEffect m stage).onDev fun d => d.onPwr fun p => { p with stages := p.stages ++ [n] }
      if stagesDone m.dev && !m.dev.pwr.startBad then m.onDev fun d => d.onHif fun h => { h with ready := true } else m

end Sys2Proof.Machine
end

