-- ==== Sys2Proof/Machine/Hw.lean ====
section
/-!
DEFINITION. Coolant, slots and bays, the management bus, the debug port's pins (16_module_hardware R584, R587, R591 to R598; R318) and
the counter snapshots (17_register_event_reference R607).
-/

namespace Sys2Proof.Machine

/-! ## Coolant (R584) -/

/-- COOLANT_CHECK (R584): inlet and outlet in 0.1 °C at a management tick. N of the event is 1 when the condition begins, 0 when it
ends (log 46). -/
def execCoolantCheck (inlet outlet : Nat) (s : State) : Out :=
  onDev s fun d =>
    if !d.pwr.powered then d
    else
      let hot := if inlet + 200 < outlet then d.hw.coolHot + 1 else 0
      let warn := decide (inlet < 150) || decide (450 < inlet) || decide (10 ≤ hot)
      let was := d.hw.coolWarn
      let d := d.onHw fun h => { h with coolant := (inlet, outlet), coolHot := hot, coolWarn := warn }
      if warn = was then d else d.raise evCoolantWarn { n := b2n warn }

/-! ## Slots and bays (R318, R595 to R598, Table 16.12): units 0 to 15 are slots, 16 to 19 bays -/

/-- State of a slot or bay. -/
def slotSt (d : Dev) (u : Nat) : UnitSt := if u < 16 then (ddrOf d.tier u).st else (cartOf d.tier (u - 16)).st

/-- Give it a state. -/
def Dev.setSlot (d : Dev) (u : Nat) (st : UnitSt) : Dev :=
  if u < 16 then d.modDdr u fun c => { c with st := st } else d.modCart (u - 16) fun c => { c with st := st }

/-- Supply on (R595). -/
def slotLive (d : Dev) (u : Nat) : Bool :=
  slotSt d u == .inService || slotSt d u == .evacuating || slotSt d u == .returning

/-- A bay's latch is open. -/
def latchOpen (d : Dev) (u : Nat) : Bool := decide (16 ≤ u) && d.hw.latch.contains (u - 16)

/-- The module returns parts now: READY and in no protective action; after a debug opening no cartridge returns (R557, R598). -/
def mayReturn (d : Dev) (u : Nat) : Bool :=
  d.hif.ready && !d.stopped && (decide (u < 16) || d.sec.dbg == 0) && !latchOpen d u
    && (slotSt d u == .empty || slotSt d u == .fallowOff)

/-- Steps 2 and 3 of R318: the part is powered and its identity read; one that fails R6 or R277 is refused. -/
def beginReturn (d : Dev) (u : Nat) : Dev := match d.hw.found.find? fun x => x.1 = u with
  | none => d
  | some (_, size, genuine) =>
    if !mayReturn d u then d
    else
      let refuse := fun (ev : Nat × Nat) (n : Nat) =>
        ((d.setSlot u .refused).onHw fun h => { h with found := h.found.filter fun x => x.1 ≠ u }).raise ev { n := n }
      if u < 16 then (if size < d.tier.capCh then refuse evDimmRefused u else d.setSlot u .returning)
      else if !genuine then refuse evCartRefused (u - 16) else d.setSlot u .returning

/-- PRESENCE_CHANGE (R598): a part has been inserted; it is returned, or waits for READY or for its latch. `size`: GiB of a DIMM, erase
blocks of a cartridge. -/
def execPresenceChange (unit : Fin 20) (size : Nat) (genuine : Bool) (s : State) : Out :=
  onDev s fun d =>
    if !d.pwr.powered ∨ (kfind d.hw.present unit).isSome then d
    else beginReturn (d.onHw fun h => { h with
      present := kput h.present unit size, found := h.found ++ [(unit.val, size, genuine)] }) unit

/-- UNIT_RETURN (R318): training and initialisation end; the capacity is added. DIMMs of one Iaqua return in the order they were
detected (R598). -/
def execUnitReturn (unit : Fin 20) (s : State) : Out :=
  onPlaneDev s fun d0 =>
    let u := unit.val
    let d := beginReturn d0 u
    if slotSt d u ≠ .returning then d
    else match d.hw.found.find? fun x => if u < 16 then x.1 / 4 = u / 4 else x.1 = u with
      | none => d
      | some (v, size, _) =>
        if v ≠ u ∨ latchOpen d u then d
        else
          let d := d.onHw fun h => { h with found := h.found.filter fun x => x.1 ≠ u }
          if u < 16 then
            ((d.onTier fun t => addChannel { t with capCh := if t.capCh = 0 then size else t.capCh } u).modDdr u fun _ =>
              { Ddr.reset with st := .inService, cap := size }).raise evUnitReturned { n := u }
          else
            let b := u - 16
            let d := if d.sec.keys then d.onSec fun k => { k with cartKeys := (k.cartKeys.filter fun x => x ≠ b) ++ [b] } else d
            (d.modCart b fun _ => { Cart.reset with st := .inService, blocks := size }).raise evUnitReturned { n := b }

/-- PART_REMOVED (R598, Table 16.12): a part leaves a slot whose supply is off. -/
def execPartRemoved (unit : Fin 20) (s : State) : Out :=
  onDev s fun d =>
    if !d.pwr.powered || slotLive d unit then d
    else (d.setSlot unit .empty).onHw fun h => { h with
      present := kdel h.present unit, found := h.found.filter fun x => x.1 ≠ unit.val }

/-- SLOT_REMOVED_LIVE (R596): a part leaves a slot whose supply is on. -/
def execSlotRemovedLive (unit : Fin 20) (s : State) : Out :=
  onPlane s fun m =>
    let u := unit.val
    if !slotLive m.dev u then m
    else
      let was := slotSt m.dev u
      let m := m.onDev fun d => (d.onHw fun h => { h with
        present := kdel h.present u, found := h.found.filter fun x => x.1 ≠ u }).raise evSlotRemovedLive { n := u }
      if was = .returning then m.onDev fun d => d.setSlot u .empty
      else if u < 16 then (channelDead m u).onDev fun d => startEvac d 1 u none
      else loseCart m (u - 16)

/-- BAY_LATCH_OPEN (R597). -/
def execBayLatchOpen (bay : Fin 4) (s : State) : Out :=
  onDev s fun d =>
    if !d.pwr.powered ∨ d.hw.latch.contains bay.val then d
    else
      let d := d.onHw fun h => { h with latch := h.latch ++ [bay.val] }
      if (cartOf d.tier bay).st ≠ .inService ∨ d.stopped then d
      else (startEvac d 2 bay none).raise evCartLatchOpen { n := bay } bay

/-- BAY_LATCH_CLOSE (R597, R598): an evacuation that the latch began stops; a cartridge put in meanwhile is returned. -/
def execBayLatchClose (bay : Fin 4) (s : State) : Out :=
  onDev s fun d =>
    let d := d.onHw fun h => { h with latch := h.latch.filter fun x => x ≠ bay.val }
    let mine := fun (e : Evac) => decide (e.kind = 2 ∧ e.unit = bay.val ∧ e.tag = none)
    if d.tier.evacs.any mine then
      (d.onTier fun t => { t with evacs := t.evacs.filter fun e => !mine e }).modCart bay fun c => { c with st := .inService }
    else beginReturn d (16 + bay)

/-! ## The management bus (R591 to R594). PRESUMED: the command and completion codes of MCTP and PLDM (log 45) -/

/-- An answer goes out on the management bus: message type, bytes. -/
def Dev.mgmt (d : Dev) (type : Nat) (b : List Byte) : Dev := d.onHw fun h => { h with answers := h.answers ++ [(type, b)] }

/-- MCTP_CONTROL (R591, R592): answered from stage 1 on; Set Endpoint ID sets the endpoint id. -/
def execMctpControl (req : List Byte) (s : State) : Out :=
  onDev s fun d =>
    let cmd := fieldAt req 1 1
    if !d.pwr.stages.contains 1 then d
    else if cmd = 0 ∨ 5 < cmd then d.mgmt 0 (leBytes 1 (fieldAt req 0 1) ++ leBytes 1 cmd ++ [0x05#8])
    else
      let d := if cmd = 1 then d.onHw fun h => { h with eid := fieldAt req 3 1 } else d
      d.mgmt 0 (Config.spdmBytes d.hw.answers.length (req ++ leBytes 1 d.hw.eid))

/-- Power limit and locate effecters are written by commands of their own; of the other PLDM commands these are supported (Table 16.10):
type and command. -/
def pldmKnown (type cmd : Nat) : Bool :=
  (type == 0 && decide (1 ≤ cmd ∧ cmd ≤ 5)) || (type == 2 && [0x04, 0x0B, 0x11, 0x21, 0x31, 0x32, 0x39, 0x50, 0x51].contains cmd)

/-- The header of a PLDM answer with a completion code. -/
def pldmHead (req : List Byte) (code : Nat) : List Byte := leBytes 1 (fieldAt req 0 1 % 128) ++ (req.drop 1).take 2 ++ leBytes 1 code

/-- PLDM_REQUEST (R591, R592, R594): base commands are answered always, type 2 ones with ERROR_NOT_READY until loaded firmware runs, and
nothing while no scheduler core does. SetTID, SetEventReceiver and PollForPlatformEventMessage change state. -/
def execPldmRequest (req : List Byte) (s : State) : Out :=
  onDev s fun d =>
    let type := fieldAt req 1 1 % 64
    let cmd := fieldAt req 2 1
    if !d.pwr.stages.contains 1 || (d.fw.run && !schedUp d) then d
    else if type = 2 ∧ d.fw.run = false then d.mgmt 1 (pldmHead req 4)
    else if !pldmKnown type cmd then d.mgmt 1 (pldmHead req 5)
    else
      let polled := (d.hw.events.head?).map fun e => [e.sensor, e.state, e.value]
      let d' := if type = 0 ∧ cmd = 1 then d.onHw fun h => { h with tid := fieldAt req 3 1 }
        else if type = 2 ∧ cmd = 0x04 then d.onHw fun h => { h with receiver := some (fieldAt req 5 1) }
        else if type = 2 ∧ cmd = 0x0B ∧ d.hw.receiver = none then d.onHw fun h => { h with events := h.events.tail }
        else d
      d'.mgmt 1 (Config.spdmBytes d.hw.answers.length (req ++ Config.layout 0x100 ([d'.hw.tid] ++ polled.getD [])))

/-- POWER_LIMIT_EFFECTER (R593): effecter 200 sets the run-time limit as CAP_SET does. -/
def execPowerLimitEffecter (watts : BitVec 16) (s : State) : Out :=
  onDev s fun d =>
    if !d.pwr.stages.contains 1 || (d.fw.run && !schedUp d) then d
    else if !d.fw.run then d.mgmt 1 [0x04#8]
    else match setLimit d watts.toNat with
      | some d => d.mgmt 1 [0x00#8]
      | none => d.mgmt 1 [BitVec.ofNat 8 mbBadArg]

/-- LOCATE_EFFECTER (R593): the unit's indicator shows LOCATE for 60 s. -/
def execLocateEffecter (unit : Fin 20) (s : State) : Out :=
  onDev s fun d =>
    if !d.pwr.stages.contains 1 || (d.fw.run && !schedUp d) then d
    else if !d.fw.run then d.mgmt 1 [0x04#8]
    else (d.onHw fun h => { h with locate := kput h.locate unit (d.nowNs + 60000000000) }).mgmt 1 [0x00#8]

/-- LOCATE_EXPIRY (R593). -/
def execLocateExpiry (unit : Fin 20) (s : State) : Out := onDev s fun d => d.onHw fun h => { h with locate := kdel h.locate unit }

/-- Band of a reading: 2 from `crit` on, 1 from `warn` on. -/
def bandUp (warn crit v : Nat) : Nat := if crit ≤ v then 2 else if warn ≤ v then 1 else 0

/-- Number of a state in Table 16.12. -/
def slotStateNo : UnitSt → Nat
  | .empty => 0 | .inService => 1 | .evacuating => 2 | .fallowOff => 3 | .returning => 4 | .refused => 5

/-- State of a slot or bay as its sensor and indicator show it: LOCATE over any other (Table 16.12), LATCH_OPEN for a bay. -/
def shownState (d : Dev) (u : Nat) : Nat :=
  if (kfind d.hw.locate u).isSome then 6 else if latchOpen d u then 7 else slotStateNo (slotSt d u)

/-- State of the module: BOOT_ROM, LOADING, STARTING, READY, PROTECTIVE, DEBUG_OPENED (sensor 100). -/
def moduleState (d : Dev) : Nat :=
  if d.stopped then 4 else if d.sec.dbg = 2 then 5 else if d.hif.ready then 3 else if d.fw.run then 2
  else if d.fw.store.isSome then 1 else 0

/-- State or band of a sensor of Table 16.11 with a reading; none where there is no such sensor. -/
def sensorState (d : Dev) (id v : Nat) : Option Nat :=
  let brown := cfgPwrVoltCfgBrownv d.base
  if id = 0 ∨ 121 < id ∨ (51 < id ∧ id < 100) then none
  else if id = 1 then some (if v < brown ∨ 600 < v then 2 else if v < brown + 10 ∨ 580 < v then 1 else 0)
  else if id = 2 then some (bandUp 500 550 v)
  else if id = 3 then some (bandUp (powerLimit d + 1) 2450 v)
  else if id < 8 then some (bandUp (cfgPwrThermCfgThrottle d.base) 110 v)
  else if id = 8 then some (bandUp 100 110 v)
  else if id < 21 then some (bandUp 95 105 v)
  else if id < 25 then some (bandUp 100 110 v)
  else if id < 41 then some (bandUp 85 95 v)
  else if id < 45 then some (bandUp 70 80 v)
  else if id < 49 then some (bandUp 80 100 v)
  else if id < 51 then some (b2n d.hw.coolWarn)
  else if id = 51 then some 0
  else if id = 100 then some (moduleState d)
  else if id < 121 then some (shownState d (id - 101))
  else some (if d.pwr.clkLost then 3 else if d.pwr.trip then 1 else if d.pwr.pfail then 2 else 0)

/-- PLATFORM_EVENT_MESSAGE (R594): a sensor whose band or state differs from the one last reported is reported to the receiver, or
queued; a full queue drops its oldest event. -/
def execPlatformEventMessage (sensor : BitVec 8) (value : Nat) (s : State) : Out :=
  onDev s fun d =>
    let id := sensor.toNat
    match sensorState d id value with
    | none => d
    | some st =>
      if !d.fw.run || !schedUp d || kget 0 d.hw.bands id == st then d
      else
        let d := d.onHw fun h => { h with bands := kset 0 h.bands id st }
        let e : PlatEvent := ⟨id, st, value⟩
        if d.hw.receiver.isSome then (d.onHw fun h => { h with events := h.events ++ [e] }).mgmt 1 (Config.layout 0x0A [id, st, value])
        else match d.hw.events with
          | [] => d.onHw fun h => { h with events := [e] }
          | x :: l =>
            if l.length + 1 < 64 then d.onHw fun h => { h with events := h.events ++ [e] }
            else (d.onHw fun h => { h with events := l ++ [e] }).raise evPldmEventDrop { n := x.sensor }

/-- EVENT_RECEIVER_ACK (R594): the receiver acknowledges the oldest event sent to it. -/
def execEventReceiverAck (s : State) : Out :=
  onDev s fun d => if d.hw.receiver.isNone then d else d.onHw fun h => { h with events := h.events.tail }

/-- ALERT# is low (R594). -/
def alertLow (d : Dev) : Bool := d.hw.events != []

/-- PROTECT# is low: in any protective action (Table 16.8). -/
def protectLow (d : Dev) : Bool := d.pwr.trip || d.pwr.pfail || d.pwr.clkLost

/-- DEBUG_PORT_ACCESS (R587, Table 16.8): ignored unless the debug state is OPENED, and then it reaches the units of the token's SCOPE. -/
def execDebugPortAccess (scope : Fin 4) (word : Word64) (s : State) : Out :=
  onDev s fun d =>
    if d.sec.dbg ≠ 2 ∨ bitOf d.sec.scope scope = false then d
    else d.onSec fun x => { x with dbgOut := x.dbgOut ++ [(scope.val, word)] }

/-! ## Counter snapshots (R607) -/

/-- Instances of a counter (Table 17.6). -/
def instances (c : Nat) : Nat :=
  if c < 5 then 4356 else if c < 23 then 4352 else if c < 46 then 4 else if c < 50 then 8 else if c < 54 then 16
  else if c = 54 then 256 else 1

/-- A counter's instances, padded with zeros to a 64-byte boundary (R607). -/
def counterBytes (b : BaseState) (c : Nat) : List Byte :=
  padTo (alignUp 64 (4 * instances c)) ((List.range (instances c)).flatMap fun i => leBytes 4 (kget 0 b.cnt (8192 * c + i)).toNat)

/-- The header of a snapshot. -/
def snapHeader (b : BaseState) (tick : Nat) : List Byte :=
  padTo 64 (leBytes 8 tick ++ leBytes 8 b.now.toNat ++ leBytes 4 b.applied.toNat ++ leBytes 4 69 ++ leBytes 4 404672)

/-- EVT_SNAPSHOT (R603, R607): the end of a management tick; with EN, the counters go into one half of the area. -/
def execEvtSnapshot (s : State) : Out :=
  onPlane s fun m =>
    let i := m.dev.pwr.ticks + 1
    let m := m.onDev fun d => d.onPwr fun p => { p with ticks := i }
    let b := m.dev.base
    let area := cfgEvtSnapBaseBase b * 0x100000
    if !b.lockAll || decide (cfgEvtSnapBaseEn b = 0) || !inHotSoft b m.dev.tier area 0x100000 then m
    else m.store (area + i % 2 * 0x80000) (snapHeader b i ++ (List.range 69).flatMap (counterBytes b))

end Sys2Proof.Machine
end

