-- ==== Sys2Proof/Machine/Dispatch.lean ====
section
/-!
DEFINITION. The meaning of every command: one arm for each.
-/

namespace Sys2Proof.Machine

/-- The effect of a command on everything but the queue. -/
def exec (i : Instr) (s : State) : Host.Outcome State Fault Refusal :=
  match i with
  | .fstart plot thread rd rs1 rs2 => Sys2Proof.Machine.execFstart plot thread rd rs1 rs2 s
  | .fstop plot thread rd => Sys2Proof.Machine.execFstop plot thread rd s
  | .fready plot thread rs1 => Sys2Proof.Machine.execFready plot thread rs1 s
  | .fload plot thread rs1 rs2 => Sys2Proof.Machine.execFload plot thread rs1 rs2 s
  | .loadDone plot => Sys2Proof.Machine.execLoadDone plot s
  | .fwait plot thread rd rs1 => Sys2Proof.Machine.execFwait plot thread rd rs1 s
  | .ftok plot thread rd rs1 rs2 => Sys2Proof.Machine.execFtok plot thread rd rs1 rs2 s
  | .fstat plot thread rd rs1 => Sys2Proof.Machine.execFstat plot thread rd rs1 s
  | .fwork plot thread rd => Sys2Proof.Machine.execFwork plot thread rd s
  | .illegalInstruction plot thread word => Sys2Proof.Machine.execIllegalInstruction plot thread word s
  | .deviceLoad plot thread rd rs1 imm log2w signed short => Sys2Proof.Machine.execDeviceLoad plot thread rd rs1 imm log2w signed short s
  | .deviceStore plot thread rs1 rs2 imm log2w short => Sys2Proof.Machine.execDeviceStore plot thread rs1 rs2 imm log2w short s
  | .deviceAccessCompletion plot thread store => Sys2Proof.Machine.execDeviceAccessCompletion plot thread store s
  | .amoLrsc plot thread op dword rd rs1 rs2 => Sys2Proof.Machine.execAmoLrsc plot thread op dword rd rs1 rs2 s
  | .fenceInstruction plot thread => Sys2Proof.Machine.execFenceInstruction plot thread s
  | .threadStartWord plot thread target rs2 => Sys2Proof.Machine.execThreadStartWord plot thread target rs2 s
  | .furrowStoreWrite plot thread rs1 rs2 imm log2w short => Sys2Proof.Machine.execFurrowStoreWrite plot thread rs1 rs2 imm log2w short s
  | .furrowIssue plot replay stall => Sys2Proof.Machine.execFurrowIssue plot replay stall s
  | .idle plot => Sys2Proof.Machine.execIdle plot s
  | .move plot obs => Sys2Proof.Machine.execMove plot obs s
  | .gather plot obs fails => Sys2Proof.Machine.execGather plot obs fails s
  | .gatherRunAhead plot => Sys2Proof.Machine.execGatherRunAhead plot s
  | .streamRunAhead plot => Sys2Proof.Machine.execStreamRunAhead plot s
  | .pool plot obs => Sys2Proof.Machine.execPool plot obs s
  | .matmul plot obs => Sys2Proof.Machine.execMatmul plot obs s
  | .vchain plot obs => Sys2Proof.Machine.execVchain plot obs s
  | .reduce plot obs => Sys2Proof.Machine.execReduce plot obs s
  | .send plot obs => Sys2Proof.Machine.execSend plot obs s
  | .messageArrival src dest chan => Sys2Proof.Machine.execMessageArrival src dest chan s
  | .channelCreditReturn dest chan => Sys2Proof.Machine.execChannelCreditReturn dest chan s
  | .recv plot => Sys2Proof.Machine.execRecv plot s
  | .signal plot => Sys2Proof.Machine.execSignal plot s
  | .signalDelivery src dest => Sys2Proof.Machine.execSignalDelivery src dest s
  | .sow plot obs => Sys2Proof.Machine.execSow plot obs s
  | .fingerprint plot obs => Sys2Proof.Machine.execFingerprint plot obs s
  | .milestoneFurrow plot => Sys2Proof.Machine.execMilestoneFurrow plot s
  | .calSlot plot calib pass => Sys2Proof.Machine.execCalSlot plot calib pass s
  | .furrowComplete plot => Sys2Proof.Machine.execFurrowComplete plot s
  | .halfSwitchResume plot cycles => Sys2Proof.Machine.execHalfSwitchResume plot cycles s
  | .furrowFault plot ue => Sys2Proof.Machine.execFurrowFault plot ue s
  | .clkaDividerSwitch plot => Sys2Proof.Machine.execClkaDividerSwitch plot s
  | .workQueueGrant plot => Sys2Proof.Machine.execWorkQueueGrant plot s
  | .blockComplete plot => Sys2Proof.Machine.execBlockComplete plot s
  | .phaseJoin => Sys2Proof.Machine.execPhaseJoin s
  | .plotRemap plot => Sys2Proof.Machine.execPlotRemap plot s
  | .coalesceIndex step table row => Sys2Proof.Machine.execCoalesceIndex step table row s
  | .coalesceMerge coal => Sys2Proof.Machine.execCoalesceMerge coal s
  | .rowRead table row target whole training => Sys2Proof.Machine.execRowRead table row target whole training s
  | .versionFree table => Sys2Proof.Machine.execVersionFree table s
  | .tierTransactionTimeout table row => Sys2Proof.Machine.execTierTransactionTimeout table row s
  | .patrolScrub warm ce => Sys2Proof.Machine.execPatrolScrub warm ce s
  | .lentColdTagCheck cold loc => Sys2Proof.Machine.execLentColdTagCheck cold loc s
  | .hbmCorrection stack pc row => Sys2Proof.Machine.execHbmCorrection stack pc row s
  | .hbmUe da who => Sys2Proof.Machine.execHbmUe da who s
  | .softPpr unit row da => Sys2Proof.Machine.execSoftPpr unit row da s
  | .hbmPcSpare stack pc exhausted => Sys2Proof.Machine.execHbmPcSpare stack pc exhausted s
  | .hardPprTest stack pc pass => Sys2Proof.Machine.execHardPprTest stack pc pass s
  | .hbmDieReform stack pc exhausted pages => Sys2Proof.Machine.execHbmDieReform stack pc exhausted pages s
  | .hbmPcLost stack pc => Sys2Proof.Machine.execHbmPcLost stack pc s
  | .ddrCorrection channel row => Sys2Proof.Machine.execDdrCorrection channel row s
  | .ddrUe da who => Sys2Proof.Machine.execDdrUe da who s
  | .ddrChannelFallow channel dead => Sys2Proof.Machine.execDdrChannelFallow channel dead s
  | .extentMove iaqua extent dst => Sys2Proof.Machine.execExtentMove iaqua extent dst s
  | .flashWrite bay block closes => Sys2Proof.Machine.execFlashWrite bay block closes s
  | .wearLevel bay => Sys2Proof.Machine.execWearLevel bay s
  | .readDisturbRefresh bay eblock => Sys2Proof.Machine.execReadDisturbRefresh bay eblock s
  | .flashUe bay block uncorrectable retire => Sys2Proof.Machine.execFlashUe bay block uncorrectable retire s
  | .garbageCollection bay => Sys2Proof.Machine.execGarbageCollection bay s
  | .cartLost bay => Sys2Proof.Machine.execCartLost bay s
  | .loanRevokeReceived window deadline => Sys2Proof.Machine.execLoanRevokeReceived window deadline s
  | .loanAutoRevoke => Sys2Proof.Machine.execLoanAutoRevoke s
  | .lentLimitEnforce window => Sys2Proof.Machine.execLentLimitEnforce window s
  | .eviction pool => Sys2Proof.Machine.execEviction pool s
  | .warmCopyClean => Sys2Proof.Machine.execWarmCopyClean s
  | .tierMove table row => Sys2Proof.Machine.execTierMove table row s
  | .moveSwitch table row => Sys2Proof.Machine.execMoveSwitch table row s
  | .moveFail table row late write => Sys2Proof.Machine.execMoveFail table row late write s
  | .tierRebuild => Sys2Proof.Machine.execTierRebuild s
  | .marginSample pin left right => Sys2Proof.Machine.execMarginSample pin left right s
  | .delayAdjust pin unit => Sys2Proof.Machine.execDelayAdjust pin unit s
  | .memMarginLow pin unit => Sys2Proof.Machine.execMemMarginLow pin unit s
  | .evacuationComplete unit => Sys2Proof.Machine.execEvacuationComplete unit s
  | .unitReturn unit => Sys2Proof.Machine.execUnitReturn unit s
  | .gradientStageClose step => Sys2Proof.Machine.execGradientStageClose step s
  | .milestoneApplicationStart step => Sys2Proof.Machine.execMilestoneApplicationStart step s
  | .hotUpdateApply die rows torn => Sys2Proof.Machine.execHotUpdateApply die rows torn s
  | .iaquaUpdateApply iaqua rows torn => Sys2Proof.Machine.execIaquaUpdateApply iaqua rows torn s
  | .writerRecovery engine afterLinkReset => Sys2Proof.Machine.execWriterRecovery engine afterLinkReset s
  | .readySend => Sys2Proof.Machine.execReadySend s
  | .readyReceive token => Sys2Proof.Machine.execReadyReceive token s
  | .readytmoExpiry => Sys2Proof.Machine.execReadytmoExpiry s
  | .queryTimeout => Sys2Proof.Machine.execQueryTimeout s
  | .statusReceive token => Sys2Proof.Machine.execStatusReceive token s
  | .queryReceive token => Sys2Proof.Machine.execQueryReceive token s
  | .committmoExpiry => Sys2Proof.Machine.execCommittmoExpiry s
  | .holdResend => Sys2Proof.Machine.execHoldResend s
  | .holdReceive token => Sys2Proof.Machine.execHoldReceive token s
  | .digestRevoteSend => Sys2Proof.Machine.execDigestRevoteSend s
  | .commitReceive token => Sys2Proof.Machine.execCommitReceive token s
  | .abortReceive token => Sys2Proof.Machine.execAbortReceive token s
  | .rollbackReceive token => Sys2Proof.Machine.execRollbackReceive token s
  | .stepRerun => Sys2Proof.Machine.execStepRerun s
  | .phaseTokenReceive token => Sys2Proof.Machine.execPhaseTokenReceive token s
  | .decidePoll => Sys2Proof.Machine.execDecidePoll s
  | .hostLeaderTimeout => Sys2Proof.Machine.execHostLeaderTimeout s
  | .gateTimeout => Sys2Proof.Machine.execGateTimeout s
  | .moduleRejoin => Sys2Proof.Machine.execModuleRejoin s
  | .cairnSweep step rows => Sys2Proof.Machine.execCairnSweep step rows s
  | .denseCowCopy step => Sys2Proof.Machine.execDenseCowCopy step s
  | .cairnVoid step => Sys2Proof.Machine.execCairnVoid step s
  | .cairnSeal step mirror => Sys2Proof.Machine.execCairnSeal step mirror s
  | .replayStreamReceive plot sampled fid index icrcOk fp => Sys2Proof.Machine.execReplayStreamReceive plot sampled fid index icrcOk fp s
  | .replayCompare sampled fid index third => Sys2Proof.Machine.execReplayCompare sampled fid index third s
  | .voteSettle sampled fid index => Sys2Proof.Machine.execVoteSettle sampled fid index s
  | .expressSampleForward sampled fid index tag replay => Sys2Proof.Machine.execExpressSampleForward sampled fid index tag replay s
  | .packRun plot fails => Sys2Proof.Machine.execPackRun plot fails s
  | .updateCheck table row step checker third => Sys2Proof.Machine.execUpdateCheck table row step checker third s
  | .packOverdue plot => Sys2Proof.Machine.execPackOverdue plot s
  | .enginePackRun engine fails => Sys2Proof.Machine.execEnginePackRun engine fails s
  | .fallowHourlyPack plot fails => Sys2Proof.Machine.execFallowHourlyPack plot fails s
  | .quadrantCycle quad => Sys2Proof.Machine.execQuadrantCycle quad s
  | .bar0BadAccess off size => Sys2Proof.Machine.execBar0BadAccess off size s
  | .registerWrite off wide value => Sys2Proof.Machine.execRegisterWrite off wide value s
  | .bar2Read off n => Sys2Proof.Machine.execBar2Read off n s
  | .bar2Write off data => Sys2Proof.Machine.execBar2Write off data s
  | .hifSetupDone value => Sys2Proof.Machine.execHifSetupDone value s
  | .kickSq g rings tails => Sys2Proof.Machine.execKickSq g rings tails s
  | .sqPoll ring tail => Sys2Proof.Machine.execSqPoll ring tail s
  | .descriptorFetch ring entry => Sys2Proof.Machine.execDescriptorFetch ring entry s
  | .descriptorRunAhead ring number entry => Sys2Proof.Machine.execDescriptorRunAhead ring number entry s
  | .seqMismatchRecheck ring entry => Sys2Proof.Machine.execSeqMismatchRecheck ring entry s
  | .kickRestart ring pos => Sys2Proof.Machine.execKickRestart ring pos s
  | .expressLookup desc idx bags weights fails => Sys2Proof.Machine.execExpressLookup desc idx bags weights fails s
  | .stepRun desc => Sys2Proof.Machine.execStepRun desc s
  | .stepInputRead step ok plan => Sys2Proof.Machine.execStepInputRead step ok plan s
  | .tableCreate desc image => Sys2Proof.Machine.execTableCreate desc image s
  | .tableImport desc recs => Sys2Proof.Machine.execTableImport desc recs s
  | .shardExport desc => Sys2Proof.Machine.execShardExport desc s
  | .versionSwitch desc => Sys2Proof.Machine.execVersionSwitch desc s
  | .cairnWrite desc dlist => Sys2Proof.Machine.execCairnWrite desc dlist s
  | .cairnRestoreJob desc served => Sys2Proof.Machine.execCairnRestoreJob desc served s
  | .cairnRestoreRows desc => Sys2Proof.Machine.execCairnRestoreRows desc s
  | .copy desc host => Sys2Proof.Machine.execCopy desc host s
  | .fence desc => Sys2Proof.Machine.execFence desc s
  | .evacuate desc => Sys2Proof.Machine.execEvacuate desc s
  | .eventRingSet desc => Sys2Proof.Machine.execEventRingSet desc s
  | .completionPost slow => Sys2Proof.Machine.execCompletionPost slow s
  | .cqCoalesceTimer cq => Sys2Proof.Machine.execCqCoalesceTimer cq s
  | .hostReadFailure read addr => Sys2Proof.Machine.execHostReadFailure read addr s
  | .eventRecordPost => Sys2Proof.Machine.execEventRecordPost s
  | .sc1ShareCheck spine shortfall => Sys2Proof.Machine.execSc1ShareCheck spine shortfall s
  | .functionLevelReset => Sys2Proof.Machine.execFunctionLevelReset s
  | .frameReceive port bytes fec => Sys2Proof.Machine.execFrameReceive port bytes fec s
  | .frameReplay port acked => Sys2Proof.Machine.execFrameReplay port acked s
  | .linkCredit port cls dl n => Sys2Proof.Machine.execLinkCredit port cls dl n s
  | .identFrame port lanes peer pport => Sys2Proof.Machine.execIdentFrame port lanes peer pport s
  | .portTrainRetry port waitOver => Sys2Proof.Machine.execPortTrainRetry port waitOver s
  | .portDown port => Sys2Proof.Machine.execPortDown port s
  | .transitForward => Sys2Proof.Machine.execTransitForward s
  | .e2eMessageReceive => Sys2Proof.Machine.execE2eMessageReceive s
  | .e2eAck cls => Sys2Proof.Machine.execE2eAck cls s
  | .e2eRetransmit dst cls => Sys2Proof.Machine.execE2eRetransmit dst cls s
  | .destinationUnreachable dst => Sys2Proof.Machine.execDestinationUnreachable dst s
  | .remoteRead err => Sys2Proof.Machine.execRemoteRead err s
  | .readRsp => Sys2Proof.Machine.execReadRsp s
  | .remoteWrite err => Sys2Proof.Machine.execRemoteWrite err s
  | .writeAck => Sys2Proof.Machine.execWriteAck s
  | .lendReq => Sys2Proof.Machine.execLendReq s
  | .lendGrant => Sys2Proof.Machine.execLendGrant s
  | .lendRefuse => Sys2Proof.Machine.execLendRefuse s
  | .renew => Sys2Proof.Machine.execRenew s
  | .renewTimer window => Sys2Proof.Machine.execRenewTimer window s
  | .loanIdleReclaim loan => Sys2Proof.Machine.execLoanIdleReclaim loan s
  | .revoke => Sys2Proof.Machine.execRevoke s
  | .revokeDeadline lender n => Sys2Proof.Machine.execRevokeDeadline lender n s
  | .returnLoan => Sys2Proof.Machine.execReturnLoan s
  | .collChunk source => Sys2Proof.Machine.execCollChunk source s
  | .collEnd => Sys2Proof.Machine.execCollEnd s
  | .collCredit => Sys2Proof.Machine.execCollCredit s
  | .tokenFrame => Sys2Proof.Machine.execTokenFrame s
  | .laneCalibration port lane margin adjust => Sys2Proof.Machine.execLaneCalibration port lane margin adjust s
  | .laneDegrade port lane lost => Sys2Proof.Machine.execLaneDegrade port lane lost s
  | .laneRestore port lane margin => Sys2Proof.Machine.execLaneRestore port lane margin s
  | .laneCountChange port => Sys2Proof.Machine.execLaneCountChange port s
  | .mailboxKick reqTail rspHead => Sys2Proof.Machine.execMailboxKick reqTail rspHead s
  | .mailboxRequest msg => Sys2Proof.Machine.execMailboxRequest msg s
  | .fwLoad => Sys2Proof.Machine.execFwLoad s
  | .fwLoadComplete failed => Sys2Proof.Machine.execFwLoadComplete failed s
  | .fwUpdate => Sys2Proof.Machine.execFwUpdate s
  | .fwUpdateComplete => Sys2Proof.Machine.execFwUpdateComplete s
  | .fwStatus => Sys2Proof.Machine.execFwStatus s
  | .procRestart => Sys2Proof.Machine.execProcRestart s
  | .watchdogExpiry proc => Sys2Proof.Machine.execWatchdogExpiry proc s
  | .tokenPathNogo token => Sys2Proof.Machine.execTokenPathNogo token s
  | .logSet => Sys2Proof.Machine.execLogSet s
  | .logEntryWrite proc level code args => Sys2Proof.Machine.execLogEntryWrite proc level code args s
  | .trcHeadWrite value => Sys2Proof.Machine.execTrcHeadWrite value s
  | .packLoad broken => Sys2Proof.Machine.execPackLoad broken s
  | .loanRequest => Sys2Proof.Machine.execLoanRequest s
  | .loanReturn => Sys2Proof.Machine.execLoanReturn s
  | .loanRevoke => Sys2Proof.Machine.execLoanRevoke s
  | .debugChallenge => Sys2Proof.Machine.execDebugChallenge s
  | .debugUnlock => Sys2Proof.Machine.execDebugUnlock s
  | .debugEraseComplete ok => Sys2Proof.Machine.execDebugEraseComplete ok s
  | .secverCommit => Sys2Proof.Machine.execSecverCommit s
  | .lifecycleAdvance => Sys2Proof.Machine.execLifecycleAdvance s
  | .keyRevoke => Sys2Proof.Machine.execKeyRevoke s
  | .certSet => Sys2Proof.Machine.execCertSet s
  | .measGet => Sys2Proof.Machine.execMeasGet s
  | .spdmRequest mctp session req => Sys2Proof.Machine.execSpdmRequest mctp session req s
  | .slhSignatureRequest mctp => Sys2Proof.Machine.execSlhSignatureRequest mctp s
  | .secLockDbgdis => Sys2Proof.Machine.execSecLockDbgdis s
  | .secLockCertdis => Sys2Proof.Machine.execSecLockCertdis s
  | .secLockFusedis => Sys2Proof.Machine.execSecLockFusedis s
  | .clockLost => Sys2Proof.Machine.execClockLost s
  | .domainCycle => Sys2Proof.Machine.execDomainCycle s
  | .powerCapTick mw vin => Sys2Proof.Machine.execPowerCapTick mw vin s
  | .capSet => Sys2Proof.Machine.execCapSet s
  | .pwrStatus => Sys2Proof.Machine.execPwrStatus s
  | .fastPowerLimit => Sys2Proof.Machine.execFastPowerLimit s
  | .thermalThrottleTick temps => Sys2Proof.Machine.execThermalThrottleTick temps s
  | .hbmStackHot stack temp => Sys2Proof.Machine.execHbmStackHot stack temp s
  | .brownoutEnter vin => Sys2Proof.Machine.execBrownoutEnter vin s
  | .brownoutExit vin => Sys2Proof.Machine.execBrownoutExit vin s
  | .thermalTrip stack source temp => Sys2Proof.Machine.execThermalTrip stack source temp s
  | .powerFail vin => Sys2Proof.Machine.execPowerFail vin s
  | .perstAssert => Sys2Proof.Machine.execPerstAssert s
  | .perstDeassert straps => Sys2Proof.Machine.execPerstDeassert straps s
  | .coldPowerOn straps en => Sys2Proof.Machine.execColdPowerOn straps en s
  | .powerRemoved => Sys2Proof.Machine.execPowerRemoved s
  | .enMate => Sys2Proof.Machine.execEnMate s
  | .startupStageComplete stage => Sys2Proof.Machine.execStartupStageComplete stage s
  | .coolantCheck inlet outlet => Sys2Proof.Machine.execCoolantCheck inlet outlet s
  | .presenceChange unit size genuine => Sys2Proof.Machine.execPresenceChange unit size genuine s
  | .slotRemovedLive unit => Sys2Proof.Machine.execSlotRemovedLive unit s
  | .bayLatchOpen bay => Sys2Proof.Machine.execBayLatchOpen bay s
  | .bayLatchClose bay => Sys2Proof.Machine.execBayLatchClose bay s
  | .pldmRequest req => Sys2Proof.Machine.execPldmRequest req s
  | .mctpControl req => Sys2Proof.Machine.execMctpControl req s
  | .powerLimitEffecter watts => Sys2Proof.Machine.execPowerLimitEffecter watts s
  | .locateEffecter unit => Sys2Proof.Machine.execLocateEffecter unit s
  | .locateExpiry unit => Sys2Proof.Machine.execLocateExpiry unit s
  | .platformEventMessage sensor value => Sys2Proof.Machine.execPlatformEventMessage sensor value s
  | .eventReceiverAck => Sys2Proof.Machine.execEventReceiverAck s
  | .evtSnapshot => Sys2Proof.Machine.execEvtSnapshot s
  | .partRemoved unit => Sys2Proof.Machine.execPartRemoved unit s
  | .domainCycleEnd => Sys2Proof.Machine.execDomainCycleEnd s
  | .processorRestartDone proc => Sys2Proof.Machine.execProcessorRestartDone proc s
  | .resetHoldRelease temps vin => Sys2Proof.Machine.execResetHoldRelease temps vin s
  | .cqHeadReread which value => Sys2Proof.Machine.execCqHeadReread which value s
  | .debugPortAccess scope word => Sys2Proof.Machine.execDebugPortAccess scope word s

end Sys2Proof.Machine
end

