-- ==== Sys2Proof/Machine/Step.lean ====
section
/-!
DEFINITION. One step: the command at the front of the queue takes effect; with no command waiting, time passes.
-/

namespace Sys2Proof.Machine

/-- With no command waiting, one nanosecond passes (DESIGN CHOICE, log 1). -/
def idle (s : State) : State :=
  { s with mod := { s.mod with dev := { s.mod.dev with base := { s.mod.dev.base with now := s.mod.dev.base.now + 1 } } } }

/-- One step. -/
def step (s : State) : Host.Outcome State Fault Refusal :=
  match s.pending with
  | [] => .next (idle s)
  | c :: rest => exec c { s with pending := rest }

/-- The state with the command that a table word spells put at the front of its queue; the table gives no row any bits,
so no word spells one. -/
def State.withFetchWord (s : State) (nbits w : Nat) : State :=
  match Sys2Proof.decodeTableWord nbits w with
  | some c => { s with pending := c :: s.pending }
  | none => s

end Sys2Proof.Machine
end

