-- ==== Sys2Proof/Safety.lean ====
section
/-!
DEFINITION. What the statements about whole runs speak of: a step that answers, fuses that only blow, memory in its
canonical form.
-/

namespace Sys2Proof.Machine

/-- A thread of a plot can issue an instruction: the module is not in a protective action, the thread has been started and is not
parked (R40, R41, R573). -/
def State.threadRuns (s : State) (plot thread : Nat) : Bool :=
  !s.mod.dev.stopped && canIssue (threadOf (s.mod.dev.plot plot) thread)

/-- A thread of a plot. -/
def State.thread (s : State) (plot thread : Nat) : Thread := threadOf (s.mod.dev.plot plot) thread

/-- `t` is `s` but for one plot and for what the shared state keeps of events and counters: the frame of a control core's
instruction. -/
def State.onlyPlot (s t : State) (plot : Nat) : Prop :=
  t.pending = s.pending ∧ t.fuses = s.fuses ∧ t.mod.mem = s.mod.mem ∧ (∀ j, j ≠ plot → t.mod.dev.plot j = s.mod.dev.plot j) ∧
    t.mod.dev = { s.mod.dev with
      plots := t.mod.dev.plots
      base := { s.mod.dev.base with fresh := t.mod.dev.base.fresh, evt := t.mod.dev.base.evt, cnt := t.mod.dev.base.cnt
                                    tot := t.mod.dev.base.tot } }

/-- What a unit's execution that ran without a fault leaves: the memory, SRAM and registers of its result `r`, and the unit's queue
one shorter (R52). -/
def State.ranAs (s s' : State) (plot : Nat) (u : UnitK) (r : Ran) : Prop :=
  s'.pending = s.pending ∧ s'.fuses = s.fuses ∧ s'.mod.mem = r.m.mem ∧
    unitQ (s'.mod.dev.plot plot) u = (unitQ (r.m.dev.plot plot) u).drop 1 ∧
    (s'.mod.dev.plot plot).sram = (r.m.dev.plot plot).sram ∧ (s'.mod.dev.plot plot).tiles = (r.m.dev.plot plot).tiles ∧
    (s'.mod.dev.plot plot).vregs = (r.m.dev.plot plot).vregs ∧ (s'.mod.dev.plot plot).acc = (r.m.dev.plot plot).acc

/-- Execution `e` of an opcode is at the head of a unit's queue, in a module that runs. -/
abbrev State.atHead (s : State) (plot : Nat) (u : UnitK) (op : Opc) (e : Exec) : Prop :=
  s.mod.dev.stopped = false ∧ (unitQ (s.mod.dev.plot plot) u).head? = some e ∧ Opc.ofCode (recOpc e.record) = some op

/-- The parts of the module a frame speaks of. -/
inductive Part where
  /-- Device memory. -/
  | mem
  /-- The plots. -/
  | plots
  /-- The work queue. -/
  | work
  /-- The tiers. -/
  | tier
  /-- Tables and gathers. -/
  | tab
  /-- Checking and repair. -/
  | chk
  /-- Gradient stages, journals, updates. -/
  | sow
  /-- Steps, tokens, cairns. -/
  | ms
  /-- The host interface. -/
  | hif
  /-- The fabric. -/
  | fab
  /-- Firmware processors, mailbox, log. -/
  | fw
  /-- The security core. -/
  | sec
  /-- Clocks, power, resets. -/
  | pwr
  /-- Sideband signals and the management bus. -/
  | hw
  /-- Messages that have left the plots for spine cores and collectives. -/
  | meshOut
  /-- The shared state, but for events, counters and the model's counter of free values. -/
  | base
  /-- Events, counters and the model's counter of free values. -/
  | events
  deriving DecidableEq, Repr

/-- A part is the same in two states. -/
def Part.same (s t : State) : Part → Prop
  | .mem => t.mod.mem = s.mod.mem
  | .plots => t.mod.dev.plots = s.mod.dev.plots
  | .work => t.mod.dev.work = s.mod.dev.work
  | .tier => t.mod.dev.tier = s.mod.dev.tier
  | .tab => t.mod.dev.tab = s.mod.dev.tab
  | .chk => t.mod.dev.chk = s.mod.dev.chk
  | .sow => t.mod.dev.sow = s.mod.dev.sow
  | .ms => t.mod.dev.ms = s.mod.dev.ms
  | .hif => t.mod.dev.hif = s.mod.dev.hif
  | .fab => t.mod.dev.fab = s.mod.dev.fab
  | .fw => t.mod.dev.fw = s.mod.dev.fw
  | .sec => t.mod.dev.sec = s.mod.dev.sec
  | .pwr => t.mod.dev.pwr = s.mod.dev.pwr
  | .hw => t.mod.dev.hw = s.mod.dev.hw
  | .meshOut => t.mod.dev.meshOut = s.mod.dev.meshOut
  | .base => t.mod.dev.base = { s.mod.dev.base with
      evt := t.mod.dev.base.evt, cnt := t.mod.dev.base.cnt, tot := t.mod.dev.base.tot, fresh := t.mod.dev.base.fresh }
  | .events => t.mod.dev.base.evt = s.mod.dev.base.evt ∧ t.mod.dev.base.cnt = s.mod.dev.base.cnt ∧
      t.mod.dev.base.tot = s.mod.dev.base.tot ∧ t.mod.dev.base.fresh = s.mod.dev.base.fresh

/-- `t` differs from `s` at most in the parts named: the queue and the fuses are as they were, and so is every part not named. -/
def State.changesOnly (s t : State) (ps : List Part) : Prop :=
  t.pending = s.pending ∧ t.fuses = s.fuses ∧ ∀ p, p ∉ ps → p.same s t

/-- The scheduler core runs in a module that is in no protective action (R527, R573). -/
def State.schedules (s : State) : Bool := !s.mod.dev.stopped && schedUp s.mod.dev

/-- The module takes 64 bytes as a token of a type: the scheduler core runs and R378 does not discard them. -/
def State.takes (s : State) (token : BitVec 512) (type : Nat) : Bool :=
  let b := leBytes 64 token.toNat
  s.schedules && !s.mod.dev.fw.lost.contains 2 && !discards s.mod.dev b && (parseToken b).type == type

/-- The token that 64 bytes spell. -/
def tokenOf (token : BitVec 512) : Token := parseToken (leBytes 64 token.toNat)

/-- `t` goes to the modules `dst`, in that order, and nothing else is sent. -/
def State.sends (s s' : State) (dst : List Nat) (t : Token) : Prop :=
  s'.mod.dev.ms.out = s.mod.dev.ms.out ++ dst.map fun i => (i, t)

/-- Descriptor `x` of a kind may begin, and the module does its work now (R475, R477, R565). -/
abbrev State.descReady (s : State) (desc kind : Nat) (x : Desc) : Prop :=
  s.mod.dev.stopped = false ∧ descOf s.mod.dev desc = some x ∧ x.kind = kind ∧ descMayBegin s.mod.dev x = true ∧
    mayRun s.mod.dev kind = true

/-- The module once a descriptor has begun. -/
def State.begun (s : State) (desc : Nat) : Mod := s.mod.onDev fun d => d.begin desc

/-- One completion has become due, of a descriptor with a status and its result words (Tables 11.12, 11.13). -/
def State.endsDesc (s s' : State) (desc status : Nat) (words : List Nat) : Prop :=
  s'.mod.dev.base.ended = s.mod.dev.base.ended ++ [⟨desc, status, words⟩]

/-- A descriptor ends at once: nothing but its completion and what it waited for has changed. -/
def State.onlyEnds (s s' : State) (desc status : Nat) (words : List Nat) : Prop :=
  s.changesOnly s' [.hif, .base, .fab] ∧ s.endsDesc s' desc status words

/-- The mailbox operation of an opcode takes request `r` now (R535). -/
abbrev State.takesReq (s : State) (op : Nat) (r : MbxReq) : Prop := schedUp s.mod.dev = true ∧ nextReq s.mod.dev op = some r

/-- The same for an operation of a role that is served (R529). -/
abbrev State.roleTakes (s : State) (role op : Nat) (r : MbxReq) : Prop := s.takesReq op r ∧ roleUp s.mod.dev role = true

/-- Request `r` ends and nothing else changes: one response with FINAL (R535). -/
def State.onlyAnswers (s s' : State) (r : MbxReq) (status : Nat) (payload : List Byte) : Prop :=
  s.changesOnly s' [.fw, .base] ∧ s'.mod.dev = s.mod.dev.endReq r status payload

/-- The module is in no protective action, and no access to a neighbour window waits to be carried. -/
def State.quietFabric (s : State) : Bool :=
  !s.mod.dev.stopped && s.mod.dev.fab.winOut.isEmpty && s.mod.dev.fab.wants.isEmpty

/-- Every bit blown in `a` is blown in `b`. -/
def blownIn {w : Nat} (a b : BitVec w) : Bool := a &&& b == a

/-- Every fuse blown in `a` is blown in `b` (R540): fuses are blown and never restored. -/
def Fuses.keptIn (a b : Fuses) : Bool :=
  blownIn a.devid b.devid && blownIn a.seed b.seed && blownIn a.lifecycle b.lifecycle && blownIn a.fwKey b.fwKey
    && blownIn a.fwRevoke b.fwRevoke && blownIn a.dbgKey b.dbgKey && blownIn a.dbgRevoke b.dbgRevoke
    && blownIn a.secverFw b.secverFw && blownIn a.secverPack b.secverPack

/-- Blown from bit 0 up, with no gap (Table 14.1). -/
def thermo {w : Nat} (v : BitVec w) : Bool := v &&& (v + 1) == 0

/-- The fuses are as a module may have them: LIFECYCLE in one of the four states of Table 14.1, the security versions thermometers, and
some firmware key slot not revoked (R540, R554). -/
def Fuses.legal (f : Fuses) : Bool :=
  (f.lifecycle == 1 || f.lifecycle == 3 || f.lifecycle == 7 || f.lifecycle == 15) && thermo f.secverFw && thermo f.secverPack
    && f.fwRevoke != 15

/-- The module total of a counter, modulo 2^32, is the sum of its instance values (R604, R608). -/
def BaseState.addsUp (b : BaseState) (c : Nat) : Prop :=
  (kget 0 b.tot c).setWidth 32 = ((b.cnt.filter fun e => decide (e.1 / 8192 = c)).map (·.2)).foldl (· + ·) 0

/-- Device memory is in its canonical form: addresses rising, no byte listed that is zero. -/
def Memory.wf (m : Memory) : Bool := kwf 0 m

end Sys2Proof.Machine
end

