-- ==== Sys2Proof/Certificates/Slice0/Obligations.lean ====
section
/-!
DEFINITION. The statements for the provers.
-/

open Sys2Proof Sys2Proof.Machine

/-- A step takes the command at the front of the queue and runs it with the rest of the queue.
Rests in part on the model's own choices: log 1. -/
def Obligations.StepTakesFront : Prop :=
  ∀ (s : State) (c : Instr) (rest : List Instr), s.pending = c :: rest → step s = exec c { s with pending := rest }

/-- FTOK, FREADY, FSTART, FSTOP and FSTAT (Table 2.3, R56, R67 to R69, R140): what each leaves in the token counter, the
half, the sequencer and rd, the pc four bytes on, and nothing changed outside the plot.
Rests in part on the model's own choices: log 5, 47. -/
def Obligations.FurrowIssueInstructions : Prop :=
  ∀ (s : State) (plot : Fin 4352) (t : Fin 8) (rd rs1 rs2 : Fin 32), s.threadRuns plot t = true →
    let p := s.mod.dev.plot plot
    let h := s.thread plot t
    let c := xReg h rs1 % 16
    let sum := (tokOf p c : Int) + sext 64 (xReg h rs2)
    (0 ≤ sum ∧ sum < 2 ^ 32 →
      ∃ s', exec (.ftok plot t rd rs1 rs2) s = .next s' ∧ (tokOf (s'.mod.dev.plot plot) c : Int) = sum ∧
        s'.thread plot t = pcNext (setX h rd (tokOf p c)) 4 ∧ s.onlyPlot s' plot) ∧
    (2 ^ 32 ≤ sum →
      ∃ s', exec (.ftok plot t rd rs1 rs2) s = .next s' ∧ tokOf (s'.mod.dev.plot plot) c = 2 ^ 32 - 1 ∧
        s'.thread plot t = pcNext (setX h rd (tokOf p c)) 4 ∧ s'.mod.dev.base.evt.seq = s.mod.dev.base.evt.seq + 1 ∧
        s.onlyPlot s' plot) ∧
    (xReg h rs1 ≤ 1 →
      ∃ s', exec (.fready plot t rs1) s = .next s' ∧ s'.thread plot t = pcNext h 4 ∧ s.onlyPlot s' plot ∧
        halfSt (s'.mod.dev.plot plot).seq (xReg h rs1 == 1) =
          (if halfSt p.seq (xReg h rs1 == 1) = .free then .ready else halfSt p.seq (xReg h rs1 == 1))) ∧
    (modeLegal (xReg h rs2) = true → xReg h rs1 < 2048 → p.seq.running = false → p.seq.cur = none →
      ∃ s', exec (.fstart plot t rd rs1 rs2) s = .next s' ∧ s.onlyPlot s' plot ∧
        (s'.thread plot t).pc = h.pc + 4 ∧ (s'.mod.dev.plot plot).seq.running = true ∧
        (s'.mod.dev.plot plot).seq.owner = t ∧ (s'.mod.dev.plot plot).seq.entry = xReg h rs1 ∧
        (s'.mod.dev.plot plot).seq.turn = xReg h rs2 % 4 ∧
        (s'.mod.dev.plot plot).seq.passLimit = bitsOf (xReg h rs2) 31 16) ∧
    (∃ s', exec (.fstop plot t rd) s = .next s' ∧ s.onlyPlot s' plot ∧ (s'.thread plot t).pc = h.pc + 4 ∧
      (s'.mod.dev.plot plot).seq = stopSeq p.seq) ∧
    (0x20 ≤ xReg h rs1 → xReg h rs1 < 0x24 →
      ∃ s', exec (.fstat plot t rd rs1) s = .next s' ∧ s.onlyPlot s' plot ∧
        s'.thread plot t = pcNext (setX h rd (accStatWord (accStatOf p (xReg h rs1 - 0x20)))) 4)

/-- Loads and stores of a control core (Table 2.2, R37, R41, R42, R70): own SRAM answers at once, device memory parks the
thread or counts a posted store, a refused store and an address outside the table take the access fault.
Rests in part on the model's own choices: log 4, 51. -/
def Obligations.CoreLoadsAndStores : Prop :=
  ∀ (s : State) (plot : Fin 4352) (t : Fin 8) (rd rs1 rs2 : Fin 32) (imm : BitVec 12) (w : Fin 4) (sg short : Bool),
    s.threadRuns plot t = true →
    let d := s.mod.dev
    let p := d.plot plot
    let h := s.thread plot t
    let a := effAddr h rs1 imm
    let n := 2 ^ w.val
    let len := if short then 2 else 4
    let v := xReg h rs2 % 2 ^ (8 * n)
    (pmpAllows h a n 0 = true → corePlace a n = .sram a →
      ∃ s', exec (.deviceLoad plot t rd rs1 imm w sg short) s = .next s' ∧ s.onlyPlot s' plot ∧
        s'.thread plot t = setX (pcNext h len) rd (extendLoad n sg (leNat (readRun p.sram a n)))) ∧
    (∀ da, pmpAllows h a n 0 = true → corePlace a n = .device da → accessFault d false da n = none →
      ∃ s', exec (.deviceLoad plot t rd rs1 imm w sg short) s = .next s' ∧
        s'.thread plot t =
          { h with park := if parkedOnMem p < 6 then .mem rd n sg da len else .held rd n sg da len }) ∧
    (pmpAllows h a n 0 = true → corePlace a n = .nowhere →
      ∃ s', exec (.deviceLoad plot t rd rs1 imm w sg short) s = .next s' ∧ s.onlyPlot s' plot ∧
        s'.thread plot t = takeException h exLoad a) ∧
    (pmpAllows h a n 1 = true → corePlace a n = .sram a →
      ∃ s', exec (.deviceStore plot t rs1 rs2 imm w short) s = .next s' ∧ s.onlyPlot s' plot ∧
        (s'.mod.dev.plot plot).sram = writeRun p.sram a (leBytes n v) ∧ (s'.thread plot t).pc = h.pc + BitVec.ofNat 64 len) ∧
    (∀ da, pmpAllows h a n 1 = true → corePlace a n = .device da → accessFault d true da n = none → daHeld d da = false →
      inLostSoft d da = false → (∃ die off, daPlace da = .hot die off) →
      ∃ s', exec (.deviceStore plot t rs1 rs2 imm w short) s = .next s' ∧ s'.mod.mem = writeRun s.mod.mem da (leBytes n v) ∧
        (s'.thread plot t).posted = h.posted + 1 ∧ (s'.thread plot t).pc = h.pc + BitVec.ofNat 64 len) ∧
    (∀ o, pmpAllows h a n 1 = true → corePlace a n = .store o → storeBusy p o = false →
      ∃ s', exec (.furrowStoreWrite plot t rs1 rs2 imm w short) s = .next s' ∧ s.onlyPlot s' plot ∧
        (s'.mod.dev.plot plot).store = writeRun p.store o (leBytes n v) ∧
        (s'.thread plot t).pc = h.pc + BitVec.ofNat 64 len) ∧
    (∀ o, pmpAllows h a n 1 = true → corePlace a n = .store o → storeBusy p o = true →
      ∃ s', exec (.furrowStoreWrite plot t rs1 rs2 imm w short) s = .next s' ∧ s.onlyPlot s' plot ∧
        (s'.mod.dev.plot plot).store = p.store ∧ s'.thread plot t = takeException h exStore a ∧
        s'.mod.dev.base.evt.seq = d.base.evt.seq + 1)

/-- FLOAD, LOAD_DONE and the end of a device access (R41 to R43, R70): a load that is started, its bytes in the half once they
are there, a thread that runs on with its loaded value.
FWAIT, FWORK, FENCE, the start of a thread and the illegal instruction (R39 to R41, R101): what parks the thread, what
starts another, what takes the exception.
Rests in part on the model's own choices: log 4, 5, 10, 51. -/
def Obligations.CoreCompletionsWaitsAndStarts : Prop :=
  (
    ∀ (s : State) (plot : Fin 4352) (t : Fin 8), s.mod.dev.stopped = false →
      let d := s.mod.dev
      let p := d.plot plot
      let h := s.thread plot t
      (∀ rs1 rs2 : Fin 32, canIssue h = true → xReg h rs2 ≤ 1 → storeBusy p (if xReg h rs2 = 1 then 0x10000 else 0) = false →
        accessFault d false (xReg h rs1) 0x10000 = none →
        ∃ s', exec (.fload plot t rs1 rs2) s = .next s' ∧ s.onlyPlot s' plot ∧ s'.thread plot t = pcNext h 4 ∧
          (s'.mod.dev.plot plot).fload = p.fload ++ [⟨xReg h rs1, decide (xReg h rs2 = 1)⟩]) ∧
      (∀ l rest bs, p.fload = l :: rest → s.mod.demandRead (.fload plot) l.da 0x10000 = .ok bs →
        storeBusy p (if l.half then 0x10000 else 0) = false →
        ∃ s', exec (.loadDone plot) s = .next s' ∧ (s'.mod.dev.plot plot).fload = rest ∧
          (s'.mod.dev.plot plot).store = writeRun p.store (if l.half then 0x10000 else 0) bs ∧ s'.mod.mem = s.mod.mem) ∧
      (∀ rd n sg da len bs, h.park = .mem rd n sg da len → s.mod.demandRead (.thread plot t) da n = .ok bs →
        ∃ s', exec (.deviceAccessCompletion plot t false) s = .next s' ∧ s'.mod.mem = s.mod.mem ∧
          s'.thread plot t = { setX (pcNext h len) rd (extendLoad n sg (leNat bs)) with park := .no }) ∧
      (windowStores d plot t < h.posted →
        ∃ s', exec (.deviceAccessCompletion plot t true) s = .next s' ∧ s.onlyPlot s' plot ∧
          s'.thread plot t =
            { h with posted := h.posted - 1, park := if h.posted = 1 ∧ h.park = .fence then .no else h.park })) ∧
  (
    ∀ (s : State) (plot : Fin 4352) (t u : Fin 8) (rd rs1 rs2 : Fin 32) (word : Word32), s.threadRuns plot t = true →
      let p := s.mod.dev.plot plot
      let h := s.thread plot t
      (pendingFor p t (xReg h rs1 % 128) = [] →
        ∃ s', exec (.fwait plot t rd rs1) s = .next s' ∧ s.onlyPlot s' plot ∧
          s'.thread plot t = { h with park := .fwait rd (xReg h rs1 % 128) }) ∧
      (pendingFor p t (xReg h rs1 % 128) ≠ [] →
        ∃ s', exec (.fwait plot t rd rs1) s = .next s' ∧ s.onlyPlot s' plot ∧ (s'.thread plot t).park = .no ∧
          (s'.thread plot t).pc = h.pc + 4 ∧ pendingFor (s'.mod.dev.plot plot) t (xReg h rs1 % 128) = []) ∧
      (∀ l, logicalOf s.mod.dev.base plot = some l →
        ∃ s', exec (.fwork plot t rd) s = .next s' ∧ s'.thread plot t = { h with park := .fwork rd } ∧
          s'.mod.dev.work.waiting = s.mod.dev.work.waiting ++ [(l, t.val)] ∧ s'.mod.mem = s.mod.mem) ∧
      (∃ s', exec (.fenceInstruction plot t) s = .next s' ∧ s.onlyPlot s' plot ∧
        s'.thread plot t = { pcNext h 4 with park := if h.posted = 0 then .no else .fence }) ∧
      ((s.thread plot u).started = false →
        ∃ s', exec (.threadStartWord plot t u rs2) s = .next s' ∧ s.onlyPlot s' plot ∧ s'.thread plot t = pcNext h 4 ∧
          s'.thread plot u = { s.thread plot u with started := true, pc := BitVec.ofNat 64 (xReg h rs2) }) ∧
      (bitsOf word.toNat 6 0 = 0x0B → bitsOf word.toNat 31 25 ≠ 0 →
        ∃ s', exec (.illegalInstruction plot t word) s = .next s' ∧ s.onlyPlot s' plot ∧
          s'.thread plot t = takeException h exIllegal word.toNat))

/-- AMO and LR/SC on own SRAM (R38): the old value in rd, the new one in SRAM; a store conditional writes while the reservation of
its address stands. On an address where R38 allows none, the access fault.
Rests in part on the model's own choices: log 4, 51. -/
def Obligations.CoreAtomics : Prop :=
  ∀ (s : State) (plot : Fin 4352) (t : Fin 8) (op : AmoOp) (dw : Bool) (rd rs1 rs2 : Fin 32), s.threadRuns plot t = true →
    let p := s.mod.dev.plot plot
    let h := s.thread plot t
    let a := xReg h rs1
    let n := if dw then 8 else 4
    let v := xReg h rs2 % 2 ^ (8 * n)
    let old := leNat (readRun p.sram a n)
    let loaded := modPow 64 (sext (8 * n) old)
    (corePlace a n = .sram a → a % n = 0 → pmpAllows h a n (if op = .lr then 0 else 1) = true →
      (op ≠ .lr → op ≠ .sc →
        ∃ s', exec (.amoLrsc plot t op dw rd rs1 rs2) s = .next s' ∧ s.onlyPlot s' plot ∧
          (s'.mod.dev.plot plot).sram = writeRun p.sram a (leBytes n (amoResult op (8 * n) old v)) ∧
          (s'.thread plot t).pc = h.pc + 4 ∧ xReg (s'.thread plot t) rd = (if rd = 0 then 0 else loaded)) ∧
      (op = .lr →
        ∃ s', exec (.amoLrsc plot t op dw rd rs1 rs2) s = .next s' ∧ s.onlyPlot s' plot ∧
          (s'.mod.dev.plot plot).sram = p.sram ∧
          s'.thread plot t = { setX (pcNext h 4) rd loaded with resv := some a }) ∧
      (op = .sc → h.resv = some a →
        ∃ s', exec (.amoLrsc plot t op dw rd rs1 rs2) s = .next s' ∧ s.onlyPlot s' plot ∧
          (s'.mod.dev.plot plot).sram = writeRun p.sram a (leBytes n v) ∧
          s'.thread plot t = { setX (pcNext h 4) rd 0 with resv := none }) ∧
      (op = .sc → h.resv ≠ some a →
        ∃ s', exec (.amoLrsc plot t op dw rd rs1 rs2) s = .next s' ∧ s.onlyPlot s' plot ∧
          (s'.mod.dev.plot plot).sram = p.sram ∧
          s'.thread plot t = { setX (pcNext h 4) rd 1 with resv := none })) ∧
    (corePlace a n = .nowhere →
      ∃ s', exec (.amoLrsc plot t op dw rd rs1 rs2) s = .next s' ∧ s.onlyPlot s' plot ∧
        s'.thread plot t = takeException h (if op = .lr then exLoad else exStore) a)

/-- MOVE, FINGERPRINT, POOL, MATMUL, VCHAIN and REDUCE (R52, Table 2.8): an execution at the head of its unit's queue that does
not fault leaves its result and the queue one shorter.
A MOVE of one row from SRAM to SRAM in one format copies its bytes; a FINGERPRINT of SRAM writes the CRC-64 of its region;
both leave every other byte of SRAM, and device memory, as it was (R45, R81, Table 2.8).
Rests in part on the model's own choices: log 10, 47, 49. -/
def Obligations.UnitExecutionsRunAndAnswer : Prop :=
  (
    ∀ (s : State) (plot : Fin 4352) (obs : Obs) (e : Exec) (r : Ran),
      (s.atHead plot .dma .move e → runMove (prepHead s.mod plot .dma .move obs e) plot e = .ok r →
        ∃ s', exec (.move plot obs) s = .next s' ∧ s.ranAs s' plot .dma r) ∧
      (s.atHead plot .dma .fingerprint e → runFingerprint (prepHead s.mod plot .dma .fingerprint obs e) plot e = .ok r →
        ∃ s', exec (.fingerprint plot obs) s = .next s' ∧ s.ranAs s' plot .dma r) ∧
      (s.atHead plot .mat .pool e → runPool (prepHead s.mod plot .mat .pool obs e) plot e = .ok r →
        ∃ s', exec (.pool plot obs) s = .next s' ∧ s.ranAs s' plot .mat r) ∧
      (s.atHead plot .mat .matmul e → runMatmul (prepHead s.mod plot .mat .matmul obs e) plot e = .ok r →
        ∃ s', exec (.matmul plot obs) s = .next s' ∧ s.ranAs s' plot .mat r) ∧
      (s.atHead plot .vec .vchain e → runVchain (prepHead s.mod plot .vec .vchain obs e) plot e = .ok r →
        ∃ s', exec (.vchain plot obs) s = .next s' ∧ s.ranAs s' plot .vec r) ∧
      (s.atHead plot .vec .reduce e → runReduceAll (prepHead s.mod plot .vec .reduce obs e) plot e = .ok r →
        ∃ s', exec (.reduce plot obs) s = .next s' ∧ s.ranAs s' plot .vec r)) ∧
  (
    ∀ (s : State) (plot : Fin 4352) (obs : Obs) (e : Exec) (a b : Nat),
      (recOpd e.record 0).space = spSram → (recOpd e.record 1).space = spSram →
      opdBase e.record 0 e.index = a → opdBase e.record 1 e.index = b →
      let p := s.mod.dev.plot plot
      (∀ n, s.atHead plot .dma .move e → (recOpd e.record 0).fmt = (recOpd e.record 1).fmt → ctrlBits e.record 27 16 = 0 →
        ctrlBits e.record 52 52 = 0 → ctrlBits e.record 54 53 = 0 →
        n = (recOpd e.record 0).format.rowBytes (ctrlBits e.record 15 0) → a + n ≤ 0x100000 →
        sramWriteFault s.mod.dev.base plot b n = none →
        ∃ s', exec (.move plot obs) s = .next s' ∧ s'.mod.mem = s.mod.mem ∧
          (s'.mod.dev.plot plot).sram = writeRun p.sram b (readRun p.sram a n)) ∧
      (∀ n, s.atHead plot .dma .fingerprint e → n = 64 * ctrlBits e.record 14 0 → a + n ≤ 0x100000 →
        sramWriteFault s.mod.dev.base plot b 8 = none →
        ∃ s', exec (.fingerprint plot obs) s = .next s' ∧ s'.mod.mem = s.mod.mem ∧
          (s'.mod.dev.plot plot).sram = writeRun p.sram b (leBytes 8 (crc64 (readRun p.sram a n)))))

/-- GATHER and SOW (R215, R323): an execution that does not fault leaves the slices in SRAM, or its contributions in the gradient
stage, and the DMA's queue one shorter.
Run-ahead (R86 to R90): a fetch inside its bounds is noted for its furrow and counted as issued, one outside is dropped and
counted, and no data moves.
Rests in part on the model's own choices: log 10. -/
def Obligations.GatherSowAndRunAhead : Prop :=
  (
    ∀ (s : State) (plot : Fin 4352) (obs : Obs) (fails : List (Nat × Bool)) (e : Exec),
      (∀ r m1, s.atHead plot .dma .gather e → runGather s.mod plot e fails = .ok (some r, m1) →
        ∃ s', exec (.gather plot obs fails) s = .next s' ∧
          (s'.mod.dev.plot plot).dmaQ = (r.m.dev.plot plot).dmaQ.drop 1 ∧
          (s'.mod.dev.plot plot).sram = (r.m.dev.plot plot).sram) ∧
      (∀ m1, s.atHead plot .dma .sow e → obs.ce = 0 → runSow s.mod plot e = .ok m1 →
        ∃ s', exec (.sow plot obs) s = .next s' ∧ s'.mod.mem = m1.mem ∧ s'.mod.dev.sow = m1.dev.sow ∧
          (s'.mod.dev.plot plot).dmaQ = (m1.dev.plot plot).dmaQ.drop 1)) ∧
  (
    ∀ (s : State) (plot : Fin 4352) (e : Exec), s.mod.dev.stopped = false → (s.mod.dev.plot plot).dmaQ.head? = some e →
      let d := s.mod.dev
      let cnt := fun (t : State) (c : Nat) => kget 0 t.mod.dev.base.cnt (8192 * c + plot)
      (∀ da, recOpc e.record = 1 → (recOpd e.record 0).space = spDa → streamNext (d.plot plot) e = some da →
        ∃ s', exec (.streamRunAhead plot) s = .next s' ∧ s.onlyPlot s' plot ∧
          (s'.mod.dev.plot plot).ahead = (d.plot plot).ahead ++ [⟨e.fid, da, streamBarred d da (moveBytes e)⟩] ∧
          (streamBarred d da (moveBytes e) = true → cnt s' cPfDropBound = cnt s cPfDropBound + 1) ∧
          (streamBarred d da (moveBytes e) = false → cnt s' cPfIssued = cnt s cPfIssued + 1)) ∧
      (∀ key w t, aheadNext s.mod plot e = some (key, w, t) → (aheadRow s.mod e t (bitsOf w 39 0)).tier ≠ .cold →
        ∃ s', exec (.gatherRunAhead plot) s = .next s' ∧ s.onlyPlot s' plot ∧
          (s'.mod.dev.plot plot).ahead = (d.plot plot).ahead ++ [⟨e.fid, key, aheadBarred s.mod e t w⟩] ∧
          (aheadBarred s.mod e t w = true → cnt s' cPfDropBound = cnt s cPfDropBound + 1) ∧
          (aheadBarred s.mod e t w = false → cnt s' cPfIssued = cnt s cPfIssued + 1)))

/-- FURROW_ISSUE (R46, R48, R49): a legal record that nothing holds back begins, and its first execution enters its unit's
queue; an illegal one stops the sequencer with an event.
FURROW_COMPLETE, FURROW_FAULT, HALF_SWITCH_RESUME and CLKA_DIVIDER_SWITCH (R54, R57, R68, R560): the end of a furrow with
and without a fault, the entry of the other half, the divider in force.
Rests in part on the model's own choices: log 10, 47. -/
def Obligations.FurrowsIssueAndEnd : Prop :=
  (
    ∀ (s : State) (plot : Fin 4352) (stall : Nat), s.mod.dev.stopped = false →
      let d := s.mod.dev
      let p := d.plot plot
      let r := recordAt p p.seq.entry
      seqOpen p.seq = true →
      (∀ op k i, legalHere d.base plot r = true → Opc.ofCode (recOpc r) = some op → op ≠ .waittok →
        mayBegin p r = true → trainOpen d plot r = true → phaseJoined d plot r = true →
        unitRoom p op.unitK = true → hazardFree p r 0 = true →
        nextExec r (readBitmap p r) (recRepeat r + 2) 0 = (k, some i) → hazardFree p r i = true →
        idleQuota d plot ≤ idleCount d p → isReplayed r = false →
        ∃ s' e, exec (.furrowIssue plot none stall) s = .next s' ∧ e.record = r ∧ e.entry = p.seq.entry ∧ e.index = i ∧
          e.fid = p.seq.nextFid ∧ unitQ (s'.mod.dev.plot plot) op.unitK = unitQ p op.unitK ++ [e] ∧
          (s'.mod.dev.plot plot).seq.nextFid = p.seq.nextFid + 1) ∧
      (legalHere d.base plot r = false →
        ∃ s', exec (.furrowIssue plot none stall) s = .next s' ∧ s.onlyPlot s' plot ∧
          (s'.mod.dev.plot plot).seq = stopSeq p.seq ∧ s'.mod.dev.base.evt.seq = d.base.evt.seq + 1)) ∧
  (
    ∀ (s : State) (plot : Fin 4352) (x : InFlight), s.mod.dev.stopped = false →
      let d := s.mod.dev
      let p := d.plot plot
      let q := p.seq
      ((q.inflight.find? fun x => x.issued && x.open_ == 0 && x.fault.isNone && q.waitRelease != some x.fid) = some x →
        ∃ s', exec (.furrowComplete plot) s = .next s' ∧ s'.mod.mem = s.mod.mem ∧
          (s'.mod.dev.plot plot).seq.inflight = q.inflight.filter (fun y => y.fid ≠ x.fid) ∧
          (recBit x.record 56 = true → tokOf p (recHdr x.record 55 52) < 2 ^ 32 - 1 →
            tokOf (s'.mod.dev.plot plot) (recHdr x.record 55 52) = tokOf p (recHdr x.record 55 52) + 1) ∧
          (recBit x.record 56 = false → (s'.mod.dev.plot plot).tok = p.tok)) ∧
      (∀ f, q.inflight.find? (·.fault.isSome) = some x → x.fault = some f →
        ∃ s', exec (.furrowFault plot none) s = .next s' ∧ s'.mod.mem = s.mod.mem ∧
          (s'.mod.dev.plot plot).seq.running = false ∧ (s'.mod.dev.plot plot).seq.cur = none ∧
          (∀ y ∈ (s'.mod.dev.plot plot).seq.inflight, y.fid ≠ x.fid) ∧ (s'.mod.dev.plot plot).tok = p.tok) ∧
      (∀ n, q.waitHalf = true → halfSt q (halfOf q.entry) = .ready →
        ∃ s', exec (.halfSwitchResume plot n) s = .next s' ∧ s.onlyPlot s' plot ∧
          (s'.mod.dev.plot plot).seq = { setHalf q (halfOf q.entry) .active with waitHalf := false }) ∧
      (∃ s', exec (.clkaDividerSwitch plot) s = .next s' ∧ s.onlyPlot s' plot ∧
        (s'.mod.dev.plot plot).div16 = wantsDiv16 d plot))

/-- The sequencer's own furrows IDLE, SIGNAL and MILESTONE, and the delivery of a signal (R51, R56, R58, R76, R100): the hold ends,
the counter or the dependency slot moves, the report is made.
Rests in part on the model's own choices: log 10, 48. -/
def Obligations.SequencerOwnFurrows : Prop :=
  ∀ (s : State) (plot : Fin 4352) (e : Exec), s.mod.dev.stopped = false → (s.mod.dev.plot plot).seq.own = some e →
    let p := s.mod.dev.plot plot
    let r := e.record
    let inc := ctrlBits r 15 0
    let c := ctrlBits r 19 16
    (recOpc r = 0 →
      ∃ s', exec (.idle plot) s = .next s' ∧ s'.mod.mem = s.mod.mem ∧ (s'.mod.dev.plot plot).seq.own = none ∧
        (s'.mod.dev.plot plot).sram = p.sram) ∧
    (recOpc r = 10 → ctrlBits r 33 32 = 0 → tokOf p c + inc < 2 ^ 32 →
      ∃ s', exec (.signal plot) s = .next s' ∧ s'.mod.mem = s.mod.mem ∧ (s'.mod.dev.plot plot).seq.own = none ∧
        tokOf (s'.mod.dev.plot plot) c = tokOf p c + inc) ∧
    (recOpc r = 10 → ctrlBits r 33 32 = 1 →
      ∃ s', exec (.signal plot) s = .next s' ∧ s'.mod.mem = s.mod.mem ∧ (s'.mod.dev.plot plot).seq.own = none ∧
        (s'.mod.dev.plot plot).sent = p.sent ++ [.signal (ctrlBits r 31 20) c inc e.fid]) ∧
    (∀ sl, recOpc r = 10 → ctrlBits r 33 32 = 2 → kfind s.mod.dev.work.slots (ctrlBits r 31 20 + 4096 * c) = some sl →
      inc < sl.count →
      ∃ s', exec (.signal plot) s = .next s' ∧ s'.mod.mem = s.mod.mem ∧ (s'.mod.dev.plot plot).seq.own = none ∧
        kfind s'.mod.dev.work.slots (ctrlBits r 31 20 + 4096 * c) = some { sl with count := sl.count - inc }) ∧
    (∀ l, recOpc r = 14 → logicalOf s.mod.dev.base plot = some l →
      ∃ s', exec (.milestoneFurrow plot) s = .next s' ∧ s'.mod.mem = s.mod.mem ∧ (s'.mod.dev.plot plot).seq.own = none ∧
        (s'.mod.dev.plot plot).seq.waitRelease = some e.fid ∧ l ∈ s'.mod.dev.work.reported)

/-- SEND, MESSAGE_ARRIVAL, CHANNEL_CREDIT_RETURN, RECV and SIGNAL_DELIVERY (R73 to R77): the credit is taken, the message reaches its
channel, its payload and receipt are written, the credit goes to the next sender, the signal counts.
Rests in part on the model's own choices: log 10, 48. -/
def Obligations.MessagesTravel : Prop :=
  ∀ (s : State) (plot : Fin 4352) (src dest : Fin 4096) (ch : Fin 8) (obs : Obs) (e : Exec) (si di : Nat),
    s.mod.dev.stopped = false →
    let d := s.mod.dev
    let b := d.base
    (∀ bs, (d.plot plot).sendQ.head? = some e → readOpd s.mod plot e 0 0 (ctrlBits e.record 12 0) = .ok bs →
      ctrlBits e.record 29 28 = 0 → physOf b (ctrlBits e.record 27 16) = some di → di ≠ plot →
      (chanOf (d.plot di) (ctrlBits e.record 15 13)).holder = none → (d.plot di).remapping = false →
      ∃ s', exec (.send plot obs) s = .next s' ∧ s'.mod.mem = s.mod.mem ∧
        (s'.mod.dev.plot plot).sendQ = (d.plot plot).sendQ.drop 1 ∧
        (s'.mod.dev.plot plot).sent = (d.plot plot).sent ++
          [.msg (ctrlBits e.record 27 16) (ctrlBits e.record 15 13) ⟨unitOf b plot, ctrlBits e.record 31 30, bs⟩ e.fid] ∧
        (chanOf (s'.mod.dev.plot di) (ctrlBits e.record 15 13)).holder = some (unitOf b plot)) ∧
    (∀ m k rest, physOf b src = some si → physOf b dest = some di → si ≠ di →
      (d.plot si).sent = .msg dest ch m k :: rest → (chanOf (d.plot di) ch).msg = none →
      ∃ s', exec (.messageArrival src dest ch) s = .next s' ∧ s'.mod.mem = s.mod.mem ∧ (s'.mod.dev.plot si).sent = rest ∧
        (chanOf (s'.mod.dev.plot di) ch).msg = some m) ∧
    (∀ m, (d.plot plot).recvQ.head? = some e → (chanOf (d.plot plot) (ctrlBits e.record 15 13)).msg = some m →
      m.data.length ≤ ctrlBits e.record 12 0 →
      (∀ m1, writeOpd s.mod plot e 0 0 m.data = .ok m1 →
        ∀ m2, writeOpd m1 plot e 1 0 (leBytes 2 m.src ++ leBytes 2 m.data.length ++ leBytes 1 m.cls ++ zeros 11) = .ok m2 →
        ∃ s', exec (.recv plot) s = .next s' ∧ s'.mod.mem = m2.mem ∧
          (s'.mod.dev.plot plot).sram = (m2.dev.plot plot).sram ∧
          (s'.mod.dev.plot plot).recvQ = (m2.dev.plot plot).recvQ.drop 1 ∧
          (chanOf (s'.mod.dev.plot plot) (ctrlBits e.record 15 13)).msg = none)) ∧
    (physOf b dest = some di → (chanOf (d.plot di) ch).msg = none → (d.plot di).remapping = false →
      (∀ h hi, (chanOf (d.plot di) ch).holder = some h → physOf b h = some hi →
        ∀ x ∈ (d.plot hi).sent, ∀ m k, x ≠ .msg dest ch m k) →
      ∃ s', exec (.channelCreditReturn dest ch) s = .next s' ∧ s.onlyPlot s' di ∧
        (chanOf (s'.mod.dev.plot di) ch).holder = (chanOf (d.plot di) ch).waiters.head? ∧
        (chanOf (s'.mod.dev.plot di) ch).waiters = (chanOf (d.plot di) ch).waiters.drop 1) ∧
    (∀ c inc k, physOf b src = some si → physOf b dest = some di → firstSignal (d.plot si) dest = some (c, inc, k) →
      earlierSend (d.plot si) dest k = false → tokOf (d.plot di) c + inc < 2 ^ 32 →
      ∃ s', exec (.signalDelivery src dest) s = .next s' ∧ s'.mod.mem = s.mod.mem ∧
        tokOf (s'.mod.dev.plot di) c = tokOf (d.plot di) c + inc)

/-- The work queue (R100, R101, R105, R372): a plot that waits is granted the oldest block it may have, a block that has run
is taken off and counted, and the phase is joined once every training plot has come to it.
PHASE_JOIN and PLOT_REMAP (R99, R372): the join without PHASEJOB, and a fallow plot's move to its spare between
blocks.
Rests in part on the model's own choices: log 10, 11, 21. -/
def Obligations.WorkIsGrantedJoinedAndRemapped : Prop :=
  (
    ∀ (s : State) (l : Fin 4096) (i : Nat), s.mod.dev.stopped = false → physOf s.mod.dev.base l = some i →
      let d := s.mod.dev
      let w := d.work
      (∀ t b rd, w.waiting.find? (fun x => x.1 = l.val) = some (l.val, t) → isExpress d.base l = false →
        grantHeld d i = false → (d.plot i).remapping = false → (healthOf d i).owes = false → (healthOf d i).borrowed = false →
        pickBlock w l = some b → (threadOf (d.plot i) t).park = .fwork rd →
        ∃ s', exec (.workQueueGrant l) s = .next s' ∧ s'.mod.mem = s.mod.mem ∧ s'.mod.dev.work.queue = w.queue.erase b ∧
          s'.mod.dev.work.granted = w.granted ++ [(l.val, b)] ∧
          s'.thread i t = { pcNext (setX (threadOf (d.plot i) t) rd b.da) 4 with park := .no }) ∧
      (∀ g blk rest, w.granted.find? (fun g => g.1 = l.val) = some g → (d.plot i).blocks = blk :: rest →
        furrowsDone (d.plot i).seq blk.2 = true →
        (∀ sl x, g.2.doneSlot = some sl → kfind w.slots sl = some x → g.2.doneInc < x.count) →
        ∃ s', exec (.blockComplete l) s = .next s' ∧ s'.mod.mem = s.mod.mem ∧ s'.mod.dev.work.granted = w.granted.erase g ∧
          s'.mod.dev.work.left = w.left - 1 ∧ (s'.mod.dev.plot i).blocks = rest ∧
          (∀ sl x, g.2.doneSlot = some sl → kfind w.slots sl = some x →
            kfind s'.mod.dev.work.slots sl = some { x with count := x.count - g.2.doneInc }))) ∧
  (
    ∀ (s : State), s.mod.dev.stopped = false →
      let d := s.mod.dev
      (schedUp d = true → d.work.joined = false → (d.work.granted.all fun g => g.2.backward) = true →
        (∀ l, l < 4096 → physOf d.base l ≠ none → isExpress d.base l = false → l ∈ d.work.phaseIssued) →
        cfgFabMsCfgPhasejob d.base = 0 →
        ∃ s', exec .phaseJoin s = .next s' ∧ s'.mod.mem = s.mod.mem ∧
          s'.mod.dev.work = { d.work with joined := true, phaseIssued := [] }) ∧
      (∀ (l : Fin 4096) i j, physOf d.base l = some i → (healthOf d i).fallow = true → (d.plot i).blocks = [] →
        qcUp d i = true → (d.plot i).remapping = true → spareFor d i = some j → j ≠ i →
        ∃ s', exec (.plotRemap l) s = .next s' ∧ s'.mod.mem = s.mod.mem ∧
          (s'.mod.dev.plot j).sram = (d.plot i).sram ∧ (s'.mod.dev.plot j).store = (d.plot i).store ∧
          s'.mod.dev.plot i = Plot.reset ∧ s'.mod.dev.base.evt.seq = d.base.evt.seq + 1))



/-- ROW_READ and VERSION_FREE (R209, R215, R225, R228, Table 6.9): a row outside EXTENT answers a zero slice with BAD_INDEX, a row
of cold tier a zero slice with COLD and a promotion, any other row the record of the target; a previous version that nothing needs
goes.
Rests in part on the model's own choices: log 10. -/
def Obligations.RowReadsAnswer : Prop :=
  ∀ (s : State) (table : Fin 4096) (row : BitVec 40) (target : Word32) (t : TDesc),
    s.mod.dev.stopped = false → tdescAt s.mod table = some t → rowHeld s.mod t row.toNat = false →
    let v := t.verAt target
    let m := s.mod
    (∀ whole training, v.extent ≤ row.toNat →
      ∃ s', exec (.rowRead table row target whole training) s = .next s' ∧ s.changesOnly s' [.tab] ∧
        s'.mod.dev.tab = { m.dev.tab with answer := some (gstBadIndex, zeros (64 * if whole then t.granRec else t.granG)) }) ∧
    (∀ whole, row.toNat < v.extent → (rowEnt m v.rowmap row.toNat).tier = .cold →
      ∃ s', exec (.rowRead table row target whole false) s = .next s' ∧ s.changesOnly s' [.tab, .tier] ∧
        s'.mod.dev.tab.answer = some (gstCold, zeros (64 * if whole then t.granRec else t.granG)) ∧
        (∃ q ∈ s'.mod.dev.tier.promote, q.table = table ∧ q.row = row.toNat)) ∧
    (∀ whole m1, row.toNat < v.extent → (rowEnt m v.rowmap row.toNat).tier ≠ .cold →
      (whole = false → m1 = m) → (whole = true → verifyHome m t v row.toNat = some m1) →
      let n := if whole then t.granRec else t.granG
      let x := readRow m1 t v row.toNat target n
      ∃ s', exec (.rowRead table row target whole false) s = .next s' ∧ s'.pending = s.pending ∧ s'.fuses = s.fuses ∧
        s'.mod.mem = m1.mem ∧ s'.mod.dev.tab.answer = some (x.gst, sliceOf (64 * n) x)) ∧
    (t.prevValid = true → t.pinPrev = 0 → (m.dev.tab.pins.any fun p => p.table = table && p.version = t.prevVersion) = false →
      stepNewer (BitVec.ofNat 32 t.switchStep) m.dev.base.cleared = false → noWarmLeft m.dev t = true →
      ∃ s', exec (.versionFree table) s = .next s' ∧ s.changesOnly s' [.mem, .tier] ∧
        s'.mod = (dropVersion m table t.prevVersion t.prevRowmap (t.mapBytes t.prevExtent)).putTd table { t with prevValid := false })

/-- COALESCE_INDEX and COALESCE_MERGE (R234 to R237): a key in the window counts one more, a new key enters it while it has room and
after it has been written to the spill area, and is counted apart once the coalescer passes keys through; the merge leaves one list
and an empty coalescer.
Rests in part on the model's own choices: log 53. -/
def Obligations.CoalescersCount : Prop :=
  ∀ (s : State) (step : Word32) (table : Fin 4096) (row : BitVec 40), s.mod.dev.stopped = false →
    let d := s.mod.dev
    let key := rowKey table row.toNat
    let c := coalOf table row.toNat
    let x := coalAt d c
    (∀ n, x.step = step → x.passing = false → kfind x.window key = some n → n < 0xFFFFFFFF →
      ∃ s', exec (.coalesceIndex step table row) s = .next s' ∧ s.changesOnly s' [.tab] ∧
        s'.mod.dev.tab = { d.tab with coal := s'.mod.dev.tab.coal } ∧
        (∀ j, coalAt s'.mod.dev j = if j = c then { x with window := kput x.window key (n + 1) } else coalAt d j)) ∧
    (x.step = step → x.passing = false → kfind x.window key = none → x.window.length < 16384 →
      ∃ s', exec (.coalesceIndex step table row) s = .next s' ∧ s.changesOnly s' [.tab] ∧
        (∀ j, coalAt s'.mod.dev j = if j = c then { x with window := kput x.window key 1 } else coalAt d j)) ∧
    (x.step = step → x.passing = false → kfind x.window key = none → 16384 ≤ x.window.length →
      16 * (spilled d c + x.window.length) ≤ cfgTierCoalCfgSpill d.base * miB →
      ∃ s', exec (.coalesceIndex step table row) s = .next s' ∧ s.changesOnly s' [.tab, .events] ∧
        (∀ j, coalAt s'.mod.dev j =
          if j = c then { x with runs := x.runs ++ [x.window], window := [(key, 1)] } else coalAt d j)) ∧
    (x.step = step → x.passing = true →
      ∃ s', exec (.coalesceIndex step table row) s = .next s' ∧ s.changesOnly s' [.tab, .events] ∧
        (∀ j, coalAt s'.mod.dev j =
          if j = c then { x with passing := true, passed := kmod 0 x.passed key (· + 1) } else coalAt d j)) ∧
    (∀ k : Fin 16, (coalAt d k).runs = [] →
      ∃ s', exec (.coalesceMerge k) s = .next s' ∧ s.changesOnly s' [.tab] ∧
        (∀ j, coalAt s'.mod.dev j = if j = k.val then Coal.reset else coalAt d j) ∧
        ⟨(coalAt d k).step, k, mergeCounts (coalAt d k).window (coalAt d k).passed⟩ ∈ s'.mod.dev.tab.distinct)

/-- HBM_CORRECTION, DDR_CORRECTION, HBM_UE, DDR_UE and PATROL_SCRUB (R263 to R267, R275, R276): a correction counts for its tier,
for its channel in the hour and for its DRAM row in the scrub period; an uncorrectable error counts, raises its event, restores the
record that lies there, and faults the access that met it; the scrub goes one granule on.
Rests in part on the model's own choices: log 58, 71. -/
def Obligations.MemoryErrorsCount : Prop :=
  ∀ (s : State), s.mod.dev.stopped = false →
    let d := s.mod.dev
    (∀ (stack : Fin 12) (pc : Fin 64) row, (hpcOf d.tier stack pc).hour = hourOf d.base → (hpcOf d.tier stack pc).period = periodOf d.base →
      ∃ s', exec (.hbmCorrection stack pc row) s = .next s' ∧ s.changesOnly s' [.tier, .events] ∧
        s'.mod.dev.base = (d.count cHbmCe (stack / 3) 1).base ∧
        (hpcOf s'.mod.dev.tier stack pc).ce = (hpcOf d.tier stack pc).ce + 1 ∧
        kget 0 (hpcOf s'.mod.dev.tier stack pc).rowCe row = kget 0 (hpcOf d.tier stack pc).rowCe row + 1 ∧
        (∀ st p, 64 * st + p ≠ 64 * stack.val + pc.val → hpcOf s'.mod.dev.tier st p = hpcOf d.tier st p)) ∧
    (∀ (ch : Fin 16) row, (ddrOf d.tier ch).hour = hourOf d.base → (ddrOf d.tier ch).period = periodOf d.base →
      ∃ s', exec (.ddrCorrection ch row) s = .next s' ∧ s.changesOnly s' [.tier, .events] ∧
        s'.mod.dev.base = (d.count cDdrCe (ch / 4) 1).base ∧
        (ddrOf s'.mod.dev.tier ch).ce = (ddrOf d.tier ch).ce + 1 ∧
        kget 0 (ddrOf s'.mod.dev.tier ch).rowCe row = kget 0 (ddrOf d.tier ch).rowCe row + 1 ∧
        (∀ c, c ≠ ch.val → ddrOf s'.mod.dev.tier c = ddrOf d.tier c)) ∧
    (∀ (da : BitVec 56) (p : Fin 4352) die off e q, daPlace da.toNat = .hot die off →
      (d.tier.slots.find? fun s => s.1 ≤ da.toNat / 64 ∧ da.toNat / 64 < s.1 + s.2.gran) = none →
      (d.plot p).dmaQ = e :: q →
      ∃ s', exec (.hbmUe da (some (p, .dma))) s = .next s' ∧ s'.mod.mem = s.mod.mem ∧
        s'.mod.dev = faultExec ((d.count cHbmUe die 1).raise evHbmUe { d := da.toNat } die) p .dma e (.tierError da.toNat)) ∧
    (∀ (da : BitVec 56) q off k sl, daPlace da.toNat = .warm q off → sl.copy = false →
      (d.tier.slots.find? fun s => s.1 ≤ da.toNat / 64 ∧ da.toNat / 64 < s.1 + s.2.gran) = some (k, sl) →
      ∃ s', exec (.ddrUe da none) s = .next s' ∧
        s'.mod = restoreAll (s.mod.onDev fun d => ((d.count cDdrUe q 1).raise evDdrUe { d := da.toNat } q).count cTierError
          (spineOf sl.table sl.row) 1) [sl]) ∧
    (∀ ce, 0 < ce → kfind d.tier.slots (d.tier.scrubHot / 64) = none →
      ∃ s', exec (.patrolScrub false ce) s = .next s' ∧ s.changesOnly s' [.tier, .events] ∧
        s'.mod.dev.tier = { d.tier with scrubHot := scrubNext d false d.tier.scrubHot } ∧
        s'.mod.dev.base = (d.count cHbmCe (locUnit (d.tier.scrubHot / 64)) ce).base)

/-- SOFT_PPR, HBM_PC_SPARE, HARD_PPR_TEST, HBM_DIE_REFORM, HBM_PC_LOST, DDR_CHANNEL_FALLOW and EXTENT_MOVE (R266 to R273, R276):
the row repaired, the worn pseudo-channel replaced in its stack's map by a spare, the tested one a spare again, the die's re-form
begun where no spare is left, a lost pseudo-channel's die smaller by 3.375 GiB and its soft band lost, a worn channel being
evacuated, an extent on its new channel.
Rests in part on the model's own choices: log 52, 58, 71. -/
def Obligations.MemoryUnitsRepaired : Prop :=
  ∀ (s : State) (stack : Fin 12) (pc : Fin 64), s.mod.dev.stopped = false →
    let d := s.mod.dev
    let die : Nat := stack / 3
    (∀ row (da : BitVec 56), cfgTierRasCfgRowce d.base ≤ kget 0 (hpcOf d.tier stack pc).rowCe row →
      row ∉ (hpcOf d.tier stack pc).soft →
      ∃ s', exec (.softPpr (.hbm stack pc) row da) s = .next s' ∧ s.changesOnly s' [.tier, .events] ∧
        (hpcOf s'.mod.dev.tier stack pc).soft = (hpcOf d.tier stack pc).soft ++ [row] ∧
        kget 0 (hpcOf s'.mod.dev.tier stack pc).rowCe row = 0 ∧
        s'.mod.dev.base = (d.raise evHbmSppr { d := da.toNat } die).base) ∧
    (∀ sp ex, stackSpare d.tier stack = some sp → pc.val ∈ stackMap d.tier stack → hpcWorn d stack pc ex = true →
      ∃ s', exec (.hbmPcSpare stack pc ex) s = .next s' ∧ s.changesOnly s' [.tier, .events] ∧
        stackMap s'.mod.dev.tier stack = (stackMap d.tier stack).map (fun x => if x = pc.val then sp else x) ∧
        (hpcOf s'.mod.dev.tier stack pc).fallow = true ∧
        s'.mod.dev.base = (d.raise evHbmPcSpared { n := 64 * stack.val + pc.val } die).base) ∧
    (∀ pass, (hpcOf d.tier stack pc).fallow = true →
      ∃ s', exec (.hardPprTest stack pc pass) s = .next s' ∧ s.changesOnly s' [.tier] ∧
        (hpcOf s'.mod.dev.tier stack pc).fallow = !pass ∧ (hpcOf s'.mod.dev.tier stack pc).soft = [] ∧
        (hpcOf s'.mod.dev.tier stack pc).hard = (hpcOf d.tier stack pc).hard ++ (hpcOf d.tier stack pc).soft) ∧
    (∀ ex n, kfind d.tier.reform die = none → stackSpare d.tier stack = none → pc.val ∈ stackMap d.tier stack →
      hpcWorn d stack pc ex = true → 3 < d.tier.dieP die →
      ∃ s', exec (.hbmDieReform stack pc ex n) s = .next s' ∧ s.changesOnly s' [.tier, .events] ∧
        s'.mod.dev.tier = { d.tier with reform := kput d.tier.reform die ⟨d.tier.dieP die, 0⟩ } ∧
        s'.mod.dev.base = (d.raise evHbmDieReform { n := die } die).base) ∧
    (pc.val ∈ stackMap d.tier stack → 3 < d.tier.dieP die → slotsIn d.tier die = [] → (stackMap d.tier stack).Nodup →
      ∃ s', exec (.hbmPcLost stack pc) s = .next s' ∧ s'.mod.mem = s.mod.mem ∧ die ∈ s'.mod.dev.tier.softLost ∧
        s'.mod.dev.tier.hotBacked die + 3 * 0x48000000 = d.tier.hotBacked die ∧
        pc.val ∉ stackMap s'.mod.dev.tier stack ∧ (hpcOf s'.mod.dev.tier stack pc).fallow = true ∧
        (∀ st, d.ms.cur = some st → s'.mod.dev.ms = (d.failStep st 6).ms)) ∧
    (∀ ch : Fin 16, (ddrOf d.tier ch).st = .inService → cfgTierRasCfgPcce d.base < (ddrOf d.tier ch).ce →
      (ddrOf d.tier ch).hour = hourOf d.base → (d.tier.evacs.any fun e => e.kind = 1 && e.unit = ch.val) = false →
      ∃ s', exec (.ddrChannelFallow ch false) s = .next s' ∧ s.changesOnly s' [.tier] ∧
        (ddrOf s'.mod.dev.tier ch).st = .evacuating ∧ s'.mod.dev.tier.evacs = d.tier.evacs ++ [⟨1, ch, none⟩]) ∧
    (∀ (q : Fin 4) ext (dst : Fin 4), ext < extentCount d.tier q → (ddrOf d.tier (4 * q + dst)).st = .inService →
      extentChan d.tier q ext ≠ dst.val → ((extentsOn d.tier q dst).map (extentPlace d.tier q)).length < d.tier.capCh * 64 →
      d.tier.capCh * 64 ≤ 2 ^ 20 →
      ∃ s', exec (.extentMove q ext dst) s = .next s' ∧ s.changesOnly s' [.tier] ∧ extentChan s'.mod.dev.tier q ext = dst.val ∧
        (∀ x, x ≠ ext → extentChan s'.mod.dev.tier q x = extentChan d.tier q x))

/-- FLASH_WRITE, WEAR_LEVEL, READ_DISTURB_REFRESH, GARBAGE_COLLECTION, FLASH_UE and CART_LOST (R281 to R286): a block's page goes to
the erase block being filled or to the least-worn free one; the erase block named by each rule is emptied into another; what stays
uncorrectable is counted; a lost cartridge takes its records with it.
Rests in part on the model's own choices: log 55. -/
def Obligations.FlashKeeps : Prop :=
  ∀ (s : State) (bay : Fin 4), s.mod.dev.stopped = false →
    let d := s.mod.dev
    let c := cartOf d.tier bay
    (∀ block b, c.st = .inService → c.opened = some b →
      ∃ s', exec (.flashWrite bay block false) s = .next s' ∧ s.changesOnly s' [.tier] ∧
        cartOf s'.mod.dev.tier bay = { c with map := kput c.map block b }) ∧
    (∀ block b, c.st = .inService → c.opened = none → c.leastWorn = some b →
      ∃ s', exec (.flashWrite bay block true) s = .next s' ∧ s.changesOnly s' [.tier] ∧
        kfind (cartOf s'.mod.dev.tier bay).map block = some b ∧ (cartOf s'.mod.dev.tier bay).opened = none ∧
        kfind (cartOf s'.mod.dev.tier bay).full b = some (Cart.validIn { c with map := kput c.map block b } b) ∧
        ∀ x ∈ c.freeBlocks, kget 0 c.erases b ≤ kget 0 c.erases x) ∧
    (∀ b c', cfgFlsFtlCfgWldelta d.base < c.spread → minBy (fun x => kget 0 c.erases x) (c.full.map (·.1)) = some b →
      c.empty b = some c' →
      ∃ s', exec (.wearLevel bay) s = .next s' ∧ s.changesOnly s' [.tier] ∧ cartOf s'.mod.dev.tier bay = c' ∧
        kget 0 c'.erases b = kget 0 c.erases b + 1) ∧
    (∀ b n c', kfind c.full b = some n → c.empty b = some c' →
      ∃ s', exec (.readDisturbRefresh bay b) s = .next s' ∧ s.changesOnly s' [.tier, .events] ∧
        cartOf s'.mod.dev.tier bay = c' ∧ s'.mod.dev.base = (d.count cFtlRdrefresh bay 1).base) ∧
    (∀ b c', 1000 * c.freeBlocks.length < cfgFlsFtlCfgGclow d.base * c.blocks →
      minBy (fun x => c.validIn x) (c.full.map (·.1)) = some b → c.empty b = some c' →
      ∃ s', exec (.garbageCollection bay) s = .next s' ∧ s.changesOnly s' [.tier, .events] ∧
        cartOf s'.mod.dev.tier bay = c' ∧ s'.mod.dev.base = (d.count cFtlGc bay 1).base) ∧
    (∀ block : BitVec 36, d.tier.moves = [] →
      ∃ s', exec (.flashUe bay block true none) s = .next s' ∧ s.changesOnly s' [.events] ∧
        s'.mod.dev.base = ((d.count cFlashUe bay 1).raise evFlashUe { d := bay.val * 2 ^ 36 + block.toNat } bay).base) ∧
    (c.st = .inService → (d.tier.cold.filter fun x => coldBay x.1 = bay) = [] →
      ∃ s', exec (.cartLost bay) s = .next s' ∧ s.changesOnly s' [.tier, .ms, .events] ∧
        cartOf s'.mod.dev.tier bay = Cart.reset ∧ (∀ x ∈ s'.mod.dev.ms.cairns, bay.val ∉ x.bays) ∧
        s'.mod.dev.base = (d.raise evCartLost { n := bay } bay).base)

/-- TIER_MOVE, MOVE_SWITCH, MOVE_FAIL, TIER_TRANSACTION_TIMEOUT, EVICTION and WARM_COPY_CLEAN (R294, R296, R300, R304 to R309): a
wanted move takes its destination and sets STATE; it copies the whole record, header unchanged; the switch names the destination,
frees the source and counts; a changed source voids the copy; a failed one leaves the row at its source; a short pool starts its
victim's move; the cleaner copies a home record.
Rests in part on the model's own choices: log 19, 54, 55. -/
def Obligations.RowsMove : Prop :=
  ∀ (s : State) (table : Fin 4096) (row : BitVec 40) (t : TDesc), s.mod.dev.stopped = false → tdescAt s.mod table = some t →
    (heldPool s.mod.dev).isSome = false →
    let m := s.mod
    let d := m.dev
    let r := row.toNat
    let map := t.curVer.rowmap
    let e := rowEnt m map r
    (∀ target, moveOf d table r = none → e.state = 0 → e.tier ≠ .absent → wantedMove m t r = some target →
      ¬(e.tier = .lent ∧ target = .cold) →
      ∃ s', exec (.tierMove table row) s = .next s' ∧ s'.mod = startMove m t r false target ∧ s'.fuses = s.fuses ∧
        s'.pending = s.pending) ∧
    (∀ x l m1, moveOf d table r = some x → x.written = false → x.dst = some l → e.near = true →
      verifyHome m t t.curVer r = some m1 → x.target = .hot ∨ x.target = .warm →
      ∃ s', exec (.tierMove table row) s = .next s' ∧ s'.mod.mem = (m1.store (64 * l) (recordOf m1 e t.granRec)).mem ∧
        (x ∈ m1.dev.tier.moves → ∃ y ∈ s'.mod.dev.tier.moves, y.written = true ∧ y.tag = recTag (recordOf m1 e t.granRec) ∧
          y.table = x.table ∧ y.row = x.row ∧ y.dst = x.dst)) ∧
    (∀ x l, moveOf d table r = some x → x.dst = some l → x.written = true → d.sow.app = none → e.tier = .warm → x.target = .hot →
      (d.sow.grads.any fun g => g.table = t.id && g.row = r && g.iaq.isSome && g.applied.isNone) = false →
      recTag (recordOf m e 1) = x.tag → recFprint (recordOf m e 1) = x.fprint.toNat → cfgTierMirrorCfgEn d.base = 1 →
      ∃ s', exec (.moveSwitch table row) s = .next s' ∧ s'.mod.mem = (m.putRow map r ⟨.hot, 0, e.hotdir, l⟩).mem ∧
        s'.mod.dev.tier.moves = d.tier.moves.erase x ∧
        (∀ y, kfind d.tier.slots l = some y → l ≠ e.loc → ∃ z, kfind s'.mod.dev.tier.slots l = some z ∧ z.warm = some e.loc)) ∧
    (∀ x l, moveOf d table r = some x → x.dst = some l → x.written = true → d.sow.app = none → x.target ≠ .hot →
      recTag (recordOf m e 1) ≠ x.tag →
      ∃ s', exec (.moveSwitch table row) s = .next s' ∧ s.changesOnly s' [.tier, .events] ∧
        (∃ y ∈ s'.mod.dev.tier.moves, y = { x with written := false }) ∧
        s'.mod.dev.base = (d.count cMoveVoid (spineOf table r) 1).base) ∧
    (∀ x late, moveOf d table r = some x → x.retried = true →
      ∃ s', exec (.moveFail table row late true) s = .next s' ∧ s'.mod = failMove m x late ∧ s'.fuses = s.fuses ∧
        s'.mod.dev.base.evt.seq = d.base.evt.seq + 1) ∧
    (moveOf d table r = none → rowHeld m t r = false →
      ∃ s', exec (.tierTransactionTimeout table row) s = .next s' ∧ s.changesOnly s' [.tab, .events] ∧
        s'.mod.dev.tab = { d.tab with answer := some (gstTimeout, []) } ∧
        s'.mod.dev.base = (d.count cTierTimeout (spineOf table r) 1).base) ∧
    (∀ (pool : Fin 4) sl td target h, poolBelow d.base d.tier pool (cfgTierWmCfgHotlow d.base) = true →
      0 < (poolSpan d.base d.tier pool).2 → d.tier.evicting = [pool.val] →
      let ring := (slotsIn d.tier pool).filter (fun x => decide (kget 0 d.tier.hand pool ≤ x.1)) ++
        (slotsIn d.tier pool).filter (fun x => decide (x.1 < kget 0 d.tier.hand pool))
      findVictim m false (ring.length / 64 + 1) ring = some (sl, td, target, h) →
      ∃ s', exec (.eviction (pool.castLE (by decide))) s = .next s' ∧ s'.fuses = s.fuses ∧
        s'.mod = startMove (m.onDev fun d => d.onTier fun k => { k with hand := kput k.hand pool h }) td sl.row true target) ∧
    (∀ loc sl l, cfgTierMirrorCfgEn d.base = 1 → cfgTierMirrorCfgBudget d.base ≠ 0 → d.sow.app = none →
      minBy (fun x : Nat × Slot => estimate d x.2.table x.2.row) ((d.tier.slots.filter fun x => !x.2.copy && (match daPlace (64 * x.1) with
        | .hot _ _ => true
        | _ => false)).filter fun x => match x.2.warm with
        | none => true
        | some l => recTag (m.load (64 * l) 64) ≠ recTag (m.load (64 * x.1) 64)) = some (loc, sl) → sl.warm = some l →
      ∃ s', exec .warmCopyClean s = .next s' ∧ s'.mod.mem = (m.store (64 * l) (m.load (64 * loc) (64 * sl.gran))).mem ∧
        s'.mod.dev.base = (d.count cMirrorWrite (spineOf sl.table sl.row) 1).base)

/-- LOAN_REVOKE_RECEIVED, LENT_LIMIT_ENFORCE, LENT_COLD_TAG_CHECK and TIER_REBUILD (R289, R290, R311, R351): the deadline stands and
its event names window and deadline; records leave a loan over its limit; an old tag queues a promotion and a refresh; after a link
reset nothing of the hot tier stands in the ledgers and its rows are listed as lost.
Rests in part on the model's own choices: log 55, 66. -/
def Obligations.LoansTagsAndRebuild : Prop :=
  ∀ (s : State), s.mod.dev.stopped = false →
    let m := s.mod
    let d := m.dev
    (∀ (w : Fin 16) (deadline : Word64) l, kfind d.tier.windows w = some l → l.deadline = none →
      ∃ s', exec (.loanRevokeReceived w deadline) s = .next s' ∧ s.changesOnly s' [.tier, .events] ∧
        s'.mod.dev.tier = { d.tier with windows := kput d.tier.windows w { l with deadline := some deadline.toNat } } ∧
        s'.mod.dev.base = (d.raise evLoanRevoke { t := l.id, n := deadline.toNat } 0 w).base) ∧
    (∀ (w : Fin 16) l c t v, kfind d.tier.windows w = some l → warmShort d.base d.tier = true → lentIn d.tier w = [c] →
      lentLimit d.base d.tier < lentGrans d.tier l.lender → slotVer m c.2.slot = some (t, v) → t.allowCold = true →
      ∃ s', exec (.lentLimitEnforce w) s = .next s' ∧ s'.pending = s.pending ∧ s'.fuses = s.fuses ∧
        s'.mod = (relocate m t v c.2.slot.row .cold none).1) ∧
    (∀ loc c t v, kfind d.tier.cold loc = some c → slotVer m c.slot = some (t, v) → tagStale d v c.data = true →
      ∃ s', exec (.lentColdTagCheck true loc) s = .next s' ∧ s.changesOnly s' [.tier] ∧
        kfind s'.mod.dev.tier.checked loc = some d.base.applied ∧ (c.slot.table, c.slot.row) ∈ s'.mod.dev.tier.refresh ∧
        (∃ q ∈ s'.mod.dev.tier.promote, q.table = c.slot.table ∧ q.row = c.slot.row)) ∧
    (∃ s', exec .tierRebuild s = .next s' ∧ s'.fuses = s.fuses ∧ s'.mod.dev.tier.moves = [] ∧
      s'.mod.dev.base.evt.seq = d.base.evt.seq + 1 ∧
      (∀ x ∈ s'.mod.dev.tier.slots, x.2.copy = false ∧ x ∈ d.tier.slots ∧ ∀ die off, daPlace (64 * x.1) ≠ .hot die off) ∧
      (∀ x ∈ d.tier.slots, ∀ die off, daPlace (64 * x.1) = .hot die off → x.2.copy = false →
        (x.2.table, x.2.row) ∈ s'.mod.dev.tier.lost))

/-- MARGIN_SAMPLE, DELAY_ADJUST, MEM_MARGIN_LOW, EVACUATION_COMPLETE and UNIT_RETURN (R312 to R318): margins are kept, an uneven pin
moves one tap, a low margin makes its channel a candidate, an evacuated pseudo-channel is spared and reported done, a returned part
adds its capacity.
Rests in part on the model's own choices: log 71, 73. -/
def Obligations.RecalibrationEvacuationReturn : Prop :=
  ∀ (s : State), s.mod.dev.stopped = false →
    let d := s.mod.dev
    (∀ pin left right, cfgTierCalCfgEn d.base ≠ 0 →
      ∃ s', exec (.marginSample pin left right) s = .next s' ∧ s.changesOnly s' [.tier] ∧
        (∃ q, kfind s'.mod.dev.tier.pins pin = some q ∧ q.left = left ∧ q.right = right ∧
          q.delay = ((kfind d.tier.pins pin).map (·.delay)).getD 0) ∧
        (∀ j, j ≠ pin → kfind s'.mod.dev.tier.pins j = kfind d.tier.pins j)) ∧
    (∀ pin (ch : Fin 16) p, cfgTierCalCfgEn d.base ≠ 0 → kfind d.tier.pins pin = some p → p.left + 2 ≤ p.right →
      ∃ s', exec (.delayAdjust pin (.ddr ch)) s = .next s' ∧ s.changesOnly s' [.tier, .events] ∧
        kfind s'.mod.dev.tier.pins pin = some ⟨p.left + 1, p.right - 1, p.delay + 1⟩ ∧
        s'.mod.dev.base = (d.count cCalAdj (ch / 4) 1).base) ∧
    (∀ pin (st : Fin 12) (pc : Fin 64) p, kfind d.tier.pins pin = some p → min p.left p.right < cfgTierCalCfgMinmargin d.base →
      ∃ s', exec (.memMarginLow pin (.hbm st pc)) s = .next s' ∧ s.changesOnly s' [.tier, .events] ∧
        (hpcOf s'.mod.dev.tier st pc).candidate = true ∧
        s'.mod.dev.base = (d.raise evMemMarginLow { n := 64 * st.val + pc.val } (st / 3)).base) ∧
    (∀ (u : Fin 768) e sp, d.tier.evacs = [e] → (e.kind, e.unit) = (0, u.val) → e.tag = none →
      u.val % 64 ∈ stackMap d.tier (u / 64) → stackSpare d.tier (u / 64) = some sp →
      ∃ s', exec (.evacuationComplete (.hbm u)) s = .next s' ∧ s.changesOnly s' [.tier, .events] ∧
        s'.mod.dev.tier.evacs = [] ∧ (hpcOf s'.mod.dev.tier (u / 64) (u % 64)).fallow = true ∧
        s'.mod.dev.base = ((d.raise evHbmPcSpared { n := u } (u / 192)).raise evEvacuateDone { n := u }).base) ∧
    (∀ (u : Fin 16) size g, slotSt d u = .returning → d.hw.found = [(u.val, size, g)] → d.tier.capCh ≠ 0 →
      ∃ s', exec (.unitReturn (u.castLE (by decide))) s = .next s' ∧ s.changesOnly s' [.tier, .hw, .events] ∧
        slotSt s'.mod.dev u = .inService ∧ s'.mod.dev.hw.found = [] ∧
        s'.mod.dev.tier.warmBacked (u / 4) = d.tier.warmBacked (u / 4) + d.tier.capCh * giB ∧
        s'.mod.dev.base = (d.raise evUnitReturned { n := u }).base)

/-- GRADIENT_STAGE_CLOSE and MILESTONE_APPLICATION_START (R325, R326, R329, R340, R341, R355, R376, R377): with every entry's row in
hot tier, each entry becomes its row's gradient, rounded once, the stage is empty and the step record holds the exact sums of squares
and STATE[0]; the start of a milestone's application writes the milestone records and names the step.
WRITER_RECOVERY (R218, R360): a region that starts again ends its open set; the home of an entry of the milestone in progress that
fails FPRINT takes the entry's old record back; after a link reset the milestone is undone, and no gradient is left applied by it.
Rests in part on the model's own choices: log 10, 23. -/
def Obligations.StagesCloseAndWritersRecover : Prop :=
  (
    ∀ (s : State) (step : Word32), s.mod.dev.stopped = false →
      let m := s.mod
      let d := m.dev
      (cfgFabMsCfgNmod d.base = 0 → d.ms.cur = some step → d.sow.closed ≠ some step →
        (∀ e ∈ d.sow.stage, e.inexact = false ∧
          ∃ t u, tdescAt m e.table = some t ∧ rowEngine m t (t.gradVer step) e.row = some u ∧ u < 4) →
        let sparse := (d.sow.stage.filter fun e => !replicated m e.table).map StageEntry.round
        let repl := (d.sow.stage.filter fun e => replicated m e.table).map StageEntry.round
        let m1 := m.putStepRec step 24 (squareLine sparse ++ squareLine repl)
        ∃ s', exec (.gradientStageClose step) s = .next s' ∧ s.changesOnly s' [.mem, .sow] ∧
          s'.mod.dev.sow = { d.sow with
            grads := d.sow.grads ++ d.sow.stage.map fun e => ⟨step, e.table, e.row, e.round, none, none⟩
            stage := [], closed := some step, replIn := none } ∧
          s'.mod.mem = (m1.putStepRec step 6 (leBytes 1 (withBits (stepRecByte m1 step 6) 0 0 1))).mem) ∧
      (d.sow.noArea = true → mayApply (stageIfDone m step) step = true →
        ∃ s', exec (.milestoneApplicationStart step) s = .next s' ∧ s'.pending = s.pending ∧ s'.fuses = s.fuses ∧
          s'.mod.dev.sow.app = some step ∧ s'.mod.dev.sow.done = [] ∧
          s'.mod.mem = (openMilestone (stageIfDone m step) step).1.mem) ∧
      (d.sow.noArea = false → mayApply (stageIfDone m step) step = true →
        ∃ s', exec (.milestoneApplicationStart step) s = .next s' ∧ s'.mod.dev.sow.app = some step ∧
          s'.mod.dev.sow.lastSel = some ((stageIfDone m step).loadNat (groupArea d.base) 4 % 2))) ∧
  (
    ∀ (s : State) (engine : Fin 8), s.mod.dev.stopped = false →
      let m := s.mod
      let d := m.dev
      (∀ after, d.sow.app = none → (∀ e ∈ (regionOf m engine).ents, e.mile = true ∨ e.pending = false) →
        ∃ s', exec (.writerRecovery engine after) s = .next s' ∧ s.changesOnly s' [.sow] ∧
          s'.mod.dev.sow = { d.sow with regions := s'.mod.dev.sow.regions } ∧
          ∀ r, regionOf s'.mod r = if r = engine.val then { regionOf m r with opened := none } else regionOf m r) ∧
      (∀ step e t, d.sow.app = some step → (regionOf m engine).ents = [e] → e.mile = false → e.pending = false → e.step = step →
        tdescAt m e.table = some t →
        let j := readEntry m engine e.off
        j.good = true → j.oldValid = true → recGood t (m.load j.home (64 * t.granRec)) = false →
        ∃ s', exec (.writerRecovery engine false) s = .next s' ∧ s'.pending = s.pending ∧ s'.fuses = s.fuses ∧
          s'.mod.mem = (m.store j.home j.old).mem ∧ (regionOf s'.mod engine).opened = none ∧
          (regionOf s'.mod engine).ents = [e] ∧ s'.mod.dev.sow.app = some step) ∧
      (∀ step, d.sow.app = some step →
        ∃ s', exec (.writerRecovery engine true) s = .next s' ∧ s'.mod.dev.sow.app = none ∧ s'.mod.dev.sow.done = [] ∧
          (∀ g ∈ s'.mod.dev.sow.grads, g.applied ≠ some step) ∧ (∀ r < 8, (regionOf s'.mod r).opened = none)))

/-- HOT_UPDATE_APPLY and IAQUA_UPDATE_APPLY (R330 to R336, R348, R349, R354, R356): an engine writes its next row. A frozen row and a
gradient that holds a NaN are used and counted, and nothing is written; else the entry is journaled and the record at its home takes
STEPTAG M, LINKED with a PREVLINK to the entry, and the payload the group's update computes from the old one.
Rests in part on the model's own choices: log 20, 57. -/
def Obligations.UpdatesAreApplied : Prop :=
  ∀ (s : State) (eng : Nat) (c : Instr) (step : Word32) (t : TDesc) (row : Nat) (g : Grad), s.mod.dev.stopped = false →
    (∃ die : Fin 4, eng = die ∧ c = .hotUpdateApply die 1 none) ∨ (∃ q : Fin 4, eng = 4 + q ∧ c = .iaquaUpdateApply q 1 none) →
    let m := s.mod
    let d := m.dev
    let v := t.gradVer g.step
    let e := rowEnt m v.rowmap row
    let old := recordOf m e t.granRec
    let used := (d.sow.grads.map fun x => if x = g then { g with applied := some step } else x)
    let did := d.sow.done ++ [doneKey eng false t.id row]
    d.sow.app = some step → heldPool d ≠ some eng → dueRows m step eng false = [(t, false, row)] → rowGrads d t false row step = [g] →
    d.sow.imports = [] → d.tier.refresh = [] →
    (t.freeze = true ∨ d.sow.bank = none →
      ∃ s', exec c s = .next s' ∧ s.changesOnly s' [.sow, .events] ∧ s'.mod.dev.sow = { d.sow with grads := used, done := did } ∧
        s'.mod.dev.base = (d.count cFrozenSkip eng 1).base) ∧
    (∀ b, t.freeze = false → d.sow.bank = some b → recFrozen (recordOf m e 1) = false →
      let gn := groupNum m t row
      let grp := groupOf b.data gn
      (grp.mode ≠ 2 → grp.nanpol = false → nonFinite g.g = true →
        ∃ s', exec c s = .next s' ∧ s.changesOnly s' [.sow, .events] ∧
          s'.mod.dev.sow = { d.sow with grads := used, done := did } ∧
          s'.mod.dev.base = ((d.count cUpdNonfinite eng 1).raise evGradNonfinite
            { hasS := true, s := g.step.toNat, row := row, table := t.id }).base) ∧
      (∀ off m2, nonFinite g.g = false → e.tier = .hot ∨ e.tier = .warm → openEntry m e = none → recGood t old = true →
        shapeMismatch t grp g.step = false → d.ms.cairns = [] → d.tier.lost = [] →
        let r := regionOfLoc e.tier e.loc
        appendEntry m r ⟨step, g.step, t.id, row, 64 * e.loc, v.version, jkUpdate, false, gn, some old,
          (g.g.map fun x => leBytes 4 x.toNat).flatten⟩ = .ok (off, m2) →
        ∃ s', exec c s = .next s' ∧ s'.pending = s.pending ∧ s'.fuses = s.fuses ∧ did = s'.mod.dev.sow.done ∧
          s'.mod.dev.ms = d.ms ∧ s'.mod.mem = (m2.store (64 * e.loc) (mkRecord t step v.version 4 (linkOf r off)
            (updatePayload t grp g.step row (idleSteps v old step) g.g (recPayload t old)))).mem))

/-- READY_SEND, READY_RECEIVE and HOLD_RESEND (R34, R379, R380, R420, R421): READY goes to the leader once the blocks have ended,
with NOGO and its cause where the step met one, and else only when every update is applied and checking allows it; the leader counts
one READY of each module and, with all of them in, sends every module ABORT, ROLLBACK, HOLD or COMMIT.
Rests in part on the model's own choices: log 10, 62. -/
def Obligations.ReadyIsSentAndDecided : Prop :=
  ∀ (s : State), s.schedules = true →
    let m := s.mod
    let d := m.dev
    (∀ n x l, d.ms.cur = some n → stepInfo d n = some x → x.st = .staged → d.ms.halted = false → d.ms.noJob = false →
      d.ms.sent ≠ some (n, x.attempt) → blocksDone d n = true → leaderOf d = some l →
      let t := readyToken (m.putStepRec n 16 (leBytes 8 (repDigest m n))) n x.attempt
      let done := ∃ s', exec .readySend s = .next s' ∧ s.changesOnly s' [.mem, .ms, .chk] ∧ s.sends s' [l] t ∧
        s'.mod.dev.ms.sent = some (n, x.attempt) ∧ s'.mod.dev.chk = { d.chk with rbReq := [] } ∧
        s'.mod.mem = (m.putStepRec n 16 (leBytes 8 (repDigest m n))).mem
      (∀ c, nogoCause d n = some c → done ∧ t.type = 1 ∧ t.step = n ∧ t.attempt = x.attempt ∧ t.nogo = true ∧ t.cause = c) ∧
      (nogoCause d n = none → allApplied m n = true → checkHolds d n = false →
        done ∧ t.nogo = false ∧ t.rbreq = (d.chk.rbReq != []) ∧ t.mark = checkedThrough d n 64 d.base.cleared) ∧
      (nogoCause d n = none → allApplied m n = true → checkHolds d n = true → d.chk.heldSaid ≠ some n →
        ∃ s', exec .readySend s = .next s' ∧ s.changesOnly s' [.chk, .events] ∧
          s'.mod.dev.base = (d.raise evReadyHeldCheck { hasS := true, s := n.toNat }).base)) ∧
    (∀ token l, s.takes token 1 = true → isLeader d = true → d.ms.lead = some l →
      l.step = (tokenOf token).step → l.attempt = (tokenOf token).attempt → l.decided = false → l.deputy = false → l.hold = false →
      l.asked = [] → (l.votes.any fun x => x.src = (tokenOf token).src) = false →
      let v := l.votes ++ [tokenOf token]
      let decides := fun (t : Token) (l' : Lead) => ∃ s', exec (.readyReceive token) s = .next s' ∧ s.changesOnly s' [.ms] ∧
        s'.mod.dev.ms.lead = some l' ∧ s.sends s' (List.range (jobSize d)) t
      (v.length < jobSize d →
        ∃ s', exec (.readyReceive token) s = .next s' ∧ s.changesOnly s' [.ms] ∧
          s'.mod.dev.ms = { d.ms with lead := some { l with votes := v } }) ∧
      (jobSize d ≤ v.length →
        (∀ c, firstCause v = some c → decides (decision d 3 l.step l.attempt 0 c 0) { l with votes := v, decided := true }) ∧
        (∀ k, firstCause v = none → oldestStep ((v.filter Token.rbreq).map fun t => BitVec.ofNat 32 t.aux) = some k →
          decides (decision d 4 l.step l.attempt k (if (v.filter Token.rbreq).any Token.suspect then 10 else 9) 0)
            { l with votes := v, decided := true }) ∧
        (firstCause v = none → v.filter Token.rbreq = [] → 1 < (v.map Token.digests).eraseDups.length →
          decides (decision d 5 l.step l.attempt 0 0 0) { l with votes := v, hold := true, revotes := [], asked := [] }) ∧
        (firstCause v = none → v.filter Token.rbreq = [] → (v.map Token.digests).eraseDups.length ≤ 1 →
          decides (decision d 2 l.step l.attempt (commitMark d l.step v) 0 0) { l with votes := v, decided := true }))) ∧
    (∀ l, d.ms.lead = some l → l.hold = true → l.decided = false →
      ∃ s', exec .holdResend s = .next s' ∧ s.changesOnly s' [.ms] ∧
        s.sends s' (List.range (jobSize d)) (decision d 5 l.step l.attempt 0 0 0))

/-- READYTMO_EXPIRY, QUERY_TIMEOUT, STATUS_RECEIVE, QUERY_RECEIVE, COMMITTMO_EXPIRY and HOST_LEADER_TIMEOUT (R381, R383, R389): the
leader queries the modules that are missing; a loss decides, and else the last STATUS does; a QUERY is answered, or makes the
receiver deputy; the walk goes on with each COMMITTMO; under a host leader a timeout is an event alone.
Rests in part on the model's own choices: log 10, 62. -/
def Obligations.MissingModulesAreQueried : Prop :=
  ∀ (s : State), s.schedules = true →
    let d := s.mod.dev
    (∀ l, d.ms.lead = some l → isLeader d = true → l.decided = false → l.deputy = false → l.asked = [] → missingReady d l ≠ [] →
      ∃ s', exec .readytmoExpiry s = .next s' ∧ s.changesOnly s' [.ms] ∧
        s.sends s' (missingReady d l) (myToken d 7 l.step l.attempt) ∧
        s'.mod.dev.ms.lead = some { l with asked := missingReady d l, status := [] }) ∧
    (∀ l, d.ms.lead = some l → l.decided = false → l.asked ≠ [] → l.deputy = false → unanswered l ≠ [] →
      ∃ s' low, exec .queryTimeout s = .next s' ∧ s.changesOnly s' [.ms, .events] ∧
        low ∈ unanswered l ∧ (∀ i ∈ unanswered l, low ≤ i) ∧
        s.sends s' ((List.range (jobSize d)).filter fun i => !(unanswered l).contains i) (decision d 3 l.step l.attempt 0 12 low) ∧
        s'.mod.dev.base = (d.raise evMsModuleLost { hasS := true, s := l.step.toNat, x := some (unanswered l) }).base) ∧
    (∀ token l, s.takes token 8 = true → d.ms.lead = some l → l.step = (tokenOf token).step → l.attempt = (tokenOf token).attempt →
      l.decided = false → l.deputy = false → l.asked = [(tokenOf token).src] →
      ∃ s', exec (.statusReceive token) s = .next s' ∧ s.changesOnly s' [.ms] ∧
        s.sends s' (List.range (jobSize d))
          (decision d 3 l.step l.attempt 0 (lateCause { l with status := addVote l.status (tokenOf token) }) 0)) ∧
    (∀ token, s.takes token 7 = true →
      ((tokenOf token).deputy = false ∨ d.ms.took.contains ((tokenOf token).step, (tokenOf token).attempt) = true →
        ∃ s', exec (.queryReceive token) s = .next s' ∧ s.changesOnly s' [.ms] ∧
          s.sends s' [(tokenOf token).src] (statusToken d (tokenOf token).step (tokenOf token).attempt)) ∧
      ((tokenOf token).deputy = true → d.ms.took.contains ((tokenOf token).step, (tokenOf token).attempt) = false →
        leaderOf d ≠ some (cfgFabMsCfgKidx d.base) →
        ∃ s', exec (.queryReceive token) s = .next s' ∧ s.changesOnly s' [.ms, .events] ∧
          s'.mod.dev.ms.leader = some (cfgFabMsCfgKidx d.base) ∧
          s'.mod.dev.ms.took = d.ms.took ++ [((tokenOf token).step, (tokenOf token).attempt)] ∧
          s.sends s' (List.range (jobSize d)) (myToken d 7 (tokenOf token).step (tokenOf token).attempt) ∧
          s'.mod.dev.base = (d.raise evMsLeaderChanged { x := some [cfgFabMsCfgKidx d.base] }).base)) ∧
    (∀ n a l, d.ms.sent = some (n, a) → leaderOf d = some l → (l + 1 + d.ms.walk) % jobSize d ≠ cfgFabMsCfgKidx d.base →
      ∃ s', exec .committmoExpiry s = .next s' ∧ s.changesOnly s' [.ms] ∧
        s.sends s' [(l + 1 + d.ms.walk) % jobSize d] { myToken d 7 n a with flags := 16 } ∧ s'.mod.dev.ms.walk = d.ms.walk + 1) ∧
    (∀ n a, d.ms.sent = some (n, a) → leaderOf d = none →
      ∃ s', exec .hostLeaderTimeout s = .next s' ∧ s.changesOnly s' [.events] ∧
        s'.mod.dev.base = (d.raise evMsHostTimeout { hasS := true, s := n.toNat }).base)

/-- ABORT_RECEIVE, ROLLBACK_RECEIVE, HOLD_RECEIVE, PHASE_TOKEN_RECEIVE, DECIDE_POLL and TOKEN_PATH_NOGO (R372, R383 to R386, R420,
R530): an ABORT or ROLLBACK undoes its steps, empties the gradient stage and makes the re-run due; one that reaches a CLEARED step is
refused and halts the job; HOLD clears DIGESTVALID; a PHASE token is kept; DECIDE is acted on only where it decides the attempt
awaited; the token path answers with NOGO.
Rests in part on the model's own choices: log 24, 25, 62. -/
def Obligations.DecisionsAreActedOn : Prop :=
  ∀ (s : State),
    let m := s.mod
    let d := m.dev
    (∀ token, s.takes token 3 = true → stagedIn d (tokenOf token).step (tokenOf token).attempt = true →
      d.ms.decided ≠ some ((tokenOf token).step, (tokenOf token).attempt) →
      ∃ s', exec (.abortReceive token) s = .next s' ∧ s'.pending = s.pending ∧ s'.fuses = s.fuses ∧
        s'.mod.dev.ms.rerun = some (tokenOf token).step ∧ s'.mod.dev.ms.cur = none ∧ s'.mod.dev.sow.stage = [] ∧
        s'.mod.dev.ms.decided = some ((tokenOf token).step, (tokenOf token).attempt)) ∧
    (∀ token, s.takes token 4 = true → stagedIn d (tokenOf token).step (tokenOf token).attempt = true →
      stepNewer (tokenOf token).mark d.base.cleared = true → stepNewer (tokenOf token).mark d.base.applied = false →
      ∃ s', exec (.rollbackReceive token) s = .next s' ∧ s'.mod.dev.ms.rerun = some (tokenOf token).mark ∧
        s'.mod.dev.base.applied = (tokenOf token).mark - 1 ∧ s'.mod.dev.sow.stage = []) ∧
    (∀ token, s.takes token 4 = true → stagedIn d (tokenOf token).step (tokenOf token).attempt = true →
      stepNewer (tokenOf token).mark d.base.cleared = false → d.ms.runs = [] → leaderOf d = some (tokenOf token).src →
      ∃ s', exec (.rollbackReceive token) s = .next s' ∧ s.changesOnly s' [.ms, .events] ∧ s'.mod.dev.ms.halted = true ∧
        s'.mod.dev.base = (d.raise evMsRollbackRefused
          { hasS := true, s := (tokenOf token).mark.toNat, s2 := some (tokenOf token).step.toNat }).base) ∧
    (∀ token, s.takes token 5 = true → d.ms.sent = some ((tokenOf token).step, (tokenOf token).attempt) → d.ms.held = false →
      leaderOf d = some (tokenOf token).src → writtenRows m (tokenOf token).step = [] → d.ms.sentFd = true →
      let m1 := m.putStepRec (tokenOf token).step 6 (leBytes 1 (withBits (stepRecByte m (tokenOf token).step 6) 2 2 0))
      ∃ s', exec (.holdReceive token) s = .next s' ∧ s.changesOnly s' [.mem, .ms, .events] ∧
        s'.mod.dev.ms = { d.ms with held := true, revoted := false, walk := 0 } ∧
        s'.mod.mem = (m1.putStepRec (tokenOf token).step 16 (leBytes 8 (repDigest m1 (tokenOf token).step))).mem ∧
        s'.mod.dev.base = (d.raise evMsDigestHold { hasS := true, s := (tokenOf token).step.toNat }).base) ∧
    (∀ token, s.takes token 6 = true → d.work.phaseTokens.contains ((tokenOf token).step.toNat, (tokenOf token).src) = false →
      stepNewer (d.base.applied + 1) (tokenOf token).step = false →
      ∃ s', exec (.phaseTokenReceive token) s = .next s' ∧ s.changesOnly s' [.work] ∧
        s'.mod.dev.work = { d.work with phaseTokens := d.work.phaseTokens ++ [((tokenOf token).step.toNat, (tokenOf token).src)] }) ∧
    (∀ n a, s.schedules = true → d.ms.sent = some (n, a) → leaderOf d = none →
      let b := m.load (stepRecDa d.base n + 192) 64
      let t := parseToken b
      (fieldAt b 60 4 = crc32c (b.take 60) → t.job = cfgFabMsIdJob d.base → t.step = n → t.attempt = a →
        t.type = 2 ∨ t.type = 3 ∨ t.type = 4 ∨ t.type = 5 →
        ∃ s', exec .decidePoll s = .next s' ∧ s'.mod = tokenAct m t ∧ s'.pending = s.pending ∧ s'.fuses = s.fuses) ∧
      (fieldAt b 60 4 ≠ crc32c (b.take 60) ∨ t.job ≠ cfgFabMsIdJob d.base ∨ t.step ≠ n ∨ t.attempt ≠ a ∨ t.type < 2 ∨ 5 < t.type →
        exec .decidePoll s = .next s)) ∧
    (∀ token l, d.stopped = false → d.fw.lost.contains 2 = true → leaderOf d = some l →
      discards d (leBytes 64 token.toNat) = false →
      ((tokenOf token).type = 3 →
        ∃ s', exec (.tokenPathNogo token) s = .next s' ∧ s.changesOnly s' [.ms] ∧ s.sends s' [l]
          { myToken d 1 (tokenOf token).step ((tokenOf token).attempt + 1) with flags := 1, cause := 9 }) ∧
      ((tokenOf token).type = 5 →
        ∃ s', exec (.tokenPathNogo token) s = .next s' ∧ s.changesOnly s' [.ms] ∧ s.sends s' [l]
          { myToken d 1 (tokenOf token).step (tokenOf token).attempt with flags := 1, cause := 9 }) ∧
      ((tokenOf token).type = 7 →
        ∃ s', exec (.tokenPathNogo token) s = .next s' ∧ s.changesOnly s' [.ms] ∧ s.sends s' [(tokenOf token).src]
          { myToken d 8 (tokenOf token).step (tokenOf token).attempt with mark := d.base.applied, flags := 1, cause := 9 }))

/-- STEP_RERUN, DIGEST_REVOTE_SEND, GATE_TIMEOUT and MODULE_REJOIN (R377, R386, R391, R420): the steps to be re-run have their inputs
read again, or the job halts; the re-vote goes out; a GATE that never came makes the READY carry NOGO; a module that has restarted
recovers its regions and sends STATUS with its latest APPLIED step.
COMMIT_RECEIVE (R382, R384, R385): on COMMIT of the step that is STAGED, that step is the latest APPLIED one, cleared-through is
MARK where MARK is newer, and no application is in progress.
Rests in part on the model's own choices: log 61, 62. -/
def Obligations.CommitsRerunsAndRejoins : Prop :=
  (
    ∀ (s : State), s.schedules = true →
      let m := s.mod
      let d := m.dev
      (∀ k, d.ms.rerun = some k → mustHalt d k = false →
        ∃ s', exec .stepRerun s = .next s' ∧ s.changesOnly s' [.ms] ∧ s'.mod.dev.ms = { d.ms with
          rerun := none
          runs := d.ms.runs.map fun r => if stepNewer k r.step then r else { r with input := none, begun := false } }) ∧
      (∀ k, d.ms.rerun = some k → mustHalt d k = true →
        ∃ s', exec .stepRerun s = .next s' ∧ s.changesOnly s' [.ms, .base, .fab] ∧ s'.mod.dev.ms.halted = true ∧
          s'.mod.dev.ms.runs = [] ∧ (∀ r ∈ d.ms.runs, ∃ e ∈ s'.mod.dev.base.ended, e.id = r.id ∧ e.status ≠ 0)) ∧
      (∀ n a l, d.ms.sent = some (n, a) → d.ms.held = true → d.ms.revoted = false → d.ms.sentFd = false → leaderOf d = some l →
        ∃ s', exec .digestRevoteSend s = .next s' ∧ s.changesOnly s' [.mem, .ms, .chk] ∧ s'.mod.dev.ms.revoted = true ∧
          s.sends s' [l] (readyToken (m.putStepRec n 16 (leBytes 8 (repDigest m n))) n a)) ∧
      (∀ n x l, d.ms.cur = some n → stepInfo d n = some x → x.st = .staged → cfgFabMsCfgClipgate d.base = 1 →
        bitOf (stepRecByte m n 6) 1 = false → blocksDone d n = true → d.ms.sent = none → d.ms.noJob = false → x.cause = none →
        leaderOf d = some l →
        ∃ s' t, exec .gateTimeout s = .next s' ∧ s.changesOnly s' [.mem, .ms, .chk, .events] ∧ s.sends s' [l] t ∧ t.nogo = true ∧
          t.cause = 8 ∧ t.step = n ∧ s'.mod.dev.ms.sent = some (n, x.attempt) ∧
          s'.mod.dev.base = (d.raise evMsGateTimeout { hasS := true, s := n.toNat }).base) ∧
      (∀ link l, d.ms.rejoinDue = some link → d.sow.app = none → leaderOf d = some l →
        (∀ r < 8, ∀ e ∈ (regionOf m r).ents, e.pending = false) →
        ∃ s' t, exec .moduleRejoin s = .next s' ∧ s.changesOnly s' [.sow, .ms] ∧ s'.mod.dev.ms.rejoinDue = none ∧ s.sends s' [l] t ∧
          t.type = 8 ∧ t.step = d.base.applied ∧ t.mark = d.base.applied ∧ (∀ r < 8, (regionOf s'.mod r).opened = none))) ∧
  (
    ∀ (s : State) (token : BitVec 512), s.takes token 2 = true →
      let t := tokenOf token
      stagedIn s.mod.dev t.step t.attempt = true → s.mod.dev.ms.decided ≠ some (t.step, t.attempt) →
      ∃ s', exec (.commitReceive token) s = .next s' ∧
        s'.mod = commitStep (s.mod.onDev fun d => takeLeader d t.src) t.step t.attempt t.mark ∧
        s'.mod.dev.base.applied = t.step ∧
        s'.mod.dev.base.cleared = (if stepNewer t.mark s.mod.dev.base.cleared then t.mark else s.mod.dev.base.cleared) ∧
        s'.mod.dev.sow.app = none)

/-- CAIRN_SWEEP, DENSE_COW_COPY, CAIRN_VOID and CAIRN_SEAL (R396 to R399): the sweep takes the next row, sets its bit and keeps its
record as of the cairn's step, none of an ABSENT one; dense regions are copied, and a full buffer makes the cairn VOID; a VOID cairn
ends its descriptor and goes; a cairn is sealed only when all of it is programmed, its step CLEARED and its mirror reported.
Rests in part on the model's own choices: log 10, 26. -/
def Obligations.CairnsAreSweptAndSealed : Prop :=
  ∀ (s : State) (step : Word32), s.mod.dev.stopped = false →
    let m := s.mod
    let d := m.dev
    (∀ c key t row, openCairn d step = some c → c.begun = true → c.cow = [] → c.sweep = some key → sweepAt c key = some (t, row) →
      rowKey t.id row ∉ c.bits →
      let x := readRow m t (t.verAt c.step) row c.step t.granRec
      ∃ s', exec (.cairnSweep step 1) s = .next s' ∧ s.changesOnly s' [.ms] ∧
        { c with cowBytes := 0, sweep := some (rowKey t.id row + 1), bits := c.bits ++ [rowKey t.id row]
                 rows := if x.gst = gstOk then kput c.rows (rowKey t.id row) x.data else c.rows } ∈ s'.mod.dev.ms.cairns) ∧
    (∀ c, openCairn d step = some c → c.begun = false → d.ms.cur = some step → blocksDone d step = true → c.denseDue ≠ [] →
      let n := sumNat (c.denseDue.map (·.2))
      (c.cowBytes + n ≤ cfgFlsCairnCfgCowbuf d.base * giB →
        ∃ s', exec (.denseCowCopy step) s = .next s' ∧ s.changesOnly s' [.ms] ∧
          { c with dense := c.dense ++ c.denseDue.map (fun r => (r.1, m.load r.1 r.2)), denseDue := [], cowBytes := c.cowBytes + n }
            ∈ s'.mod.dev.ms.cairns) ∧
      (cfgFlsCairnCfgCowbuf d.base * giB < c.cowBytes + n →
        ∃ s', exec (.denseCowCopy step) s = .next s' ∧ s.changesOnly s' [.ms, .events] ∧ c ∉ s'.mod.dev.ms.cairns ∧
          s'.mod.dev.base = (d.raise evCairnAborted { hasS := true, s := step.toNat, c := 0 }).base)) ∧
    (∀ c, (d.ms.cairns.find? fun c => c.step = step && c.role = 0 && (c.state = 2 || (c.state = 0 && c.pastReset))) = some c →
      c.state = 2 → c.pastReset = false →
      ∃ s' words, exec (.cairnVoid step) s = .next s' ∧ s'.pending = s.pending ∧ s'.fuses = s.fuses ∧ c ∉ s'.mod.dev.ms.cairns ∧
        s'.mod.dev.base.ended = d.base.ended ++ [⟨c.id, 0x20, words⟩]) ∧
    (∀ c mirror, openCairn d step = some c → c.begun = true → c.cow = [] → c.sweep = none → c.denseDue = [] →
      stepNewer step d.base.cleared = false → cfgFlsCairnCfgMirror d.base = 0 ∨ mirror = true →
      (d.ms.cairns.filter fun x => x.state = 1 && x.role = 0).length < cfgFlsCairnCfgKeep d.base → (d.ms.cairns.count c = 1) →
      ∃ s' blocks, exec (.cairnSeal step mirror) s = .next s' ∧ s'.pending = s.pending ∧ s'.fuses = s.fuses ∧
        { c with state := 1 } ∈ s'.mod.dev.ms.cairns ∧ c ∉ s'.mod.dev.ms.cairns ∧
        s'.mod.dev.base.ended = d.base.ended ++ [⟨c.id, 0, [step.toNat, blocks, 0]⟩] ∧
        s'.mod.dev.base.evt.seq = d.base.evt.seq + 1)

/-- REPLAY_STREAM_RECEIVE, REPLAY_COMPARE, VOTE_SETTLE and EXPRESS_SAMPLE_FORWARD (R403, R405, R408, R410, R411, Table 10.5): a good
stream gives a fingerprint and a bad one discards the sample; equal fingerprints settle it, unequal ones go to a third plot; of three
the odd plot is to run the pack, and with no pack is treated as passing.
Rests in part on the model's own choices: log 53, 60. -/
def Obligations.SamplesAreVoted : Prop :=
  ∀ (s : State) (S : Fin 4352) (fid index : Nat) (x : Sample), s.mod.dev.stopped = false →
    let d := s.mod.dev
    sampleOf d S fid index = some x → x.s = S.val →
    let put := fun (y : Sample) => d.chk.samples.map fun z => if z = x then y else z
    (∀ (plot : Fin 4352) fp, x.r = plot.val →
      ∃ s', exec (.replayStreamReceive plot S fid index true fp) s = .next s' ∧ s.changesOnly s' [.chk] ∧
        s'.mod.dev.chk = { d.chk with samples := put { x with rfp := some fp } }) ∧
    (∀ (plot : Fin 4352) fp, x.r ≠ plot.val → x.t = some plot.val →
      ∃ s', exec (.replayStreamReceive plot S fid index true fp) s = .next s' ∧ s.changesOnly s' [.chk] ∧
        s'.mod.dev.chk = { d.chk with samples := put { x with tfp := some fp } }) ∧
    (∀ (plot : Fin 4352) fp, x.r = plot.val ∨ x.t = some plot.val →
      ∃ s', exec (.replayStreamReceive plot S fid index false fp) s = .next s' ∧ s.changesOnly s' [.chk, .events] ∧
        s'.mod.dev.chk.samples = d.chk.samples.erase x ∧ (healthOf s'.mod.dev S).again = some (x.step + 1) ∧
        s'.mod.dev.base = ((d.count cChkShadowCrc plot 1).raise evChkShadowCrc
          { hasS := true, s := x.step.toNat, entry := x.entry, exec := x.index } (instDie plot) x.logical).base) ∧
    (∀ (third : Fin 4352) fp, x.st = .replay → x.rfp = some fp →
      (fp = x.ofp →
        ∃ s', exec (.replayCompare S fid index third) s = .next s' ∧ s.changesOnly s' [.chk] ∧
          s'.mod.dev.chk.samples = d.chk.samples.erase x) ∧
      (fp ≠ x.ofp → instDie third ≠ instDie x.s → healthyPool d third = true →
        ∃ s', exec (.replayCompare S fid index third) s = .next s' ∧ s.changesOnly s' [.chk, .events] ∧
          s'.mod.dev.chk.samples = put { x with st := .third, t := some third.val } ∧ x.step ∈ (healthOf s'.mod.dev S).bad ∧
          s'.mod.dev.base = ((d.count cChkMismatch S 1).raise evChkMismatch
            { hasS := true, s := x.step.toNat, entry := x.entry, exec := x.index, x := some [x.s, x.r] }
            (instDie x.s) x.logical).base)) ∧
    (∀ r t ti pk, s.schedules = true → x.st = .third → x.rfp = some r → r ≠ x.ofp → x.tfp = some t → x.t = some ti → d.chk.pack = some pk →
      let ran := fun (odd : List Nat) (doubt : Bool) =>
        ∃ s', exec (.voteSettle S fid index) s = .next s' ∧ s.changesOnly s' [.chk] ∧
          s'.mod.dev.chk.samples = put { x with st := .pack odd doubt } ∧ ∀ i ∈ odd, (healthOf s'.mod.dev i).owes = true
      (t = x.ofp → ran [x.r] false) ∧ (r = t → t ≠ x.ofp → ran [x.s] true) ∧ (r ≠ t → t ≠ x.ofp → ran [x.s, x.r, ti] true)) ∧
    (∀ r ti, s.schedules = true → x.st = .third → x.rfp = some r → x.tfp = some x.ofp → x.t = some ti → r ≠ x.ofp → d.chk.pack = none →
      (healthOf d x.r).strikes = [] → 1 < cfgChkRepairCfgStrikes d.base →
      ∃ s', exec (.voteSettle S fid index) s = .next s' ∧ s.changesOnly s' [.chk] ∧
        s'.mod.dev.chk.samples = d.chk.samples.erase x ∧ (healthOf s'.mod.dev x.r).strikes = [d.nowNs]) ∧
    (∀ tag (R : Fin 4352), x.express.isSome = true → x.st = .replay → replayOk d S R = true →
      ∃ s', exec (.expressSampleForward S fid index tag R) s = .next s' ∧ s.changesOnly s' [.chk] ∧
        s'.mod.dev.chk.samples = put { x with express := some tag, r := R })

/-- PACK_RUN, PACK_OVERDUE, FALLOW_HOURLY_PACK and CAL_SLOT (R59, R411, R413, R425, R426, R429): a plot that passes its pack returns
to service; one that fails is fallow and convicted once more; an overdue plot is withheld and owes the run; RETHRS hourly passes make
a fallow plot a healthy spare and one failure starts the count again; a CAL slot completes, and what runs in it changes no SRAM byte
outside its scratch.
Rests in part on the model's own choices: log 53. -/
def Obligations.PacksRunOnPlots : Prop :=
  ∀ (s : State) (plot : Fin 4352), s.mod.dev.stopped = false →
    let d := s.mod.dev
    let h := healthOf d plot
    (∀ pk, d.chk.pack = some pk → h.owes = true → (d.plot plot).blocks = [] → qcUp d plot = true → plotCases d ≠ 0 →
      (∀ y ∈ d.chk.samples, ∀ l b, y.st ≠ .pack l b) →
      (∃ s', exec (.packRun plot 0) s = .next s' ∧ s.changesOnly s' [.chk, .events] ∧
        healthOf s'.mod.dev plot = { h with owes := false, unhealthy := false, packDone := d.nowNs, nextCase := 0 } ∧
        s'.mod.dev.base = (d.count cPackCase 0 (plotCases d)).base) ∧
      (∀ fails l, 0 < fails → h.fallow = false → logicalOf d.base plot = some l →
        ∃ s', exec (.packRun plot fails) s = .next s' ∧ s'.pending = s.pending ∧ s'.fuses = s.fuses ∧ s'.mod.mem = s.mod.mem ∧
          (healthOf s'.mod.dev plot).fallow = true ∧ (healthOf s'.mod.dev plot).unhealthy = true ∧
          (healthOf s'.mod.dev plot).convictions = h.convictions + 1)) ∧
    (d.chk.pack.isSome = true → h.owes = false → h.retired = false →
      h.packDone + cfgChkRepairCfgPackhrs d.base * 3600000000000 < d.nowNs →
      ∃ s', exec (.packOverdue plot) s = .next s' ∧ s.changesOnly s' [.chk, .events] ∧
        healthOf s'.mod.dev plot = { h with owes := true } ∧
        s'.mod.dev.base = (d.raise evPackOverdue { x := some [plot.val] } (instDie plot) (unitOf d.base plot)).base) ∧
    (∀ pk, d.chk.pack = some pk → h.unhealthy = true → h.retired = false → logicalOf d.base plot = none → qcUp d plot = true →
      plotCases d ≠ 0 →
      (∀ fails, 0 < fails →
        ∃ s', exec (.fallowHourlyPack plot fails) s = .next s' ∧ s.changesOnly s' [.chk, .events] ∧
          healthOf s'.mod.dev plot = { h with passes := 0 }) ∧
      (h.passes + 1 < cfgChkRepairCfgRethrs d.base →
        ∃ s', exec (.fallowHourlyPack plot 0) s = .next s' ∧ s.changesOnly s' [.chk, .events] ∧
          healthOf s'.mod.dev plot = { h with passes := h.passes + 1 }) ∧
      (cfgChkRepairCfgRethrs d.base ≤ h.passes + 1 →
        ∃ s', exec (.fallowHourlyPack plot 0) s = .next s' ∧ s.changesOnly s' [.chk, .events] ∧
          (healthOf s'.mod.dev plot).unhealthy = false ∧ (healthOf s'.mod.dev plot).fallow = false ∧
          (healthOf s'.mod.dev plot).passes = 0 ∧
          s'.mod.dev.base = ((d.count cPackCase 0 (plotCases d)).raise evPlotReturned { x := some [plot.val] } (instDie plot)).base)) ∧
    (∀ e, (d.plot plot).seq.own = some e → recOpc e.record = 13 →
      (slotCase d plot e = none →
        ∃ s', exec (.calSlot plot none true) s = .next s' ∧ s'.fuses = s.fuses ∧ s'.pending = s.pending ∧
          s'.mod.mem = s.mod.mem ∧ s'.mod.dev = finishExec d plot .own e [0, 0, 0, 0, 0, 0] .none) ∧
      (∀ k pk, slotCase d plot e = some k → d.chk.pack = some pk →
        ∃ s', exec (.calSlot plot none true) s = .next s' ∧ s'.mod.mem = s.mod.mem ∧
          (∀ a, a < (opdBase e.record 0 e.index).toNat ∨ (opdBase e.record 0 e.index).toNat + 64 * ctrlBits e.record 31 16 ≤ a →
            kget 0 (s'.mod.dev.plot plot).sram a = kget 0 (d.plot plot).sram a) ∧
          (k + 1 < pk.cases.length → (healthOf s'.mod.dev plot).nextCase = k + 1) ∧
          (∀ j, j ≠ plot.val → s'.mod.dev.plot j = d.plot j)))

/-- UPDATE_CHECK, ENGINE_PACK_RUN and QUADRANT_CYCLE (R414, R415, R426, R431, Table 10.10): equal records settle the sample; a
checker that is odd is convicted and no step affected, a home engine that is odd is convicted and its rollback asked for, and no two
equal make the step SUSPECT; an engine's pack is noted; three convictions have the quadrant cycled once no application runs.
Rests in part on the model's own choices: log 53, 76. -/
def Obligations.EnginesAreChecked : Prop :=
  ∀ (s : State), s.mod.dev.stopped = false →
    let m := s.mod
    let d := m.dev
    (∀ (table : Fin 4096) (row : BitVec 40) step (checker third : Option (List Byte)) u,
      (d.chk.upds.find? fun u => u.table = table.val && u.row = row.toNat && u.step = step) = some u → u.home < 8 →
      let next : Nat := u.home / 4 * 4 + (u.home % 4 + 1) % 4
      let c := checker.getD (checkRecord m u)
      let t := third.getD (checkRecord m u)
      let home := updHome m u
      let ran := fun (P : State → Prop) => ∃ s', exec (.updateCheck table row step checker third) s = .next s' ∧
        s.changesOnly s' [.chk, .pwr, .events] ∧ s'.mod.dev.chk.upds = d.chk.upds.erase u ∧ P s'
      (c = home → ran fun s' => s'.mod.dev.chk.rbReq = d.chk.rbReq ∧ s'.mod.dev.pwr = d.pwr ∧
        s'.mod.dev.base = (d.count cUpdCheck next 1).base) ∧
      (c ≠ home → t = home → ran fun s' =>
        (kget EngineHealth.reset s'.mod.dev.chk.engines next).convicted = true ∧ s'.mod.dev.chk.rbReq = d.chk.rbReq) ∧
      (∀ a, c ≠ home → t = c → t ≠ home → (kget EngineHealth.reset d.chk.engines u.home).agreed = some a →
        stepNewer (a + 1) d.base.cleared = true → ran fun s' =>
        (kget EngineHealth.reset s'.mod.dev.chk.engines u.home).convicted = true ∧
        s'.mod.dev.chk.rbReq = d.chk.rbReq ++ [(a + 1, false)]) ∧
      (c ≠ home → t ≠ c → t ≠ home → stepNewer step d.base.cleared = true → ran fun s' =>
        s'.mod.dev.chk.rbReq = d.chk.rbReq ++ [(step, true)] ∧ s'.mod.dev.pwr = d.pwr)) ∧
    (∀ (e : Fin 8) pk, s.schedules = true → d.chk.pack = some pk → d.sow.app = none →
      ∃ s', exec (.enginePackRun e 0) s = .next s' ∧ s.changesOnly s' [.chk, .events] ∧
        kget EngineHealth.reset s'.mod.dev.chk.engines e =
          { kget EngineHealth.reset d.chk.engines e with packDone := d.nowNs }) ∧
    (∀ q : Fin 16, quadDue d q = true → d.pwr.cycle = none → d.pwr.waiting = [] → powerUp d = true →
      (d.sow.app.isSome = true →
        ∃ s', exec (.quadrantCycle q) s = .next s' ∧ s.changesOnly s' [.pwr] ∧
          s'.mod.dev.pwr = { d.pwr with waiting := [⟨q, none⟩] }) ∧
      (d.sow.app = none → ((quadPlots q).filter fun i => expressAt d.base i) = [] → (∀ i ∈ quadPlots q, (d.plot i).blocks = []) →
        ∃ s', exec (.quadrantCycle q) s = .next s' ∧ s.changesOnly s' [.pwr, .plots, .fw] ∧ s'.mod.dev.pwr.cycle = some ⟨q, none⟩ ∧
          s'.mod.dev.pwr.waiting = [] ∧ bitOf s'.mod.dev.pwr.on.toNat q = false ∧
          ∀ i ∈ quadPlots q, (s'.mod.dev.plot i).sram = (d.plot i).sram))

/-- KICK_SQ, SQ_POLL, DESCRIPTOR_FETCH, DESCRIPTOR_RUN_AHEAD, SEQ_MISMATCH_RECHECK and KICK_RESTART (R447 to R454): a read of
SQ_TAIL observes the doorbells it covers first; an entry whose SEQ matches becomes a descriptor, or ends at once with its status; a
mismatch is read again and a second one stops the ring; a restart resumes at the number given.
Rests in part on the model's own choices: log 28, 64. -/
def Obligations.DescriptorsAreFetched : Prop :=
  ∀ (s : State) (ring : Fin 256), s.mod.dev.hifUp = true → sqUsable s.mod.dev ring = true →
    let d := s.mod.dev
    let q := sqOf d ring
    let sqIs := fun (s' : State) (q' : Sq) => sqOf s'.mod.dev ring = q' ∧ ∀ j, j ≠ ring.val → sqOf s'.mod.dev j = sqOf d j
    (∀ tail, stepNewer tail q.tail = true →
      let q' := { q with tail := tail, seen := q.seen ++ [⟨tail, d.base.now, d.base.applied, d.base.cleared⟩] }
      (∀ (g : Fin 4) rings, ring.val / 64 = g.val → rings.getLsbD (ring.val % 64) = true →
        ∃ s', exec (.kickSq g rings [(ring, tail)]) s = .next s' ∧ s.changesOnly s' [.hif] ∧ sqIs s' q') ∧
      (cfgRingSqCfgPoll d.base ring ≠ 0 → d.hif.ready = true →
        ∃ s', exec (.sqPoll ring tail) s = .next s' ∧ s.changesOnly s' [.hif] ∧ sqIs s' q')) ∧
    (∀ entry : BitVec 512, mayFetch d ring = true → kfind q.ahead q.next.toNat = none →
      let w := entry.toNat
      (q.recheck = false → descFld w 3 1 = wantSeq d ring → descRoom d (descFld w 0 1) = true →
        (fetchFault d ring w = none →
          ∃ s', exec (.descriptorFetch ring entry) s = .next s' ∧ s.changesOnly s' [.hif] ∧
            (sqOf s'.mod.dev ring).next = q.next + 1 ∧ s'.mod.dev.hif.descs = d.hif.descs ++
              [⟨d.hif.nextId, ring, q.next, entry, descFld w 2 1, false, false, seenFor d q⟩]) ∧
        (∀ st, fetchFault d ring w = some st →
          ∃ s', exec (.descriptorFetch ring entry) s = .next s' ∧ s.onlyEnds s' d.hif.nextId st [] ∧
            (sqOf s'.mod.dev ring).next = q.next + 1)) ∧
      (q.recheck = false → descFld w 3 1 ≠ wantSeq d ring →
        ∃ s', exec (.descriptorFetch ring entry) s = .next s' ∧ s.changesOnly s' [.hif] ∧
          (sqOf s'.mod.dev ring).recheck = true ∧ (sqOf s'.mod.dev ring).next = q.next) ∧
      (q.recheck = true → descFld w 3 1 = wantSeq d ring → descRoom d (descFld w 0 1) = true → fetchFault d ring w = none →
        ∃ s', exec (.seqMismatchRecheck ring entry) s = .next s' ∧ s.changesOnly s' [.hif] ∧
          (sqOf s'.mod.dev ring).next = q.next + 1 ∧ (sqOf s'.mod.dev ring).recheck = false) ∧
      (q.recheck = true → descFld w 3 1 ≠ wantSeq d ring →
        ∃ s', exec (.seqMismatchRecheck ring entry) s = .next s' ∧ s.changesOnly s' [.hif, .events] ∧
          sqIs s' { q with stopped := true, recheck := false } ∧
          s'.mod.dev.base = (d.raise evRingStopped { n := q.next.toNat } 0 ring).base)) ∧
    (∀ (number : Word32) (entry : BitVec 512), d.hif.ready = true → q.stopped = false →
      (number - q.next).toNat < sqSize d.base ring →
      ∃ s', exec (.descriptorRunAhead ring number entry) s = .next s' ∧ s.changesOnly s' [.hif] ∧
        sqIs s' { q with ahead := kput q.ahead number.toNat entry }) ∧
    (∀ pos : Word32, q.stopped = true →
      ∃ s', exec (.kickRestart ring pos) s = .next s' ∧ s.changesOnly s' [.hif] ∧
        sqIs s' { q with stopped := false, recheck := false, next := pos, ahead := [] })

/-- COMPLETION_POST, CQ_COALESCE_TIMER, CQ_HEAD_REREAD, EVENT_RECORD_POST, HOST_READ_FAILURE and SC1_SHARE_CHECK (R435, R471 to R473,
R478, R611): the oldest completion due is written at its entry, or held for a full ring with one event for each filling; a claim of
more consumed than written is ignored; the oldest record goes to the event ring; a failed read ends its descriptor, stops its ring,
or keeps its count.
Rests in part on the model's own choices: log 52, 64. -/
def Obligations.CompletionsAndEventsArePosted : Prop :=
  ∀ (s : State), s.mod.dev.hifUp = true →
    let d := s.mod.dev
    (∀ slow e l x, d.base.ended = e :: l → descOf d e.id = some x → x.lost = false → x.quiet = false ∨ e.status ≠ 0 →
      let q := cqOf d x.cq
      let descs := d.hif.descs.filter fun y => y.id ≠ x.id
      (q.held = [] → cqFree d x.cq ≠ 0 → e.status < 256 →
        ∃ s' bytes, exec (.completionPost slow) s = .next s' ∧ s.changesOnly s' [.hif, .base, .events] ∧
          s'.mod.dev.base.ended = l ∧ s'.mod.dev.hif.descs = descs ∧
          (cqOf s'.mod.dev x.cq).posted = q.posted + 1 ∧
          .write (cfgRingCqBaseBase d.base x.cq * 4096 + 32 * (q.posted.toNat % cqSize d.base x.cq)) bytes ∈ s'.mod.dev.base.out ∧
          bytes.length = 32 ∧ fieldAt bytes 0 4 = x.tag ∧ fieldAt bytes 4 1 = e.status ∧ fieldAt bytes 5 1 = x.kind ∧
          fieldAt bytes 8 4 = (sqOf d x.ring).next.toNat) ∧
      (cqFree d x.cq = 0 →
        ∃ s', exec (.completionPost slow) s = .next s' ∧ s.changesOnly s' [.hif, .base, .events] ∧
          s'.mod.dev.hif.descs = descs ∧ cqOf s'.mod.dev x.cq = { q with full := true, held := q.held ++ [⟨x, e, slow⟩] } ∧
          s'.mod.dev.base.out = d.base.out ∧
          (q.full = false → s'.mod.dev.base.evt.seq = d.base.evt.seq + 1) ∧ (q.full = true → s'.mod.dev.base.evt = d.base.evt))) ∧
    (∀ slow e l x, d.base.ended = e :: l → descOf d e.id = some x → x.quiet = true → e.status = 0 →
      ∃ s', exec (.completionPost slow) s = .next s' ∧ s.changesOnly s' [.hif, .base] ∧ s'.mod.dev.base.out = d.base.out ∧
        s'.mod.dev.base.ended = l) ∧
    (∀ cq : Fin 256, cfgRingCqCfgCoalus d.base cq ≠ 0 → (cqOf d cq).unsig ≠ 0 →
      ∃ s', exec (.cqCoalesceTimer cq) s = .next s' ∧ s.changesOnly s' [.hif, .base] ∧
        cqOf s'.mod.dev cq = { cqOf d cq with unsig := 0 } ∧
        s'.mod.dev.base = d.base.msixSend (cfgRingCqCfgVector d.base cq)) ∧
    (∀ (cq : Fin 256) value, cqUsable d cq = true → cqFree d cq < 64 → (cqOf d cq).held = [] →
      ∃ s', exec (.cqHeadReread (.cq cq) value) s = .next s' ∧ s.changesOnly s' [.hif] ∧
        (cqOf s'.mod.dev cq).head = (if (value - (cqOf d cq).head).toNat ≤ ((cqOf d cq).posted - (cqOf d cq).head).toNat then value
          else (cqOf d cq).head) ∧ (cqOf s'.mod.dev cq).posted = (cqOf d cq).posted) ∧
    (∀ e l, d.base.evt.ringSet = true → d.base.evt.held = e :: l → d.base.posts e = true → evFree d.base ≠ 0 →
      let p := d.base.evt.posted.toNat
      let n := 2 ^ d.base.evt.log2
      ∃ s', exec .eventRecordPost s = .next s' ∧ s.changesOnly s' [.base, .events] ∧
        .write (d.base.evt.base + 128 * (p % n)) (e.bytes (ringPhase p n) d.base.evt.lost) ∈ s'.mod.dev.base.out ∧
        s'.mod.dev.base.evt = { d.base.evt with held := l, posted := d.base.evt.posted + 1, lost := 0 }) ∧
    (∀ desc x addr, descOf d desc = some x → x.begun = false → descMayBegin d x = true → x.kind = 1 ∨ x.kind = 9 →
      ∃ s', exec (.hostReadFailure (.data desc) addr) s = .next s' ∧ s.changesOnly s' [.hif, .base, .fab, .events] ∧
        s.endsDesc s' desc 0x13 [] ∧ s'.mod.dev.base.evt = (d.raise evHostReadError { t := x.tag, d := addr.toNat } 0 x.ring).base.evt) ∧
    (∀ (ring : Fin 256) addr, sqUsable d ring = true → (sqOf d ring).stopped = false →
      let ev := ((d.raise evHostReadError { d := addr.toNat } 0 ring).raise evRingStopped { n := (sqOf d ring).next.toNat } 0 ring).base
      (∃ s', exec (.hostReadFailure (.descriptor ring) addr) s = .next s' ∧ s.changesOnly s' [.hif, .events] ∧
        (sqOf s'.mod.dev ring).stopped = true ∧ s'.mod.dev.base = ev) ∧
      (∃ s', exec (.hostReadFailure (.tail ring) addr) s = .next s' ∧ s.changesOnly s' [.hif, .events] ∧
        (sqOf s'.mod.dev ring).stopped = true ∧ s'.mod.dev.base = ev)) ∧
    (∀ addr, ∃ s', exec (.hostReadFailure .count addr) s = .next s' ∧ s.changesOnly s' [.events] ∧
      s'.mod.dev.base = (d.raise evHostReadError { d := addr.toNat }).base) ∧
    (∀ (sp : Fin 4) shortfall, shortfall ≠ 0 → kfind d.hif.shareSaid sp ≠ some (tickIdx d.base) →
      ∃ s', exec (.sc1ShareCheck sp shortfall) s = .next s' ∧ s.changesOnly s' [.hif, .events] ∧
        s'.mod.dev.base = (d.raise evSc1ShareShort { n := shortfall } sp).base ∧
        kfind s'.mod.dev.hif.shareSaid sp = some (tickIdx d.base))

/-- EXPRESS_LOOKUP, STEP_RUN, STEP_INPUT_READ, FENCE and EVENT_RING_SET (R455, R463 to R465, R477, R478, R616): a lookup of rows
writes their slices and ends with the highest status of its indices; the next consecutive step is queued and any other refused; an
input is noted as read or failed; a FENCE ends when its condition holds and not before; the new event ring is empty.
Rests in part on the model's own choices: log 30, 65. -/
def Obligations.LookupsStepsAndFences : Prop :=
  ∀ (s : State) (desc : Nat) (x : Desc),
    let d := s.mod.dev
    (∀ idx bags weights fails, s.descReady desc 1 x →
      (tdescAt s.mod (x.fld 8 2) = none →
        ∃ s', exec (.expressLookup desc idx bags weights fails) s = .next s' ∧ s.onlyEnds s' desc 0x15 []) ∧
      (∀ t, tdescAt s.mod (x.fld 8 2) = some t → t.kind = 1 →
        ∃ s', exec (.expressLookup desc idx bags weights fails) s = .next s' ∧ s.onlyEnds s' desc 0x10 []) ∧
      (∀ t, tdescAt s.mod (x.fld 8 2) = some t → t.kind = 0 → bitsOf (x.fld 10 1) 2 1 = 0 →
        (x.fld 12 2 + 1) * t.pw ≤ 0x100000 → x.fld 32 8 = 0 →
        let target := if bitOf (x.fld 10 1) 0 then x.seen.applied else x.seen.cleared
        let r := expressRows t target fails 0 ((List.range (x.fld 12 2 + 1)).map fun j => (nth 0#64 idx j).toNat) (s.begun desc) []
        ∃ s' words, exec (.expressLookup desc idx bags weights fails) s = .next s' ∧ s'.mod.mem = r.2.mem ∧
          s'.mod.dev.base.out = r.2.dev.base.out ++ [.write (x.fld 24 8) (r.1.map (·.2)).flatten] ∧
          s'.mod.dev.base.ended = r.2.dev.base.ended ++
            [⟨desc, (r.1.map (·.1)).foldl (fun a g => max a (gstStatus g)) 0, target.toNat :: words⟩])) ∧
    (s.descReady desc 2 x →
      let step := BitVec.ofNat 32 (x.fld 8 4)
      (d.ms.noJob = true → ∃ s', exec (.stepRun desc) s = .next s' ∧ s.onlyEnds s' desc 0x14 [step.toNat, 0, 0]) ∧
      (d.ms.noJob = false → d.ms.halted = true →
        ∃ s', exec (.stepRun desc) s = .next s' ∧ s.onlyEnds s' desc 0x1C [step.toNat, 0, 0]) ∧
      (d.ms.noJob = false → d.ms.halted = false → step ≠ d.hif.stepNext.getD (d.base.applied + 1) →
        ∃ s', exec (.stepRun desc) s = .next s' ∧ s.onlyEnds s' desc 0x1A [step.toNat, 0, 0]) ∧
      (d.ms.noJob = false → d.ms.halted = false → step = d.hif.stepNext.getD (d.base.applied + 1) →
        d.hif.stepRing = none ∨ d.hif.stepRing = some x.ring → x.fld 32 8 < 2 ^ 56 → x.fld 40 8 < 2 ^ 56 → x.fld 48 1 = 0 →
        ∃ s', exec (.stepRun desc) s = .next s' ∧ s.changesOnly s' [.hif, .ms] ∧ s'.mod.dev.hif.stepNext = some (step + 1) ∧
          s'.mod.dev.ms = { d.ms with runs := d.ms.runs ++ [⟨x.ring, desc, step, none, [], false⟩] })) ∧
    (∀ step r plan, d.stopped = false → runOf d step = some r → r.input = none → d.ms.halted = false →
      (step - d.base.applied).toNat ≤ 3 → (∀ r', runOf d (d.base.applied + 1) = some r' → r'.begun = true) → step ≠ d.base.applied + 1 →
      let runs := fun ok => d.ms.runs.map fun y => if y.step = step then { y with input := some ok, plan := plan, begun := false } else y
      (∃ s', exec (.stepInputRead step true plan) s = .next s' ∧ s.changesOnly s' [.ms] ∧
        s'.mod.dev.ms = { d.ms with runs := runs true }) ∧
      (∃ s', exec (.stepInputRead step false plan) s = .next s' ∧ s.changesOnly s' [.ms, .events] ∧
        s'.mod.dev.ms = { d.ms with runs := runs false } ∧ s'.mod.dev.base.evt.seq = d.base.evt.seq + 1)) ∧
    (d.hifUp = true → descOf d desc = some x → x.kind = 10 → descMayBegin d x = true →
      let holds := (x.fld 8 1 = 0 ∧ earlier d x = []) ∨ (x.fld 8 1 = 1 ∧ ∀ y ∈ d.hif.descs, x.id ≤ y.id) ∨
        (x.fld 8 1 = 2 ∧ stepNewer (BitVec.ofNat 32 (x.fld 12 4)) d.base.applied = false) ∨
        (x.fld 8 1 = 3 ∧ stepNewer (BitVec.ofNat 32 (x.fld 12 4)) d.base.cleared = false)
      (holds → ∃ s', exec (.fence desc) s = .next s' ∧ s.onlyEnds s' desc 0 []) ∧
      (¬holds → x.fld 8 1 < 4 → exec (.fence desc) s = .next s)) ∧
    (s.descReady desc 12 x → x.lost = false →
      ∃ s', exec (.eventRingSet desc) s = .next s' ∧ s.changesOnly s' [.hif, .base, .fab, .events] ∧ s.endsDesc s' desc 0 [] ∧
        s'.mod.dev.base.evt = { d.base.evt with
          ringSet := true, base := x.fld 8 8, log2 := x.fld 16 1, minSev := x.fld 17 1, vector := x.fld 18 2, areas := x.fld 20 2
          posted := 0, head := 0 })

/-- TABLE_CREATE, TABLE_IMPORT, SHARD_EXPORT and VERSION_SWITCH (R362, R364, R456, R457, R459, R462): TABLE_CREATE makes its checks in
order and changes nothing where one fails; an import names a version it may write and waits for the milestone where it is the current
one; a LIVE export reads as of cleared-through; a switch waits for its COMMIT.
Rests in part on the model's own choices: log 29, 65. -/
def Obligations.TablesAreCreatedAndSwitched : Prop :=
  ∀ (s : State) (desc : Nat) (x : Desc),
    let m := s.mod
    let d := m.dev
    (∀ image, s.descReady desc 3 x → x.fld 16 1 = 0 →
      let i := padTo 192 image
      let id := fieldAt i 2 2 % 4096
      let fails := fun st => ∃ s', exec (.tableCreate desc image) s = .next s' ∧ s.onlyEnds s' desc st []
      (d.tab.noArray = true → fails 0x24) ∧
      (d.tab.noArray = false → fieldAt i 188 4 ≠ crc32c (i.take 188) → fails 0x10) ∧
      (∀ t, d.tab.noArray = false → fieldAt i 188 4 = crc32c (i.take 188) → tdescAt m id = some t → fails 0x16) ∧
      (d.tab.noArray = false → fieldAt i 188 4 = crc32c (i.take 188) → tdescAt m id = none → imageBad d.base i = true → fails 0x10) ∧
      (∀ rm m1, d.tab.noArray = false → fieldAt i 188 4 = crc32c (i.take 188) → tdescAt m id = none → imageBad d.base i = false →
        let t := parseTd (i ++ zeros 64)
        t.pgmap = 0 → newMap (s.begun desc) t t.extent = some (rm, m1) →
        ∃ s', exec (.tableCreate desc image) s = .next s' ∧ s'.pending = s.pending ∧ s'.fuses = s.fuses ∧
          s'.mod.mem = (m1.putTd id { t with rowmap := rm, granG := t.grans.1, granRec := t.grans.2 }).mem ∧
          s'.mod.dev.base.ended = m1.dev.base.ended ++ [⟨desc, 0, []⟩])) ∧
    (∀ recs, s.descReady desc 4 x →
      (tdescAt m (x.fld 8 2) = none → ∃ s', exec (.tableImport desc recs) s = .next s' ∧ s.onlyEnds s' desc 0x15 []) ∧
      (∀ t, tdescAt m (x.fld 8 2) = some t → bitOf (x.fld 12 1) 2 = false → bitOf (x.fld 12 1) 0 = false →
        let b := padTo (x.fld 24 8) recs
        let all := shardRecs (b.length / 128 + 1) b
        let good := all.filter fun r => r.ok t t.extent
        let rows := good.flatMap fun r => r.ents.filterMap fun e => importRow t r e (bitOf (x.fld 12 1) 1) desc
        (x.fld 10 2 ≠ t.version → ∃ s', exec (.tableImport desc recs) s = .next s' ∧ s.onlyEnds s' desc 0x17 []) ∧
        (x.fld 10 2 = t.version → t.kind = 0 → rows ≠ [] →
          ∃ s', exec (.tableImport desc recs) s = .next s' ∧ s.changesOnly s' [.hif, .sow] ∧ s'.mod.dev.sow = { d.sow with
            imports := d.sow.imports ++ rows, impJobs := d.sow.impJobs ++ [(desc, rows.length, all.length - good.length)] }))) ∧
    (s.descReady desc 5 x → (d.sow.live.find? fun l => l.1 = desc) = none →
      (bitOf (x.fld 10 1) 0 = false → tdescAt m (x.fld 8 2) = none →
        ∃ s', exec (.shardExport desc) s = .next s' ∧ s.onlyEnds s' desc 0x15 []) ∧
      (bitOf (x.fld 10 1) 0 = true → cartsIn d.tier = 0 →
        ∃ s', exec (.shardExport desc) s = .next s' ∧ s.onlyEnds s' desc 0x1E []) ∧
      (∀ t, bitOf (x.fld 10 1) 0 = false → tdescAt m (x.fld 8 2) = some t →
        ∃ s', exec (.shardExport desc) s = .next s' ∧ s'.mod.dev.sow.live = d.sow.live ++ [(desc, d.base.cleared, false)] ∧
          s'.mod.dev.base.ended = d.base.ended ∧
          ⟨desc, t.id, (t.verAt d.base.cleared).version⟩ ∈ s'.mod.dev.tab.pins)) ∧
    (∀ step, d.stopped = false → descOf d desc = some x → (d.sow.live.find? fun l => l.1 = desc) = some (desc, step, true) →
      ∃ s', exec (.shardExport desc) s = .next s' ∧ s.endsDesc s' desc 0x22 [step.toNat, 0, 0] ∧
        (∀ l ∈ s'.mod.dev.sow.live, l.1 ≠ desc) ∧ (∀ p ∈ s'.mod.dev.tab.pins, p.holder ≠ desc)) ∧
    (s.descReady desc 6 x →
      (tdescAt m (x.fld 8 2) = none → ∃ s', exec (.versionSwitch desc) s = .next s' ∧ s.onlyEnds s' desc 0x15 []) ∧
      (∀ t, tdescAt m (x.fld 8 2) = some t →
        (((d.tab.switches.any fun w => w.table = t.id) = true ∨
          (¬(t.pendValid = true ∧ x.fld 10 2 = t.pendVersion) ∧ x.fld 10 2 ≠ t.version)) →
          ∃ s', exec (.versionSwitch desc) s = .next s' ∧ s.onlyEnds s' desc 0x17 []) ∧
        ((d.tab.switches.any fun w => w.table = t.id) = false → t.pendValid = true → x.fld 10 2 = t.pendVersion → x.fld 12 1 = 0 →
          t.extent ≤ kget t.extent d.tab.pendExtent t.id →
          ∃ s', exec (.versionSwitch desc) s = .next s' ∧ s.changesOnly s' [.mem, .hif, .tab] ∧
            s'.mod.mem = (m.putTd t.id { t with switchPending := true }).mem ∧
            s'.mod.dev.tab.switches = d.tab.switches ++ [⟨desc, t.id, none⟩]) ∧
        ((d.tab.switches.any fun w => w.table = t.id) = false → t.pendValid = false → x.fld 10 2 = t.version → x.fld 12 1 = 1 →
          ∃ s', exec (.versionSwitch desc) s = .next s' ∧ s.changesOnly s' [.hif, .tab] ∧
            s'.mod.dev.tab.switches = d.tab.switches ++ [⟨desc, t.id, some ⟨some (x.fld 13 1 == 1), none, none, none, none⟩⟩])))

/-- CAIRN_WRITE, CAIRN_RESTORE_JOB, CAIRN_RESTORE_ROWS, COPY and EVACUATE (R8, R315, R393 to R395, R460, R461): a cairn is opened for a
step still to come; a restore leaves the cairn's step as the latest APPLIED and the cleared one, with the halt ended; COPY reports the
bytes done and ends at the first fault; EVACUATE begins on a unit in service.
Rests in part on the model's own choices: log 65, 73. -/
def Obligations.CairnsCopiesAndEvacuations : Prop :=
  ∀ (s : State) (desc : Nat) (x : Desc),
    let m := s.mod
    let d := m.dev
    let c := BitVec.ofNat 32 (x.fld 8 4)
    (∀ dlist, s.descReady desc 7 x →
      (cartsIn d.tier = 0 → ∃ s', exec (.cairnWrite desc dlist) s = .next s' ∧ s.onlyEnds s' desc 0x1E [c.toNat, 0, 0]) ∧
      (cartsIn d.tier ≠ 0 → stepNewer c d.base.applied = false →
        ∃ s', exec (.cairnWrite desc dlist) s = .next s' ∧ s.onlyEnds s' desc 0x1B [c.toNat, 0, 0]) ∧
      (cartsIn d.tier ≠ 0 → stepNewer c d.base.applied = true → x.fld 12 1 = 0 → x.fld 13 1 = 0 →
        ∃ s' k, exec (.cairnWrite desc dlist) s = .next s' ∧ s.changesOnly s' [.hif, .ms] ∧
          s'.mod.dev.ms = { d.ms with cairns := d.ms.cairns ++ [k] } ∧ k.step = c ∧ k.state = 0 ∧ k.begun = false ∧ k.id = desc ∧
          k.denseDue = [])) ∧
    (∀ served, s.descReady desc 8 x → x.fld 12 1 = 0 → cartsIn d.tier ≠ 0 →
      let own := d.ms.cairns.find? fun k => k.state = 1 && k.step = c && decide (k.kidx = cfgFabMsCfgKidx d.base)
      (d.ms.halted = false → d.ms.runs ≠ [] →
        ∃ s', exec (.cairnRestoreJob desc served) s = .next s' ∧ s.onlyEnds s' desc 0x1D [c.toNat, 0, 0]) ∧
      (d.ms.runs = [] → own = none → served = none →
        ∃ s', exec (.cairnRestoreJob desc served) s = .next s' ∧ s.onlyEnds s' desc 0x1F [c.toNat, 0, 0]) ∧
      (∀ k n ok m1, d.ms.runs = [] → own = some k → restoreJob (s.begun desc) c ⟨k.tables, k.rows, k.dense⟩ = some (n, ok, m1) →
        m1.dev.tab.switches = [] →
        ∃ s', exec (.cairnRestoreJob desc served) s = .next s' ∧ s'.mod.mem = m1.mem ∧ s'.mod.dev.base.applied = c ∧
          s'.mod.dev.base.cleared = c ∧ s'.mod.dev.ms.halted = false ∧ s'.mod.dev.ms.steps = [] ∧
          s'.mod.dev.base.ended = m1.dev.base.ended ++ [⟨desc, if ok then 0 else 0x18, [c.toNat, n, 0]⟩])) ∧
    (s.descReady desc 8 x → x.fld 12 1 = 1 → cartsIn d.tier ≠ 0 →
      (cairnNamed d (x.fld 8 4) = none →
        ∃ s', exec (.cairnRestoreRows desc) s = .next s' ∧ s.onlyEnds s' desc 0x1F [x.fld 8 4, 0, 0]) ∧
      (∀ k r b t m1, cairnNamed d (x.fld 8 4) = some k → d.tier.lost = [r] → kfind k.rows (rowKey r.1 r.2) = some b →
        tdescAt m r.1 = some t → restoreRowTo (s.begun desc) t t.curVer r.2 b = some m1 →
        ∃ s', exec (.cairnRestoreRows desc) s = .next s' ∧ s'.mod.mem = m1.mem ∧ r ∉ s'.mod.dev.tier.lost ∧
          s'.mod.dev.base.ended = m1.dev.base.ended ++ [⟨desc, 0, [k.step.toNat, 1, 0]⟩])) ∧
    (∀ host, s.descReady desc 9 x → bitOf (x.fld 32 1) 0 = false →
      let r := copyPieces desc (x.fld 8 8) (x.fld 16 8) (x.fld 32 1) x.lost host (x.fld 24 8 / 64) 0 (s.begun desc)
      (r.2.1 = none →
        ∃ s', exec (.copy desc host) s = .next s' ∧ s'.mod.mem = r.2.2.mem ∧ s'.mod.dev.base.out = r.2.2.dev.base.out ∧
          s'.mod.dev.base.ended = r.2.2.dev.base.ended ++ [⟨desc, 0, [0, 64 * (x.fld 24 8 / 64), 0]⟩]) ∧
      (∀ f, r.2.1 = some f → (∀ da n, f ≠ .remoteWait da n) →
        ∃ s', exec (.copy desc host) s = .next s' ∧ s'.mod.mem = r.2.2.mem ∧
          s'.mod.dev.base.ended = r.2.2.dev.base.ended ++ [⟨desc, 0x12, [0, r.1, 0]⟩])) ∧
    (s.descReady desc 11 x →
      (evacNamed d x = none → ∃ s', exec (.evacuate desc) s = .next s' ∧ s.onlyEnds s' desc 0x10 []) ∧
      (∀ k u, evacNamed d x = some (k, u) → (d.tier.evacs.any fun e => decide (e.kind = k ∧ e.unit = u)) = false →
        ∃ s', exec (.evacuate desc) s = .next s' ∧ s'.mod.mem = m.mem ∧ s'.mod.dev = startEvac (d.begin desc) k u (some desc)))

/-- BAR0_BAD_ACCESS, REGISTER_WRITE, BAR2_READ and BAR2_WRITE (R12, R436, R437, R441, R444, R520): an access of a wrong size or
alignment has no effect but Unsupported Request; a setup register takes what is written until the lock and nothing after it; BAR2
reads and writes device memory at the window's DA, and the staging buffer until the firmware is loaded.
HIF_SETUP_DONE and FUNCTION_LEVEL_RESET (R440, R479): the first write of 1 locks every block; any later one, and a write of 0, has
no effect; a function-level reset unlocks the host interface alone, empties its rings and leaves the other blocks locked; the lock
after it reports what was lost.
Rests in part on the model's own choices: log 42, 64. -/
def Obligations.BarsSetupAndFlr : Prop :=
  (
    ∀ (s : State), s.mod.dev.hifUp = true →
      let m := s.mod
      let d := m.dev
      (∀ (off : BitVec 26) size, (size ≠ 4 ∧ size ≠ 8) ∨ off.toNat % size ≠ 0 →
        ∃ s', exec (.bar0BadAccess off size) s = .next s' ∧ s.changesOnly s' [.base] ∧ s'.mod.dev.base = { d.base with out := d.base.out ++ [.ur] }) ∧
      (∀ (value : Word64), d.base.lockHif = false → regVal d.base 0x10 % 4096 = 0 →
        ∃ s', exec (.registerWrite 0x10 true value) s = .next s' ∧ s.changesOnly s' [.base] ∧
          regVal s'.mod.dev.base 0x10 = value.toNat / 4096 * 4096 ∧ (∀ o, o ≠ 0x10 → regVal s'.mod.dev.base o = regVal d.base o)) ∧
      (∀ (off : BitVec 26) (value : Word64) r i, d.base.lockHif = true → d.base.lockAll = true → off.toNat % 4 = 0 →
        regAt off.toNat = some (r, i) → msixWord off.toNat = none → (∀ f ∈ r.fields, f.acc = .rwl ∨ f.acc = .ro ∨ f.acc = .wo) →
        ∃ s', exec (.registerWrite off false value) s = .next s' ∧ s.changesOnly s' [.base] ∧
          ∀ o, regVal s'.mod.dev.base o = regVal d.base o) ∧
      (∀ (off : BitVec 36) n, n ≠ 0 → d.fw.bar2Open = true → d.stopped = false →
        (∀ b, m.demandRead .bar2 (bar2Da d off.toNat) n = .ok b →
          ∃ s', exec (.bar2Read off n) s = .next s' ∧ s.changesOnly s' [.base, .fab] ∧ s'.mod.dev.base.out = d.base.out ++ [.answer b]) ∧
        (∀ f, m.demandRead .bar2 (bar2Da d off.toNat) n = .error f → (∀ da k, f ≠ .remoteWait da k) →
          ∃ s', exec (.bar2Read off n) s = .next s' ∧ s'.mod.mem = m.mem ∧
            s'.mod.dev.base.out = ((d.dropGot fun w => w == .bar2).raiseAccess f).base.out ++ [.ur])) ∧
      (∀ (off : BitVec 36) data, d.fw.bar2Open = false → off.toNat < 0x2000000 →
        ∃ s', exec (.bar2Write off data) s = .next s' ∧ s.changesOnly s' [.fw] ∧ s'.mod.dev.fw = { d.fw with
          staging := writeRun d.fw.staging off.toNat (data.take (0x2000000 - off.toNat)) }) ∧
      (∀ (off : BitVec 36) data, d.fw.bar2Open = true → d.stopped = false → writeNpf m (bar2Da d off.toNat) data = none →
        (∀ m1, m.demandWrite .bar2 (bar2Da d off.toNat) data = .ok m1 →
          ∃ s', exec (.bar2Write off data) s = .next s' ∧ s'.pending = s.pending ∧ s'.fuses = s.fuses ∧ s'.mod.mem = m1.mem) ∧
        (∀ f, m.demandWrite .bar2 (bar2Da d off.toNat) data = .error f →
          ∃ s', exec (.bar2Write off data) s = .next s' ∧ s'.mod.mem = m.mem ∧ s'.mod.dev = d.raiseAccess f))) ∧
  (
    ∀ (s : State), s.mod.dev.hifUp = true →
      let d := s.mod.dev
      (∀ value : Word32, d.base.lockHif = false → value.getLsbD 0 = true →
        ∃ s', exec (.hifSetupDone value) s = .next s' ∧ s'.pending = s.pending ∧ s'.fuses = s.fuses ∧
          s'.mod.dev.base.lockHif = true ∧ s'.mod.dev.base.lockAll = true ∧ s'.mod.dev.hif.setupErr ≤ 255) ∧
      (∀ value : Word32, d.base.lockHif = true ∨ value.getLsbD 0 = false → exec (.hifSetupDone value) s = .next s) ∧
      (∃ s', exec .functionLevelReset s = .next s' ∧ s.changesOnly s' [.hif, .ms, .fw, .base, .events] ∧
        s'.mod.dev.base.lockHif = false ∧ s'.mod.dev.base.lockAll = d.base.lockAll ∧ s'.mod.dev.base.out = d.base.out ∧
        s'.mod.dev.hif.sqs = [] ∧ s'.mod.dev.hif.cqs = [] ∧ s'.mod.dev.base.evt.ringSet = false ∧
        (∀ o, flrReg o = true → kfind s'.mod.dev.base.regs o = none) ∧
        (∀ o, flrReg o = false → o ≠ 8 → kfind s'.mod.dev.base.regs o = kfind d.base.regs o) ∧
        (∀ y ∈ s'.mod.dev.hif.descs, y.lost = true ∧ y.kind ≠ 1)))

/-- FRAME_RECEIVE, LINK_CREDIT, FRAME_REPLAY and PORT_DOWN (R482 to R484, R493, R495): a good frame in order is taken and acknowledged, for
another module it waits to go on; a damaged frame or a gap is refused with one negative acknowledgement, which is counted; a second copy
is acknowledged and discarded; credits let a waiting frame go, which is kept; a replay sends every frame not acknowledged again, and the
eighth without progress has the port train again. A port that is not up takes none of these.
Rests in part on the model's own choices: log 31, 32. -/
def Obligations.LinksCarryFrames : Prop :=
  ∀ (s : State) (p : Fin 16), s.quietFabric = true →
    let d := s.mod.dev
    let q := portOf d p
    (∀ bytes fec cls dl n acked, q.up = false → exec (.frameReceive p bytes fec) s = .next s ∧ exec (.linkCredit p cls dl n) s = .next s ∧
      exec (.frameReplay p acked) s = .next s ∧ exec (.portDown p) s = .next s) ∧
    (∀ bytes fec, q.up = true → q.discarding = false →
      frameOk bytes = false ∨ (bitOf (fieldAt bytes 8 2) 15 = false ∧ (fieldAt bytes 0 1 = 1 ∨ fieldAt bytes 0 1 = 2) ∧
        fieldAt bytes 2 2 % 4096 ≠ q.rxSeq ∧ 2048 ≤ seqAfter (prevSeq q.rxSeq) (fieldAt bytes 2 2 % 4096)) →
      ∃ s', exec (.frameReceive p bytes fec) s = .next s' ∧ s.changesOnly s' [.fab, .events] ∧
        s'.mod.dev.base = ((if fec = 0 then d else d.count cFabFecCorr p fec).count cFabReplay p 1).base ∧
        s'.mod.dev.fab.out = d.fab.out ++ [.nak p (prevSeq q.rxSeq)] ∧ portOf s'.mod.dev p = { q with discarding := true }) ∧
    (∀ bytes, q.up = true → frameOk bytes = true → bitOf (fieldAt bytes 8 2) 15 = false → (fieldAt bytes 0 1 = 1 ∨ fieldAt bytes 0 1 = 2) →
      let n := fieldAt bytes 2 2 % 4096
      let f := parseFrame bytes
      (n = q.rxSeq → f.dst ≠ d.fab.modid →
        ∃ s', exec (.frameReceive p bytes 0) s = .next s' ∧ s.changesOnly s' [.fab] ∧ s'.mod.dev.fab.out = d.fab.out ++ [.ack p n] ∧
          s'.mod.dev.fab.transit = d.fab.transit ++ [⟨p, f⟩] ∧
          portOf s'.mod.dev p = { q with rxSeq := (n + 1) % 4096, discarding := false }) ∧
      (n = q.rxSeq → f.dst = d.fab.modid → f.token = false → kfind q.parts (chanNo f.cls f.dl) = none →
        alignUp 64 (32 + fieldAt f.payload 2 2) = f.payload.length →
        ∃ s', exec (.frameReceive p bytes 0) s = .next s' ∧ s.changesOnly s' [.fab] ∧
          s'.mod.dev.fab.out = d.fab.out ++ [.ack p n, .credit p f.cls f.dl] ∧ s'.mod.dev.fab.transit = d.fab.transit ∧
          s'.mod.dev.fab.arrived = d.fab.arrived ++ [(f.src, f.cls, f.payload.take (32 + fieldAt f.payload 2 2))]) ∧
      (n ≠ q.rxSeq → seqAfter (prevSeq q.rxSeq) n < 2048 →
        ∃ s', exec (.frameReceive p bytes 0) s = .next s' ∧ s.changesOnly s' [.fab] ∧
          s'.mod.dev.fab = { d.fab with out := d.fab.out ++ [.ack p (prevSeq q.rxSeq)] })) ∧
    (∀ (cls : Fin 5) dl n, q.up = true → q.txq = [] →
      ∃ s', exec (.linkCredit p cls dl n) s = .next s' ∧ s.changesOnly s' [.fab] ∧ s'.mod.dev.fab.out = d.fab.out ∧
        kget 0 (portOf s'.mod.dev p).credits (chanNo cls dl) = kget 0 q.credits (chanNo cls dl) + n) ∧
    (∀ (cls : Fin 5) dl n t, q.up = true → q.txq = [t] → t.frame.cls = cls → t.frame.dl = dl → 0 < n → q.openMsg = [] →
      q.nextLanes = none → q.kept.length < 1024 →
      ∃ s', exec (.linkCredit p cls dl n) s = .next s' ∧ s.changesOnly s' [.fab] ∧
        s'.mod.dev.fab.out = d.fab.out ++ [.frame p q.txSeq (prevSeq q.rxSeq) t.frame] ∧ (portOf s'.mod.dev p).txq = [] ∧
        (portOf s'.mod.dev p).kept = q.kept ++ [(q.txSeq, t.frame)] ∧ (portOf s'.mod.dev p).txSeq = (q.txSeq + 1) % 4096 ∧
        kget 0 (portOf s'.mod.dev p).credits (chanNo cls dl) + 1 = kget 0 q.credits (chanNo cls dl) + n) ∧
    (∀ acked : BitVec 12, q.up = true → q.kept ≠ [] → (∀ k ∈ q.kept, 2048 ≤ seqAfter acked.toNat k.1) →
      (q.replays < 7 → ∃ s', exec (.frameReplay p acked) s = .next s' ∧ s.changesOnly s' [.fab] ∧
        s'.mod.dev.fab.out = d.fab.out ++ q.kept.map (fun k => .frame p k.1 (prevSeq q.rxSeq) k.2) ∧
        portOf s'.mod.dev p = { q with replays := q.replays + 1 }) ∧
      (7 ≤ q.replays → ∃ s', exec (.frameReplay p acked) s = .next s' ∧ s.changesOnly s' [.fab, .events] ∧
        (portOf s'.mod.dev p).st = .training)) ∧
    (q.up = true → ∃ s', exec (.portDown p) s = .next s' ∧ s.changesOnly s' [.fab, .events] ∧ (portOf s'.mod.dev p).st = .down ∧
      ∀ e ∈ s'.mod.dev.fab.pins, e.2 ≠ p)

/-- IDENT_FRAME, PORT_TRAIN_RETRY, LANE_CALIBRATION, LANE_DEGRADE, LANE_RESTORE and LANE_COUNT_CHANGE (R488, R490, R513 to R515): a
training port comes up with the peer R488 prescribes and is MISCABLED with another; a port that is not up trains again, and says once
that it is down; margins are kept, and a low one is said once; a lane below MINMARGIN or lost leaves its port, and the second one takes
the port down; a retrained lane returns at MINMARGIN + 2; the lanes change at the agreed boundary.
Rests in part on the model's own choices: log 32. -/
def Obligations.PortsAndLanesFollowTheLinks : Prop :=
  ∀ (s : State) (p : Fin 16), s.quietFabric = true →
    let d := s.mod.dev
    let q := portOf d p
    let min := cfgFabCalCfgMinmargin d.base
    (∀ (lanes : BitVec 4) (peer : BitVec 16) (pport : Fin 16),
      (q.st ≠ .training ∨ mayTrain d p = false → exec (.identFrame p lanes peer pport) s = .next s) ∧
      (q.st = .training → mayTrain d p = true → 3 ≤ ((List.range 4).filter fun l => bitOf lanes.toNat l).length →
        (peerOf d p = some peer.toNat → portDim pport = portDim p → portPlus pport ≠ portPlus p →
          ∃ s', exec (.identFrame p lanes peer pport) s = .next s' ∧ s.changesOnly s' [.fab] ∧
            s'.mod.dev.fab.out = d.fab.out ++ [.ident p d.fab.modid] ∧
            (portOf s'.mod.dev p).st = (if lanes = 15 then .up4 else .up3) ∧ (portOf s'.mod.dev p).lanes = lanes.toNat ∧
            (portOf s'.mod.dev p).peer = peer.toNat ∧ (portOf s'.mod.dev p).pport = pport) ∧
        (peerOf d p ≠ some peer.toNat → ∃ s', exec (.identFrame p lanes peer pport) s = .next s' ∧ s.changesOnly s' [.fab, .base, .events] ∧
            (portOf s'.mod.dev p).st = .miscabled ∧ s'.mod.dev.base = (d.raise evFabCableMismatch { n := p }).base))) ∧
    (∀ waitOver, mayTrain d p = true → q.st = .down ∨ q.st = .training →
      ∃ s', exec (.portTrainRetry p waitOver) s = .next s' ∧ s.changesOnly s' [.fab, .base, .events] ∧ (portOf s'.mod.dev p).st = .training ∧
        s'.mod.dev.base = (if waitOver && !q.downSaid then d.raise evFabPortDown { n := p } else d).base) ∧
    (∀ waitOver, mayTrain d p = false ∨ q.up = true → exec (.portTrainRetry p waitOver) s = .next s) ∧
    (∀ (lane : Fin 4) margin, cfgFabCalCfgEn d.base = 1 → q.up = true →
      (min ≤ margin → ∃ s', exec (.laneCalibration p lane margin false) s = .next s' ∧ s.changesOnly s' [.fab] ∧
        portOf s'.mod.dev p = { q with margins := kput q.margins lane margin }) ∧
      (min ≤ margin → ∃ s', exec (.laneCalibration p lane margin true) s = .next s' ∧ s.changesOnly s' [.fab, .events] ∧
        s'.mod.dev.base = (d.count cFabCalAdj p 1).base ∧ s'.mod.dev.fab.out = d.fab.out ++ [.adjust p lane]) ∧
      (margin < min → kfind q.margins lane = none →
        ∃ s', exec (.laneCalibration p lane margin false) s = .next s' ∧ s.changesOnly s' [.fab, .base, .events] ∧
          s'.mod.dev.base = (d.raise evFabLaneMargin { n := 4 * p.val + lane.val }).base)) ∧
    (∀ (lane : Fin 4) lost, q.up = true → q.nextLanes = none → bitOf q.lanes lane = true →
      lost = true ∨ (∃ m, kfind q.margins lane = some m ∧ m < min) →
      let b := ((d.count cFabLaneDegrade p 1).raise evFabLaneDegraded { n := 4 * p.val + lane.val }).base
      let mask := withBits q.lanes lane lane 0
      (3 ≤ ((List.range 4).filter fun l => bitOf mask l).length →
        ∃ s', exec (.laneDegrade p lane lost) s = .next s' ∧ s.changesOnly s' [.fab, .base, .events] ∧ s'.mod.dev.base = b ∧
          portOf s'.mod.dev p = { q with nextLanes := some mask } ∧ s'.mod.dev.fab.out = d.fab.out ++ [.lanes p mask]) ∧
      (((List.range 4).filter fun l => bitOf mask l).length < 3 →
        ∃ s', exec (.laneDegrade p lane lost) s = .next s' ∧ s.changesOnly s' [.fab, .base, .events] ∧ (portOf s'.mod.dev p).st = .down)) ∧
    (∀ (lane : Fin 4) margin, q.up = true → q.nextLanes = none → bitOf q.lanes lane = false →
      (min + 2 ≤ margin → ∃ s', exec (.laneRestore p lane margin) s = .next s' ∧ s.changesOnly s' [.fab, .base, .events] ∧
        s'.mod.dev.base = (d.raise evFabLaneRestored { n := 4 * p.val + lane.val }).base ∧
        (portOf s'.mod.dev p).nextLanes = some (withBits q.lanes lane lane 1)) ∧
      (margin < min + 2 → exec (.laneRestore p lane margin) s = .next s)) ∧
    (∀ mask, q.nextLanes = some mask → q.txq = [] →
      ∃ s', exec (.laneCountChange p) s = .next s' ∧ s.changesOnly s' [.fab] ∧
        s'.mod.dev.fab.out = d.fab.out ++ q.kept.map (fun k => .frame p k.1 (prevSeq q.rxSeq) k.2) ∧
        portOf s'.mod.dev p = { q with st := if mask = 15 then .up4 else .up3, lanes := mask, nextLanes := none }) ∧
    (q.nextLanes = none → exec (.laneCountChange p) s = .next s)

/-- TRANSIT_FORWARD, E2E_MESSAGE_RECEIVE, E2E_ACK, E2E_RETRANSMIT and TOKEN_FRAME (R494 to R496, R511): the oldest transit frame goes on and
its buffer's credit goes back; a message with a wrong ECRC is discarded, the one that is next in its flow is delivered, one that comes
early is held, a second copy is discarded, and each is acknowledged; an acknowledgement releases what it covers; what is not acknowledged
is sent again and counted; a token to the module itself is looped back, another goes out in one TOKEN frame.
Rests in part on the model's own choices: log 35, 36. -/
def Obligations.MessagesAreDeliveredInOrder : Prop :=
  ∀ (s : State), s.quietFabric = true →
    let d := s.mod.dev
    (d.fab.transit = [] → exec .transitForward s = .next s) ∧
    (∀ t rest, d.fab.transit = t :: rest → ∃ s', exec .transitForward s = .next s' ∧ s.changesOnly s' [.fab] ∧
      s'.mod.dev.fab.transit = rest ∧
      (routePorts d t.frame.dst t.owner = [] → s'.mod.dev.fab.out =
        if t.owner < 16 ∧ (portOf d t.owner).up then d.fab.out ++ [.credit t.owner t.frame.cls t.frame.dl] else d.fab.out)) ∧
    (∀ a, nextArrived d false = some a →
      let f := kget ⟨0, []⟩ d.fab.flowsIn (8 * a.1 + a.2.1)
      (msgOk a.2.2 = false → ∃ s', exec .e2eMessageReceive s = .next s' ∧ s.changesOnly s' [.fab] ∧
        s'.mod.dev.fab = { d.fab with arrived := d.fab.arrived.erase a }) ∧
      (msgOk a.2.2 = true → msgSeq a.2.2 = f.next → f.early = [] → ∃ s', exec .e2eMessageReceive s = .next s' ∧
        s.changesOnly s' [.fab] ∧ s'.mod.dev.fab.inbox = d.fab.inbox ++ [parseMsg a.1 a.2.1 a.2.2] ∧
        kget ⟨0, []⟩ s'.mod.dev.fab.flowsIn (8 * a.1 + a.2.1) = ⟨f.next + 1, []⟩ ∧
        s'.mod.dev.fab.arrived = d.fab.arrived.erase a) ∧
      (msgOk a.2.2 = true → stepNewer (msgSeq a.2.2) f.next = true → kfind f.early f.next.toNat = none →
        ∃ s', exec .e2eMessageReceive s = .next s' ∧ s.changesOnly s' [.fab] ∧ s'.mod.dev.fab.inbox = d.fab.inbox ∧
        kget ⟨0, []⟩ s'.mod.dev.fab.flowsIn (8 * a.1 + a.2.1) = { f with early := kput f.early (msgSeq a.2.2).toNat a.2.2 }) ∧
      (msgOk a.2.2 = true → stepNewer f.next (msgSeq a.2.2) = true → f.early = [] →
        ∃ s', exec .e2eMessageReceive s = .next s' ∧ s.changesOnly s' [.fab] ∧ s'.mod.dev.fab.inbox = d.fab.inbox ∧
        s'.mod.dev.fab.flowsIn = d.fab.flowsIn)) ∧
    (∀ a (cls : Fin 5), nextArrived d true = some a → msgOk a.2.2 = true →
      ∃ s', exec (.e2eAck cls) s = .next s' ∧ s.changesOnly s' [.fab] ∧ s'.mod.dev.fab.arrived = d.fab.arrived.erase a ∧
        flowOut s'.mod.dev a.1 cls = { flowOut d a.1 cls with
          unacked := (flowOut d a.1 cls).unacked.filter fun o => stepNewer o.eseq (BitVec.ofNat 32 (fieldAt a.2.2 8 8)) }) ∧
    (nextArrived d true = none → ∀ cls : Fin 5, exec (.e2eAck cls) s = .next s) ∧
    (∀ (dst : BitVec 16) (cls : Fin 5), ∃ s', exec (.e2eRetransmit dst cls) s = .next s' ∧ s.changesOnly s' [.fab, .events] ∧
      (flowOut s'.mod.dev dst.toNat cls).unacked.length = (flowOut d dst.toNat cls).unacked.length ∧
      s'.mod.dev.base = ((flowOut d dst.toNat cls).unacked.foldl (fun d _ => d.count cFabE2eRetry 0 1) d).base) ∧
    (d.ms.out = [] → exec .tokenFrame s = .next s) ∧
    (∀ dst t rest, d.ms.out = (dst, t) :: rest →
      (dst = cfgFabMsCfgKidx d.base → ∃ s', exec .tokenFrame s = .next s' ∧ s'.mod =
        (takeToken { s.mod with dev := { d with ms := { d.ms with out := rest } } } (BitVec.ofNat 512 (leNat t.bytes))).onDev Dev.carry) ∧
      (dst ≠ cfgFabMsCfgKidx d.base → ∃ s', exec .tokenFrame s = .next s' ∧ s.changesOnly s' [.ms, .fab] ∧
        s'.mod.dev.ms = { d.ms with out := rest } ∧ s'.mod.dev.fab.arrived = d.fab.arrived))

/-- REMOTE_READ, REMOTE_WRITE, READ_RSP, WRITE_ACK and DESTINATION_UNREACHABLE (R497, R499, R501, Tables 12.4, 12.7): the lender serves what
lies inside the loan, answers OUTSIDE beyond it, NO_LOAN where none exists and MEMORY_ERROR for memory that cannot be read, and writes
only for an access it answers OK; an answer ends the request it is for; READs to a module that cannot be reached come back as failed.
Rests in part on the model's own choices: log 66. -/
def Obligations.LoansAreReadAndWritten : Prop :=
  ∀ (s : State), s.quietFabric = true →
    let m := s.mod
    let d := m.dev
    (∀ x err, nextMsg d 1 = some x → (∀ y ∈ d.fab.inbox, y.op = 3 → y.src ≠ x.src) →
      let l := loanTo d x.id x.src
      let st := loanStatus l x.addr x.aux err
      ∃ s', exec (.remoteRead err) s = .next s' ∧ s.changesOnly s' [.fab] ∧ s'.mod.dev.fab.inbox = d.fab.inbox.erase x ∧
        (flowOut s'.mod.dev x.src x.cls).unacked = (flowOut d x.src x.cls).unacked ++ [⟨(flowOut d x.src x.cls).next,
          msgBytes 2 (flowOut d x.src x.cls).next 0 0 x.rtag st (match l with
            | some l => if st = 0 then m.load (l.da x.addr) x.aux else []
            | none => []), d.nowNs, d.nowNs⟩]) ∧
    (∀ x err, nextMsg d 3 = some x →
      let l := loanTo d x.id x.src
      let st := loanStatus l x.addr x.data.length err
      ∃ s', exec (.remoteWrite err) s = .next s' ∧ s.changesOnly s' [.mem, .tier, .fab] ∧ s'.mod.dev.fab.inbox = d.fab.inbox.erase x ∧
        (st ≠ 0 → s'.mod.mem = m.mem) ∧ (∀ l0, l = some l0 → st = 0 → s'.mod.mem = (m.store (l0.da x.addr) x.data).mem) ∧
        (flowOut s'.mod.dev x.src x.cls).unacked = (flowOut d x.src x.cls).unacked ++ [⟨(flowOut d x.src x.cls).next,
          msgBytes 4 (flowOut d x.src x.cls).next 0 0 x.rtag st [], d.nowNs, d.nowNs⟩]) ∧
    (∀ x r, nextMsg d 2 = some x → (d.fab.reqs.find? fun r => decide (r.rtag = x.rtag) && decide (r.lender = x.src) && !r.write) = some r →
      ∃ s', exec .readRsp s = .next s' ∧ s.changesOnly s' [.fab] ∧ s'.mod.dev.fab = { d.fab with
        inbox := d.fab.inbox.erase x, reqs := d.fab.reqs.erase r
        got := d.fab.got ++ [⟨r.who, r.da, r.n, x.aux % 256, x.data⟩] }) ∧
    (∀ x r, nextMsg d 4 = some x → (d.fab.reqs.find? fun r => decide (r.rtag = x.rtag) && decide (r.lender = x.src) && r.write) = some r →
      (x.aux % 256 = 0 → (∀ i t, r.who ≠ .thread i t) → ∃ s', exec .writeAck s = .next s' ∧ s.changesOnly s' [.fab] ∧
        s'.mod.dev.fab = { d.fab with inbox := d.fab.inbox.erase x, reqs := d.fab.reqs.erase r }) ∧
      (∀ i t, x.aux % 256 = 3 → r.who = .thread i t → ∃ s', exec .writeAck s = .next s' ∧ s'.mod.mem = m.mem ∧
        s'.mod.dev.fab.reqs = d.fab.reqs.erase r ∧ (s.changesOnly s' [.plots, .fab, .base, .events]))) ∧
    (nextMsg d 1 = none → ∀ err, exec (.remoteRead err) s = .next s) ∧ (nextMsg d 3 = none → ∀ err, exec (.remoteWrite err) s = .next s) ∧
    (nextMsg d 2 = none → exec .readRsp s = .next s) ∧ (nextMsg d 4 = none → exec .writeAck s = .next s) ∧
    (∀ dst : BitVec 16, (∀ f ∈ d.fab.flowsOut, f.1 / 8 = dst.toNat → f.2.unacked = []) →
      exec (.destinationUnreachable dst) s = .next s) ∧
    (∀ dst : BitVec 16, (∃ f ∈ d.fab.flowsOut, f.1 / 8 = dst.toNat ∧ f.2.unacked ≠ []) → (∀ r ∈ d.fab.reqs, r.write = false) →
      d.fab.asks = [] → d.tier.windows = [] → d.fab.colls = [] → d.fab.later = [] →
      ∃ s', exec (.destinationUnreachable dst) s = .next s' ∧ s.changesOnly s' [.fab, .base, .events] ∧
        s'.mod.dev.base = (d.raise evFabUnreachable { n := dst.toNat }).base ∧
        s'.mod.dev.fab.reqs = d.fab.reqs.filter (fun r => r.lender ≠ dst.toNat) ∧
        s'.mod.dev.fab.got = d.fab.got ++ (d.fab.reqs.filter fun r => r.lender = dst.toNat).map (fun r => ⟨r.who, r.da, r.n, 0x80, []⟩))

/-- LEND_REQ, LEND_GRANT, LEND_REFUSE, RENEW, RENEW_TIMER, RETURN, REVOKE, REVOKE_DEADLINE, LOAN_IDLE_RECLAIM and LOAN_AUTO_REVOKE (R289,
R498, R500, R501): a request is refused unless lending is enabled and the limit and the free pages allow it; a grant binds the window
asked for from offset 0; RENEW and RETURN keep or end a loan; at the deadline the lender has its pages back whether or not RETURN has
come, and the borrower's window is bound no more.
Rests in part on the model's own choices: log 66. -/
def Obligations.LoansBeginAndEnd : Prop :=
  ∀ (s : State), s.quietFabric = true →
    let d := s.mod.dev
    (∀ x, nextMsg d 0x20 = some x →
      (cfgFabLendCfgEn d.base = 0 ∨ 512 * cfgFabLendCfgLendmax d.base < lentPages d + x.addr →
        ∃ s', exec .lendReq s = .next s' ∧ s.changesOnly s' [.fab] ∧ s'.mod.dev.fab.loans = d.fab.loans ∧
          (flowOut s'.mod.dev x.src clsCtrl).unacked = (flowOut d x.src clsCtrl).unacked ++ [⟨(flowOut d x.src clsCtrl).next,
            msgBytes 0x22 (flowOut d x.src clsCtrl).next 0 0 x.rtag 0 [], d.nowNs, d.nowNs⟩]) ∧
      (∃ s', exec .lendReq s = .next s' ∧ s.changesOnly s' [.tier, .fab] ∧ s'.mod.dev.fab.inbox = d.fab.inbox.erase x ∧
        (s'.mod.dev.fab.loans = d.fab.loans ∨ ∃ pages, pages.length = x.addr ∧ (∀ i ∈ pages, pageKind d.base d.tier i = pkFree) ∧
          s'.mod.dev.fab.loans = d.fab.loans ++ [⟨d.fab.nextLoan, x.src, x.aux % 16, pages, d.nowNs, none⟩] ∧
          lentPages s'.mod.dev ≤ 512 * cfgFabLendCfgLendmax d.base))) ∧
    (∀ x a, nextMsg d 0x21 = some x → (d.fab.asks.find? fun a => a.lender = x.src) = some a → d.fw.reqs = [] →
      ∃ s', exec .lendGrant s = .next s' ∧ s.changesOnly s' [.tier, .fab] ∧ s'.mod.dev.fab.asks = d.fab.asks.erase a ∧
        s'.mod.dev.tier = { d.tier with windows := kput d.tier.windows a.window ⟨x.id, x.src, x.addr, d.nowNs + 10000000000, none⟩ }) ∧
    (∀ x a, nextMsg d 0x22 = some x → (d.fab.asks.find? fun a => a.lender = x.src) = some a → d.fw.reqs = [] →
      ∃ s', exec .lendRefuse s = .next s' ∧ s.changesOnly s' [.fab] ∧ s'.mod.dev.fab.asks = d.fab.asks.erase a) ∧
    (∀ x l, nextMsg d 0x24 = some x → loanTo d x.id x.src = some l →
      ∃ s', exec .renew s = .next s' ∧ s.changesOnly s' [.fab] ∧
        s'.mod.dev.fab.loans = d.fab.loans.map (fun y => if y.id = l.id then { y with seen := d.nowNs } else y)) ∧
    (∀ (w : Fin 16) l, kfind d.tier.windows w = some l →
      ∃ s', exec (.renewTimer w) s = .next s' ∧ s.changesOnly s' [.tier, .fab] ∧
        s'.mod.dev.tier.windows = kput d.tier.windows w { l with lease := d.nowNs + 10000000000 } ∧
        (flowOut s'.mod.dev l.lender clsCtrl).unacked = (flowOut d l.lender clsCtrl).unacked ++ [⟨(flowOut d l.lender clsCtrl).next,
          msgBytes 0x24 (flowOut d l.lender clsCtrl).next 0 l.id 0 0 [], d.nowNs, d.nowNs⟩]) ∧
    (∀ w : Fin 16, kfind d.tier.windows w = none → exec (.renewTimer w) s = .next s) ∧
    (∀ x l, nextMsg d 0x25 = some x → loanTo d x.id x.src = some l →
      ∃ s', exec .returnLoan s = .next s' ∧ s.changesOnly s' [.tier, .fab] ∧ s'.mod.dev.fab.loans = d.fab.loans.filter (fun y => y.id ≠ l.id) ∧
        (∀ i ∈ l.pages, pageKind d.base s'.mod.dev.tier i = pkFree)) ∧
    (∀ x, nextMsg d 0x23 = some x → d.tier.windows = [] →
      ∃ s', exec .revoke s = .next s' ∧ s.changesOnly s' [.fab] ∧ s'.mod.dev.fab = { d.fab with inbox := d.fab.inbox.erase x }) ∧
    (∀ x w, nextMsg d 0x23 = some x →
      (d.tier.windows.find? fun w => decide (w.2.id = x.id) && decide (w.2.lender = x.src)) = some w →
      kfind d.tier.windows w.1 = some w.2 → w.2.deadline = none →
      ∃ s', exec .revoke s = .next s' ∧ s.changesOnly s' [.tier, .fab, .base, .events] ∧
        s'.mod.dev.tier.windows = kput d.tier.windows w.1 { w.2 with deadline := some (d.nowNs + x.addr * 1000000) } ∧
        s'.mod.dev.base = (d.raise evLoanRevoke { t := w.2.id, n := d.nowNs + x.addr * 1000000 } 0 w.1).base) ∧
    (∀ n l, (d.fab.loans.find? fun l => decide (l.id = n) && l.deadline.isSome) = some l →
      ∃ s', exec (.revokeDeadline true n) s = .next s' ∧ s.changesOnly s' [.tier, .fab] ∧
        s'.mod.dev.fab.loans = d.fab.loans.filter (fun y => y.id ≠ l.id)) ∧
    (∀ n l, kfind d.tier.windows n = some l → l.deadline.isSome → lentIn d.tier n = [] →
      ∃ s', exec (.revokeDeadline false n) s = .next s' ∧ s.changesOnly s' [.tier, .hif, .fab, .base, .events] ∧
        kfind s'.mod.dev.tier.windows n = none) ∧
    (∀ n l, (d.fab.loans.find? fun l => l.id = n) = some l →
      ∃ s', exec (.loanIdleReclaim n) s = .next s' ∧ s.changesOnly s' [.tier, .fab, .base, .events] ∧
        s'.mod.dev.base = (d.raise evLoanReclaimed { t := l.id }).base ∧
        s'.mod.dev.fab.loans = d.fab.loans.filter (fun y => y.id ≠ l.id)) ∧
    (schedUp d = true → (∀ l ∈ d.fab.loans, l.deadline ≠ none) → exec .loanAutoRevoke s = .next s) ∧
    (schedUp d = true → (∃ l ∈ d.fab.loans, l.deadline = none ∧ ∃ i ∈ l.pages, ∃ u < 8,
        0 < (poolSpan d.base d.tier u).2 ∧ poolBelow d.base d.tier u 1 = true ∧ pageInPool d u i = true) →
      ∃ s', exec .loanAutoRevoke s = .next s' ∧ s.changesOnly s' [.fab] ∧ ∃ l ∈ d.fab.loans, l.deadline = none ∧
        s'.mod.dev.fab.loans = d.fab.loans.map (fun y => if y.id = l.id then { y with deadline := some (d.nowNs + 1000000000) } else y))

/-- COLL_CHUNK, COLL_END and COLL_CREDIT (R504, R508): a chunk of an older epoch is dropped and counted, one of a newer epoch waits until the
running epoch ends, and the first one starts an epoch; a slot whose descriptor fails the check becomes FAILED and gives its signal, and
the next READY carries NOGO; a message that is not yet due waits; what a member says it has sent, and what the next member grants, is
kept.
Rests in part on the model's own choices: log 34, 38, 67. -/
def Obligations.CollectivesRunTheirEpochs : Prop :=
  ∀ (s : State), s.quietFabric = true → s.mod.dev.fab.later = [] →
    let m := s.mod
    let d := m.dev
    (d.meshOut.find? (fun x => x.1 = 2) = none → exec (.collChunk .plot) s = .next s) ∧
    (nextMsg d 0x10 = none → exec (.collChunk .fabric) s = .next s) ∧
    (∀ (slot : Fin 4096) b, parseChunk slot b = none → exec (.collChunk (.core slot b)) s = .next s) ∧
    (∀ (slot : Fin 4096) b k, parseChunk slot b = some k →
      let c := collOf d slot
      (stepNewer c.epoch k.epoch = true → ∃ s', exec (.collChunk (.core slot b)) s = .next s' ∧ s.changesOnly s' [.events] ∧
        s'.mod.dev.base = (d.count cFabCollStale 0 1).base) ∧
      (k.epoch = c.epoch → c.running = false → exec (.collChunk (.core slot b)) s = .next s) ∧
      (stepNewer k.epoch c.epoch = true → c.running = true → ∃ s', exec (.collChunk (.core slot b)) s = .next s' ∧
        s.changesOnly s' [.fab] ∧ s'.mod.dev.fab = { d.fab with later := [⟨k, 0, false⟩] }) ∧
      (stepNewer k.epoch c.epoch = true → c.running = false → collOk d (m.load (collDa d.base slot) 96) = false →
        fieldAt (m.load (collDa d.base slot) 96) 64 1 = 0 →
        ∃ s', exec (.collChunk (.core slot b)) s = .next s' ∧ s.changesOnly s' [.mem, .tier, .fab, .ms, .base, .events] ∧
          s'.mod.dev.base = (d.raise evFabCollInvalid { t := slot }).base ∧ s'.mod.dev.ms.nogoNext = some 7 ∧
          (collOf s'.mod.dev slot).running = false ∧ (collOf s'.mod.dev slot).epoch = k.epoch ∧
          s'.mod.mem = (((m.storeNat (collDa d.base slot + 96) 1 3)).storeNat (collDa d.base slot + 100) 4 k.epoch.toNat).mem) ∧
      (stepNewer k.epoch c.epoch = true → c.running = false → collOk d (m.load (collDa d.base slot) 96) = true → k.cop = 2 → k.data = [] →
        fieldAt (m.load (collDa d.base slot) 96) 0 1 < 5 → 1 < fieldAt (m.load (collDa d.base slot) 96) 8 2 →
        ∃ s', exec (.collChunk (.core slot b)) s = .next s' ∧ s.changesOnly s' [.mem, .tier, .fab] ∧
          collOf s'.mod.dev slot = { Coll.reset with
            epoch := k.epoch, running := true, desc := (m.load (collDa d.base slot) 96).take 92, lasts := 1 })) ∧
    (∀ x, nextMsg d 0x10 = some x → stepNewer (collOf d (x.addr % 4096)).epoch (BitVec.ofNat 32 x.id) = true →
      ∃ s', exec (.collChunk .fabric) s = .next s' ∧ s.changesOnly s' [.fab, .events] ∧ s'.mod.dev.base = (d.count cFabCollStale 0 1).base ∧
        s'.mod.dev.fab.inbox = d.fab.inbox.erase x) ∧
    (nextDue d 0x11 = none → exec .collEnd s = .next s) ∧ (nextDue d 0x12 = none → exec .collCredit s = .next s) ∧
    (∀ x i, nextDue d 0x11 = some x →
      let c := collOf d (x.addr % 4096)
      collPosOf d c.desc x.src = some i →
      (c.running = false ∨ c.epoch ≠ BitVec.ofNat 32 x.id →
        ∃ s', exec .collEnd s = .next s' ∧ s.changesOnly s' [.fab] ∧ s'.mod.dev.fab = { d.fab with inbox := d.fab.inbox.erase x }) ∧
      (c.running = true → c.epoch = BitVec.ofNat 32 x.id → collKind c.desc = 1 → c.lasts < collNsrc c.desc → x.rtag ≠ 1 →
        c.ended = false → kfind c.ends (collPos d c.desc) = none → i ≠ collPos d c.desc →
        collPos d c.desc < collMembers d c.desc →
        ∃ s', exec .collEnd s = .next s' ∧ s.changesOnly s' [.fab] ∧
          collOf s'.mod.dev (x.addr % 4096) = { c with ends := kput c.ends i x.aux })) ∧
    (∀ x, nextDue d 0x12 = some x →
      let c := collOf d (x.addr % 4096)
      (c.running = false ∨ c.epoch ≠ BitVec.ofNat 32 x.id →
        ∃ s', exec .collCredit s = .next s' ∧ s.changesOnly s' [.fab] ∧ s'.mod.dev.fab = { d.fab with inbox := d.fab.inbox.erase x }) ∧
      (c.running = true → c.epoch = BitVec.ofNat 32 x.id → collKind c.desc = 5 → c.lasts < collNsrc c.desc → c.nextRot = 1 →
        c.rotEnd = [] → c.arrived = [] →
        ∃ s', exec .collCredit s = .next s' ∧ s.changesOnly s' [.fab] ∧
          collOf s'.mod.dev (x.addr % 4096) = { c with grants := c.grants ++ [x.aux] }))

/-- MAILBOX_KICK and MAILBOX_REQUEST (R534 to R536, R611): a kick starts the mailbox, takes a newer request count, and a response count only
as far as responses have been written; the next request is read once a kick covers it; one with a bad checksum, of another major
version, of an unknown opcode or of a wrong length is answered at once with that status in the next entry of the response ring, and
another one is kept for its operation.
Rests in part on the model's own choices: log 10. -/
def Obligations.MailboxTakesRequests : Prop :=
  ∀ (s : State), s.mod.dev.hifUp = true →
    let d := s.mod.dev
    (∀ reqTail rspHead : Word32, d.fw.rsps = [] →
      ∃ s', exec (.mailboxKick reqTail rspHead) s = .next s' ∧ s.changesOnly s' [.fw] ∧ s'.mod.dev.fw = { d.fw with
        kicked := true, reqTail := if stepNewer reqTail d.fw.reqTail then reqTail else d.fw.reqTail
        rspHead := if (rspHead - d.fw.rspHead).toNat ≤ (d.fw.rspPosted - d.fw.rspHead).toNat then rspHead else d.fw.rspHead }) ∧
    (∀ msg, mailboxUp d = false ∨ d.fw.reqTaken = d.fw.reqTail → exec (.mailboxRequest msg) s = .next s) ∧
    (∀ msg, mailboxUp d = true → d.fw.reqTaken ≠ d.fw.reqTail →
      let b := leBytes 256 msg.toNat
      (requestFault d b = none → ∃ s', exec (.mailboxRequest msg) s = .next s' ∧ s.changesOnly s' [.fw] ∧ s'.mod.dev.fw = { d.fw with
        reqTaken := d.fw.reqTaken + 1
        reqs := d.fw.reqs ++ [⟨fieldAt b 2 2, fieldAt b 8 4, (b.drop 16).take (fieldAt b 4 2), false⟩] }) ∧
      (∀ st, requestFault d b = some st → d.fw.rsps = [] → (d.fw.rspPosted - d.fw.rspHead).toNat < 2 ^ cfgMbxCfgRsplog2 d.base →
        let n := 2 ^ cfgMbxCfgRsplog2 d.base
        let p := d.fw.rspPosted.toNat
        ∃ s', exec (.mailboxRequest msg) s = .next s' ∧ s.changesOnly s' [.fw, .base] ∧
          s'.mod.dev.base = (d.base.hostWrite (cfgMbxRspBaseBase d.base * 4096 + 256 * (p % n))
            (mbxBytes (mbVersion d) (fieldAt b 2 2) st (ringPhase p n + 2) (fieldAt b 8 4) [])).msixSend (cfgMbxCfgVector d.base) ∧
          s'.mod.dev.fw = { d.fw with reqTaken := d.fw.reqTaken + 1, rspPosted := d.fw.rspPosted + 1 }) ∧
      (240 < fieldAt b 4 2 → requestFault d b = some mbBadLength) ∧
      (fieldAt b 4 2 ≤ 240 → crc32c (b.take 12 ++ zeros 4 ++ (b.drop 16).take (fieldAt b 4 2)) ≠ fieldAt b 12 4 →
        requestFault d b = some mbBadCrc) ∧
      (fieldAt b 4 2 ≤ 240 → crc32c (b.take 12 ++ zeros 4 ++ (b.drop 16).take (fieldAt b 4 2)) = fieldAt b 12 4 →
        (fieldAt b 0 1 ≠ mbVersion d / 256 → requestFault d b = some mbBadVersion) ∧
        (fieldAt b 0 1 = mbVersion d / 256 → fieldAt b 1 1 ≤ mbVersion d % 256 →
          (opcodeLen (fieldAt b 2 2) = none → requestFault d b = some mbBadOpcode) ∧
          (opcodeLen (fieldAt b 2 2) = some (fieldAt b 4 2) → d.fw.run = true → requestFault d b = none))))

/-- LOG_SET, LOG_ENTRY_WRITE, TRC_HEAD_WRITE and FW_STATUS (R523, R538, R539, R611): a log entry at or above the level set goes to ring entry
1 + (p mod (2^LOG2SIZE − 1)) with its PHASE and one MSI-X message, and is dropped and counted where the ring is full; one below the level is
not posted; a write of TRC_HEAD adds to HEAD unless that would pass the records written.
Rests in part on the model's own choices: log 39. -/
def Obligations.LogAndTraceRingsAreKept : Prop :=
  ∀ (s : State),
    let d := s.mod.dev
    (∀ r, s.takesReq 0x0905 r →
      (fieldAt r.payload 8 1 < 6 ∨ 16 < fieldAt r.payload 8 1 ∨ 3 < fieldAt r.payload 9 1 ∨ 1024 ≤ fieldAt r.payload 10 2 →
        ∃ s', exec .logSet s = .next s' ∧ s.onlyAnswers s' r mbBadArg []) ∧
      (6 ≤ fieldAt r.payload 8 1 → fieldAt r.payload 8 1 ≤ 16 → fieldAt r.payload 9 1 ≤ 3 → fieldAt r.payload 10 2 < 1024 →
        ∃ s', exec .logSet s = .next s' ∧ s.changesOnly s' [.fw, .base] ∧ s'.mod.dev.fw.log = some
          ⟨fieldAt r.payload 0 8, fieldAt r.payload 8 1, fieldAt r.payload 9 1, fieldAt r.payload 10 2, 0, 0⟩)) ∧
    (∀ (proc : BitVec 8) (level : Fin 4) code args l, procId proc.toNat = true → procUp d proc.toNat = true → d.fw.log = some l →
      let n := 2 ^ l.log2 - 1
      (level.val < l.level → ∃ s', exec (.logEntryWrite proc level code args) s = .next s' ∧ s.changesOnly s' [.fw] ∧
        s'.mod.dev.fw = { d.fw with logSeq := d.fw.logSeq + 1 }) ∧
      (l.level ≤ level.val → n ≤ (BitVec.ofNat 32 l.posted - l.head).toNat →
        ∃ s', exec (.logEntryWrite proc level code args) s = .next s' ∧ s.changesOnly s' [.fw, .events] ∧
          s'.mod.dev.fw = { d.fw with logSeq := d.fw.logSeq + 1 } ∧ s'.mod.dev.base = (d.count cLogDrop 0 1).base) ∧
      (l.level ≤ level.val → (BitVec.ofNat 32 l.posted - l.head).toNat < n →
        ∃ s', exec (.logEntryWrite proc level code args) s = .next s' ∧ s.changesOnly s' [.fw, .base] ∧
          s'.mod.dev.fw = { d.fw with logSeq := d.fw.logSeq + 1, log := some { l with posted := l.posted + 1 } } ∧
          s'.mod.dev.base = (d.base.hostWrite (l.base + 64 * (1 + l.posted % n)) (leBytes 8 d.base.now.toNat ++ leBytes 4 d.fw.logSeq.toNat
            ++ leBytes 1 proc.toNat ++ leBytes 1 level.val ++ leBytes 1 (if l.posted / n % 2 = 0 then 1 else 0) ++ [0]
            ++ leBytes 2 code.toNat ++ leBytes 46 args.toNat)).msixSend l.vector)) ∧
    (∀ (proc : BitVec 8) (level : Fin 4) code args, procId proc.toNat = false ∨ procUp d proc.toNat = false →
      exec (.logEntryWrite proc level code args) s = .next s) ∧
    (∀ value : Word32,
      let head : Word32 := BitVec.ofNat 32 (regVal d.base 0xC00010)
      (value.toNat ≤ (d.base.trcTail - head).toNat → ∃ s', exec (.trcHeadWrite value) s = .next s' ∧ s.changesOnly s' [.base] ∧
        regVal s'.mod.dev.base 0xC00010 = (head + value).toNat ∧ ∀ o, o ≠ 0xC00010 → regVal s'.mod.dev.base o = regVal d.base o) ∧
      ((d.base.trcTail - head).toNat < value.toNat → exec (.trcHeadWrite value) s = .next s)) ∧
    (∀ r, nextReq d 0x0903 = some r → d.fw.run = false ∨ schedUp d = true →
      ∃ s' b, exec .fwStatus s = .next s' ∧ b.length = 240 ∧ s.onlyAnswers s' r mbOk b)

/-- FW_LOAD, FW_LOAD_COMPLETE, FW_UPDATE and FW_UPDATE_COMPLETE (R520 to R523, R531 to R533, R543): a bundle that fails a check ends the load with
its status and starts nothing; one that passes is placed in the image store and measured; once its processors run the load is OK and BAR2
opens; a processor of domain A that does not start answers PROC_FAILED and loaded firmware does not run; an update whose bundle has another
mailbox major version changes nothing; without a standby it answers DEFERRED.
Rests in part on the model's own choices: log 6, 68. -/
def Obligations.FirmwareIsLoadedAndUpdated : Prop :=
  ∀ (s : State),
    let m := s.mod
    let d := m.dev
    (∀ r, nextReq d 0x0901 = some r →
      (d.fw.run = true → schedUp d = true → ∃ s', exec .fwLoad s = .next s' ∧ s.onlyAnswers s' r mbNotAllowed []) ∧
      (d.fw.run = false → d.fw.store = none →
        let n := fieldAt r.payload 0 4
        let b := readRun d.fw.staging 0 n
        (∀ st, n ≤ 0x2000000 → bundleFault s.fuses b = some st → ∃ s', exec .fwLoad s = .next s' ∧ s.onlyAnswers s' r st []) ∧
        (n ≤ 0x2000000 → bundleFault s.fuses b = none →
          ∃ s', exec .fwLoad s = .next s' ∧ s.changesOnly s' [.fw, .sec, .base] ∧ s'.mod.dev.fw.store = some (parseBundle b) ∧
            s'.mod.dev.fw.procs = d.fw.procs ∧ s'.mod.dev.fw.run = false ∧
            (∀ i < 4, kget 0 s'.mod.dev.sec.meas (2 + i) = Config.sha384 (nth [] (parseBundle b).images i)) ∧
            kget 0 s'.mod.dev.sec.meas 6 = Config.sha384 (b.take 128)))) ∧
    (∀ b r (failed : List (Fin 8)), d.fw.store = some b → begunReq d 0x0901 = some r →
      ((0 ∈ failed ∨ 1 ∈ failed ∨ 2 ∈ failed) → ∃ s', exec (.fwLoadComplete failed) s = .next s' ∧ s.changesOnly s' [.fw, .pwr, .base] ∧
        s'.mod.dev.fw.run = d.fw.run ∧ s'.mod.dev.fw.procs = d.fw.procs ∧ s'.mod.dev.fw.store = none ∧ s'.mod.dev.pwr.startBad = true) ∧
      (failed = [] → ∃ s', exec (.fwLoadComplete failed) s = .next s' ∧ s.changesOnly s' [.fw, .base] ∧ s'.mod.dev.fw.run = true ∧
        s'.mod.dev.fw.bar2Open = true ∧ s'.mod.dev.fw.active = 0 ∧
        (∀ i ∈ [0, 1, 2, 4, 5, 6], procUp s'.mod.dev i = true ∧ (procOf s'.mod.dev i).ver = b.ver) ∧
        ∀ i, i ∉ [0, 1, 2, 4, 5, 6] → procOf s'.mod.dev i = procOf d i)) ∧
    (∀ failed : List (Fin 8), d.fw.store = none ∨ begunReq d 0x0901 = none → exec (.fwLoadComplete failed) s = .next s) ∧
    (∀ r, s.roleTakes 0 0x0902 r →
      (namedBytes m r.payload = none → ∃ s', exec .fwUpdate s = .next s' ∧ s.onlyAnswers s' r mbBadArg []) ∧
      (∀ b, namedBytes m r.payload = some b →
        (dbgOver d = true → ∃ s', exec .fwUpdate s = .next s' ∧ s.onlyAnswers s' r mbNotAllowed []) ∧
        (dbgOver d = false → d.fw.update = none →
          (∀ st, bundleFault s.fuses b = some st → ∃ s', exec .fwUpdate s = .next s' ∧ s.onlyAnswers s' r st []) ∧
          (bundleFault s.fuses b = none → (parseBundle b).mbx / 256 ≠ mbVersion d / 256 →
            ∃ s', exec .fwUpdate s = .next s' ∧ s.onlyAnswers s' r mbBadVersion []) ∧
          (bundleFault s.fuses b = none → (parseBundle b).mbx / 256 = mbVersion d / 256 →
            ∃ s', exec .fwUpdate s = .next s' ∧ s.changesOnly s' [.fw, .base] ∧ s'.mod.dev.fw.update = some (parseBundle b) ∧
              s'.mod.dev.fw.procs = d.fw.procs)))) ∧
    (d.fw.update = none → exec .fwUpdateComplete s = .next s) ∧
    (∀ b r, d.fw.update = some b → begunReq d 0x0902 = some r →
      ∃ s', exec .fwUpdateComplete s = .next s' ∧ s'.pending = s.pending ∧ s'.fuses = s.fuses ∧ s'.mod.mem = m.mem ∧
        s'.mod.dev.fw.update = none ∧ s'.mod.dev.fw.store = some b ∧ s'.mod.dev.plots = d.plots ∧
        ((∃ k < 3, procUp d (standbyId d k) = false) →
          (∃ d0 : Dev, d0.fw.update = none ∧ d0.fw.store = some b ∧ s'.mod.dev = d0.endReq r mbDeferred) ∧
            ((∀ i, (procOf d i).times = []) → s'.mod.dev.fw.active = d.fw.active)) ∧
        ((∀ k < 3, procUp d (standbyId d k) = true) →
          ∃ d0 : Dev, d0.fw.update = none ∧ d0.fw.store = some b ∧ s'.mod.dev = d0.endReq r mbOk))

/-- PROC_RESTART, WATCHDOG_EXPIRY, PROCESSOR_RESTART_DONE and TOKEN_PATH_NOGO (R524 to R530): a processor restarts with its count; the active
scheduler or security core hands over to a running standby and otherwise restarts alone; more than 3 restarts in an hour fail it; tokens
held meanwhile are taken in order of arrival; the token path of a module without a scheduler role answers with NOGO and CHECK_FAIL and
discards what R378 discards.
Rests in part on the model's own choices: log 68. -/
def Obligations.ProcessorsRestartAndHandOver : Prop :=
  ∀ (s : State),
    let m := s.mod
    let d := m.dev
    (∀ r, s.takesReq 0x0904 r →
      let id := fieldAt r.payload 0 1
      (procId id = false → ∃ s', exec .procRestart s = .next s' ∧ s.onlyAnswers s' r mbBadArg []) ∧
      (procId id = true → (procOf d id).failed = true → ∃ s', exec .procRestart s = .next s' ∧ s.onlyAnswers s' r mbProcFailed []) ∧
      (procId id = true → procUp d id = true → ∃ s', exec .procRestart s = .next s' ∧ s'.pending = s.pending ∧ s'.fuses = s.fuses ∧
        s'.mod.mem = m.mem ∧ s'.mod.dev = (d.endReq r mbOk).restartProc id)) ∧
    (∀ proc : BitVec 8,
      let id := proc.toNat
      let times := (procOf d id).times ++ [d.nowNs]
      let often := 3 < (times.filter fun t => decide (d.nowNs < t + 3600000000000)).length
      (procId id = false ∨ procUp d id = false → exec (.watchdogExpiry proc) s = .next s) ∧
      (procId id = true → procUp d id = true → ¬often →
        (16 ≤ id ∨ id % 4 = 1 ∨ activeId d (id % 4) ≠ id ∨ procUp d (standbyId d (id % 4)) = false →
          ∃ s', exec (.watchdogExpiry proc) s = .next s' ∧ s.changesOnly s' [.fw, .base, .events] ∧
            s'.mod.dev.base = (d.raise evFwWatchdog { x := some [id] }).base ∧ s'.mod.dev.fw.active = d.fw.active ∧
            procOf s'.mod.dev id = { procOf d id with
              times := times, restarts := (procOf d id).restarts + 1, restarting := true } ∧
            ∀ j, j ≠ id → procOf s'.mod.dev j = procOf d j) ∧
        (∀ r, id < 8 → (r = 0 ∨ r = 2) → id % 4 = r → activeId d r = id → procUp d (standbyId d r) = true →
          ∃ s', exec (.watchdogExpiry proc) s = .next s' ∧ s.changesOnly s' [.fw, .sec, .base, .events] ∧
            activeId s'.mod.dev r = standbyId d r ∧ (procOf s'.mod.dev id).restarting = true)) ∧
      (procId id = true → procUp d id = true → often → 16 ≤ id →
        ∃ s', exec (.watchdogExpiry proc) s = .next s' ∧ s.changesOnly s' [.fw, .pwr, .base, .events] ∧
          (procOf s'.mod.dev id).failed = true ∧ procUp s'.mod.dev id = false ∧
          s'.mod.dev.pwr.waiting = d.pwr.waiting ++ [⟨id - 16, none⟩])) ∧
    (∀ proc : BitVec 8, (procOf d proc.toNat).restarting = false → exec (.processorRestartDone proc) s = .next s) ∧
    (∀ proc : BitVec 8, (procOf d proc.toNat).restarting = true → proc.toNat ≠ activeId d 2 → d.fw.held = [] →
      ∃ s', exec (.processorRestartDone proc) s = .next s' ∧ s.changesOnly s' [.fw] ∧
        procOf s'.mod.dev proc.toNat = { procOf d proc.toNat with restarting := false } ∧
        ∀ j, j ≠ proc.toNat → procOf s'.mod.dev j = procOf d j) ∧
    (∀ token, d.stopped = false → d.fw.lost.contains 2 = false → exec (.tokenPathNogo token) s = .next s) ∧
    (∀ token l, d.stopped = false → d.fw.lost.contains 2 = true → discards d (leBytes 64 token.toNat) = false → leaderOf d = some l →
      let t := tokenOf token
      let nogo := fun (n : Word32) (a : Nat) => ({ myToken d 1 n a with flags := 1, cause := 9 } : Token)
      (t.type = 3 → ∃ s', exec (.tokenPathNogo token) s = .next s' ∧ s.changesOnly s' [.ms] ∧ s.sends s' [l] (nogo t.step (t.attempt + 1))) ∧
      (t.type = 4 → ∃ s', exec (.tokenPathNogo token) s = .next s' ∧ s.changesOnly s' [.ms] ∧ s.sends s' [l] (nogo t.mark (t.attempt + 1))) ∧
      (t.type = 5 → ∃ s', exec (.tokenPathNogo token) s = .next s' ∧ s.changesOnly s' [.ms] ∧ s.sends s' [l] (nogo t.step t.attempt)) ∧
      (t.type = 7 → ∃ s', exec (.tokenPathNogo token) s = .next s' ∧ s.changesOnly s' [.ms] ∧
        s.sends s' [t.src] { myToken d 8 t.step t.attempt with mark := d.base.applied, flags := 1, cause := 9 })) ∧
    (∀ token, d.stopped = false → d.fw.lost.contains 2 = true → discards d (leBytes 64 token.toNat) = true →
      exec (.tokenPathNogo token) s = .next s)

/-- PACK_LOAD, LOAN_REQUEST, LOAN_RETURN and LOAN_REVOKE (R424, R498, R501, Table 13.5): a pack that fails a check is refused with
EV_PACK_REFUSED and the cause, and one that passes becomes active and is measured; LOAN_REQUEST sends a LEND_REQ with the pages and the
window; LOAN_REVOKE sends REVOKE with a deadline 1 s ahead; LOAN_RETURN gives an empty loan back.
Rests in part on the model's own choices: log 40, 66. -/
def Obligations.PacksAndLoansAreAskedFor : Prop :=
  ∀ (s : State),
    let m := s.mod
    let d := m.dev
    (∀ r broken, s.roleTakes 0 0x0701 r →
      (namedBytes m r.payload = none → ∃ s', exec (.packLoad broken) s = .next s' ∧ s.onlyAnswers s' r mbBadArg []) ∧
      (∀ b, namedBytes m r.payload = some b →
        (∀ c, packFault s.fuses d b broken = some c → ∃ s', exec (.packLoad broken) s = .next s' ∧ s.changesOnly s' [.fw, .base, .events] ∧
          s'.mod.dev = (d.raise evPackRefused { c := c }).endReq r (packStatus c)) ∧
        (packFault s.fuses d b broken = none → ∃ s', exec (.packLoad broken) s = .next s' ∧
          s.changesOnly s' [.chk, .sec, .fw, .base, .events] ∧
          s'.mod.dev.chk = { d.chk with pack := some ⟨BitVec.ofNat 32 (fieldAt b 8 4), fieldAt b 12 4, (List.range (fieldAt b 6 2)).map (parseCase b),
            Config.sha384 b⟩ } ∧
          s'.mod.dev.sec.meas = kput d.sec.meas 7 (Config.sha384 b)))) ∧
    (s.quietFabric = true →
      (∀ r, s.takesReq 0x0801 r →
        let w := fieldAt r.payload 8 1
        let n := fieldAt r.payload 4 4
        (namedLender d r.payload = none ∨ 16 ≤ w ∨ n = 0 → ∃ s', exec .loanRequest s = .next s' ∧ s.onlyAnswers s' r mbBadArg []) ∧
        (∀ l, namedLender d r.payload = some l → w < 16 → n ≠ 0 → l ≠ d.fab.modid →
          (kfind d.tier.windows w ≠ none → (∀ a ∈ d.fab.asks, a.window ≠ w) →
            ∃ s', exec .loanRequest s = .next s' ∧ s.onlyAnswers s' r mbNotAllowed []) ∧
          ((∃ a ∈ d.fab.asks, a.window = w) → ∃ s', exec .loanRequest s = .next s' ∧ s.onlyAnswers s' r mbBusy []) ∧
          (kfind d.tier.windows w = none → (∀ a ∈ d.fab.asks, a.window ≠ w) →
            ∃ s', exec .loanRequest s = .next s' ∧ s.changesOnly s' [.fw, .base, .fab] ∧
              s'.mod.dev.fab.asks = d.fab.asks ++ [⟨l, w, n, r.tag⟩] ∧
              (flowOut s'.mod.dev l clsCtrl).unacked = (flowOut d l clsCtrl).unacked ++ [⟨(flowOut d l clsCtrl).next,
                msgBytes 0x20 (flowOut d l clsCtrl).next n 0 r.tag w [], d.nowNs, d.nowNs⟩]))) ∧
      (∀ r, s.takesReq 0x0802 r →
        let w := fieldAt r.payload 0 1
        (kfind d.tier.windows w = none → ∃ s', exec .loanReturn s = .next s' ∧ s.onlyAnswers s' r mbBadArg []) ∧
        (∀ l, kfind d.tier.windows w = some l → lentIn d.tier w = [] →
          ∃ s', exec .loanReturn s = .next s' ∧ s.changesOnly s' [.tier, .fab, .fw, .base] ∧
            s'.mod.dev.tier = { d.tier with windows := kdel d.tier.windows w } ∧
            (flowOut s'.mod.dev l.lender clsCtrl).unacked = (flowOut d l.lender clsCtrl).unacked ++ [⟨(flowOut d l.lender clsCtrl).next,
              msgBytes 0x25 (flowOut d l.lender clsCtrl).next 0 l.id 0 0 [], d.nowNs, d.nowNs⟩])) ∧
      (∀ r, s.takesReq 0x0803 r →
        let loan := d.fab.loans.find? fun l => l.id = fieldAt r.payload 0 4
        (loan = none → ∃ s', exec .loanRevoke s = .next s' ∧ s.onlyAnswers s' r mbBadArg []) ∧
        (∀ l, loan = some l → l.deadline ≠ none → ∃ s', exec .loanRevoke s = .next s' ∧ s.onlyAnswers s' r mbBusy []) ∧
        (∀ l, loan = some l → l.deadline = none → ∃ s', exec .loanRevoke s = .next s' ∧ s.changesOnly s' [.fab, .fw, .base] ∧
          s'.mod.dev.fab.loans = d.fab.loans.map (fun y => if y.id = l.id then { y with deadline := some (d.nowNs + 1000000000) } else y) ∧
          (flowOut s'.mod.dev l.borrower clsCtrl).unacked = (flowOut d l.borrower clsCtrl).unacked ++ [⟨(flowOut d l.borrower clsCtrl).next,
            msgBytes 0x23 (flowOut d l.borrower clsCtrl).next 1000 l.id 0 0 [], d.nowNs, d.nowNs⟩])))

/-- DEBUG_CHALLENGE, DEBUG_UNLOCK, DEBUG_ERASE_COMPLETE, LIFECYCLE_ADVANCE and KEY_REVOKE (R554 to R558, Table 14.6): a challenge returns DEVID and
a fresh nonce; every check of a token consumes the nonce, and a token that fails one blows nothing; an accepted LIFECYCLE_ADVANCE blows
LIFECYCLE up to its target, an accepted KEY_REVOKE the slots named, never the signing slot or every slot; DEBUG_UNLOCK is refused once setup
is locked, while a descriptor is in progress or once DBGDIS is set, and otherwise zeroises the keys and sessions at once; when the scrub
ends memory is zero and the port opens, or stays dead.
Rests in part on the model's own choices: log 6, 44, 56. -/
def Obligations.FuseTokensActOnce : Prop :=
  ∀ (s : State),
    let m := s.mod
    let d := m.dev
    (∀ r, s.roleTakes 0 0x0A01 r → ∃ s' n, exec .debugChallenge s = .next s' ∧ n.length = 32 ∧ s.changesOnly s' [.sec, .fw, .base] ∧
      s'.mod.dev.sec = { d.sec with nonce := some n, draws := d.sec.draws + 1 } ∧
      s'.mod.dev = (d.onSec fun x => { x with nonce := some n, draws := x.draws + 1 }).endReq r mbOk (leBytes 16 s.fuses.devid.toNat ++ n)) ∧
    (∀ r, s.roleTakes 0 0x0A04 r →
      (tokensOff d = true → ∃ s', exec .lifecycleAdvance s = .next s' ∧ s.onlyAnswers s' r mbNotAllowed []) ∧
      (∀ b, tokensOff d = false → namedBytes m r.payload = some b →
        (∀ st, tokenFault s.fuses d 2 .firmware b = some st → ∃ s', exec .lifecycleAdvance s = .next s' ∧
          s.changesOnly s' [.sec, .fw, .base] ∧ s'.mod.dev.sec = { d.sec with nonce := none }) ∧
        (tokenFault s.fuses d 2 .firmware b = none → fieldAt b 7 1 = 2 ∨ fieldAt b 7 1 = 3 →
          ∃ s', exec .lifecycleAdvance s = .next s' ∧ s'.pending = s.pending ∧ s'.mod.mem = m.mem ∧
            s'.fuses = { s.fuses with lifecycle := s.fuses.lifecycle ||| (if fieldAt b 7 1 = 2 then 0b111 else 0b1111) } ∧
            s'.mod.dev = (d.onSec fun x => { x with nonce := none }).endReq r mbOk))) ∧
    (∀ r, s.roleTakes 0 0x0A05 r →
      (tokensOff d = true → ∃ s', exec .keyRevoke s = .next s' ∧ s.onlyAnswers s' r mbNotAllowed []) ∧
      (∀ b, tokensOff d = false → namedBytes m r.payload = some b → tokenFault s.fuses d 3 .firmware b = none →
        let arg := fieldAt b 7 1
        let v : BitVec 4 := s.fuses.fwRevoke ||| BitVec.ofNat 4 arg
        (bitOf arg (sigSlot b 128) = true ∨ v = 15 → ∃ s', exec .keyRevoke s = .next s' ∧ s.changesOnly s' [.sec, .fw, .base] ∧
          s'.mod.dev = (d.onSec fun x => { x with nonce := none }).endReq r mbBadArg) ∧
        (arg < 16 → bitOf arg (sigSlot b 128) = false → v ≠ 15 →
          ∃ s', exec .keyRevoke s = .next s' ∧ s'.pending = s.pending ∧ s'.mod.mem = m.mem ∧ s'.fuses = { s.fuses with fwRevoke := v } ∧
            s'.mod.dev = (d.onSec fun x => { x with nonce := none }).endReq r mbOk))) ∧
    (∀ r, s.roleTakes 0 0x0A02 r →
      (d.base.lockHif = true ∨ d.hif.descs ≠ [] ∨ d.sec.locks.getLsbD 0 = true →
        ∃ s', exec .debugUnlock s = .next s' ∧ s.onlyAnswers s' r mbNotAllowed []) ∧
      (∀ b, d.base.lockHif = false → d.hif.descs = [] → d.sec.locks.getLsbD 0 = false → tokensOff d = false → d.sec.dbg ≠ 1 →
        namedBytes m r.payload = some b → tokenFault s.fuses d 1 .debug b = none → fieldAt b 7 1 < 16 →
        ∃ s', exec .debugUnlock s = .next s' ∧ s.changesOnly s' [.sec, .fw, .base, .events] ∧
          s'.mod.dev.sec = { d.sec with
            nonce := none, dbg := 1, scope := fieldAt b 7 1, token := Config.sha384 b, seedLocked := true, keys := false
            warmKeys := [], cartKeys := [], sessions := [], ide := [], signed := [] })) ∧
    (∀ ok, d.sec.dbg ≠ 1 → exec (.debugEraseComplete ok) s = .next s) ∧
    (∀ ok, d.sec.dbg = 1 → d.pwr.holding = false → begunReq d 0x0A02 = none →
      ∃ s', exec (.debugEraseComplete ok) s = .next s' ∧ s'.pending = s.pending ∧ s'.fuses = s.fuses ∧ s'.mod.mem = [] ∧
        s'.mod.dev.sec.dbg = (if ok then 2 else 3) ∧ s'.mod.dev.tier.slots = [] ∧
        (∀ p ∈ s'.mod.dev.plots, p.2.sram = [] ∧ p.2.store = []) ∧
        s'.mod.dev.base = (if ok then d.raise evDebugOpened { n := d.sec.scope } else d.raise evDebugEraseFailed).base)

/-- SECVER_COMMIT, CERT_SET, MEAS_GET, SPDM_REQUEST, SLH_SIGNATURE_REQUEST, the three SEC_LOCK writes and DEBUG_PORT_ACCESS (R544, R545, R550 to
R552, R587, Table 14.7): a commit raises a security-version fuse to what runs, is BUSY during an update and blows nothing where the fuse is
there already; a certificate chain that fails its check is not installed; a measurement is answered by index; without a chain a challenge
answers ERROR; a lock bit stays set; the debug port is dead unless debug is OPENED and the unit lies in the token's SCOPE.
Rests in part on the model's own choices: log 6, 45, 72. -/
def Obligations.SecurityOperationsAnswer : Prop :=
  ∀ (s : State),
    let m := s.mod
    let d := m.dev
    (∀ r, s.roleTakes 0 0x0A03 r →
      (1 < fieldAt r.payload 0 1 → ∃ s', exec .secverCommit s = .next s' ∧ s.onlyAnswers s' r mbBadArg []) ∧
      (fieldAt r.payload 0 1 ≤ 1 → tokensOff d = true → ∃ s', exec .secverCommit s = .next s' ∧ s.onlyAnswers s' r mbNotAllowed []) ∧
      (fieldAt r.payload 0 1 ≤ 1 → tokensOff d = false → d.fw.update ≠ none →
        ∃ s', exec .secverCommit s = .next s' ∧ s.onlyAnswers s' r mbBusy []) ∧
      (∀ v, fieldAt r.payload 0 1 = 0 → tokensOff d = false → d.fw.update = none → runningSecver d = some v →
        (v ≤ s.fuses.svFw → ∃ s', exec .secverCommit s = .next s' ∧ s.onlyAnswers s' r mbOk []) ∧
        (s.fuses.svFw < v → ∃ s', exec .secverCommit s = .next s' ∧ s'.pending = s.pending ∧ s'.mod.mem = m.mem ∧
          s'.fuses = { s.fuses with secverFw := thermometer 64 v s.fuses.secverFw } ∧
          s'.mod.dev = (d.raise evSecverCommitted { n := v }).endReq r mbOk)) ∧
      (∀ p, fieldAt r.payload 0 1 = 1 → tokensOff d = false → d.fw.update = none → d.chk.pack = some p →
        (p.secver ≤ s.fuses.svPack → ∃ s', exec .secverCommit s = .next s' ∧ s.onlyAnswers s' r mbOk []) ∧
        (s.fuses.svPack < p.secver → ∃ s', exec .secverCommit s = .next s' ∧ s'.pending = s.pending ∧ s'.mod.mem = m.mem ∧
          s'.fuses = { s.fuses with secverPack := thermometer 64 p.secver s.fuses.secverPack } ∧
          s'.mod.dev = (d.raise evSecverCommitted { n := p.secver }).endReq r mbOk))) ∧
    (∀ r, s.roleTakes 0 0x0A06 r →
      (d.sec.locks.getLsbD 1 = true → ∃ s', exec .certSet s = .next s' ∧ s.onlyAnswers s' r mbNotAllowed []) ∧
      (∀ b, d.sec.locks.getLsbD 1 = false → fieldAt r.payload 8 4 ≤ 0x10000 → namedBytes m r.payload = some b →
        (Config.certOk s.fuses.fwKey b = false → ∃ s', exec .certSet s = .next s' ∧ s.onlyAnswers s' r mbBadArg []) ∧
        (Config.certOk s.fuses.fwKey b = true → ∃ s', exec .certSet s = .next s' ∧ s.changesOnly s' [.sec, .fw, .base] ∧
          s'.mod.dev.sec = { d.sec with cert := some b }))) ∧
    (∀ r, s.roleTakes 0 0x0A07 r →
      (fieldAt r.payload 0 1 = 0 ∨ 9 < fieldAt r.payload 0 1 → ∃ s', exec .measGet s = .next s' ∧ s.onlyAnswers s' r mbBadArg []) ∧
      (1 ≤ fieldAt r.payload 0 1 → fieldAt r.payload 0 1 ≤ 9 → ∃ s', exec .measGet s = .next s' ∧
        s.onlyAnswers s' r mbOk (leBytes 48 (measurement s.fuses d (fieldAt r.payload 0 1)).toNat))) ∧
    (d.hifUp = true →
      (∃ s', exec .secLockDbgdis s = .next s' ∧ s.changesOnly s' [.sec] ∧ s'.mod.dev.sec = { d.sec with locks := d.sec.locks ||| 1 }) ∧
      (∃ s', exec .secLockCertdis s = .next s' ∧ s.changesOnly s' [.sec] ∧ s'.mod.dev.sec = { d.sec with locks := d.sec.locks ||| 2 }) ∧
      (∃ s', exec .secLockFusedis s = .next s' ∧ s.changesOnly s' [.sec] ∧ s'.mod.dev.sec = { d.sec with locks := d.sec.locks ||| 4 })) ∧
    (∀ req, secUp d = true →
      (d.sec.cert = none → fieldAt req 1 1 = 0x82 ∨ fieldAt req 1 1 = 0x83 ∨ fieldAt req 1 1 = 0xE4 →
        ∃ s', exec (.spdmRequest true none req) s = .next s' ∧ s.changesOnly s' [.sec] ∧
          s'.mod.dev.sec.answers = d.sec.answers ++ [(1, spdmError 5 0)] ∧ s'.mod.dev.sec.sessions = d.sec.sessions) ∧
      (d.sec.cert ≠ none → spdmUnsupported (fieldAt req 1 1) = false → fieldAt req 1 1 ≠ 0xE4 →
        ∃ s' b, exec (.spdmRequest true none req) s = .next s' ∧ s.changesOnly s' [.sec] ∧
          s'.mod.dev.sec.answers = d.sec.answers ++ [(1, b)] ∧ s'.mod.dev.sec.sessions.length ≤ d.sec.sessions.length)) ∧
    (∀ req, secUp d = true → d.sec.cert ≠ none → fieldAt req 1 1 = 0xE4 →
      (4 ≤ d.sec.sessions.length → ∃ s', exec (.spdmRequest true none req) s = .next s' ∧ s.changesOnly s' [.sec] ∧
        s'.mod.dev.sec.sessions = d.sec.sessions) ∧
      (d.sec.sessions.length < 4 → ∃ s', exec (.spdmRequest true none req) s = .next s' ∧ s.changesOnly s' [.sec] ∧
        s'.mod.dev.sec.sessions.length = d.sec.sessions.length + 1)) ∧
    (secUp d = true →
      (∀ i, kfind d.sec.signed 1 = some i → ∃ s' sig, exec (.slhSignatureRequest true) s = .next s' ∧ sig.length = 16224 ∧ s.changesOnly s' [.sec] ∧
        s'.mod.dev.sec = { d.sec with
          answers := d.sec.answers ++ [(1, [0x81, 0x00, 0x00, 0x00] ++ sig)], signed := kdel d.sec.signed 1 }) ∧
      (kfind d.sec.signed 1 = none → ∃ s', exec (.slhSignatureRequest true) s = .next s' ∧ s.changesOnly s' [.sec] ∧
        s'.mod.dev.sec.answers = d.sec.answers ++ [(1, [0x81, 0x01, 0x00, 0x00])])) ∧
    (∀ (scope : Fin 4) word,
      (d.sec.dbg ≠ 2 ∨ bitOf d.sec.scope scope = false → exec (.debugPortAccess scope word) s = .next s) ∧
      (d.sec.dbg = 2 → bitOf d.sec.scope scope = true → ∃ s', exec (.debugPortAccess scope word) s = .next s' ∧ s.changesOnly s' [.sec] ∧
        s'.mod.dev.sec = { d.sec with dbgOut := d.sec.dbgOut ++ [(scope.val, word)] }))

/-- POWER_CAP_TICK, CAP_SET, PWR_STATUS, FAST_POWER_LIMIT, THERMAL_THROTTLE_TICK, HBM_STACK_HOT, BROWNOUT_ENTER and BROWNOUT_EXIT (R569 to R571,
Tables 15.4, 15.9): the capping fraction follows the mean input power of the tick and stays from 0 to 56; EV_PWR_CAPPING is raised when it
leaves 0 and when it returns; the run-time limit is taken from 1,200 W to LIMIT; a die throttles from THROTTLE on and recovers below
THROTTLE − 3; brown-out begins below BROWNV and ends 1.0 V above it, once each.
Rests in part on the model's own choices: log 39, 41. -/
def Obligations.PowerAndHeatAreHeldBack : Prop :=
  ∀ (s : State), s.mod.dev.stopped = false →
    let d := s.mod.dev
    let lim := min (cfgPwrCapCfgLimit d.base) (d.pwr.limit.getD (cfgPwrCapCfgLimit d.base))
    let f := d.pwr.f
    (∀ mw vin, powerUp d = true →
      ∃ s' f', exec (.powerCapTick mw vin) s = .next s' ∧ s.changesOnly s' [.pwr, .base, .events] ∧
        (1000 * (lim + 100) < mw → f' = min (f + 2) 56) ∧
        (1000 * lim < mw → mw ≤ 1000 * (lim + 100) → f' = min (f + 1) 56) ∧
        (mw ≤ 1000 * lim → mw + 50000 < 1000 * lim → f' = f - 1) ∧
        (mw ≤ 1000 * lim → 1000 * lim ≤ mw + 50000 → f' = f) ∧
        s'.mod.dev.pwr = { d.pwr with pin := mw / 1000, vin := vin, capTicks := d.pwr.capTicks + 1, f := f' } ∧
        s'.mod.dev.base = (let c := if 0 < f then d.count cPwrCapTick 0 1 else d
          if (f = 0 ∧ f' ≠ 0) ∨ (f ≠ 0 ∧ f' = 0) then c.raise evPwrCapping { n := f' } else c).base) ∧
    (∀ mw vin, powerUp d = false →
      ∃ s', exec (.powerCapTick mw vin) s = .next s' ∧ s.changesOnly s' [.pwr, .events] ∧ s'.mod.dev.pwr.f = f) ∧
    (∃ s', exec .fastPowerLimit s = .next s' ∧ s.changesOnly s' [.pwr, .base, .events] ∧ s'.mod.dev.pwr = { d.pwr with f := max f 32 }) ∧
    (∀ r, s.roleTakes 1 0x0B02 r →
      let w := fieldAt r.payload 0 2
      (1200 ≤ w → w ≤ cfgPwrCapCfgLimit d.base → ∃ s', exec .capSet s = .next s' ∧ s.changesOnly s' [.pwr, .fw, .base] ∧
        s'.mod.dev.pwr = { d.pwr with limit := some w }) ∧
      (w < 1200 ∨ cfgPwrCapCfgLimit d.base < w → ∃ s', exec .capSet s = .next s' ∧ s.onlyAnswers s' r mbBadArg [])) ∧
    (∀ r, s.roleTakes 1 0x0B01 r → ∃ s' b, exec .pwrStatus s = .next s' ∧ b.length = 240 ∧ s.onlyAnswers s' r mbOk b) ∧
    (∀ temps, powerUp d = true → temps.length = 9 →
      let th := cfgPwrThermCfgThrottle d.base
      ∃ s', exec (.thermalThrottleTick temps) s = .next s' ∧ s.changesOnly s' [.pwr, .base, .events] ∧
        (∀ i < 9, kget 0 s'.mod.dev.pwr.temps i = nth 0 temps i) ∧
        (∀ i < 4, (th ≤ nth 0 temps i → kget 0 s'.mod.dev.pwr.t i = min (kget 0 d.pwr.t i + 1) 56) ∧
          (nth 0 temps i + 3 < th → kget 0 s'.mod.dev.pwr.t i = kget 0 d.pwr.t i - 1) ∧
          (nth 0 temps i < th → th ≤ nth 0 temps i + 3 → kget 0 s'.mod.dev.pwr.t i = kget 0 d.pwr.t i) ∧
          (i ∈ s'.mod.dev.pwr.hotDies ↔ th + 5 ≤ nth 0 temps i)) ∧
        s'.mod.dev.pwr.f = f ∧ s'.mod.dev.pwr.limit = d.pwr.limit) ∧
    (∀ (stack : Fin 12) temp, ∃ s', exec (.hbmStackHot stack temp) s = .next s' ∧ s.changesOnly s' [.pwr] ∧
      kget 0 s'.mod.dev.pwr.stackTemps stack = temp ∧ (stack.val ∈ s'.mod.dev.pwr.hotStacks ↔ 95 ≤ temp) ∧
      ∀ k, k ≠ stack.val → (k ∈ s'.mod.dev.pwr.hotStacks ↔ k ∈ d.pwr.hotStacks)) ∧
    (∀ vin, let brownv := cfgPwrVoltCfgBrownv d.base
      (d.pwr.brown = false → vin < brownv → ∃ s', exec (.brownoutEnter vin) s = .next s' ∧ s.changesOnly s' [.pwr, .base, .events] ∧
        s'.mod.dev.pwr = { d.pwr with brown := true, vin := vin } ∧
        s'.mod.dev.base = ((d.raise evBrownoutEnter { n := vin }).count cBrownout 0 1).base) ∧
      (d.pwr.brown = true ∨ brownv ≤ vin → exec (.brownoutEnter vin) s = .next s) ∧
      (d.pwr.brown = true → brownv + 10 ≤ vin → ∃ s', exec (.brownoutExit vin) s = .next s' ∧ s.changesOnly s' [.pwr, .base, .events] ∧
        s'.mod.dev.pwr = { d.pwr with brown := false, vin := vin } ∧ s'.mod.dev.base = (d.raise evBrownoutExit { n := vin }).base) ∧
      (d.pwr.brown = false ∨ vin < brownv + 10 → exec (.brownoutExit vin) s = .next s))

/-- THERMAL_TRIP, POWER_FAIL, CLOCK_LOST, DOMAIN_CYCLE, QUADRANT_CYCLE and DOMAIN_CYCLE_END (R562 to R568, R572, R573): a trip or power fail takes
every plot, spine, fabric half, Iaqua and the flash controller down, keeps memory and abandons every descriptor, and clock loss takes hot and
warm contents; each happens once; a cycle that is asked for waits its turn, is refused in a protective action, and when it ends the domain is
powered again and EV_DOMAIN_CYCLED is raised.
Rests in part on the model's own choices: log 69, 70. -/
def Obligations.ProtectiveActionsAndDomainCycles : Prop :=
  ∀ (s : State),
    let m := s.mod
    let d := m.dev
    (∀ stack source temp, d.pwr.powered = true → d.pwr.clkLost = false → d.pwr.trip = false →
      ((if stack = true then 105 else 110) ≤ temp →
        ∃ s', exec (.thermalTrip stack source temp) s = .next s' ∧ s'.pending = s.pending ∧ s'.fuses = s.fuses ∧ s'.mod.mem = m.mem ∧
          s'.mod.dev.pwr.trip = true ∧ s'.mod.dev.stopped = true ∧ s'.mod.dev.pwr.on = d.pwr.on &&& 0x1900000#30 ∧
          s'.mod.dev.plots = [] ∧ s'.mod.dev.hif.descs = [] ∧ s'.mod.dev.base.ended = [] ∧ s'.mod.dev.tier = d.tier ∧
          s'.mod.dev.pwr.cycle = none ∧ s'.mod.dev.pwr.waiting = []) ∧
      (temp < (if stack = true then 105 else 110) → exec (.thermalTrip stack source temp) s = .next s)) ∧
    (∀ vin, d.pwr.powered = true → d.pwr.clkLost = false → d.pwr.pfail = false → (∀ v, vin = some v → v < cfgPwrVoltCfgPfailv d.base) →
      ∃ s', exec (.powerFail vin) s = .next s' ∧ s'.pending = s.pending ∧ s'.fuses = s.fuses ∧ s'.mod.mem = m.mem ∧
        s'.mod.dev.pwr.pfail = true ∧ s'.mod.dev.stopped = true ∧ s'.mod.dev.plots = [] ∧ s'.mod.dev.hif.descs = [] ∧ s'.mod.dev.tier = d.tier) ∧
    (∀ v, cfgPwrVoltCfgPfailv d.base ≤ v → exec (.powerFail (some v)) s = .next s) ∧
    (d.pwr.powered = true → d.pwr.clkLost = false → ∃ s', exec .clockLost s = .next s' ∧ s'.pending = s.pending ∧ s'.fuses = s.fuses ∧
      s'.mod.mem = [] ∧ s'.mod.dev.pwr.clkLost = true ∧ s'.mod.dev.stopped = true ∧ s'.mod.dev.hif.descs = []) ∧
    (d.pwr.clkLost = true → exec .clockLost s = .next s ∧ (∀ stack source temp, exec (.thermalTrip stack source temp) s = .next s) ∧
      ∀ vin, exec (.powerFail vin) s = .next s) ∧
    (∀ r, s.takesReq 0x0B03 r → powerUp d = true →
      let dom := fieldAt r.payload 0 1
      (d.stopped = true → dom < 30 → ∃ s', exec .domainCycle s = .next s' ∧ s.changesOnly s' [.fw, .base, .events] ∧
        s'.mod.dev = (d.raise evCycleRefused { c := 3, n := dom }).endReq r mbNotAllowed) ∧
      (d.stopped = false → 30 ≤ dom → d.pwr.waiting = [] → ∃ s', exec .domainCycle s = .next s' ∧ s.onlyAnswers s' r mbBadArg []) ∧
      (∀ c, d.stopped = false → dom < 30 → d.pwr.cycle = some c → ∃ s', exec .domainCycle s = .next s' ∧ s.changesOnly s' [.fw, .pwr, .base] ∧
        s'.mod.dev.pwr = { d.pwr with waiting := d.pwr.waiting ++ [⟨dom, some r.tag⟩] }) ∧
      (d.stopped = false → dom = 20 ∨ dom = 25 → d.pwr.cycle = none → d.pwr.waiting = [] →
        ∃ s', exec .domainCycle s = .next s' ∧ s.changesOnly s' [.fw, .pwr, .base] ∧ s'.mod.dev.pwr.cycle = some ⟨dom, some r.tag⟩ ∧
          s'.mod.dev.pwr.on = d.pwr.on &&& ~~~(BitVec.ofNat 30 (2 ^ dom)) ∧ s'.mod.dev.pwr.waiting = [])) ∧
    (∀ (quad : Fin 16) c, d.stopped = false → d.pwr.cycle = some c →
      (quadDue d quad = true → c.dom ≠ quad.val → (∀ w ∈ d.pwr.waiting, w.dom ≠ quad.val) →
        ∃ s', exec (.quadrantCycle quad) s = .next s' ∧ s.changesOnly s' [.pwr] ∧
          s'.mod.dev.pwr = { d.pwr with waiting := d.pwr.waiting ++ [⟨quad.val, none⟩] }) ∧
      (quadDue d quad = false → exec (.quadrantCycle quad) s = .next s)) ∧
    (d.pwr.cycle = none → exec .domainCycleEnd s = .next s) ∧
    (∀ c, d.stopped = false → d.pwr.cycle = some c → c.tag = none → d.pwr.waiting = [] → c.dom = 20 ∨ c.dom = 25 ∨ 26 ≤ c.dom →
      ∃ s', exec .domainCycleEnd s = .next s' ∧ s.changesOnly s' [.pwr, .ms, .base, .events] ∧
        s'.mod.dev.pwr = { d.pwr with
          cycle := none, on := d.pwr.on ||| BitVec.ofNat 30 (2 ^ c.dom)
          lastReset := if c.dom = 25 then d.pwr.lastReset else some d.nowNs } ∧
        s'.mod.dev.base = (d.raise evDomainCycled { n := c.dom }).base ∧
        s'.mod.dev.ms.rejoinDue = (if 26 ≤ c.dom then some false else d.ms.rejoinDue))

/-- COLD_POWER_ON, POWER_REMOVED, EN_MATE, PERST_ASSERT, PERST_DEASSERT and RESET_HOLD_RELEASE (R574 to R579, R586, R588, Table 15.5): a cold reset
and the loss of power keep only flash contents and the fuses; a link reset keeps warm memory, and hot memory where KEEP_HOT is set; it is held
while debug is ERASING, and while the module is in a trip or power fail and too hot or its input too low; MODID is what the straps were when
PERST# was deasserted.
Rests in part on the model's own choices: log 70. -/
def Obligations.ResetsKeepWhatTable155Says : Prop :=
  ∀ (s : State),
    let m := s.mod
    let d := m.dev
    (∀ straps en, ∃ s', exec (.coldPowerOn straps en) s = .next s' ∧ s'.pending = s.pending ∧ s'.fuses = s.fuses ∧ s'.mod.mem = [] ∧
      s'.mod.dev.plots = [] ∧ s'.mod.dev.base.regs = [] ∧ s'.mod.dev.base.cnt = [] ∧ s'.mod.dev.base.tot = [] ∧
      s'.mod.dev.base.lockAll = false ∧ s'.mod.dev.fw = FwState.reset ∧ s'.mod.dev.sec.dbg = 0 ∧ s'.mod.dev.sec.locks = 0 ∧
      s'.mod.dev.tier.cold = d.tier.cold ∧ s'.mod.dev.tier.slots = [] ∧ s'.mod.dev.pwr.kind = 0 ∧ s'.mod.dev.pwr.powered = true ∧
      s'.mod.dev.pwr.en = en ∧ s'.mod.dev.fab.straps = straps.toNat ∧ s'.mod.dev.fab.modid = d.fab.modid) ∧
    (∃ s', exec .powerRemoved s = .next s' ∧ s'.pending = s.pending ∧ s'.fuses = s.fuses ∧ s'.mod.mem = [] ∧ s'.mod.dev.plots = [] ∧
      s'.mod.dev.tier.cold = d.tier.cold ∧ s'.mod.dev.pwr.powered = false ∧ s'.mod.dev.stopped = true) ∧
    (d.pwr.powered = true → ∃ s', exec .enMate s = .next s' ∧ s.changesOnly s' [.pwr] ∧ s'.mod.dev.pwr = { d.pwr with en := true }) ∧
    (d.pwr.powered = false → exec .enMate s = .next s) ∧
    (d.pwr.powered = true → d.pwr.clkLost = false → d.pwr.perst = false →
      (d.pwr.trip = false → d.pwr.pfail = false → d.sec.dbg ≠ 1 →
        ∃ s', exec .perstAssert s = .next s' ∧ s'.pending = s.pending ∧ s'.fuses = s.fuses ∧ s'.mod.dev.plots = [] ∧
          s'.mod.dev.base.cnt = [] ∧ s'.mod.dev.base.tot = [] ∧ s'.mod.dev.base.now = d.base.now ∧ s'.mod.dev.base.lockAll = false ∧
          s'.mod.dev.fw = FwState.reset ∧ s'.mod.dev.sec.dbg = d.sec.dbg ∧
          s'.mod.dev.sec.sessions = [] ∧ s'.mod.dev.pwr.kind = 1 ∧ s'.mod.dev.pwr.perst = true ∧ s'.mod.dev.pwr.holding = false ∧
          (cfgPwrRstCfgKeepHot d.base ≠ 1 → s'.mod.mem = m.mem.filter (fun x => decide (0x100000000000 ≤ x.1)) ∧
            s'.mod.dev.tier.cold = d.tier.cold ∧ s'.mod.dev.pwr.hotKept = false) ∧
          (cfgPwrRstCfgKeepHot d.base = 1 → s'.mod.dev.pwr.hotKept = true ∧ cfgPwrRstCfgKeepHot s'.mod.dev.base = 1)) ∧
      (d.sec.dbg = 1 ∨ ((d.pwr.trip = true ∨ d.pwr.pfail = true) ∧ coolEnough d = false) →
        ∃ s', exec .perstAssert s = .next s' ∧ s.changesOnly s' [.pwr] ∧ s'.mod.dev.pwr = { d.pwr with perst := true, holding := true })) ∧
    (d.pwr.perst = true ∨ d.pwr.clkLost = true → exec .perstAssert s = .next s) ∧
    (∀ straps, d.pwr.powered = true → d.pwr.perst = true →
      ∃ s', exec (.perstDeassert straps) s = .next s' ∧ s.changesOnly s' [.pwr, .fab] ∧ s'.mod.dev.pwr = { d.pwr with perst := false } ∧
        s'.mod.dev.fab = { d.fab with
          straps := straps.toNat, modid := if d.pwr.holding then d.fab.modid else straps.toNat }) ∧
    (∀ straps, d.pwr.perst = false → exec (.perstDeassert straps) s = .next s) ∧
    (∀ temps vin, d.pwr.holding = false → exec (.resetHoldRelease temps vin) s = .next s) ∧
    (∀ temps vin, d.pwr.holding = true → temps.length = 9 → d.sec.dbg ≠ 1 →
      ((∀ t ∈ temps, t + 10 < cfgPwrThermCfgThrottle d.base) → cfgPwrVoltCfgBrownv d.base ≤ vin →
        ∃ s', exec (.resetHoldRelease temps vin) s = .next s' ∧ s'.pending = s.pending ∧ s'.fuses = s.fuses ∧ s'.mod.dev.pwr.holding = false ∧
          s'.mod.dev.pwr.kind = 1 ∧ s'.mod.dev.pwr.trip = false ∧ s'.mod.dev.pwr.pfail = false ∧
          s'.mod.dev.pwr.afterTrip = d.pwr.trip ∧ s'.mod.dev.pwr.afterPfail = d.pwr.pfail) ∧
      ((∃ t ∈ temps, cfgPwrThermCfgThrottle d.base ≤ t + 10) → d.pwr.trip = true →
        ∃ s', exec (.resetHoldRelease temps vin) s = .next s' ∧ s.changesOnly s' [.pwr] ∧ s'.mod.dev.pwr.holding = true ∧
          s'.mod.dev.pwr.trip = true))

/-- STARTUP_STAGE_COMPLETE (R580, R581, Table 15.7): a stage completes only once and only when its turn has come; boot ROM, PCIe, plots, journals
and fabric stages record themselves and power their domains; READY is set with the last stage, unless a failure at start-up forbids it.
Rests in part on the model's own choices: log 71. -/
def Obligations.StagesLeadToReady : Prop :=
  ∀ (s : State) (stage : StartStage),
    let d := s.mod.dev
    let n := stageNo stage
    (d.stopped = true ∨ d.pwr.holding = true ∨ n ∈ d.pwr.stages ∨ stageDue d n = false →
      exec (.startupStageComplete stage) s = .next s) ∧
    (d.stopped = false → d.pwr.holding = false → n ∉ d.pwr.stages → stageDue d n = true →
      (∃ s', exec (.startupStageComplete stage) s = .next s' ∧ s'.pending = s.pending ∧ s'.fuses = s.fuses ∧ s'.mod.mem = s.mod.mem ∧
        s'.mod.dev.pwr.stages = d.pwr.stages ++ [n] ∧ s'.mod.dev.base.regs = d.base.regs ∧ s'.mod.dev.plots = d.plots ∧
        (d.hif.ready = false → (s'.mod.dev.hif.ready = true ↔
          (∀ k ∈ [1, 2, 3, 4, 5, 6, 7, 8, 10, 11], k ∈ s'.mod.dev.pwr.stages) ∧ s'.mod.dev.pwr.startBad = false))) ∧
      (∀ failed, stage = .domains failed → (∃ k ∈ failed, k.val < 21 ∨ k.val = 23 ∨ k.val = 24) →
        ∃ s', exec (.startupStageComplete stage) s = .next s' ∧ s'.mod.dev.pwr.startBad = true) ∧
      (∀ rate width, stage = .link rate width → ∃ s', exec (.startupStageComplete stage) s = .next s' ∧
        s'.mod.dev.hif.rate = rate ∧ s'.mod.dev.hif.width = width ∧ s'.mod.dev.pwr.on = d.pwr.on ||| 0x100000#30) ∧
      (stage = .engine → ∃ s', exec (.startupStageComplete stage) s = .next s' ∧ s'.mod.dev.tier.started = true ∧
        ∀ c ∈ s'.mod.dev.ms.cairns, c.state = 1))

/-- COOLANT_CHECK, PRESENCE_CHANGE, PART_REMOVED, SLOT_REMOVED_LIVE, BAY_LATCH_OPEN and BAY_LATCH_CLOSE (R584, R596 to R598, Table 16.12): coolant
out of range, or hot for 10 ticks on end, is warned of when it begins and when it ends; a part inserted into an empty slot or a closed bay
of a READY module is returned, or leaves it REFUSED; one pulled from a live slot is an error of the unit; an open latch evacuates its bay,
and closing it before the end stops the evacuation.
Rests in part on the model's own choices: log 46, 71. -/
def Obligations.SlotsAndBaysFollowTheirParts : Prop :=
  ∀ (s : State),
    let m := s.mod
    let d := m.dev
    (∀ inlet outlet, d.pwr.powered = true →
      let hot := if inlet + 200 < outlet then d.hw.coolHot + 1 else 0
      let warn := decide (inlet < 150 ∨ 450 < inlet ∨ 10 ≤ hot)
      ∃ s', exec (.coolantCheck inlet outlet) s = .next s' ∧ s.changesOnly s' [.hw, .base, .events] ∧
        s'.mod.dev.hw = { d.hw with coolant := (inlet, outlet), coolHot := hot, coolWarn := warn } ∧
        s'.mod.dev.base = (if warn = d.hw.coolWarn then d else d.raise evCoolantWarn { n := if warn then 1 else 0 }).base) ∧
    (∀ (u : Fin 20) size genuine, d.pwr.powered = true → kfind d.hw.present u = none →
      (d.hif.ready = false → ∃ s', exec (.presenceChange u size genuine) s = .next s' ∧ s.changesOnly s' [.hw] ∧
        s'.mod.dev.hw = { d.hw with present := kput d.hw.present u size, found := d.hw.found ++ [(u.val, size, genuine)] }) ∧
      (d.hif.ready = true → d.stopped = false → d.sec.dbg = 0 → latchOpen d u = false → slotSt d u = .empty ∨ slotSt d u = .fallowOff →
        (∀ x ∈ d.hw.found, x.1 ≠ u.val) →
        (u.val < 16 → d.tier.capCh ≤ size → ∃ s', exec (.presenceChange u size genuine) s = .next s' ∧ s.changesOnly s' [.hw, .tier] ∧
          slotSt s'.mod.dev u = .returning) ∧
        (u.val < 16 → size < d.tier.capCh → ∃ s', exec (.presenceChange u size genuine) s = .next s' ∧
          s.changesOnly s' [.hw, .tier, .base, .events] ∧ slotSt s'.mod.dev u = .refused ∧
          s'.mod.dev.base = (d.raise evDimmRefused { n := u.val }).base) ∧
        (16 ≤ u.val → genuine = true → ∃ s', exec (.presenceChange u size genuine) s = .next s' ∧ s.changesOnly s' [.hw, .tier] ∧
          slotSt s'.mod.dev u = .returning) ∧
        (16 ≤ u.val → genuine = false → ∃ s', exec (.presenceChange u size genuine) s = .next s' ∧
          s.changesOnly s' [.hw, .tier, .base, .events] ∧ slotSt s'.mod.dev u = .refused ∧
          s'.mod.dev.base = (d.raise evCartRefused { n := u.val - 16 }).base))) ∧
    (∀ (u : Fin 20) size genuine, d.pwr.powered = false ∨ kfind d.hw.present u ≠ none →
      exec (.presenceChange u size genuine) s = .next s) ∧
    (∀ u : Fin 20, d.pwr.powered = true → slotLive d u = false → ∃ s', exec (.partRemoved u) s = .next s' ∧ s.changesOnly s' [.hw, .tier] ∧
      slotSt s'.mod.dev u = .empty ∧ kfind s'.mod.dev.hw.present u = none) ∧
    (∀ u : Fin 20, slotLive d u = true → exec (.partRemoved u) s = .next s) ∧
    (∀ u : Fin 20, slotLive d u = false → exec (.slotRemovedLive u) s = .next s) ∧
    (∀ u : Fin 20, d.stopped = false → slotSt d u = .returning →
      ∃ s', exec (.slotRemovedLive u) s = .next s' ∧ s.changesOnly s' [.hw, .tier, .base, .events] ∧ slotSt s'.mod.dev u = .empty ∧
        s'.mod.dev.base = (d.raise evSlotRemovedLive { n := u.val }).base ∧ kfind s'.mod.dev.hw.present u = none) ∧
    (∀ u : Fin 20, d.stopped = false → slotSt d u = .inService → (∀ e ∈ d.tier.evacs, e.unit ≠ u.val) →
      ∃ s', exec (.slotRemovedLive u) s = .next s' ∧ s'.pending = s.pending ∧ s'.fuses = s.fuses ∧ kfind s'.mod.dev.hw.present u = none ∧
        slotSt s'.mod.dev u ≠ .inService) ∧
    (∀ bay : Fin 4, d.pwr.powered = true → bay.val ∉ d.hw.latch →
      ((cartOf d.tier bay).st = .inService → d.stopped = false →
        ∃ s', exec (.bayLatchOpen bay) s = .next s' ∧ s.changesOnly s' [.hw, .tier, .base, .events] ∧
          s'.mod.dev = ((startEvac (d.onHw fun h => { h with latch := h.latch ++ [bay.val] }) 2 bay none).raise evCartLatchOpen { n := bay } bay)) ∧
      ((cartOf d.tier bay).st ≠ .inService → ∃ s', exec (.bayLatchOpen bay) s = .next s' ∧ s.changesOnly s' [.hw] ∧
        s'.mod.dev.hw.latch = d.hw.latch ++ [bay.val])) ∧
    (∀ bay : Fin 4, (d.tier.evacs.any fun e => decide (e.kind = 2 ∧ e.unit = bay.val ∧ e.tag = none)) = true →
      ∃ s', exec (.bayLatchClose bay) s = .next s' ∧ s.changesOnly s' [.hw, .tier] ∧
        s'.mod.dev.hw.latch = d.hw.latch.filter (fun x => x ≠ bay.val) ∧ (cartOf s'.mod.dev.tier bay).st = .inService ∧
        ∀ e ∈ s'.mod.dev.tier.evacs, ¬(e.kind = 2 ∧ e.unit = bay.val ∧ e.tag = none))

/-- POWER_LIMIT_EFFECTER, LOCATE_EFFECTER and LOCATE_EXPIRY (R593): effecter 200 sets the run-time limit that CAP_SET sets, in the same range and
with the same BAD_ARG answer, whatever was set before, and CAP_SET takes it over again; effecter 201 + u makes the unit's indicator show LOCATE
for 60 s, over any other state. -/
def Obligations.EffectersActAsR593Says : Prop :=
  ∀ (s : State), 1 ∈ s.mod.dev.pwr.stages → s.mod.dev.fw.run = true → schedUp s.mod.dev = true →
    let d := s.mod.dev
    (∀ w : BitVec 16,
      (1200 ≤ w.toNat → w.toNat ≤ cfgPwrCapCfgLimit d.base →
        ∃ s' b, exec (.powerLimitEffecter w) s = .next s' ∧ s.changesOnly s' [.pwr, .hw] ∧ s'.mod.dev.pwr = { d.pwr with limit := some w.toNat } ∧
          s'.mod.dev.hw = { d.hw with answers := d.hw.answers ++ [(1, b)] }) ∧
      (w.toNat < 1200 ∨ cfgPwrCapCfgLimit d.base < w.toNat →
        ∃ s', exec (.powerLimitEffecter w) s = .next s' ∧ s.changesOnly s' [.hw] ∧
          s'.mod.dev.hw = { d.hw with answers := d.hw.answers ++ [(1, [BitVec.ofNat 8 mbBadArg])] })) ∧
    (∀ r, s.roleTakes 1 0x0B02 r →
      (1200 ≤ fieldAt r.payload 0 2 → fieldAt r.payload 0 2 ≤ cfgPwrCapCfgLimit d.base → ∃ s', exec .capSet s = .next s' ∧
        s.changesOnly s' [.pwr, .fw, .base] ∧ s'.mod.dev.pwr = { d.pwr with limit := some (fieldAt r.payload 0 2) }) ∧
      (fieldAt r.payload 0 2 < 1200 ∨ cfgPwrCapCfgLimit d.base < fieldAt r.payload 0 2 →
        ∃ s', exec .capSet s = .next s' ∧ s.onlyAnswers s' r mbBadArg [])) ∧
    (∀ u : Fin 20, ∃ s', exec (.locateEffecter u) s = .next s' ∧ s.changesOnly s' [.hw] ∧ shownState s'.mod.dev u = 6 ∧
      kfind s'.mod.dev.hw.locate u = some (d.nowNs + 60000000000) ∧
      ∀ v, v ≠ u.val → shownState s'.mod.dev v = shownState d v) ∧
    (∀ u : Fin 20, ∃ s', exec (.locateExpiry u) s = .next s' ∧ s.changesOnly s' [.hw] ∧
      s'.mod.dev.hw = { d.hw with locate := kdel d.hw.locate u } ∧
      shownState s'.mod.dev u = (if latchOpen d u then 7 else slotStateNo (slotSt d u)))

/-- MCTP_CONTROL, PLDM_REQUEST, PLATFORM_EVENT_MESSAGE, EVENT_RECEIVER_ACK and EVT_SNAPSHOT (R591, R592, R594, R603, R607): control messages are
answered from stage 1 on; type 2 commands answer ERROR_NOT_READY until loaded firmware runs; a change of a sensor's band is reported once, to
the receiver or to a queue of 64 that drops its oldest event; a snapshot goes into the half of the area that the tick's number names, and
nothing else in memory changes.
Rests in part on the model's own choices: log 45, 52. -/
def Obligations.ManagementBusAndSnapshots : Prop :=
  ∀ (s : State),
    let m := s.mod
    let d := m.dev
    (1 ∉ d.pwr.stages → (∀ req, exec (.mctpControl req) s = .next s) ∧ (∀ req, exec (.pldmRequest req) s = .next s)) ∧
    (∀ req, 1 ∈ d.pwr.stages →
      (fieldAt req 1 1 = 0 ∨ 5 < fieldAt req 1 1 → ∃ s', exec (.mctpControl req) s = .next s' ∧ s.changesOnly s' [.hw] ∧ s'.mod.dev.hw =
        { d.hw with answers := d.hw.answers ++ [(0, leBytes 1 (fieldAt req 0 1) ++ leBytes 1 (fieldAt req 1 1) ++ [0x05])] }) ∧
      (1 ≤ fieldAt req 1 1 → fieldAt req 1 1 ≤ 5 → ∃ s' b, exec (.mctpControl req) s = .next s' ∧ s.changesOnly s' [.hw] ∧ s'.mod.dev.hw =
        { d.hw with
          eid := if fieldAt req 1 1 = 1 then fieldAt req 3 1 else d.hw.eid
          answers := d.hw.answers ++ [(0, b)] })) ∧
    (∀ req, 1 ∈ d.pwr.stages → d.fw.run = false → fieldAt req 1 1 % 64 = 2 →
      ∃ s', exec (.pldmRequest req) s = .next s' ∧ s.changesOnly s' [.hw] ∧
        s'.mod.dev.hw = { d.hw with answers := d.hw.answers ++ [(1, pldmHead req 4)] }) ∧
    (∀ req, 1 ∈ d.pwr.stages → d.fw.run = true → schedUp d = true → pldmKnown (fieldAt req 1 1 % 64) (fieldAt req 2 1) = false →
      ∃ s', exec (.pldmRequest req) s = .next s' ∧ s.changesOnly s' [.hw] ∧
        s'.mod.dev.hw = { d.hw with answers := d.hw.answers ++ [(1, pldmHead req 5)] }) ∧
    (∀ req, 1 ∈ d.pwr.stages → d.fw.run = true → schedUp d = true → fieldAt req 1 1 % 64 = 2 → fieldAt req 2 1 = 0x0B → d.hw.receiver = none →
      ∃ s' b, exec (.pldmRequest req) s = .next s' ∧ s.changesOnly s' [.hw] ∧
        s'.mod.dev.hw = { d.hw with events := d.hw.events.tail, answers := d.hw.answers ++ [(1, b)] }) ∧
    (∀ (sensor : BitVec 8) value st, sensorState d sensor.toNat value = some st → d.fw.run = true → schedUp d = true →
      let e : PlatEvent := ⟨sensor.toNat, st, value⟩
      (kget 0 d.hw.bands sensor.toNat = st → exec (.platformEventMessage sensor value) s = .next s) ∧
      (kget 0 d.hw.bands sensor.toNat ≠ st →
        (∀ r, d.hw.receiver = some r → ∃ s', exec (.platformEventMessage sensor value) s = .next s' ∧ s.changesOnly s' [.hw] ∧
          s'.mod.dev.hw.events = d.hw.events ++ [e] ∧ kget 0 s'.mod.dev.hw.bands sensor.toNat = st ∧ alertLow s'.mod.dev = true) ∧
        (d.hw.receiver = none → d.hw.events.length < 64 → ∃ s', exec (.platformEventMessage sensor value) s = .next s' ∧
          s.changesOnly s' [.hw] ∧ s'.mod.dev.hw.events = d.hw.events ++ [e]) ∧
        (∀ x l, d.hw.receiver = none → d.hw.events = x :: l → 63 ≤ l.length → ∃ s', exec (.platformEventMessage sensor value) s = .next s' ∧
          s.changesOnly s' [.hw, .base, .events] ∧ s'.mod.dev.hw.events = l ++ [e] ∧
          s'.mod.dev.base = (d.raise evPldmEventDrop { n := x.sensor }).base))) ∧
    (∀ r, d.hw.receiver = some r → ∃ s', exec .eventReceiverAck s = .next s' ∧ s.changesOnly s' [.hw] ∧
      s'.mod.dev.hw = { d.hw with events := d.hw.events.tail }) ∧
    (d.stopped = false →
      let i := d.pwr.ticks + 1
      let area := cfgEvtSnapBaseBase d.base * 0x100000
      (d.base.lockAll = false ∨ cfgEvtSnapBaseEn d.base = 0 ∨ inHotSoft d.base d.tier area 0x100000 = false →
        ∃ s', exec .evtSnapshot s = .next s' ∧ s.changesOnly s' [.pwr] ∧ s'.mod.dev.pwr = { d.pwr with ticks := i }) ∧
      (d.base.lockAll = true → cfgEvtSnapBaseEn d.base = 1 → inHotSoft d.base d.tier area 0x100000 = true → d.tier.softLost = [] →
        ∃ s', exec .evtSnapshot s = .next s' ∧ s.changesOnly s' [.mem, .pwr] ∧ s'.mod.dev.pwr = { d.pwr with ticks := i } ∧
          readRun s'.mod.mem (area + i % 2 * 0x80000) 64 = snapHeader d.base i ∧
          ∀ a, a < area + i % 2 * 0x80000 ∨ area + i % 2 * 0x80000 + 404672 ≤ a → readRun s'.mod.mem a 1 = readRun m.mem a 1))

/-- R540: whatever command runs, a fuse bit that is blown stays blown, and fuses change only under SECVER_COMMIT, LIFECYCLE_ADVANCE and
KEY_REVOKE, while the security core runs. -/
def Obligations.FusesOnlyBlow : Prop :=
  ∀ (c : Instr) (s s' : State), exec c s = .next s' →
    s.fuses.keptIn s'.fuses = true ∧
    (s'.fuses ≠ s.fuses → (c = .secverCommit ∨ c = .lifecycleAdvance ∨ c = .keyRevoke) ∧ roleUp s.mod.dev 0 = true)

/-- An invariant that every step keeps: the fuses are as Table 14.1 and R554 allow them, and no security version and no life-cycle state goes back. -/
def Obligations.StepsKeepFusesLegal : Prop :=
  ∀ s s' : State, step s = .next s' → s.fuses.legal = true → s'.fuses.legal = true ∧ s.fuses.svFw ≤ s'.fuses.svFw ∧
    s.fuses.svPack ≤ s'.fuses.svPack ∧ s.fuses.lc ≤ s'.fuses.lc

/-- Reset meets that invariant, with the fuses R610 gives: DEPLOYED, both security versions 0, no key revoked; memory and the queue are
empty, and the module is in no protective action.
Rests in part on the model's own choices: log 3, 8. -/
def Obligations.ResetIsLegal : Prop :=
  State.reset.fuses.legal = true ∧ State.reset.fuses.lc = 1 ∧ State.reset.fuses.svFw = 0 ∧ State.reset.fuses.svPack = 0 ∧
    State.reset.fuses.fwRevoke = 0 ∧ State.reset.fuses.dbgRevoke = 0 ∧ Memory.wf State.reset.mod.mem = true ∧ State.reset.pending = [] ∧
    State.reset.mod.dev.stopped = false

/-- Every command answers a next state, in every state, and leaves the queue alone: none ends in a fault or a refusal.
Rests in part on the model's own choices: log 10. -/
def Obligations.EveryCommandAnswers : Prop :=
  ∀ (c : Instr) (s : State), ∃ s', exec c s = .next s' ∧ s'.pending = s.pending

/-- R604: an increment of one instance of a counter keeps every module total equal, modulo 2^32, to the sum of the instances. -/
def Obligations.CountsAddUp : Prop :=
  ∀ (b : BaseState) (c inst n k : Nat), inst < 8192 → kwf 0 b.cnt = true → b.addsUp k →
    (b.count c inst n).addsUp k ∧ kwf 0 (b.count c inst n).cnt = true ∧
      kget 0 (b.count c inst n).cnt (8192 * c + inst) = kget 0 b.cnt (8192 * c + inst) + BitVec.ofNat 32 n ∧
      kget 0 (b.count c inst n).tot c = kget 0 b.tot c + BitVec.ofNat 64 n
end

