-- ==== Sys2Proof/Laws/Kit.lean ====
section
/-!
SUPPORT. What the sparse maps and lists of the state do: reading after writing, and the canonical form.
-/

namespace Sys2Proof.Machine

variable {α : Type}

/-! ## Sparse maps -/

@[simp] theorem kfind_nil (k : Nat) : kfind ([] : KMap α) k = none := rfl

theorem kfind_cons (j : Nat) (v : α) (m : KMap α) (k : Nat) :
    kfind ((j, v) :: m) k = if j = k then some v else kfind m k := rfl

theorem kfind_append (a b : KMap α) (k : Nat) : kfind (a ++ b) k = (kfind a k).or (kfind b k) := by
  induction a with
  | nil => simp
  | cons e a ih =>
    obtain ⟨j, v⟩ := e
    simp only [List.cons_append, kfind_cons, ih]
    split <;> simp

theorem kfind_filter (p : Nat → Bool) (m : KMap α) (k : Nat) :
    kfind (m.filter fun e => p e.1) k = if p k then kfind m k else none := by
  induction m with
  | nil => simp
  | cons e m ih =>
    obtain ⟨j, v⟩ := e
    by_cases hj : p j = true
    · rw [List.filter_cons_of_pos (by simpa using hj)]
      simp only [kfind_cons, ih]
      by_cases h : j = k
      · subst h; simp [hj]
      · simp [h]
    · rw [List.filter_cons_of_neg (by simpa using hj)]
      simp only [kfind_cons, ih]
      by_cases h : j = k
      · subst h; simp [hj]
      · simp [h]

theorem kfind_lt (m : KMap α) (b k : Nat) :
    kfind (m.filter fun e => e.1 < b) k = if k < b then kfind m k else none := by
  simpa using kfind_filter (fun j => decide (j < b)) m k

theorem kfind_gt (m : KMap α) (b k : Nat) :
    kfind (m.filter fun e => b < e.1) k = if b < k then kfind m k else none := by
  simpa using kfind_filter (fun j => decide (b < j)) m k

theorem kfind_ge (m : KMap α) (b k : Nat) :
    kfind (m.filter fun e => b ≤ e.1) k = if b ≤ k then kfind m k else none := by
  simpa using kfind_filter (fun j => decide (b ≤ j)) m k

/-- Reading a map after an entry has been listed. -/
theorem kfind_kput (m : KMap α) (k j : Nat) (v : α) :
    kfind (kput m k v) j = if k = j then some v else kfind m j := by
  simp only [kput, kfind_append, kfind_lt, kfind_cons, kfind_gt]
  by_cases h : k = j
  · subst h; simp
  · by_cases h2 : j < k
    · have : ¬ k < j := by omega
      simp [h, h2, this]
    · have : k < j := by omega
      simp [h, h2, this]

/-- Reading a map after an entry has been removed. -/
theorem kfind_kdel (m : KMap α) (k j : Nat) : kfind (kdel m k) j = if k = j then none else kfind m j := by
  simp only [kdel, kfind_append, kfind_lt, kfind_gt]
  by_cases h : k = j
  · subst h; simp
  · by_cases h2 : j < k
    · have : ¬ k < j := by omega
      simp [h, h2, this]
    · have : k < j := by omega
      simp [h, h2, this]

variable [DecidableEq α]

/-- Reading a map after a value has been given to a number. -/
theorem kget_kset (d : α) (m : KMap α) (k j : Nat) (v : α) :
    kget d (kset d m k v) j = if k = j then v else kget d m j := by
  unfold kget kset
  split
  · next h => rw [kfind_kdel]; split <;> simp [h]
  · rw [kfind_kput]; split <;> simp

@[simp] theorem kget_kset_self (d : α) (m : KMap α) (k : Nat) (v : α) : kget d (kset d m k v) k = v := by
  simp [kget_kset]

theorem kget_kset_ne (d : α) (m : KMap α) {k j : Nat} (v : α) (h : k ≠ j) :
    kget d (kset d m k v) j = kget d m j := by simp [kget_kset, h]

@[simp] theorem kget_kmod_self (d : α) (m : KMap α) (k : Nat) (f : α → α) :
    kget d (kmod d m k f) k = f (kget d m k) := by simp [kmod]

theorem kget_kmod_ne (d : α) (m : KMap α) {k j : Nat} (f : α → α) (h : k ≠ j) :
    kget d (kmod d m k f) j = kget d m j := kget_kset_ne _ _ _ h

/-! ## The canonical form -/

theorem kwfFrom_mono {d : α} {m : KMap α} {a b : Nat} (h : a ≤ b) (w : kwfFrom d b m = true) : kwfFrom d a m = true := by
  cases m with
  | nil => rfl
  | cons e m =>
    obtain ⟨k, v⟩ := e
    simp only [kwfFrom, Bool.and_eq_true, decide_eq_true_eq] at w ⊢
    exact ⟨⟨by omega, w.1.2⟩, w.2⟩

/-- Keeping some of a canonical map's entries leaves it canonical. -/
theorem kwfFrom_filter {d : α} (p : Nat × α → Bool) {m : KMap α} {a : Nat} (w : kwfFrom d a m = true) :
    kwfFrom d a (m.filter p) = true := by
  induction m generalizing a with
  | nil => rfl
  | cons e m ih =>
    obtain ⟨k, v⟩ := e
    simp only [kwfFrom, Bool.and_eq_true, decide_eq_true_eq] at w
    by_cases hp : p (k, v) = true
    · rw [List.filter_cons_of_pos hp]
      simp only [kwfFrom, Bool.and_eq_true, decide_eq_true_eq]
      exact ⟨w.1, ih w.2⟩
    · rw [List.filter_cons_of_neg hp]
      exact kwfFrom_mono (by omega) (ih w.2)

/-- Entries of a canonical map from a number on, seen from there. -/
theorem kwfFrom_ge {d : α} {m : KMap α} {a b : Nat} (w : kwfFrom d a m = true) :
    kwfFrom d b (m.filter fun e => b ≤ e.1) = true := by
  induction m generalizing a with
  | nil => rfl
  | cons e m ih =>
    obtain ⟨k, v⟩ := e
    simp only [kwfFrom, Bool.and_eq_true, decide_eq_true_eq] at w
    by_cases hp : b ≤ k
    · rw [List.filter_cons_of_pos (by simpa using hp)]
      simp only [kwfFrom, Bool.and_eq_true, decide_eq_true_eq]
      exact ⟨⟨hp, w.1.2⟩, kwfFrom_filter _ w.2⟩
    · rw [List.filter_cons_of_neg (by simpa using hp)]
      exact ih w.2

/-- A canonical map below a number, followed by one from it on, is canonical. -/
theorem kwfFrom_append {d : α} {l r : KMap α} {a b : Nat} (w : kwfFrom d a l = true) (hl : ∀ e ∈ l, e.1 < b)
    (hab : a ≤ b) (wr : kwfFrom d b r = true) : kwfFrom d a (l ++ r) = true := by
  induction l generalizing a with
  | nil => exact kwfFrom_mono hab wr
  | cons e l ih =>
    obtain ⟨k, v⟩ := e
    simp only [List.cons_append, kwfFrom, Bool.and_eq_true, decide_eq_true_eq] at w ⊢
    have hk : k < b := hl (k, v) (by simp)
    exact ⟨w.1, ih w.2 (fun e he => hl e (by simp [he])) (by omega)⟩

theorem kwf_kdel {d : α} {m : KMap α} (k : Nat) (w : kwf d m = true) : kwf d (kdel m k) = true := by
  have e : (m.filter fun e => k < e.1) = m.filter fun e => k + 1 ≤ e.1 := rfl
  unfold kdel kwf
  rw [e]
  exact kwfFrom_append (kwfFrom_filter _ w) (by simp; intro a b _ h; omega) (by omega) (kwfFrom_ge w)

theorem kwf_kput {d : α} {m : KMap α} (k : Nat) {v : α} (hv : v ≠ d) (w : kwf d m = true) :
    kwf d (kput m k v) = true := by
  have e : (m.filter fun e => k < e.1) = m.filter fun e => k + 1 ≤ e.1 := rfl
  unfold kput kwf
  rw [e]
  refine kwfFrom_append (b := k) (kwfFrom_filter _ w) (by simp) (by omega) ?_
  simp only [kwfFrom, Bool.and_eq_true, decide_eq_true_eq]
  exact ⟨⟨le_refl _, hv⟩, kwfFrom_ge w⟩

/-- Giving a value to a number keeps a map canonical. -/
theorem kwf_kset {d : α} {m : KMap α} (k : Nat) (v : α) (w : kwf d m = true) : kwf d (kset d m k v) = true := by
  unfold kset
  split
  · exact kwf_kdel k w
  · next h => exact kwf_kput k h w

/-- Changing the value at a number keeps a map canonical. -/
theorem kwf_kmod {d : α} {m : KMap α} (k : Nat) (f : α → α) (w : kwf d m = true) : kwf d (kmod d m k f) = true :=
  kwf_kset k _ w

end Sys2Proof.Machine
end

