-- ==== Sys2Proof/Laws/Memory.lean ====
section
/-!
SUPPORT. Device memory and SRAM as maps of bytes: reading after writing, bytes that a write leaves alone, the canonical form.
-/

namespace Sys2Proof.Machine

theorem mem_runCells {a : Nat} {bs : List Byte} {e : Nat × Byte} (h : e ∈ writeRun.runCells a bs) :
    a ≤ e.1 ∧ e.1 < a + bs.length := by
  induction bs generalizing a with
  | nil => simp [writeRun.runCells] at h
  | cons b l ih =>
    simp only [writeRun.runCells] at h
    split at h
    · have := ih h; simp; omega
    · simp only [List.mem_cons] at h
      rcases h with rfl | h
      · simp
      · have := ih h; simp; omega

theorem kwfFrom_runCells (a : Nat) (bs : List Byte) : kwfFrom 0#8 a (writeRun.runCells a bs) = true := by
  induction bs generalizing a with
  | nil => rfl
  | cons b l ih =>
    simp only [writeRun.runCells]
    split
    · exact kwfFrom_mono (by omega) (ih (a + 1))
    · next h =>
      simp only [kwfFrom, Bool.and_eq_true, decide_eq_true_eq]
      exact ⟨⟨le_refl _, h⟩, ih (a + 1)⟩

/-- A write keeps the canonical form. -/
theorem kwf_writeRun {m : KMap Byte} (a : Nat) (bs : List Byte) (w : kwf 0#8 m = true) : kwf 0#8 (writeRun m a bs) = true := by
  unfold writeRun kwf
  rw [List.append_assoc]
  refine kwfFrom_append (b := a) (kwfFrom_filter _ w) (by simp) (by omega) ?_
  exact kwfFrom_append (b := a + bs.length) (kwfFrom_runCells a bs) (fun e he => (mem_runCells he).2) (by omega)
    (kwfFrom_ge w)

theorem kfind_runCells (a : Nat) (bs : List Byte) (j : Nat) :
    (kfind (writeRun.runCells a bs) j).getD 0#8 = if a ≤ j then bs.getD (j - a) 0#8 else 0#8 := by
  induction bs generalizing a with
  | nil => simp [writeRun.runCells]
  | cons b l ih =>
    simp only [writeRun.runCells]
    have hs : ¬ j = a → a ≤ j → j - a = (j - (a + 1)) + 1 := by omega
    split
    · next h =>
      rw [ih]
      subst h
      by_cases h1 : j = a
      · subst h1; simp
      · by_cases h2 : a ≤ j
        · rw [hs h1 h2]; simp [h2, show a + 1 ≤ j by omega]
        · simp [h2, show ¬ a + 1 ≤ j by omega]
    · rw [kfind_cons]
      by_cases h1 : a = j
      · subst h1; simp
      · rw [if_neg h1, ih]
        by_cases h2 : a ≤ j
        · rw [hs (Ne.symm h1) h2]; simp [h2, show a + 1 ≤ j by omega]
        · simp [h2, show ¬ a + 1 ≤ j by omega]

theorem kfind_runCells_none {a : Nat} {bs : List Byte} {j : Nat} (h : ¬(a ≤ j ∧ j < a + bs.length)) :
    kfind (writeRun.runCells a bs) j = none := by
  induction bs generalizing a with
  | nil => rfl
  | cons b l ih =>
    simp only [List.length_cons] at h
    simp only [writeRun.runCells]
    split
    · exact ih (by omega)
    · rw [kfind_cons, if_neg (by omega)]; exact ih (by omega)

/-- Every byte after a write: the written bytes where they went, what was there elsewhere. -/
theorem kget_writeRun (m : KMap Byte) (a : Nat) (bs : List Byte) (j : Nat) :
    kget 0#8 (writeRun m a bs) j = if a ≤ j ∧ j < a + bs.length then bs.getD (j - a) 0#8 else kget 0#8 m j := by
  unfold kget writeRun
  rw [kfind_append, kfind_append, kfind_lt, kfind_ge]
  by_cases h : a ≤ j ∧ j < a + bs.length
  · have h1 : ¬ j < a := by omega
    have h2 : ¬ a + bs.length ≤ j := by omega
    have := kfind_runCells a bs j
    simp only [h1, h2, h, if_true, if_false, Option.none_or, Option.or_none] at this ⊢
    simpa [h.1] using this
  · rw [kfind_runCells_none h, if_neg h]
    by_cases h1 : j < a
    · have h2 : ¬ a + bs.length ≤ j := by omega
      simp [h1, h2]
    · have h2 : a + bs.length ≤ j := by omega
      simp [h1, h2]

theorem readRun_go {m : KMap Byte} {a : Nat} (n : Nat) (w : kwfFrom 0#8 a m = true) :
    readRun.go m a n = (List.range n).map fun i => kget 0#8 m (a + i) := by
  induction n generalizing m a with
  | zero => cases m <;> rfl
  | succ n ih =>
    rw [List.range_succ_eq_map, List.map_cons, List.map_map]
    cases m with
    | nil =>
      have := ih (m := []) (a := a + 1) rfl
      simp only [readRun.go]
      apply List.ext_getElem <;> simp [kget, List.getElem_replicate]
      intro i h1
      cases i <;> simp
    | cons e m =>
      obtain ⟨k, v⟩ := e
      simp only [kwfFrom, Bool.and_eq_true, decide_eq_true_eq] at w
      simp only [readRun.go]
      split
      · next h =>
        subst h
        rw [ih w.2]
        refine congrArg₂ _ (by simp [kget, kfind_cons]) ?_
        apply List.map_congr_left
        intro i _
        simp [kget, kfind_cons, Nat.add_assoc, Nat.add_comm 1]
      · next h =>
        have w' : kwfFrom 0#8 (a + 1) ((k, v) :: m) = true := by
          simp only [kwfFrom, Bool.and_eq_true, decide_eq_true_eq]
          exact ⟨⟨by omega, w.1.2⟩, w.2⟩
        rw [ih w']
        have hnone : ∀ (l : KMap Byte) (b j : Nat), kwfFrom 0#8 b l = true → j < b → kfind l j = none := by
          intro l
          induction l with
          | nil => intros; rfl
          | cons e l ihl =>
            obtain ⟨k', v'⟩ := e
            intro b j wl hj
            simp only [kwfFrom, Bool.and_eq_true, decide_eq_true_eq] at wl
            rw [kfind_cons, if_neg (by omega)]
            exact ihl (k' + 1) j wl.2 (by omega)
        refine congrArg₂ _ ?_ ?_
        · rw [kget, Nat.add_zero, hnone _ _ _ w' (by omega)]; rfl
        · apply List.map_congr_left
          intro i _
          simp [Nat.add_assoc, Nat.add_comm 1]

/-- A run of a canonical map is read byte for byte. -/
theorem readRun_eq {m : KMap Byte} (a n : Nat) (w : kwf 0#8 m = true) :
    readRun m a n = (List.range n).map fun i => kget 0#8 m (a + i) := by
  have h1 : (m.filter fun e => a ≤ e.1 ∧ e.1 < a + n) = (m.filter fun e => a ≤ e.1).filter fun e => e.1 < a + n := by
    rw [List.filter_filter]; congr 1; funext e; simp [Bool.and_comm]
  unfold readRun
  simp only [h1]
  rw [readRun_go n (kwfFrom_filter _ (kwfFrom_ge w))]
  apply List.map_congr_left
  intro i hi
  have hi' : i < n := by simpa using hi
  unfold kget
  rw [kfind_lt, if_pos (by omega), kfind_ge, if_pos (by omega)]

@[simp] theorem length_readRun_go (m : KMap Byte) (a n : Nat) : (readRun.go m a n).length = n := by
  induction n generalizing m a with
  | zero => cases m <;> rfl
  | succ n ih =>
    cases m with
    | nil => simp [readRun.go]
    | cons e m => obtain ⟨k, v⟩ := e; simp only [readRun.go]; split <;> simp [ih]

/-- A run has the length asked for. -/
@[simp] theorem length_readRun (m : KMap Byte) (a n : Nat) : (readRun m a n).length = n := by simp [readRun]

/-- What is written is what is read. -/
theorem readRun_writeRun {m : KMap Byte} (a : Nat) (bs : List Byte) (w : kwf 0#8 m = true) :
    readRun (writeRun m a bs) a bs.length = bs := by
  rw [readRun_eq _ _ (kwf_writeRun a bs w)]
  apply List.ext_getElem
  · simp
  · intro i h1 h2
    simp only [List.getElem_map, List.getElem_range, kget_writeRun]
    simp [h2]

/-- Bytes apart from those written read as before. -/
theorem readRun_writeRun_apart {m : KMap Byte} (a b n : Nat) (bs : List Byte) (w : kwf 0#8 m = true)
    (h : b + n ≤ a ∨ a + bs.length ≤ b) : readRun (writeRun m a bs) b n = readRun m b n := by
  rw [readRun_eq _ _ (kwf_writeRun a bs w), readRun_eq _ _ w]
  apply List.map_congr_left
  intro i hi
  have hi' : i < n := by simpa using hi
  rw [kget_writeRun, if_neg (by omega)]

/-! ## Device memory -/

/-- Storing bytes keeps device memory in its canonical form. -/
theorem store_wf (m : Mod) (da : Nat) (bs : List Byte) (w : Memory.wf m.mem = true) : Memory.wf (m.store da bs).mem = true := by
  unfold Mod.store
  split
  · exact w
  · exact kwf_writeRun da bs w

/-- A demand write keeps device memory in its canonical form. -/
theorem demandWrite_wf (m m' : Mod) (who : Who) (da : Nat) (bs : List Byte) (w : Memory.wf m.mem = true)
    (h : m.demandWrite who da bs = .ok m') : Memory.wf m'.mem = true := by
  unfold Mod.demandWrite at h
  split at h
  · cases h
  split at h
  · cases h
  split at h
  · split at h
    · dsimp only at h
      split at h
      · injection h with h; subst h; exact w
      · split at h <;> (injection h with h; subst h; exact w)
    · cases h
  · injection h with h; subst h; exact w
  · injection h with h; subst h; exact store_wf m da bs w

end Sys2Proof.Machine
end

