-- ==== Sys2Proof/Laws/PerInstr.lean ====
section
/-!
SUPPORT. Families of lemmas, one for each command. None is named in LAWS.json.
-/
end

