-- ==== Sys2Proof/Laws/State.lean ====
section
/-!
SUPPORT. One lemma for each field and update of the state, true by computation, and what the shared operations leave alone.
-/

namespace Sys2Proof.Machine

/-! ## What a command answers -/

@[simp] theorem onMod_eq (s : State) (f : Mod → Mod) : onMod s f = .next { s with mod := f s.mod } := rfl
@[simp] theorem onDev_eq (s : State) (f : Dev → Dev) : onDev s f = .next { s with mod := { s.mod with dev := f s.mod.dev } } := rfl

/-- A command of the data plane outside a protective action. -/
theorem onPlane_eq (s : State) (f : Mod → Mod) (h : s.mod.dev.stopped = false) :
    onPlane s f = .next { s with mod := f s.mod } := by simp [onPlane, h]

/-- A command of the data plane that leaves device memory alone, outside a protective action. -/
theorem onPlaneDev_eq (s : State) (f : Dev → Dev) (h : s.mod.dev.stopped = false) :
    onPlaneDev s f = .next { s with mod := { s.mod with dev := f s.mod.dev } } := by simp [onPlaneDev, h]

@[simp] theorem Mod.onDev_mem (m : Mod) (f : Dev → Dev) : (m.onDev f).mem = m.mem := rfl
@[simp] theorem Mod.onDev_dev (m : Mod) (f : Dev → Dev) : (m.onDev f).dev = f m.dev := rfl

/-! ## Dev.onBase -/

@[simp] theorem Dev.onBase_base (d : Dev) (f : BaseState → BaseState) : (d.onBase f).base = f d.base := rfl
@[simp] theorem Dev.onBase_plots (d : Dev) (f : BaseState → BaseState) : (d.onBase f).plots = d.plots := rfl
@[simp] theorem Dev.onBase_work (d : Dev) (f : BaseState → BaseState) : (d.onBase f).work = d.work := rfl
@[simp] theorem Dev.onBase_tier (d : Dev) (f : BaseState → BaseState) : (d.onBase f).tier = d.tier := rfl
@[simp] theorem Dev.onBase_tab (d : Dev) (f : BaseState → BaseState) : (d.onBase f).tab = d.tab := rfl
@[simp] theorem Dev.onBase_chk (d : Dev) (f : BaseState → BaseState) : (d.onBase f).chk = d.chk := rfl
@[simp] theorem Dev.onBase_sow (d : Dev) (f : BaseState → BaseState) : (d.onBase f).sow = d.sow := rfl
@[simp] theorem Dev.onBase_ms (d : Dev) (f : BaseState → BaseState) : (d.onBase f).ms = d.ms := rfl
@[simp] theorem Dev.onBase_hif (d : Dev) (f : BaseState → BaseState) : (d.onBase f).hif = d.hif := rfl
@[simp] theorem Dev.onBase_fab (d : Dev) (f : BaseState → BaseState) : (d.onBase f).fab = d.fab := rfl
@[simp] theorem Dev.onBase_fw (d : Dev) (f : BaseState → BaseState) : (d.onBase f).fw = d.fw := rfl
@[simp] theorem Dev.onBase_sec (d : Dev) (f : BaseState → BaseState) : (d.onBase f).sec = d.sec := rfl
@[simp] theorem Dev.onBase_pwr (d : Dev) (f : BaseState → BaseState) : (d.onBase f).pwr = d.pwr := rfl
@[simp] theorem Dev.onBase_hw (d : Dev) (f : BaseState → BaseState) : (d.onBase f).hw = d.hw := rfl
@[simp] theorem Dev.onBase_meshOut (d : Dev) (f : BaseState → BaseState) : (d.onBase f).meshOut = d.meshOut := rfl

/-! ## Dev.onTier -/

@[simp] theorem Dev.onTier_base (d : Dev) (f : TierState → TierState) : (d.onTier f).base = d.base := rfl
@[simp] theorem Dev.onTier_plots (d : Dev) (f : TierState → TierState) : (d.onTier f).plots = d.plots := rfl
@[simp] theorem Dev.onTier_work (d : Dev) (f : TierState → TierState) : (d.onTier f).work = d.work := rfl
@[simp] theorem Dev.onTier_tier (d : Dev) (f : TierState → TierState) : (d.onTier f).tier = f d.tier := rfl
@[simp] theorem Dev.onTier_tab (d : Dev) (f : TierState → TierState) : (d.onTier f).tab = d.tab := rfl
@[simp] theorem Dev.onTier_chk (d : Dev) (f : TierState → TierState) : (d.onTier f).chk = d.chk := rfl
@[simp] theorem Dev.onTier_sow (d : Dev) (f : TierState → TierState) : (d.onTier f).sow = d.sow := rfl
@[simp] theorem Dev.onTier_ms (d : Dev) (f : TierState → TierState) : (d.onTier f).ms = d.ms := rfl
@[simp] theorem Dev.onTier_hif (d : Dev) (f : TierState → TierState) : (d.onTier f).hif = d.hif := rfl
@[simp] theorem Dev.onTier_fab (d : Dev) (f : TierState → TierState) : (d.onTier f).fab = d.fab := rfl
@[simp] theorem Dev.onTier_fw (d : Dev) (f : TierState → TierState) : (d.onTier f).fw = d.fw := rfl
@[simp] theorem Dev.onTier_sec (d : Dev) (f : TierState → TierState) : (d.onTier f).sec = d.sec := rfl
@[simp] theorem Dev.onTier_pwr (d : Dev) (f : TierState → TierState) : (d.onTier f).pwr = d.pwr := rfl
@[simp] theorem Dev.onTier_hw (d : Dev) (f : TierState → TierState) : (d.onTier f).hw = d.hw := rfl
@[simp] theorem Dev.onTier_meshOut (d : Dev) (f : TierState → TierState) : (d.onTier f).meshOut = d.meshOut := rfl

/-! ## Dev.onTab -/

@[simp] theorem Dev.onTab_base (d : Dev) (f : TabState → TabState) : (d.onTab f).base = d.base := rfl
@[simp] theorem Dev.onTab_plots (d : Dev) (f : TabState → TabState) : (d.onTab f).plots = d.plots := rfl
@[simp] theorem Dev.onTab_work (d : Dev) (f : TabState → TabState) : (d.onTab f).work = d.work := rfl
@[simp] theorem Dev.onTab_tier (d : Dev) (f : TabState → TabState) : (d.onTab f).tier = d.tier := rfl
@[simp] theorem Dev.onTab_tab (d : Dev) (f : TabState → TabState) : (d.onTab f).tab = f d.tab := rfl
@[simp] theorem Dev.onTab_chk (d : Dev) (f : TabState → TabState) : (d.onTab f).chk = d.chk := rfl
@[simp] theorem Dev.onTab_sow (d : Dev) (f : TabState → TabState) : (d.onTab f).sow = d.sow := rfl
@[simp] theorem Dev.onTab_ms (d : Dev) (f : TabState → TabState) : (d.onTab f).ms = d.ms := rfl
@[simp] theorem Dev.onTab_hif (d : Dev) (f : TabState → TabState) : (d.onTab f).hif = d.hif := rfl
@[simp] theorem Dev.onTab_fab (d : Dev) (f : TabState → TabState) : (d.onTab f).fab = d.fab := rfl
@[simp] theorem Dev.onTab_fw (d : Dev) (f : TabState → TabState) : (d.onTab f).fw = d.fw := rfl
@[simp] theorem Dev.onTab_sec (d : Dev) (f : TabState → TabState) : (d.onTab f).sec = d.sec := rfl
@[simp] theorem Dev.onTab_pwr (d : Dev) (f : TabState → TabState) : (d.onTab f).pwr = d.pwr := rfl
@[simp] theorem Dev.onTab_hw (d : Dev) (f : TabState → TabState) : (d.onTab f).hw = d.hw := rfl
@[simp] theorem Dev.onTab_meshOut (d : Dev) (f : TabState → TabState) : (d.onTab f).meshOut = d.meshOut := rfl

/-! ## Dev.onChk -/

@[simp] theorem Dev.onChk_base (d : Dev) (f : ChkState → ChkState) : (d.onChk f).base = d.base := rfl
@[simp] theorem Dev.onChk_plots (d : Dev) (f : ChkState → ChkState) : (d.onChk f).plots = d.plots := rfl
@[simp] theorem Dev.onChk_work (d : Dev) (f : ChkState → ChkState) : (d.onChk f).work = d.work := rfl
@[simp] theorem Dev.onChk_tier (d : Dev) (f : ChkState → ChkState) : (d.onChk f).tier = d.tier := rfl
@[simp] theorem Dev.onChk_tab (d : Dev) (f : ChkState → ChkState) : (d.onChk f).tab = d.tab := rfl
@[simp] theorem Dev.onChk_chk (d : Dev) (f : ChkState → ChkState) : (d.onChk f).chk = f d.chk := rfl
@[simp] theorem Dev.onChk_sow (d : Dev) (f : ChkState → ChkState) : (d.onChk f).sow = d.sow := rfl
@[simp] theorem Dev.onChk_ms (d : Dev) (f : ChkState → ChkState) : (d.onChk f).ms = d.ms := rfl
@[simp] theorem Dev.onChk_hif (d : Dev) (f : ChkState → ChkState) : (d.onChk f).hif = d.hif := rfl
@[simp] theorem Dev.onChk_fab (d : Dev) (f : ChkState → ChkState) : (d.onChk f).fab = d.fab := rfl
@[simp] theorem Dev.onChk_fw (d : Dev) (f : ChkState → ChkState) : (d.onChk f).fw = d.fw := rfl
@[simp] theorem Dev.onChk_sec (d : Dev) (f : ChkState → ChkState) : (d.onChk f).sec = d.sec := rfl
@[simp] theorem Dev.onChk_pwr (d : Dev) (f : ChkState → ChkState) : (d.onChk f).pwr = d.pwr := rfl
@[simp] theorem Dev.onChk_hw (d : Dev) (f : ChkState → ChkState) : (d.onChk f).hw = d.hw := rfl
@[simp] theorem Dev.onChk_meshOut (d : Dev) (f : ChkState → ChkState) : (d.onChk f).meshOut = d.meshOut := rfl

/-! ## Dev.onWork -/

@[simp] theorem Dev.onWork_base (d : Dev) (f : WorkState → WorkState) : (d.onWork f).base = d.base := rfl
@[simp] theorem Dev.onWork_plots (d : Dev) (f : WorkState → WorkState) : (d.onWork f).plots = d.plots := rfl
@[simp] theorem Dev.onWork_work (d : Dev) (f : WorkState → WorkState) : (d.onWork f).work = f d.work := rfl
@[simp] theorem Dev.onWork_tier (d : Dev) (f : WorkState → WorkState) : (d.onWork f).tier = d.tier := rfl
@[simp] theorem Dev.onWork_tab (d : Dev) (f : WorkState → WorkState) : (d.onWork f).tab = d.tab := rfl
@[simp] theorem Dev.onWork_chk (d : Dev) (f : WorkState → WorkState) : (d.onWork f).chk = d.chk := rfl
@[simp] theorem Dev.onWork_sow (d : Dev) (f : WorkState → WorkState) : (d.onWork f).sow = d.sow := rfl
@[simp] theorem Dev.onWork_ms (d : Dev) (f : WorkState → WorkState) : (d.onWork f).ms = d.ms := rfl
@[simp] theorem Dev.onWork_hif (d : Dev) (f : WorkState → WorkState) : (d.onWork f).hif = d.hif := rfl
@[simp] theorem Dev.onWork_fab (d : Dev) (f : WorkState → WorkState) : (d.onWork f).fab = d.fab := rfl
@[simp] theorem Dev.onWork_fw (d : Dev) (f : WorkState → WorkState) : (d.onWork f).fw = d.fw := rfl
@[simp] theorem Dev.onWork_sec (d : Dev) (f : WorkState → WorkState) : (d.onWork f).sec = d.sec := rfl
@[simp] theorem Dev.onWork_pwr (d : Dev) (f : WorkState → WorkState) : (d.onWork f).pwr = d.pwr := rfl
@[simp] theorem Dev.onWork_hw (d : Dev) (f : WorkState → WorkState) : (d.onWork f).hw = d.hw := rfl
@[simp] theorem Dev.onWork_meshOut (d : Dev) (f : WorkState → WorkState) : (d.onWork f).meshOut = d.meshOut := rfl

/-! ## Dev.onSow -/

@[simp] theorem Dev.onSow_base (d : Dev) (f : SowState → SowState) : (d.onSow f).base = d.base := rfl
@[simp] theorem Dev.onSow_plots (d : Dev) (f : SowState → SowState) : (d.onSow f).plots = d.plots := rfl
@[simp] theorem Dev.onSow_work (d : Dev) (f : SowState → SowState) : (d.onSow f).work = d.work := rfl
@[simp] theorem Dev.onSow_tier (d : Dev) (f : SowState → SowState) : (d.onSow f).tier = d.tier := rfl
@[simp] theorem Dev.onSow_tab (d : Dev) (f : SowState → SowState) : (d.onSow f).tab = d.tab := rfl
@[simp] theorem Dev.onSow_chk (d : Dev) (f : SowState → SowState) : (d.onSow f).chk = d.chk := rfl
@[simp] theorem Dev.onSow_sow (d : Dev) (f : SowState → SowState) : (d.onSow f).sow = f d.sow := rfl
@[simp] theorem Dev.onSow_ms (d : Dev) (f : SowState → SowState) : (d.onSow f).ms = d.ms := rfl
@[simp] theorem Dev.onSow_hif (d : Dev) (f : SowState → SowState) : (d.onSow f).hif = d.hif := rfl
@[simp] theorem Dev.onSow_fab (d : Dev) (f : SowState → SowState) : (d.onSow f).fab = d.fab := rfl
@[simp] theorem Dev.onSow_fw (d : Dev) (f : SowState → SowState) : (d.onSow f).fw = d.fw := rfl
@[simp] theorem Dev.onSow_sec (d : Dev) (f : SowState → SowState) : (d.onSow f).sec = d.sec := rfl
@[simp] theorem Dev.onSow_pwr (d : Dev) (f : SowState → SowState) : (d.onSow f).pwr = d.pwr := rfl
@[simp] theorem Dev.onSow_hw (d : Dev) (f : SowState → SowState) : (d.onSow f).hw = d.hw := rfl
@[simp] theorem Dev.onSow_meshOut (d : Dev) (f : SowState → SowState) : (d.onSow f).meshOut = d.meshOut := rfl

/-! ## Dev.onHif -/

@[simp] theorem Dev.onHif_base (d : Dev) (f : HifState → HifState) : (d.onHif f).base = d.base := rfl
@[simp] theorem Dev.onHif_plots (d : Dev) (f : HifState → HifState) : (d.onHif f).plots = d.plots := rfl
@[simp] theorem Dev.onHif_work (d : Dev) (f : HifState → HifState) : (d.onHif f).work = d.work := rfl
@[simp] theorem Dev.onHif_tier (d : Dev) (f : HifState → HifState) : (d.onHif f).tier = d.tier := rfl
@[simp] theorem Dev.onHif_tab (d : Dev) (f : HifState → HifState) : (d.onHif f).tab = d.tab := rfl
@[simp] theorem Dev.onHif_chk (d : Dev) (f : HifState → HifState) : (d.onHif f).chk = d.chk := rfl
@[simp] theorem Dev.onHif_sow (d : Dev) (f : HifState → HifState) : (d.onHif f).sow = d.sow := rfl
@[simp] theorem Dev.onHif_ms (d : Dev) (f : HifState → HifState) : (d.onHif f).ms = d.ms := rfl
@[simp] theorem Dev.onHif_hif (d : Dev) (f : HifState → HifState) : (d.onHif f).hif = f d.hif := rfl
@[simp] theorem Dev.onHif_fab (d : Dev) (f : HifState → HifState) : (d.onHif f).fab = d.fab := rfl
@[simp] theorem Dev.onHif_fw (d : Dev) (f : HifState → HifState) : (d.onHif f).fw = d.fw := rfl
@[simp] theorem Dev.onHif_sec (d : Dev) (f : HifState → HifState) : (d.onHif f).sec = d.sec := rfl
@[simp] theorem Dev.onHif_pwr (d : Dev) (f : HifState → HifState) : (d.onHif f).pwr = d.pwr := rfl
@[simp] theorem Dev.onHif_hw (d : Dev) (f : HifState → HifState) : (d.onHif f).hw = d.hw := rfl
@[simp] theorem Dev.onHif_meshOut (d : Dev) (f : HifState → HifState) : (d.onHif f).meshOut = d.meshOut := rfl

/-! ## Dev.onFab -/

@[simp] theorem Dev.onFab_base (d : Dev) (f : FabState → FabState) : (d.onFab f).base = d.base := rfl
@[simp] theorem Dev.onFab_plots (d : Dev) (f : FabState → FabState) : (d.onFab f).plots = d.plots := rfl
@[simp] theorem Dev.onFab_work (d : Dev) (f : FabState → FabState) : (d.onFab f).work = d.work := rfl
@[simp] theorem Dev.onFab_tier (d : Dev) (f : FabState → FabState) : (d.onFab f).tier = d.tier := rfl
@[simp] theorem Dev.onFab_tab (d : Dev) (f : FabState → FabState) : (d.onFab f).tab = d.tab := rfl
@[simp] theorem Dev.onFab_chk (d : Dev) (f : FabState → FabState) : (d.onFab f).chk = d.chk := rfl
@[simp] theorem Dev.onFab_sow (d : Dev) (f : FabState → FabState) : (d.onFab f).sow = d.sow := rfl
@[simp] theorem Dev.onFab_ms (d : Dev) (f : FabState → FabState) : (d.onFab f).ms = d.ms := rfl
@[simp] theorem Dev.onFab_hif (d : Dev) (f : FabState → FabState) : (d.onFab f).hif = d.hif := rfl
@[simp] theorem Dev.onFab_fab (d : Dev) (f : FabState → FabState) : (d.onFab f).fab = f d.fab := rfl
@[simp] theorem Dev.onFab_fw (d : Dev) (f : FabState → FabState) : (d.onFab f).fw = d.fw := rfl
@[simp] theorem Dev.onFab_sec (d : Dev) (f : FabState → FabState) : (d.onFab f).sec = d.sec := rfl
@[simp] theorem Dev.onFab_pwr (d : Dev) (f : FabState → FabState) : (d.onFab f).pwr = d.pwr := rfl
@[simp] theorem Dev.onFab_hw (d : Dev) (f : FabState → FabState) : (d.onFab f).hw = d.hw := rfl
@[simp] theorem Dev.onFab_meshOut (d : Dev) (f : FabState → FabState) : (d.onFab f).meshOut = d.meshOut := rfl

/-! ## Dev.onFw -/

@[simp] theorem Dev.onFw_base (d : Dev) (f : FwState → FwState) : (d.onFw f).base = d.base := rfl
@[simp] theorem Dev.onFw_plots (d : Dev) (f : FwState → FwState) : (d.onFw f).plots = d.plots := rfl
@[simp] theorem Dev.onFw_work (d : Dev) (f : FwState → FwState) : (d.onFw f).work = d.work := rfl
@[simp] theorem Dev.onFw_tier (d : Dev) (f : FwState → FwState) : (d.onFw f).tier = d.tier := rfl
@[simp] theorem Dev.onFw_tab (d : Dev) (f : FwState → FwState) : (d.onFw f).tab = d.tab := rfl
@[simp] theorem Dev.onFw_chk (d : Dev) (f : FwState → FwState) : (d.onFw f).chk = d.chk := rfl
@[simp] theorem Dev.onFw_sow (d : Dev) (f : FwState → FwState) : (d.onFw f).sow = d.sow := rfl
@[simp] theorem Dev.onFw_ms (d : Dev) (f : FwState → FwState) : (d.onFw f).ms = d.ms := rfl
@[simp] theorem Dev.onFw_hif (d : Dev) (f : FwState → FwState) : (d.onFw f).hif = d.hif := rfl
@[simp] theorem Dev.onFw_fab (d : Dev) (f : FwState → FwState) : (d.onFw f).fab = d.fab := rfl
@[simp] theorem Dev.onFw_fw (d : Dev) (f : FwState → FwState) : (d.onFw f).fw = f d.fw := rfl
@[simp] theorem Dev.onFw_sec (d : Dev) (f : FwState → FwState) : (d.onFw f).sec = d.sec := rfl
@[simp] theorem Dev.onFw_pwr (d : Dev) (f : FwState → FwState) : (d.onFw f).pwr = d.pwr := rfl
@[simp] theorem Dev.onFw_hw (d : Dev) (f : FwState → FwState) : (d.onFw f).hw = d.hw := rfl
@[simp] theorem Dev.onFw_meshOut (d : Dev) (f : FwState → FwState) : (d.onFw f).meshOut = d.meshOut := rfl

/-! ## Dev.onSec -/

@[simp] theorem Dev.onSec_base (d : Dev) (f : SecState → SecState) : (d.onSec f).base = d.base := rfl
@[simp] theorem Dev.onSec_plots (d : Dev) (f : SecState → SecState) : (d.onSec f).plots = d.plots := rfl
@[simp] theorem Dev.onSec_work (d : Dev) (f : SecState → SecState) : (d.onSec f).work = d.work := rfl
@[simp] theorem Dev.onSec_tier (d : Dev) (f : SecState → SecState) : (d.onSec f).tier = d.tier := rfl
@[simp] theorem Dev.onSec_tab (d : Dev) (f : SecState → SecState) : (d.onSec f).tab = d.tab := rfl
@[simp] theorem Dev.onSec_chk (d : Dev) (f : SecState → SecState) : (d.onSec f).chk = d.chk := rfl
@[simp] theorem Dev.onSec_sow (d : Dev) (f : SecState → SecState) : (d.onSec f).sow = d.sow := rfl
@[simp] theorem Dev.onSec_ms (d : Dev) (f : SecState → SecState) : (d.onSec f).ms = d.ms := rfl
@[simp] theorem Dev.onSec_hif (d : Dev) (f : SecState → SecState) : (d.onSec f).hif = d.hif := rfl
@[simp] theorem Dev.onSec_fab (d : Dev) (f : SecState → SecState) : (d.onSec f).fab = d.fab := rfl
@[simp] theorem Dev.onSec_fw (d : Dev) (f : SecState → SecState) : (d.onSec f).fw = d.fw := rfl
@[simp] theorem Dev.onSec_sec (d : Dev) (f : SecState → SecState) : (d.onSec f).sec = f d.sec := rfl
@[simp] theorem Dev.onSec_pwr (d : Dev) (f : SecState → SecState) : (d.onSec f).pwr = d.pwr := rfl
@[simp] theorem Dev.onSec_hw (d : Dev) (f : SecState → SecState) : (d.onSec f).hw = d.hw := rfl
@[simp] theorem Dev.onSec_meshOut (d : Dev) (f : SecState → SecState) : (d.onSec f).meshOut = d.meshOut := rfl

/-! ## Dev.onPwr -/

@[simp] theorem Dev.onPwr_base (d : Dev) (f : PwrState → PwrState) : (d.onPwr f).base = d.base := rfl
@[simp] theorem Dev.onPwr_plots (d : Dev) (f : PwrState → PwrState) : (d.onPwr f).plots = d.plots := rfl
@[simp] theorem Dev.onPwr_work (d : Dev) (f : PwrState → PwrState) : (d.onPwr f).work = d.work := rfl
@[simp] theorem Dev.onPwr_tier (d : Dev) (f : PwrState → PwrState) : (d.onPwr f).tier = d.tier := rfl
@[simp] theorem Dev.onPwr_tab (d : Dev) (f : PwrState → PwrState) : (d.onPwr f).tab = d.tab := rfl
@[simp] theorem Dev.onPwr_chk (d : Dev) (f : PwrState → PwrState) : (d.onPwr f).chk = d.chk := rfl
@[simp] theorem Dev.onPwr_sow (d : Dev) (f : PwrState → PwrState) : (d.onPwr f).sow = d.sow := rfl
@[simp] theorem Dev.onPwr_ms (d : Dev) (f : PwrState → PwrState) : (d.onPwr f).ms = d.ms := rfl
@[simp] theorem Dev.onPwr_hif (d : Dev) (f : PwrState → PwrState) : (d.onPwr f).hif = d.hif := rfl
@[simp] theorem Dev.onPwr_fab (d : Dev) (f : PwrState → PwrState) : (d.onPwr f).fab = d.fab := rfl
@[simp] theorem Dev.onPwr_fw (d : Dev) (f : PwrState → PwrState) : (d.onPwr f).fw = d.fw := rfl
@[simp] theorem Dev.onPwr_sec (d : Dev) (f : PwrState → PwrState) : (d.onPwr f).sec = d.sec := rfl
@[simp] theorem Dev.onPwr_pwr (d : Dev) (f : PwrState → PwrState) : (d.onPwr f).pwr = f d.pwr := rfl
@[simp] theorem Dev.onPwr_hw (d : Dev) (f : PwrState → PwrState) : (d.onPwr f).hw = d.hw := rfl
@[simp] theorem Dev.onPwr_meshOut (d : Dev) (f : PwrState → PwrState) : (d.onPwr f).meshOut = d.meshOut := rfl

/-! ## Dev.onHw -/

@[simp] theorem Dev.onHw_base (d : Dev) (f : HwState → HwState) : (d.onHw f).base = d.base := rfl
@[simp] theorem Dev.onHw_plots (d : Dev) (f : HwState → HwState) : (d.onHw f).plots = d.plots := rfl
@[simp] theorem Dev.onHw_work (d : Dev) (f : HwState → HwState) : (d.onHw f).work = d.work := rfl
@[simp] theorem Dev.onHw_tier (d : Dev) (f : HwState → HwState) : (d.onHw f).tier = d.tier := rfl
@[simp] theorem Dev.onHw_tab (d : Dev) (f : HwState → HwState) : (d.onHw f).tab = d.tab := rfl
@[simp] theorem Dev.onHw_chk (d : Dev) (f : HwState → HwState) : (d.onHw f).chk = d.chk := rfl
@[simp] theorem Dev.onHw_sow (d : Dev) (f : HwState → HwState) : (d.onHw f).sow = d.sow := rfl
@[simp] theorem Dev.onHw_ms (d : Dev) (f : HwState → HwState) : (d.onHw f).ms = d.ms := rfl
@[simp] theorem Dev.onHw_hif (d : Dev) (f : HwState → HwState) : (d.onHw f).hif = d.hif := rfl
@[simp] theorem Dev.onHw_fab (d : Dev) (f : HwState → HwState) : (d.onHw f).fab = d.fab := rfl
@[simp] theorem Dev.onHw_fw (d : Dev) (f : HwState → HwState) : (d.onHw f).fw = d.fw := rfl
@[simp] theorem Dev.onHw_sec (d : Dev) (f : HwState → HwState) : (d.onHw f).sec = d.sec := rfl
@[simp] theorem Dev.onHw_pwr (d : Dev) (f : HwState → HwState) : (d.onHw f).pwr = d.pwr := rfl
@[simp] theorem Dev.onHw_hw (d : Dev) (f : HwState → HwState) : (d.onHw f).hw = f d.hw := rfl
@[simp] theorem Dev.onHw_meshOut (d : Dev) (f : HwState → HwState) : (d.onHw f).meshOut = d.meshOut := rfl

/-! ## Dev.onMs -/

@[simp] theorem Dev.onMs_base (d : Dev) (f : StepState → StepState) : (d.onMs f).base = d.base := rfl
@[simp] theorem Dev.onMs_plots (d : Dev) (f : StepState → StepState) : (d.onMs f).plots = d.plots := rfl
@[simp] theorem Dev.onMs_work (d : Dev) (f : StepState → StepState) : (d.onMs f).work = d.work := rfl
@[simp] theorem Dev.onMs_tier (d : Dev) (f : StepState → StepState) : (d.onMs f).tier = d.tier := rfl
@[simp] theorem Dev.onMs_tab (d : Dev) (f : StepState → StepState) : (d.onMs f).tab = d.tab := rfl
@[simp] theorem Dev.onMs_chk (d : Dev) (f : StepState → StepState) : (d.onMs f).chk = d.chk := rfl
@[simp] theorem Dev.onMs_sow (d : Dev) (f : StepState → StepState) : (d.onMs f).sow = d.sow := rfl
@[simp] theorem Dev.onMs_ms (d : Dev) (f : StepState → StepState) : (d.onMs f).ms = f d.ms := rfl
@[simp] theorem Dev.onMs_hif (d : Dev) (f : StepState → StepState) : (d.onMs f).hif = d.hif := rfl
@[simp] theorem Dev.onMs_fab (d : Dev) (f : StepState → StepState) : (d.onMs f).fab = d.fab := rfl
@[simp] theorem Dev.onMs_fw (d : Dev) (f : StepState → StepState) : (d.onMs f).fw = d.fw := rfl
@[simp] theorem Dev.onMs_sec (d : Dev) (f : StepState → StepState) : (d.onMs f).sec = d.sec := rfl
@[simp] theorem Dev.onMs_pwr (d : Dev) (f : StepState → StepState) : (d.onMs f).pwr = d.pwr := rfl
@[simp] theorem Dev.onMs_hw (d : Dev) (f : StepState → StepState) : (d.onMs f).hw = d.hw := rfl
@[simp] theorem Dev.onMs_meshOut (d : Dev) (f : StepState → StepState) : (d.onMs f).meshOut = d.meshOut := rfl

/-! ## Dev.setPlot -/

@[simp] theorem Dev.setPlot_base (d : Dev) (i : Nat) (p : Plot) : (d.setPlot i p).base = d.base := rfl
@[simp] theorem Dev.setPlot_work (d : Dev) (i : Nat) (p : Plot) : (d.setPlot i p).work = d.work := rfl
@[simp] theorem Dev.setPlot_tier (d : Dev) (i : Nat) (p : Plot) : (d.setPlot i p).tier = d.tier := rfl
@[simp] theorem Dev.setPlot_tab (d : Dev) (i : Nat) (p : Plot) : (d.setPlot i p).tab = d.tab := rfl
@[simp] theorem Dev.setPlot_chk (d : Dev) (i : Nat) (p : Plot) : (d.setPlot i p).chk = d.chk := rfl
@[simp] theorem Dev.setPlot_sow (d : Dev) (i : Nat) (p : Plot) : (d.setPlot i p).sow = d.sow := rfl
@[simp] theorem Dev.setPlot_ms (d : Dev) (i : Nat) (p : Plot) : (d.setPlot i p).ms = d.ms := rfl
@[simp] theorem Dev.setPlot_hif (d : Dev) (i : Nat) (p : Plot) : (d.setPlot i p).hif = d.hif := rfl
@[simp] theorem Dev.setPlot_fab (d : Dev) (i : Nat) (p : Plot) : (d.setPlot i p).fab = d.fab := rfl
@[simp] theorem Dev.setPlot_fw (d : Dev) (i : Nat) (p : Plot) : (d.setPlot i p).fw = d.fw := rfl
@[simp] theorem Dev.setPlot_sec (d : Dev) (i : Nat) (p : Plot) : (d.setPlot i p).sec = d.sec := rfl
@[simp] theorem Dev.setPlot_pwr (d : Dev) (i : Nat) (p : Plot) : (d.setPlot i p).pwr = d.pwr := rfl
@[simp] theorem Dev.setPlot_hw (d : Dev) (i : Nat) (p : Plot) : (d.setPlot i p).hw = d.hw := rfl
@[simp] theorem Dev.setPlot_meshOut (d : Dev) (i : Nat) (p : Plot) : (d.setPlot i p).meshOut = d.meshOut := rfl

/-! ## Dev.modPlot -/

@[simp] theorem Dev.modPlot_base (d : Dev) (i : Nat) (f : Plot → Plot) : (d.modPlot i f).base = d.base := rfl
@[simp] theorem Dev.modPlot_work (d : Dev) (i : Nat) (f : Plot → Plot) : (d.modPlot i f).work = d.work := rfl
@[simp] theorem Dev.modPlot_tier (d : Dev) (i : Nat) (f : Plot → Plot) : (d.modPlot i f).tier = d.tier := rfl
@[simp] theorem Dev.modPlot_tab (d : Dev) (i : Nat) (f : Plot → Plot) : (d.modPlot i f).tab = d.tab := rfl
@[simp] theorem Dev.modPlot_chk (d : Dev) (i : Nat) (f : Plot → Plot) : (d.modPlot i f).chk = d.chk := rfl
@[simp] theorem Dev.modPlot_sow (d : Dev) (i : Nat) (f : Plot → Plot) : (d.modPlot i f).sow = d.sow := rfl
@[simp] theorem Dev.modPlot_ms (d : Dev) (i : Nat) (f : Plot → Plot) : (d.modPlot i f).ms = d.ms := rfl
@[simp] theorem Dev.modPlot_hif (d : Dev) (i : Nat) (f : Plot → Plot) : (d.modPlot i f).hif = d.hif := rfl
@[simp] theorem Dev.modPlot_fab (d : Dev) (i : Nat) (f : Plot → Plot) : (d.modPlot i f).fab = d.fab := rfl
@[simp] theorem Dev.modPlot_fw (d : Dev) (i : Nat) (f : Plot → Plot) : (d.modPlot i f).fw = d.fw := rfl
@[simp] theorem Dev.modPlot_sec (d : Dev) (i : Nat) (f : Plot → Plot) : (d.modPlot i f).sec = d.sec := rfl
@[simp] theorem Dev.modPlot_pwr (d : Dev) (i : Nat) (f : Plot → Plot) : (d.modPlot i f).pwr = d.pwr := rfl
@[simp] theorem Dev.modPlot_hw (d : Dev) (i : Nat) (f : Plot → Plot) : (d.modPlot i f).hw = d.hw := rfl
@[simp] theorem Dev.modPlot_meshOut (d : Dev) (i : Nat) (f : Plot → Plot) : (d.modPlot i f).meshOut = d.meshOut := rfl

/-! ## Dev.raise -/

@[simp] theorem Dev.raise_plots (d : Dev) (ev : Nat × Nat) (a : Args) (die unit : Nat) : (d.raise ev a die unit).plots = d.plots := rfl
@[simp] theorem Dev.raise_work (d : Dev) (ev : Nat × Nat) (a : Args) (die unit : Nat) : (d.raise ev a die unit).work = d.work := rfl
@[simp] theorem Dev.raise_tier (d : Dev) (ev : Nat × Nat) (a : Args) (die unit : Nat) : (d.raise ev a die unit).tier = d.tier := rfl
@[simp] theorem Dev.raise_tab (d : Dev) (ev : Nat × Nat) (a : Args) (die unit : Nat) : (d.raise ev a die unit).tab = d.tab := rfl
@[simp] theorem Dev.raise_chk (d : Dev) (ev : Nat × Nat) (a : Args) (die unit : Nat) : (d.raise ev a die unit).chk = d.chk := rfl
@[simp] theorem Dev.raise_sow (d : Dev) (ev : Nat × Nat) (a : Args) (die unit : Nat) : (d.raise ev a die unit).sow = d.sow := rfl
@[simp] theorem Dev.raise_ms (d : Dev) (ev : Nat × Nat) (a : Args) (die unit : Nat) : (d.raise ev a die unit).ms = d.ms := rfl
@[simp] theorem Dev.raise_hif (d : Dev) (ev : Nat × Nat) (a : Args) (die unit : Nat) : (d.raise ev a die unit).hif = d.hif := rfl
@[simp] theorem Dev.raise_fab (d : Dev) (ev : Nat × Nat) (a : Args) (die unit : Nat) : (d.raise ev a die unit).fab = d.fab := rfl
@[simp] theorem Dev.raise_fw (d : Dev) (ev : Nat × Nat) (a : Args) (die unit : Nat) : (d.raise ev a die unit).fw = d.fw := rfl
@[simp] theorem Dev.raise_sec (d : Dev) (ev : Nat × Nat) (a : Args) (die unit : Nat) : (d.raise ev a die unit).sec = d.sec := rfl
@[simp] theorem Dev.raise_pwr (d : Dev) (ev : Nat × Nat) (a : Args) (die unit : Nat) : (d.raise ev a die unit).pwr = d.pwr := rfl
@[simp] theorem Dev.raise_hw (d : Dev) (ev : Nat × Nat) (a : Args) (die unit : Nat) : (d.raise ev a die unit).hw = d.hw := rfl
@[simp] theorem Dev.raise_meshOut (d : Dev) (ev : Nat × Nat) (a : Args) (die unit : Nat) : (d.raise ev a die unit).meshOut = d.meshOut := rfl

/-! ## Dev.count -/

@[simp] theorem Dev.count_plots (d : Dev) (c i n : Nat) : (d.count c i n).plots = d.plots := rfl
@[simp] theorem Dev.count_work (d : Dev) (c i n : Nat) : (d.count c i n).work = d.work := rfl
@[simp] theorem Dev.count_tier (d : Dev) (c i n : Nat) : (d.count c i n).tier = d.tier := rfl
@[simp] theorem Dev.count_tab (d : Dev) (c i n : Nat) : (d.count c i n).tab = d.tab := rfl
@[simp] theorem Dev.count_chk (d : Dev) (c i n : Nat) : (d.count c i n).chk = d.chk := rfl
@[simp] theorem Dev.count_sow (d : Dev) (c i n : Nat) : (d.count c i n).sow = d.sow := rfl
@[simp] theorem Dev.count_ms (d : Dev) (c i n : Nat) : (d.count c i n).ms = d.ms := rfl
@[simp] theorem Dev.count_hif (d : Dev) (c i n : Nat) : (d.count c i n).hif = d.hif := rfl
@[simp] theorem Dev.count_fab (d : Dev) (c i n : Nat) : (d.count c i n).fab = d.fab := rfl
@[simp] theorem Dev.count_fw (d : Dev) (c i n : Nat) : (d.count c i n).fw = d.fw := rfl
@[simp] theorem Dev.count_sec (d : Dev) (c i n : Nat) : (d.count c i n).sec = d.sec := rfl
@[simp] theorem Dev.count_pwr (d : Dev) (c i n : Nat) : (d.count c i n).pwr = d.pwr := rfl
@[simp] theorem Dev.count_hw (d : Dev) (c i n : Nat) : (d.count c i n).hw = d.hw := rfl
@[simp] theorem Dev.count_meshOut (d : Dev) (c i n : Nat) : (d.count c i n).meshOut = d.meshOut := rfl

/-! ## Dev.hostWrite -/

@[simp] theorem Dev.hostWrite_plots (d : Dev) (a : Nat) (l : List Byte) : (d.hostWrite a l).plots = d.plots := rfl
@[simp] theorem Dev.hostWrite_work (d : Dev) (a : Nat) (l : List Byte) : (d.hostWrite a l).work = d.work := rfl
@[simp] theorem Dev.hostWrite_tier (d : Dev) (a : Nat) (l : List Byte) : (d.hostWrite a l).tier = d.tier := rfl
@[simp] theorem Dev.hostWrite_tab (d : Dev) (a : Nat) (l : List Byte) : (d.hostWrite a l).tab = d.tab := rfl
@[simp] theorem Dev.hostWrite_chk (d : Dev) (a : Nat) (l : List Byte) : (d.hostWrite a l).chk = d.chk := rfl
@[simp] theorem Dev.hostWrite_sow (d : Dev) (a : Nat) (l : List Byte) : (d.hostWrite a l).sow = d.sow := rfl
@[simp] theorem Dev.hostWrite_ms (d : Dev) (a : Nat) (l : List Byte) : (d.hostWrite a l).ms = d.ms := rfl
@[simp] theorem Dev.hostWrite_hif (d : Dev) (a : Nat) (l : List Byte) : (d.hostWrite a l).hif = d.hif := rfl
@[simp] theorem Dev.hostWrite_fab (d : Dev) (a : Nat) (l : List Byte) : (d.hostWrite a l).fab = d.fab := rfl
@[simp] theorem Dev.hostWrite_fw (d : Dev) (a : Nat) (l : List Byte) : (d.hostWrite a l).fw = d.fw := rfl
@[simp] theorem Dev.hostWrite_sec (d : Dev) (a : Nat) (l : List Byte) : (d.hostWrite a l).sec = d.sec := rfl
@[simp] theorem Dev.hostWrite_pwr (d : Dev) (a : Nat) (l : List Byte) : (d.hostWrite a l).pwr = d.pwr := rfl
@[simp] theorem Dev.hostWrite_hw (d : Dev) (a : Nat) (l : List Byte) : (d.hostWrite a l).hw = d.hw := rfl
@[simp] theorem Dev.hostWrite_meshOut (d : Dev) (a : Nat) (l : List Byte) : (d.hostWrite a l).meshOut = d.meshOut := rfl

/-! ## Dev.msixSend -/

@[simp] theorem Dev.msixSend_plots (d : Dev) (v : Nat) : (d.msixSend v).plots = d.plots := rfl
@[simp] theorem Dev.msixSend_work (d : Dev) (v : Nat) : (d.msixSend v).work = d.work := rfl
@[simp] theorem Dev.msixSend_tier (d : Dev) (v : Nat) : (d.msixSend v).tier = d.tier := rfl
@[simp] theorem Dev.msixSend_tab (d : Dev) (v : Nat) : (d.msixSend v).tab = d.tab := rfl
@[simp] theorem Dev.msixSend_chk (d : Dev) (v : Nat) : (d.msixSend v).chk = d.chk := rfl
@[simp] theorem Dev.msixSend_sow (d : Dev) (v : Nat) : (d.msixSend v).sow = d.sow := rfl
@[simp] theorem Dev.msixSend_ms (d : Dev) (v : Nat) : (d.msixSend v).ms = d.ms := rfl
@[simp] theorem Dev.msixSend_hif (d : Dev) (v : Nat) : (d.msixSend v).hif = d.hif := rfl
@[simp] theorem Dev.msixSend_fab (d : Dev) (v : Nat) : (d.msixSend v).fab = d.fab := rfl
@[simp] theorem Dev.msixSend_fw (d : Dev) (v : Nat) : (d.msixSend v).fw = d.fw := rfl
@[simp] theorem Dev.msixSend_sec (d : Dev) (v : Nat) : (d.msixSend v).sec = d.sec := rfl
@[simp] theorem Dev.msixSend_pwr (d : Dev) (v : Nat) : (d.msixSend v).pwr = d.pwr := rfl
@[simp] theorem Dev.msixSend_hw (d : Dev) (v : Nat) : (d.msixSend v).hw = d.hw := rfl
@[simp] theorem Dev.msixSend_meshOut (d : Dev) (v : Nat) : (d.msixSend v).meshOut = d.meshOut := rfl

/-! ## Dev.tickFresh -/

@[simp] theorem Dev.tickFresh_plots (d : Dev) : (d.tickFresh).plots = d.plots := rfl
@[simp] theorem Dev.tickFresh_work (d : Dev) : (d.tickFresh).work = d.work := rfl
@[simp] theorem Dev.tickFresh_tier (d : Dev) : (d.tickFresh).tier = d.tier := rfl
@[simp] theorem Dev.tickFresh_tab (d : Dev) : (d.tickFresh).tab = d.tab := rfl
@[simp] theorem Dev.tickFresh_chk (d : Dev) : (d.tickFresh).chk = d.chk := rfl
@[simp] theorem Dev.tickFresh_sow (d : Dev) : (d.tickFresh).sow = d.sow := rfl
@[simp] theorem Dev.tickFresh_ms (d : Dev) : (d.tickFresh).ms = d.ms := rfl
@[simp] theorem Dev.tickFresh_hif (d : Dev) : (d.tickFresh).hif = d.hif := rfl
@[simp] theorem Dev.tickFresh_fab (d : Dev) : (d.tickFresh).fab = d.fab := rfl
@[simp] theorem Dev.tickFresh_fw (d : Dev) : (d.tickFresh).fw = d.fw := rfl
@[simp] theorem Dev.tickFresh_sec (d : Dev) : (d.tickFresh).sec = d.sec := rfl
@[simp] theorem Dev.tickFresh_pwr (d : Dev) : (d.tickFresh).pwr = d.pwr := rfl
@[simp] theorem Dev.tickFresh_hw (d : Dev) : (d.tickFresh).hw = d.hw := rfl
@[simp] theorem Dev.tickFresh_meshOut (d : Dev) : (d.tickFresh).meshOut = d.meshOut := rfl

/-! ## Plots -/

/-- The plot that was given a state has it. -/
@[simp] theorem Dev.plot_setPlot_self (d : Dev) (i : Nat) (p : Plot) : (d.setPlot i p).plot i = p := by
  simp [Dev.plot, Dev.setPlot]

/-- Every other plot is as it was. -/
theorem Dev.plot_setPlot_ne (d : Dev) {i j : Nat} (p : Plot) (h : i ≠ j) : (d.setPlot i p).plot j = d.plot j := by
  simp [Dev.plot, Dev.setPlot, kget_kset_ne _ _ _ h]

@[simp] theorem Dev.plot_modPlot_self (d : Dev) (i : Nat) (f : Plot → Plot) : (d.modPlot i f).plot i = f (d.plot i) := by
  simp [Dev.modPlot]

theorem Dev.plot_modPlot_ne (d : Dev) {i j : Nat} (f : Plot → Plot) (h : i ≠ j) : (d.modPlot i f).plot j = d.plot j := by
  simp [Dev.modPlot, Dev.plot_setPlot_ne _ _ h]

@[simp] theorem Dev.plot_onBase (d : Dev) (f : BaseState → BaseState) (j : Nat) : (d.onBase f).plot j = d.plot j := rfl
@[simp] theorem Dev.plot_onTier (d : Dev) (f : TierState → TierState) (j : Nat) : (d.onTier f).plot j = d.plot j := rfl
@[simp] theorem Dev.plot_onTab (d : Dev) (f : TabState → TabState) (j : Nat) : (d.onTab f).plot j = d.plot j := rfl
@[simp] theorem Dev.plot_onChk (d : Dev) (f : ChkState → ChkState) (j : Nat) : (d.onChk f).plot j = d.plot j := rfl
@[simp] theorem Dev.plot_onWork (d : Dev) (f : WorkState → WorkState) (j : Nat) : (d.onWork f).plot j = d.plot j := rfl
@[simp] theorem Dev.plot_onSow (d : Dev) (f : SowState → SowState) (j : Nat) : (d.onSow f).plot j = d.plot j := rfl
@[simp] theorem Dev.plot_onHif (d : Dev) (f : HifState → HifState) (j : Nat) : (d.onHif f).plot j = d.plot j := rfl
@[simp] theorem Dev.plot_onFab (d : Dev) (f : FabState → FabState) (j : Nat) : (d.onFab f).plot j = d.plot j := rfl
@[simp] theorem Dev.plot_onFw (d : Dev) (f : FwState → FwState) (j : Nat) : (d.onFw f).plot j = d.plot j := rfl
@[simp] theorem Dev.plot_onSec (d : Dev) (f : SecState → SecState) (j : Nat) : (d.onSec f).plot j = d.plot j := rfl
@[simp] theorem Dev.plot_onPwr (d : Dev) (f : PwrState → PwrState) (j : Nat) : (d.onPwr f).plot j = d.plot j := rfl
@[simp] theorem Dev.plot_onHw (d : Dev) (f : HwState → HwState) (j : Nat) : (d.onHw f).plot j = d.plot j := rfl
@[simp] theorem Dev.plot_onMs (d : Dev) (f : StepState → StepState) (j : Nat) : (d.onMs f).plot j = d.plot j := rfl
@[simp] theorem Dev.plot_raise (d : Dev) (ev : Nat × Nat) (a : Args) (die unit : Nat) (j : Nat) : (d.raise ev a die unit).plot j = d.plot j := rfl
@[simp] theorem Dev.plot_count (d : Dev) (c i n : Nat) (j : Nat) : (d.count c i n).plot j = d.plot j := rfl
@[simp] theorem Dev.plot_hostWrite (d : Dev) (a : Nat) (l : List Byte) (j : Nat) : (d.hostWrite a l).plot j = d.plot j := rfl
@[simp] theorem Dev.plot_msixSend (d : Dev) (v : Nat) (j : Nat) : (d.msixSend v).plot j = d.plot j := rfl
@[simp] theorem Dev.plot_tickFresh (d : Dev) (j : Nat) : (d.tickFresh).plot j = d.plot j := rfl

/-! ## Events and counters -/

/-- Raising an event changes the shared state in its events and its counters only. -/
theorem BaseState.raise_fields (b : BaseState) (ev : Nat × Nat) (die unit : Nat) (args : List Word64) :
    ∃ evt cnt tot, b.raise ev die unit args = { b with evt := evt, cnt := cnt, tot := tot } := by
  unfold BaseState.raise BaseState.holdEvent
  dsimp only
  split
  · exact ⟨_, _, _, rfl⟩
  · split <;> exact ⟨_, _, _, rfl⟩

@[simp] theorem BaseState.raise_regs (b : BaseState) (ev : Nat × Nat) (die unit : Nat) (args : List Word64) :
    (b.raise ev die unit args).regs = b.regs := by
  obtain ⟨_, _, _, h⟩ := b.raise_fields ev die unit args; rw [h]
@[simp] theorem Dev.raise_base_regs (d : Dev) (ev : Nat × Nat) (a : Args) (die unit : Nat) :
    (d.raise ev a die unit).base.regs = d.base.regs := BaseState.raise_regs ..
@[simp] theorem Dev.count_base_regs (d : Dev) (c i n : Nat) : (d.count c i n).base.regs = d.base.regs := rfl
@[simp] theorem BaseState.raise_msix (b : BaseState) (ev : Nat × Nat) (die unit : Nat) (args : List Word64) :
    (b.raise ev die unit args).msix = b.msix := by
  obtain ⟨_, _, _, h⟩ := b.raise_fields ev die unit args; rw [h]
@[simp] theorem Dev.raise_base_msix (d : Dev) (ev : Nat × Nat) (a : Args) (die unit : Nat) :
    (d.raise ev a die unit).base.msix = d.base.msix := BaseState.raise_msix ..
@[simp] theorem Dev.count_base_msix (d : Dev) (c i n : Nat) : (d.count c i n).base.msix = d.base.msix := rfl
@[simp] theorem BaseState.raise_msixPend (b : BaseState) (ev : Nat × Nat) (die unit : Nat) (args : List Word64) :
    (b.raise ev die unit args).msixPend = b.msixPend := by
  obtain ⟨_, _, _, h⟩ := b.raise_fields ev die unit args; rw [h]
@[simp] theorem Dev.raise_base_msixPend (d : Dev) (ev : Nat × Nat) (a : Args) (die unit : Nat) :
    (d.raise ev a die unit).base.msixPend = d.base.msixPend := BaseState.raise_msixPend ..
@[simp] theorem Dev.count_base_msixPend (d : Dev) (c i n : Nat) : (d.count c i n).base.msixPend = d.base.msixPend := rfl
@[simp] theorem BaseState.raise_now (b : BaseState) (ev : Nat × Nat) (die unit : Nat) (args : List Word64) :
    (b.raise ev die unit args).now = b.now := by
  obtain ⟨_, _, _, h⟩ := b.raise_fields ev die unit args; rw [h]
@[simp] theorem Dev.raise_base_now (d : Dev) (ev : Nat × Nat) (a : Args) (die unit : Nat) :
    (d.raise ev a die unit).base.now = d.base.now := BaseState.raise_now ..
@[simp] theorem Dev.count_base_now (d : Dev) (c i n : Nat) : (d.count c i n).base.now = d.base.now := rfl
@[simp] theorem BaseState.raise_fresh (b : BaseState) (ev : Nat × Nat) (die unit : Nat) (args : List Word64) :
    (b.raise ev die unit args).fresh = b.fresh := by
  obtain ⟨_, _, _, h⟩ := b.raise_fields ev die unit args; rw [h]
@[simp] theorem Dev.raise_base_fresh (d : Dev) (ev : Nat × Nat) (a : Args) (die unit : Nat) :
    (d.raise ev a die unit).base.fresh = d.base.fresh := BaseState.raise_fresh ..
@[simp] theorem Dev.count_base_fresh (d : Dev) (c i n : Nat) : (d.count c i n).base.fresh = d.base.fresh := rfl
@[simp] theorem BaseState.raise_out (b : BaseState) (ev : Nat × Nat) (die unit : Nat) (args : List Word64) :
    (b.raise ev die unit args).out = b.out := by
  obtain ⟨_, _, _, h⟩ := b.raise_fields ev die unit args; rw [h]
@[simp] theorem Dev.raise_base_out (d : Dev) (ev : Nat × Nat) (a : Args) (die unit : Nat) :
    (d.raise ev a die unit).base.out = d.base.out := BaseState.raise_out ..
@[simp] theorem Dev.count_base_out (d : Dev) (c i n : Nat) : (d.count c i n).base.out = d.base.out := rfl
@[simp] theorem BaseState.raise_lockHif (b : BaseState) (ev : Nat × Nat) (die unit : Nat) (args : List Word64) :
    (b.raise ev die unit args).lockHif = b.lockHif := by
  obtain ⟨_, _, _, h⟩ := b.raise_fields ev die unit args; rw [h]
@[simp] theorem Dev.raise_base_lockHif (d : Dev) (ev : Nat × Nat) (a : Args) (die unit : Nat) :
    (d.raise ev a die unit).base.lockHif = d.base.lockHif := BaseState.raise_lockHif ..
@[simp] theorem Dev.count_base_lockHif (d : Dev) (c i n : Nat) : (d.count c i n).base.lockHif = d.base.lockHif := rfl
@[simp] theorem BaseState.raise_lockAll (b : BaseState) (ev : Nat × Nat) (die unit : Nat) (args : List Word64) :
    (b.raise ev die unit args).lockAll = b.lockAll := by
  obtain ⟨_, _, _, h⟩ := b.raise_fields ev die unit args; rw [h]
@[simp] theorem Dev.raise_base_lockAll (d : Dev) (ev : Nat × Nat) (a : Args) (die unit : Nat) :
    (d.raise ev a die unit).base.lockAll = d.base.lockAll := BaseState.raise_lockAll ..
@[simp] theorem Dev.count_base_lockAll (d : Dev) (c i n : Nat) : (d.count c i n).base.lockAll = d.base.lockAll := rfl
@[simp] theorem BaseState.raise_fallback (b : BaseState) (ev : Nat × Nat) (die unit : Nat) (args : List Word64) :
    (b.raise ev die unit args).fallback = b.fallback := by
  obtain ⟨_, _, _, h⟩ := b.raise_fields ev die unit args; rw [h]
@[simp] theorem Dev.raise_base_fallback (d : Dev) (ev : Nat × Nat) (a : Args) (die unit : Nat) :
    (d.raise ev a die unit).base.fallback = d.base.fallback := BaseState.raise_fallback ..
@[simp] theorem Dev.count_base_fallback (d : Dev) (c i n : Nat) : (d.count c i n).base.fallback = d.base.fallback := rfl
@[simp] theorem BaseState.raise_trcTail (b : BaseState) (ev : Nat × Nat) (die unit : Nat) (args : List Word64) :
    (b.raise ev die unit args).trcTail = b.trcTail := by
  obtain ⟨_, _, _, h⟩ := b.raise_fields ev die unit args; rw [h]
@[simp] theorem Dev.raise_base_trcTail (d : Dev) (ev : Nat × Nat) (a : Args) (die unit : Nat) :
    (d.raise ev a die unit).base.trcTail = d.base.trcTail := BaseState.raise_trcTail ..
@[simp] theorem Dev.count_base_trcTail (d : Dev) (c i n : Nat) : (d.count c i n).base.trcTail = d.base.trcTail := rfl
@[simp] theorem BaseState.raise_applied (b : BaseState) (ev : Nat × Nat) (die unit : Nat) (args : List Word64) :
    (b.raise ev die unit args).applied = b.applied := by
  obtain ⟨_, _, _, h⟩ := b.raise_fields ev die unit args; rw [h]
@[simp] theorem Dev.raise_base_applied (d : Dev) (ev : Nat × Nat) (a : Args) (die unit : Nat) :
    (d.raise ev a die unit).base.applied = d.base.applied := BaseState.raise_applied ..
@[simp] theorem Dev.count_base_applied (d : Dev) (c i n : Nat) : (d.count c i n).base.applied = d.base.applied := rfl
@[simp] theorem BaseState.raise_cleared (b : BaseState) (ev : Nat × Nat) (die unit : Nat) (args : List Word64) :
    (b.raise ev die unit args).cleared = b.cleared := by
  obtain ⟨_, _, _, h⟩ := b.raise_fields ev die unit args; rw [h]
@[simp] theorem Dev.raise_base_cleared (d : Dev) (ev : Nat × Nat) (a : Args) (die unit : Nat) :
    (d.raise ev a die unit).base.cleared = d.base.cleared := BaseState.raise_cleared ..
@[simp] theorem Dev.count_base_cleared (d : Dev) (c i n : Nat) : (d.count c i n).base.cleared = d.base.cleared := rfl
@[simp] theorem BaseState.raise_ended (b : BaseState) (ev : Nat × Nat) (die unit : Nat) (args : List Word64) :
    (b.raise ev die unit args).ended = b.ended := by
  obtain ⟨_, _, _, h⟩ := b.raise_fields ev die unit args; rw [h]
@[simp] theorem Dev.raise_base_ended (d : Dev) (ev : Nat × Nat) (a : Args) (die unit : Nat) :
    (d.raise ev a die unit).base.ended = d.base.ended := BaseState.raise_ended ..
@[simp] theorem Dev.count_base_ended (d : Dev) (c i n : Nat) : (d.count c i n).base.ended = d.base.ended := rfl

/-- An event takes the next SEQ. -/
@[simp] theorem BaseState.raise_seq (b : BaseState) (ev : Nat × Nat) (die unit : Nat) (args : List Word64) :
    (b.raise ev die unit args).evt.seq = b.evt.seq + 1 := by
  unfold BaseState.raise BaseState.holdEvent
  dsimp only
  split
  · rfl
  · split <;> rfl

@[simp] theorem Dev.raise_seq (d : Dev) (ev : Nat × Nat) (a : Args) (die unit : Nat) :
    (d.raise ev a die unit).base.evt.seq = d.base.evt.seq + 1 := BaseState.raise_seq ..

/-- What is in force of a register depends on the registers and the setup checks that failed. -/
theorem regForce_congr {b c : BaseState} (h1 : b.regs = c.regs) (h2 : b.fallback = c.fallback) (off : Nat) :
    regForce b off = regForce c off := by simp [regForce, regVal, h1, h2]

@[simp] theorem regForce_raise (d : Dev) (ev : Nat × Nat) (a : Args) (die unit off : Nat) :
    regForce (d.raise ev a die unit).base off = regForce d.base off := regForce_congr (by simp) (by simp) off

@[simp] theorem regForce_count (d : Dev) (c i n off : Nat) : regForce (d.count c i n).base off = regForce d.base off :=
  regForce_congr rfl rfl off

/-- The plot map in force depends on the registers alone. -/
theorem physOf_congr {b c : BaseState} (h1 : b.regs = c.regs) (h2 : b.fallback = c.fallback) (p : Nat) :
    physOf b p = physOf c p := by
  have h : regForce b = regForce c := funext (regForce_congr h1 h2)
  unfold physOf
  rw [h]

@[simp] theorem physOf_raise (d : Dev) (ev : Nat × Nat) (a : Args) (die unit p : Nat) :
    physOf (d.raise ev a die unit).base p = physOf d.base p := physOf_congr (by simp) (by simp) p

@[simp] theorem physOf_count (d : Dev) (c i n p : Nat) : physOf (d.count c i n).base p = physOf d.base p :=
  physOf_congr rfl rfl p

/-- A counter that is added to: its instance and its module total (R604). -/
theorem Dev.count_cnt (d : Dev) (c i n : Nat) :
    kget 0 (d.count c i n).base.cnt (8192 * c + i) = kget 0 d.base.cnt (8192 * c + i) + BitVec.ofNat 32 n := by
  simp [Dev.count, BaseState.count]

theorem Dev.count_tot (d : Dev) (c i n : Nat) :
    kget 0 (d.count c i n).base.tot c = kget 0 d.base.tot c + BitVec.ofNat 64 n := by
  simp [Dev.count, BaseState.count]

/-! ## Threads, token counters, channels of a plot -/

@[simp] theorem threadOf_setThread_self (p : Plot) (t : Nat) (h : Thread) : threadOf (setThread p t h) t = h := by
  simp [threadOf, setThread]

@[simp] theorem setThread_sram (p : Plot) (t : Nat) (h : Thread) : (setThread p t h).sram = p.sram := rfl
@[simp] theorem setThread_store (p : Plot) (t : Nat) (h : Thread) : (setThread p t h).store = p.store := rfl
@[simp] theorem setThread_tiles (p : Plot) (t : Nat) (h : Thread) : (setThread p t h).tiles = p.tiles := rfl
@[simp] theorem setThread_vregs (p : Plot) (t : Nat) (h : Thread) : (setThread p t h).vregs = p.vregs := rfl
@[simp] theorem setThread_acc (p : Plot) (t : Nat) (h : Thread) : (setThread p t h).acc = p.acc := rfl
@[simp] theorem setThread_accStat (p : Plot) (t : Nat) (h : Thread) : (setThread p t h).accStat = p.accStat := rfl
@[simp] theorem setThread_red (p : Plot) (t : Nat) (h : Thread) : (setThread p t h).red = p.red := rfl
@[simp] theorem setThread_redN (p : Plot) (t : Nat) (h : Thread) : (setThread p t h).redN = p.redN := rfl
@[simp] theorem setThread_redX (p : Plot) (t : Nat) (h : Thread) : (setThread p t h).redX = p.redX := rfl
@[simp] theorem setThread_events (p : Plot) (t : Nat) (h : Thread) : (setThread p t h).events = p.events := rfl
@[simp] theorem setThread_seq (p : Plot) (t : Nat) (h : Thread) : (setThread p t h).seq = p.seq := rfl
@[simp] theorem setThread_tok (p : Plot) (t : Nat) (h : Thread) : (setThread p t h).tok = p.tok := rfl
@[simp] theorem setThread_chans (p : Plot) (t : Nat) (h : Thread) : (setThread p t h).chans = p.chans := rfl
@[simp] theorem setThread_sent (p : Plot) (t : Nat) (h : Thread) : (setThread p t h).sent = p.sent := rfl
@[simp] theorem setThread_dmaQ (p : Plot) (t : Nat) (h : Thread) : (setThread p t h).dmaQ = p.dmaQ := rfl
@[simp] theorem setThread_matQ (p : Plot) (t : Nat) (h : Thread) : (setThread p t h).matQ = p.matQ := rfl
@[simp] theorem setThread_vecQ (p : Plot) (t : Nat) (h : Thread) : (setThread p t h).vecQ = p.vecQ := rfl
@[simp] theorem setThread_sendQ (p : Plot) (t : Nat) (h : Thread) : (setThread p t h).sendQ = p.sendQ := rfl
@[simp] theorem setThread_recvQ (p : Plot) (t : Nat) (h : Thread) : (setThread p t h).recvQ = p.recvQ := rfl
@[simp] theorem setThread_fload (p : Plot) (t : Nat) (h : Thread) : (setThread p t h).fload = p.fload := rfl
@[simp] theorem setThread_ahead (p : Plot) (t : Nat) (h : Thread) : (setThread p t h).ahead = p.ahead := rfl
@[simp] theorem setThread_lfsr (p : Plot) (t : Nat) (h : Thread) : (setThread p t h).lfsr = p.lfsr := rfl
@[simp] theorem setThread_gctx (p : Plot) (t : Nat) (h : Thread) : (setThread p t h).gctx = p.gctx := rfl
@[simp] theorem setThread_div16 (p : Plot) (t : Nat) (h : Thread) : (setThread p t h).div16 = p.div16 := rfl
@[simp] theorem setThread_idleTick (p : Plot) (t : Nat) (h : Thread) : (setThread p t h).idleTick = p.idleTick := rfl
@[simp] theorem setThread_idleDone (p : Plot) (t : Nat) (h : Thread) : (setThread p t h).idleDone = p.idleDone := rfl
@[simp] theorem setThread_blocks (p : Plot) (t : Nat) (h : Thread) : (setThread p t h).blocks = p.blocks := rfl
@[simp] theorem setThread_remapping (p : Plot) (t : Nat) (h : Thread) : (setThread p t h).remapping = p.remapping := rfl
@[simp] theorem setTok_sram (p : Plot) (c v : Nat) : (setTok p c v).sram = p.sram := rfl
@[simp] theorem setTok_store (p : Plot) (c v : Nat) : (setTok p c v).store = p.store := rfl
@[simp] theorem setTok_tiles (p : Plot) (c v : Nat) : (setTok p c v).tiles = p.tiles := rfl
@[simp] theorem setTok_vregs (p : Plot) (c v : Nat) : (setTok p c v).vregs = p.vregs := rfl
@[simp] theorem setTok_acc (p : Plot) (c v : Nat) : (setTok p c v).acc = p.acc := rfl
@[simp] theorem setTok_accStat (p : Plot) (c v : Nat) : (setTok p c v).accStat = p.accStat := rfl
@[simp] theorem setTok_red (p : Plot) (c v : Nat) : (setTok p c v).red = p.red := rfl
@[simp] theorem setTok_redN (p : Plot) (c v : Nat) : (setTok p c v).redN = p.redN := rfl
@[simp] theorem setTok_redX (p : Plot) (c v : Nat) : (setTok p c v).redX = p.redX := rfl
@[simp] theorem setTok_events (p : Plot) (c v : Nat) : (setTok p c v).events = p.events := rfl
@[simp] theorem setTok_seq (p : Plot) (c v : Nat) : (setTok p c v).seq = p.seq := rfl
@[simp] theorem setTok_chans (p : Plot) (c v : Nat) : (setTok p c v).chans = p.chans := rfl
@[simp] theorem setTok_sent (p : Plot) (c v : Nat) : (setTok p c v).sent = p.sent := rfl
@[simp] theorem setTok_dmaQ (p : Plot) (c v : Nat) : (setTok p c v).dmaQ = p.dmaQ := rfl
@[simp] theorem setTok_matQ (p : Plot) (c v : Nat) : (setTok p c v).matQ = p.matQ := rfl
@[simp] theorem setTok_vecQ (p : Plot) (c v : Nat) : (setTok p c v).vecQ = p.vecQ := rfl
@[simp] theorem setTok_sendQ (p : Plot) (c v : Nat) : (setTok p c v).sendQ = p.sendQ := rfl
@[simp] theorem setTok_recvQ (p : Plot) (c v : Nat) : (setTok p c v).recvQ = p.recvQ := rfl
@[simp] theorem setTok_fload (p : Plot) (c v : Nat) : (setTok p c v).fload = p.fload := rfl
@[simp] theorem setTok_ahead (p : Plot) (c v : Nat) : (setTok p c v).ahead = p.ahead := rfl
@[simp] theorem setTok_lfsr (p : Plot) (c v : Nat) : (setTok p c v).lfsr = p.lfsr := rfl
@[simp] theorem setTok_gctx (p : Plot) (c v : Nat) : (setTok p c v).gctx = p.gctx := rfl
@[simp] theorem setTok_div16 (p : Plot) (c v : Nat) : (setTok p c v).div16 = p.div16 := rfl
@[simp] theorem setTok_idleTick (p : Plot) (c v : Nat) : (setTok p c v).idleTick = p.idleTick := rfl
@[simp] theorem setTok_idleDone (p : Plot) (c v : Nat) : (setTok p c v).idleDone = p.idleDone := rfl
@[simp] theorem setTok_blocks (p : Plot) (c v : Nat) : (setTok p c v).blocks = p.blocks := rfl
@[simp] theorem setTok_remapping (p : Plot) (c v : Nat) : (setTok p c v).remapping = p.remapping := rfl
@[simp] theorem setChan_sram (p : Plot) (c : Nat) (h : Channel) : (setChan p c h).sram = p.sram := rfl
@[simp] theorem setChan_store (p : Plot) (c : Nat) (h : Channel) : (setChan p c h).store = p.store := rfl
@[simp] theorem setChan_tiles (p : Plot) (c : Nat) (h : Channel) : (setChan p c h).tiles = p.tiles := rfl
@[simp] theorem setChan_vregs (p : Plot) (c : Nat) (h : Channel) : (setChan p c h).vregs = p.vregs := rfl
@[simp] theorem setChan_acc (p : Plot) (c : Nat) (h : Channel) : (setChan p c h).acc = p.acc := rfl
@[simp] theorem setChan_accStat (p : Plot) (c : Nat) (h : Channel) : (setChan p c h).accStat = p.accStat := rfl
@[simp] theorem setChan_red (p : Plot) (c : Nat) (h : Channel) : (setChan p c h).red = p.red := rfl
@[simp] theorem setChan_redN (p : Plot) (c : Nat) (h : Channel) : (setChan p c h).redN = p.redN := rfl
@[simp] theorem setChan_redX (p : Plot) (c : Nat) (h : Channel) : (setChan p c h).redX = p.redX := rfl
@[simp] theorem setChan_events (p : Plot) (c : Nat) (h : Channel) : (setChan p c h).events = p.events := rfl
@[simp] theorem setChan_seq (p : Plot) (c : Nat) (h : Channel) : (setChan p c h).seq = p.seq := rfl
@[simp] theorem setChan_tok (p : Plot) (c : Nat) (h : Channel) : (setChan p c h).tok = p.tok := rfl
@[simp] theorem setChan_sent (p : Plot) (c : Nat) (h : Channel) : (setChan p c h).sent = p.sent := rfl
@[simp] theorem setChan_dmaQ (p : Plot) (c : Nat) (h : Channel) : (setChan p c h).dmaQ = p.dmaQ := rfl
@[simp] theorem setChan_matQ (p : Plot) (c : Nat) (h : Channel) : (setChan p c h).matQ = p.matQ := rfl
@[simp] theorem setChan_vecQ (p : Plot) (c : Nat) (h : Channel) : (setChan p c h).vecQ = p.vecQ := rfl
@[simp] theorem setChan_sendQ (p : Plot) (c : Nat) (h : Channel) : (setChan p c h).sendQ = p.sendQ := rfl
@[simp] theorem setChan_recvQ (p : Plot) (c : Nat) (h : Channel) : (setChan p c h).recvQ = p.recvQ := rfl
@[simp] theorem setChan_fload (p : Plot) (c : Nat) (h : Channel) : (setChan p c h).fload = p.fload := rfl
@[simp] theorem setChan_ahead (p : Plot) (c : Nat) (h : Channel) : (setChan p c h).ahead = p.ahead := rfl
@[simp] theorem setChan_lfsr (p : Plot) (c : Nat) (h : Channel) : (setChan p c h).lfsr = p.lfsr := rfl
@[simp] theorem setChan_gctx (p : Plot) (c : Nat) (h : Channel) : (setChan p c h).gctx = p.gctx := rfl
@[simp] theorem setChan_div16 (p : Plot) (c : Nat) (h : Channel) : (setChan p c h).div16 = p.div16 := rfl
@[simp] theorem setChan_idleTick (p : Plot) (c : Nat) (h : Channel) : (setChan p c h).idleTick = p.idleTick := rfl
@[simp] theorem setChan_idleDone (p : Plot) (c : Nat) (h : Channel) : (setChan p c h).idleDone = p.idleDone := rfl
@[simp] theorem setChan_blocks (p : Plot) (c : Nat) (h : Channel) : (setChan p c h).blocks = p.blocks := rfl
@[simp] theorem setChan_remapping (p : Plot) (c : Nat) (h : Channel) : (setChan p c h).remapping = p.remapping := rfl

@[simp] theorem chanOf_setChan_self (p : Plot) (c : Nat) (h : Channel) : chanOf (setChan p c h) c = h := by
  simp [chanOf, setChan]

@[simp] theorem threadOf_setTok (p : Plot) (c v t : Nat) : threadOf (setTok p c v) t = threadOf p t := rfl
@[simp] theorem threadOf_setChan (p : Plot) (c : Nat) (h : Channel) (t : Nat) : threadOf (setChan p c h) t = threadOf p t := rfl
@[simp] theorem tokOf_setThread (p : Plot) (t : Nat) (h : Thread) (c : Nat) : tokOf (setThread p t h) c = tokOf p c := rfl

/-- x0 reads zero (R40). -/
@[simp] theorem xReg_zero (h : Thread) : xReg h 0 = 0 := rfl

/-- A register that is written reads what was written, modulo 2^64; x0 still reads zero (R40). -/
theorem xReg_setX (h : Thread) (r v : Nat) : xReg (setX h r v) r = if r = 0 then 0 else v % 2 ^ 64 := by
  unfold xReg setX
  split <;> simp

@[simp] theorem setX_pc (h : Thread) (r v : Nat) : (setX h r v).pc = h.pc := by unfold setX; split <;> rfl
@[simp] theorem setX_park (h : Thread) (r v : Nat) : (setX h r v).park = h.park := by unfold setX; split <;> rfl
@[simp] theorem setX_started (h : Thread) (r v : Nat) : (setX h r v).started = h.started := by unfold setX; split <;> rfl
@[simp] theorem setX_csr (h : Thread) (r v : Nat) : (setX h r v).csr = h.csr := by unfold setX; split <;> rfl
@[simp] theorem setX_posted (h : Thread) (r v : Nat) : (setX h r v).posted = h.posted := by unfold setX; split <;> rfl
@[simp] theorem setX_resv (h : Thread) (r v : Nat) : (setX h r v).resv = h.resv := by unfold setX; split <;> rfl
@[simp] theorem pcNext_pc (h : Thread) (n : Nat) : (pcNext h n).pc = h.pc + BitVec.ofNat 64 n := rfl
@[simp] theorem pcNext_x (h : Thread) (n : Nat) : (pcNext h n).x = h.x := rfl
@[simp] theorem pcNext_park (h : Thread) (n : Nat) : (pcNext h n).park = h.park := rfl
@[simp] theorem pcNext_csr (h : Thread) (n : Nat) : (pcNext h n).csr = h.csr := rfl
@[simp] theorem pcNext_posted (h : Thread) (n : Nat) : (pcNext h n).posted = h.posted := rfl
@[simp] theorem xReg_pcNext (h : Thread) (n r : Nat) : xReg (pcNext h n) r = xReg h r := rfl

end Sys2Proof.Machine
end

