-- ==== Sys2Proof/WellFormed.lean ====
section
/-!
DEFINITION. Which commands the surroundings can send: what the operands' types leave open of the sizes and numbers the spec gives them.
-/

namespace Sys2Proof

/-- A stage's findings name each socket and each bay once (Table 15.7). -/
def StartStage.wellFormed : StartStage → Bool
  | .bootRom => true
  | .link _ _ => true
  | .firmware => true
  | .domains _ => true
  | .plots => true
  | .hbm _ _ => true
  | .ddr fitted _ _ => decide ((fitted.map fun x => x.1).Nodup)
  | .flash found => decide ((found.map fun x => x.1).Nodup)
  | .journals => true
  | .fabric => true
  | .engine => true

/-- A command whose operands have the sizes the spec gives them: a frame of at most 16 + 512 bytes (Table 12.2), nine junctions and twelve
stacks (Table 15.4), the extents of an Iaqua and the blocks of a cartridge as their tables number them (R271, R278), tails of the rings of
the group kicked (R448), the six processors FW_LOAD starts (R522), and a read of some bytes. -/
def Instr.wellFormed : Instr → Bool
  | .fstart _ _ _ _ _ => true
  | .fstop _ _ _ => true
  | .fready _ _ _ => true
  | .fload _ _ _ _ => true
  | .loadDone _ => true
  | .fwait _ _ _ _ => true
  | .ftok _ _ _ _ _ => true
  | .fstat _ _ _ _ => true
  | .fwork _ _ _ => true
  | .illegalInstruction _ _ _ => true
  | .deviceLoad _ _ _ _ _ _ _ _ => true
  | .deviceStore _ _ _ _ _ _ _ => true
  | .deviceAccessCompletion _ _ _ => true
  | .amoLrsc _ _ _ _ _ _ _ => true
  | .fenceInstruction _ _ => true
  | .threadStartWord _ _ _ _ => true
  | .furrowStoreWrite _ _ _ _ _ _ _ => true
  | .furrowIssue _ _ _ => true
  | .idle _ => true
  | .move _ _ => true
  | .gather _ _ _ => true
  | .gatherRunAhead _ => true
  | .streamRunAhead _ => true
  | .pool _ _ => true
  | .matmul _ _ => true
  | .vchain _ _ => true
  | .reduce _ _ => true
  | .send _ _ => true
  | .messageArrival _ _ _ => true
  | .channelCreditReturn _ _ => true
  | .recv _ => true
  | .signal _ => true
  | .signalDelivery _ _ => true
  | .sow _ _ => true
  | .fingerprint _ _ => true
  | .milestoneFurrow _ => true
  | .calSlot _ _ _ => true
  | .furrowComplete _ => true
  | .halfSwitchResume _ _ => true
  | .furrowFault _ _ => true
  | .clkaDividerSwitch _ => true
  | .workQueueGrant _ => true
  | .blockComplete _ => true
  | .phaseJoin => true
  | .plotRemap _ => true
  | .coalesceIndex _ _ _ => true
  | .coalesceMerge _ => true
  | .rowRead _ _ _ _ _ => true
  | .versionFree _ => true
  | .tierTransactionTimeout _ _ => true
  | .patrolScrub _ _ => true
  | .lentColdTagCheck _ _ => true
  | .hbmCorrection _ _ _ => true
  | .hbmUe _ _ => true
  | .softPpr _ _ _ => true
  | .hbmPcSpare _ _ _ => true
  | .hardPprTest _ _ _ => true
  | .hbmDieReform _ _ _ _ => true
  | .hbmPcLost _ _ => true
  | .ddrCorrection _ _ => true
  | .ddrUe _ _ => true
  | .ddrChannelFallow _ _ => true
  | .extentMove _ extent _ => decide (extent < 0x100000)
  | .flashWrite _ block _ => decide (block < 0x1000000000)
  | .wearLevel _ => true
  | .readDisturbRefresh _ _ => true
  | .flashUe _ _ _ _ => true
  | .garbageCollection _ => true
  | .cartLost _ => true
  | .loanRevokeReceived _ _ => true
  | .loanAutoRevoke => true
  | .lentLimitEnforce _ => true
  | .eviction _ => true
  | .warmCopyClean => true
  | .tierMove _ _ => true
  | .moveSwitch _ _ => true
  | .moveFail _ _ _ _ => true
  | .tierRebuild => true
  | .marginSample _ _ _ => true
  | .delayAdjust _ _ => true
  | .memMarginLow _ _ => true
  | .evacuationComplete _ => true
  | .unitReturn _ => true
  | .gradientStageClose _ => true
  | .milestoneApplicationStart _ => true
  | .hotUpdateApply _ _ _ => true
  | .iaquaUpdateApply _ _ _ => true
  | .writerRecovery _ _ => true
  | .readySend => true
  | .readyReceive _ => true
  | .readytmoExpiry => true
  | .queryTimeout => true
  | .statusReceive _ => true
  | .queryReceive _ => true
  | .committmoExpiry => true
  | .holdResend => true
  | .holdReceive _ => true
  | .digestRevoteSend => true
  | .commitReceive _ => true
  | .abortReceive _ => true
  | .rollbackReceive _ => true
  | .stepRerun => true
  | .phaseTokenReceive _ => true
  | .decidePoll => true
  | .hostLeaderTimeout => true
  | .gateTimeout => true
  | .moduleRejoin => true
  | .cairnSweep _ _ => true
  | .denseCowCopy _ => true
  | .cairnVoid _ => true
  | .cairnSeal _ _ => true
  | .replayStreamReceive _ _ _ _ _ _ => true
  | .replayCompare _ _ _ _ => true
  | .voteSettle _ _ _ => true
  | .expressSampleForward _ _ _ _ _ => true
  | .packRun _ _ => true
  | .updateCheck _ _ _ _ _ => true
  | .packOverdue _ => true
  | .enginePackRun _ _ => true
  | .fallowHourlyPack _ _ => true
  | .quadrantCycle _ => true
  | .bar0BadAccess _ _ => true
  | .registerWrite _ _ _ => true
  | .bar2Read _ n => n != 0
  | .bar2Write _ _ => true
  | .hifSetupDone _ => true
  | .kickSq g rings tails => tails.all fun t => t.1.val / 64 == g.val && rings.getLsbD (t.1.val % 64)
  | .sqPoll _ _ => true
  | .descriptorFetch _ _ => true
  | .descriptorRunAhead _ _ _ => true
  | .seqMismatchRecheck _ _ => true
  | .kickRestart _ _ => true
  | .expressLookup _ _ _ _ _ => true
  | .stepRun _ => true
  | .stepInputRead _ _ _ => true
  | .tableCreate _ _ => true
  | .tableImport _ _ => true
  | .shardExport _ => true
  | .versionSwitch _ => true
  | .cairnWrite _ _ => true
  | .cairnRestoreJob _ _ => true
  | .cairnRestoreRows _ => true
  | .copy _ _ => true
  | .fence _ => true
  | .evacuate _ => true
  | .eventRingSet _ => true
  | .completionPost _ => true
  | .cqCoalesceTimer _ => true
  | .hostReadFailure _ _ => true
  | .eventRecordPost => true
  | .sc1ShareCheck _ _ => true
  | .functionLevelReset => true
  | .frameReceive _ bytes _ => decide (bytes.length ≤ 528)
  | .frameReplay _ _ => true
  | .linkCredit _ _ _ _ => true
  | .identFrame _ _ _ _ => true
  | .portTrainRetry _ _ => true
  | .portDown _ => true
  | .transitForward => true
  | .e2eMessageReceive => true
  | .e2eAck _ => true
  | .e2eRetransmit _ _ => true
  | .destinationUnreachable _ => true
  | .remoteRead _ => true
  | .readRsp => true
  | .remoteWrite _ => true
  | .writeAck => true
  | .lendReq => true
  | .lendGrant => true
  | .lendRefuse => true
  | .renew => true
  | .renewTimer _ => true
  | .loanIdleReclaim _ => true
  | .revoke => true
  | .revokeDeadline _ _ => true
  | .returnLoan => true
  | .collChunk _ => true
  | .collEnd => true
  | .collCredit => true
  | .tokenFrame => true
  | .laneCalibration _ _ _ _ => true
  | .laneDegrade _ _ _ => true
  | .laneRestore _ _ _ => true
  | .laneCountChange _ => true
  | .mailboxKick _ _ => true
  | .mailboxRequest _ => true
  | .fwLoad => true
  | .fwLoadComplete failed => failed.all fun i => i.val % 4 != 3
  | .fwUpdate => true
  | .fwUpdateComplete => true
  | .fwStatus => true
  | .procRestart => true
  | .watchdogExpiry _ => true
  | .tokenPathNogo _ => true
  | .logSet => true
  | .logEntryWrite _ _ _ _ => true
  | .trcHeadWrite _ => true
  | .packLoad _ => true
  | .loanRequest => true
  | .loanReturn => true
  | .loanRevoke => true
  | .debugChallenge => true
  | .debugUnlock => true
  | .debugEraseComplete _ => true
  | .secverCommit => true
  | .lifecycleAdvance => true
  | .keyRevoke => true
  | .certSet => true
  | .measGet => true
  | .spdmRequest _ _ _ => true
  | .slhSignatureRequest _ => true
  | .secLockDbgdis => true
  | .secLockCertdis => true
  | .secLockFusedis => true
  | .clockLost => true
  | .domainCycle => true
  | .powerCapTick _ _ => true
  | .capSet => true
  | .pwrStatus => true
  | .fastPowerLimit => true
  | .thermalThrottleTick temps => temps.length == 9
  | .hbmStackHot _ _ => true
  | .brownoutEnter _ => true
  | .brownoutExit _ => true
  | .thermalTrip stack source _ => decide (source < if stack then 12 else 9)
  | .powerFail _ => true
  | .perstAssert => true
  | .perstDeassert _ => true
  | .coldPowerOn _ _ => true
  | .powerRemoved => true
  | .enMate => true
  | .startupStageComplete stage => stage.wellFormed
  | .coolantCheck _ _ => true
  | .presenceChange _ _ _ => true
  | .slotRemovedLive _ => true
  | .bayLatchOpen _ => true
  | .bayLatchClose _ => true
  | .pldmRequest _ => true
  | .mctpControl _ => true
  | .powerLimitEffecter _ => true
  | .locateEffecter _ => true
  | .locateExpiry _ => true
  | .platformEventMessage _ _ => true
  | .eventReceiverAck => true
  | .evtSnapshot => true
  | .partRemoved _ => true
  | .domainCycleEnd => true
  | .processorRestartDone _ => true
  | .resetHoldRelease temps _ => temps.length == 9
  | .cqHeadReread _ _ => true
  | .debugPortAccess _ _ => true

end Sys2Proof
end

