-- ==== Sys2Proof/Tests/Slice0.lean ====
section
/-!
SUPPORT. The model's own tests: ill-formed commands refused, small results the spec states, and for every statement with hypotheses a
witness that they can be met.
-/

namespace Sys2Proof.Tests

set_option Elab.async false

open Sys2Proof Sys2Proof.Machine

/-! ## States to try things on -/

/-- The module after reset but for a change of everything that is neither memory nor fuses. -/
def tDev (f : Dev → Dev) : State := { State.reset with mod := ⟨[], f Dev.reset⟩ }

/-- The module after reset but for a change of plot 0. -/
def tPlot (f : Plot → Plot) : State := tDev fun d => d.modPlot 0 f

/-- The module after reset but for thread 0 of plot 0, which has been started and holds the x registers listed. -/
def tThread (xs : KMap Word64) (f : Plot → Plot := id) (g : Thread → Thread := id) : State :=
  tPlot fun p => f (setThread p 0 (g { Thread.reset with started := true, x := xs }))

/-- A value that an `Except` answers, once its evaluation is known not to end in an error. -/
theorem ok_of_toBool {ε α : Type} {x : Except ε α} (h : x.toBool = true) : ∃ a, x = .ok a := by
  cases x with
  | ok a => exact ⟨a, rfl⟩
  | error _ => cases h

/-- A value that an `Option` holds. -/
theorem some_of_isSome {α : Type} {x : Option α} (h : x.isSome = true) : ∃ a, x = some a := by
  cases x with
  | some a => exact ⟨a, rfl⟩
  | none => cases h

/-- A furrow record: header, operands 0 to 3, strides, CTRL (Table 2.4). -/
def tRec (hdr o0 o1 o2 o3 ctrl : Nat) : List Byte :=
  leBytes 16 hdr ++ leBytes 8 o0 ++ leBytes 8 o1 ++ leBytes 8 o2 ++ leBytes 8 o3 ++ zeros 8 ++ leBytes 8 ctrl

/-- Its one execution. -/
def tExec (r : List Byte) : Exec := ⟨0, 0, 0, true, true, r, [], 0, 0, false, 0, none⟩

/-- A table of 32 FP32 columns and three rows, its row map at DA 0x40000. -/
def tTdesc : TDesc where
  version := 1
  id := 0
  kind := 0
  fmt := 0
  mshape := 0
  width := 32
  shard := 0
  nshard := 0
  repl := false
  policy := 0
  stale := 0
  freeze := false
  extent := 3
  idxlo := 0
  idxhi := 3
  rowmap := 0x40000
  pgmap := 0
  defgroup := 0
  route := 0
  granG := 3
  granRec := 3
  prevVersion := 0
  prevValid := false
  pendValid := false
  switchPending := false
  switchStep := 0
  prevRowmap := 0
  pendRowmap := 0
  pendVersion := 0
  pinCur := 0
  pinPrev := 0
  prevExtent := 0
  prevSwitchStep := 0

/-- A module that holds it as table 0: row 0 hot at DA 0x80000, row 1 cold, row 2 absent. -/
def tTab (t : TDesc) (f : Dev → Dev) : State :=
  let m : Mod := ⟨[], f Dev.reset⟩
  let m := m.putTd 0 t
  let m := (m.putRow 0x40000 0 ⟨.hot, 0, false, 0x2000⟩).putRow 0x40000 1 ⟨.cold, 0, false, 0⟩
  { State.reset with mod := m.store 0x80000 (mkRecord t 0 1 0 noLink (zeros 128)) }


/-- A processor that runs. -/
def tProc : Proc := { Proc.reset with run := true }

/-- A module that runs: its power core, scheduler core, security core and their standbys, and the quadrant controllers, after every
start-up stage. -/
def tUp : Dev := { Dev.reset with
  fw := { FwState.reset with procs := ([0, 1, 2, 4, 5, 6] ++ (List.range 16).map (16 + ·)).map fun i => (i, tProc), run := true, kicked := true }
  pwr := { PwrState.reset with perst := false, on := 0x3FFFFFFF, stages := (List.range 11).map (1 + ·) } }

/-- Such a module but for a change. -/
def tOn (f : Dev → Dev) : State := { State.reset with mod := ⟨[], f tUp⟩ }

/-- The two outcomes of a pair of computations that may fail. -/
theorem ok_bind {ε α β : Type} {x : Except ε α} {f : α → Except ε β} (h : (x.bind f).toBool = true) :
    ∃ a, x = .ok a ∧ ∃ b, f a = .ok b := by
  cases x with
  | ok a => exact ⟨a, rfl, ok_of_toBool h⟩
  | error _ => cases h

/-- A pair whose first part holds something. -/
theorem ok_some {ε α β : Type} {x : Except ε (Option α × β)} (h : (x.toOption.bind (·.1)).isSome = true) :
    ∃ a b, x = .ok (some a, b) := by
  match x, h with
  | .ok (some a, b), _ => exact ⟨a, b, rfl⟩

/-! ## Witnesses: for each statement, states and operands that meet the hypotheses of each of its clauses -/

/-- StepTakesFront. -/
theorem witness_StepTakesFront : ({ State.reset with pending := [.fstop 0 0 0] }).pending = [.fstop 0 0 0] := by decide

/-- FurrowIssueInstructions: a sum of 2^32 - 1, one of 2^32, halves A and B, an FSTART with entry 2047, ACC_STAT of tiles 0 and 3. -/
theorem witness_FurrowIssueInstructions :
    (let s := tThread [(1, 15), (2, 0xFFFFFFFF)];
      s.threadRuns 0 0 = true ∧ (0 ≤ (tokOf (s.mod.dev.plot 0) (xReg (s.thread 0 0) 1 % 16) : Int) + sext 64 (xReg (s.thread 0 0) 2)) ∧
      ((tokOf (s.mod.dev.plot 0) (xReg (s.thread 0 0) 1 % 16) : Int) + sext 64 (xReg (s.thread 0 0) 2) < 2 ^ 32)) ∧
    (let s := tThread [(1, 15), (2, 0x100000000)];
      s.threadRuns 0 0 = true ∧ 2 ^ 32 ≤ (tokOf (s.mod.dev.plot 0) (xReg (s.thread 0 0) 1 % 16) : Int) + sext 64 (xReg (s.thread 0 0) 2)) ∧
    (let s := tThread [(1, 1)]; s.threadRuns 0 0 = true ∧ xReg (s.thread 0 0) 0 ≤ 1 ∧ xReg (s.thread 0 0) 1 ≤ 1) ∧
    (let s := tThread [(1, 2047)];
      s.threadRuns 0 0 = true ∧ modeLegal (xReg (s.thread 0 0) 0) = true ∧ xReg (s.thread 0 0) 1 < 2048 ∧
        (s.mod.dev.plot 0).seq.running = false ∧ (s.mod.dev.plot 0).seq.cur = none) ∧
    (let s := tThread [(1, 0x20), (2, 0x23)];
      s.threadRuns 0 0 = true ∧ 0x20 ≤ xReg (s.thread 0 0) 1 ∧ xReg (s.thread 0 0) 1 < 0x24 ∧ 0x20 ≤ xReg (s.thread 0 0) 2 ∧
        xReg (s.thread 0 0) 2 < 0x24) := by
  decide +kernel

/-- A plot whose half A is ACTIVE, so that its furrow store is busy there. -/
def tBusy (p : Plot) : Plot := { p with seq := { p.seq with split := true, halfA := .active } }

/-- CoreLoadsAndStores: own SRAM up to its last byte, device memory, an address past the table, the furrow store FREE and ACTIVE. -/
theorem witness_CoreLoadsAndStores :
    (let s := tThread [(1, 0xFFFF8)]; let h := s.thread 0 0;
      s.threadRuns 0 0 = true ∧ pmpAllows h (effAddr h 1 0) 8 0 = true ∧ pmpAllows h (effAddr h 1 0) 8 1 = true ∧
        corePlace (effAddr h 1 0) 8 = .sram (effAddr h 1 0)) ∧
    (let s := tThread [(1, 0x8000000000000000)]; let h := s.thread 0 0;
      s.threadRuns 0 0 = true ∧ pmpAllows h (effAddr h 1 0) 8 0 = true ∧ pmpAllows h (effAddr h 1 0) 8 1 = true ∧
        corePlace (effAddr h 1 0) 8 = .device 0 ∧ accessFault s.mod.dev false 0 8 = none ∧ accessFault s.mod.dev true 0 8 = none ∧
        daHeld s.mod.dev 0 = false ∧ inLostSoft s.mod.dev 0 = false ∧ daPlace 0 = .hot 0 0) ∧
    (let s := tThread [(1, 0x121000)]; let h := s.thread 0 0;
      s.threadRuns 0 0 = true ∧ pmpAllows h (effAddr h 1 0) 1 0 = true ∧ corePlace (effAddr h 1 0) 1 = .nowhere) ∧
    (let s := tThread [(1, 0x100000)]; let h := s.thread 0 0;
      s.threadRuns 0 0 = true ∧ pmpAllows h (effAddr h 1 0) 4 1 = true ∧ corePlace (effAddr h 1 0) 4 = .store 0 ∧
        storeBusy (s.mod.dev.plot 0) 0 = false) ∧
    (let s := tThread [(1, 0x10FFFC)] tBusy; let h := s.thread 0 0;
      s.threadRuns 0 0 = true ∧ pmpAllows h (effAddr h 1 0) 4 1 = true ∧ corePlace (effAddr h 1 0) 4 = .store 0xFFFC ∧
        storeBusy (s.mod.dev.plot 0) 0xFFFC = true) := by
  decide +kernel

/-- CoreCompletionsWaitsAndStarts: an FLOAD into half B, its end, a load from device memory, the last posted store; a mask with
nothing pending and with all pending, a plot on the map, thread 1 not started, a custom-0 word with funct7 1. -/
theorem witness_CoreCompletionsWaitsAndStarts :
    (let s := tThread [(2, 1)]; let h := s.thread 0 0;
      s.mod.dev.stopped = false ∧ canIssue h = true ∧ xReg h 2 ≤ 1 ∧ storeBusy (s.mod.dev.plot 0) 0x10000 = false ∧
        accessFault s.mod.dev false (xReg h 1) 0x10000 = none) ∧
    (let s := tPlot fun p => { p with fload := [⟨0, true⟩] };
      s.mod.dev.stopped = false ∧ (s.mod.dev.plot 0).fload = [⟨0, true⟩] ∧
        (s.mod.demandRead (.fload 0) 0 0x10000).toBool = true ∧ storeBusy (s.mod.dev.plot 0) 0x10000 = false) ∧
    (let s := tThread [] id fun h => { h with park := .mem 5 8 false 0 4 };
      s.mod.dev.stopped = false ∧ (s.thread 0 0).park = .mem 5 8 false 0 4 ∧ (s.mod.demandRead (.thread 0 0) 0 8).toBool = true) ∧
    (let s := tThread [] id fun h => { h with park := .fence, posted := 1 };
      s.mod.dev.stopped = false ∧ windowStores s.mod.dev 0 0 < (s.thread 0 0).posted) ∧
    (let s := tThread [(1, 0x7F)]; s.threadRuns 0 0 = true ∧ pendingFor (s.mod.dev.plot 0) 0 (xReg (s.thread 0 0) 1 % 128) = [] ∧
      logicalOf s.mod.dev.base 0 = some 0 ∧ (s.thread 0 1).started = false) ∧
    (let s := tThread [(1, 0x7F)] fun p => { p with events := [⟨.headland, 0, []⟩] };
      s.threadRuns 0 0 = true ∧ pendingFor (s.mod.dev.plot 0) 0 (xReg (s.thread 0 0) 1 % 128) ≠ []) ∧
    (bitsOf (0x0200000B#32).toNat 6 0 = 0x0B ∧ bitsOf (0x0200000B#32).toNat 31 25 ≠ 0) := by
  refine ⟨by decide +kernel, by decide +kernel, by decide +kernel, by decide +kernel,
    by decide +kernel, by decide +kernel, by decide +kernel⟩

/-- CoreAtomics: the last doubleword of own SRAM, with and without its reservation; an address outside Table 2.2. -/
theorem witness_CoreAtomics :
    (let s := tThread [(1, 0xFFFF8)]; let h := s.thread 0 0;
      s.threadRuns 0 0 = true ∧ corePlace (xReg h 1) 8 = .sram (xReg h 1) ∧ xReg h 1 % 8 = 0 ∧ pmpAllows h (xReg h 1) 8 0 = true ∧
        pmpAllows h (xReg h 1) 8 1 = true ∧ h.resv ≠ some (xReg h 1)) ∧
    (let s := tThread [(1, 0xFFFF8)] id fun h => { h with resv := some 0xFFFF8 };
      s.threadRuns 0 0 = true ∧ (s.thread 0 0).resv = some (xReg (s.thread 0 0) 1)) ∧
    (let s := tThread [(1, 0x121000)]; s.threadRuns 0 0 = true ∧ corePlace (xReg (s.thread 0 0) 1) 4 = .nowhere) := by
  decide +kernel

/-- An execution at the head of the DMA's, the matrix unit's and the vector engine's queue. -/
def tHead (e : Exec) (f : Plot → Plot := id) : State := tPlot fun p => f { p with dmaQ := [e], matQ := [e], vecQ := [e] }

/-- A MOVE of one FP32 element from SRAM to SRAM. -/
def tMove : Exec := tExec (tRec 1 (2 ^ 60 + 0x40) (2 ^ 60 + 0x80) 0 0 1)
/-- A FINGERPRINT of 64 bytes of SRAM. -/
def tFprint : Exec := tExec (tRec 12 (2 ^ 60 + 0x40) (2 ^ 60 + 0x80) 0 0 1)
/-- A POOL of one empty bag. -/
def tPool : Exec := tExec (tRec 3 (2 ^ 60) (2 ^ 60 + 0x40) 0 (2 ^ 61) 0)
/-- A MATMUL of one K block of BF16 into tile 1, not drained. -/
def tMat : Exec := tExec (tRec 4 (2 ^ 60 + 2 ^ 56) (2 ^ 60 + 2 ^ 56) 0 (2 ^ 61) 0)
/-- A VCHAIN of no stages on a vector register. -/
def tVch : Exec := tExec (tRec 5 (3 * 2 ^ 60) 0 0 (3 * 2 ^ 60) 0)
/-- A REDUCE SUM of tile 0 into a vector register. -/
def tRed : Exec := tExec (tRec 6 (2 ^ 61) (3 * 2 ^ 60) 0 0 0)
/-- Nothing observed beside an execution. -/
def tObs : Obs := ⟨0, 0, 0⟩

/-- UnitExecutionsRunAndAnswer: one execution of each opcode that runs without a fault; a MOVE up to the end of SRAM. -/
theorem witness_UnitExecutionsRunAndAnswer :
    ((tHead tMove).atHead 0 .dma .move tMove ∧
      (runMove (prepHead (tHead tMove).mod 0 .dma .move tObs tMove) 0 tMove).toBool = true) ∧
    ((tHead tFprint).atHead 0 .dma .fingerprint tFprint ∧
      (runFingerprint (prepHead (tHead tFprint).mod 0 .dma .fingerprint tObs tFprint) 0 tFprint).toBool = true) ∧
    ((tHead tPool).atHead 0 .mat .pool tPool ∧
      (runPool (prepHead (tHead tPool).mod 0 .mat .pool tObs tPool) 0 tPool).toBool = true) ∧
    ((tHead tMat).atHead 0 .mat .matmul tMat ∧
      (runMatmul (prepHead (tHead tMat).mod 0 .mat .matmul tObs tMat) 0 tMat).toBool = true) ∧
    ((tHead tVch).atHead 0 .vec .vchain tVch ∧
      (runVchain (prepHead (tHead tVch).mod 0 .vec .vchain tObs tVch) 0 tVch).toBool = true) ∧
    ((tHead tRed).atHead 0 .vec .reduce tRed ∧
      (runReduceAll (prepHead (tHead tRed).mod 0 .vec .reduce tObs tRed) 0 tRed).toBool = true) ∧
    (let e := tMove;
      (recOpd e.record 0).space = spSram ∧ (recOpd e.record 1).space = spSram ∧ opdBase e.record 0 e.index = (0x40 : Nat) ∧
        opdBase e.record 1 e.index = (0x80 : Nat) ∧ (recOpd e.record 0).fmt = (recOpd e.record 1).fmt ∧
        ctrlBits e.record 27 16 = 0 ∧ ctrlBits e.record 52 52 = 0 ∧ ctrlBits e.record 54 53 = 0 ∧
        (recOpd e.record 0).format.rowBytes (ctrlBits e.record 15 0) = 4 ∧
        sramWriteFault (tHead tMove).mod.dev.base 0 0x80 4 = none) ∧
    (let e := tFprint;
      (recOpd e.record 0).space = spSram ∧ (recOpd e.record 1).space = spSram ∧ opdBase e.record 0 e.index = (0x40 : Nat) ∧
        opdBase e.record 1 e.index = (0x80 : Nat) ∧ 64 * ctrlBits e.record 14 0 = 64 ∧
        sramWriteFault (tHead tFprint).mod.dev.base 0 0x80 8 = none) := by
  refine ⟨by decide +kernel, by decide +kernel, by decide +kernel, by decide +kernel, by decide +kernel, by decide +kernel,
    by decide +kernel, by decide +kernel⟩

/-- A GATHER of one row of table 0, FRESH. -/
def tGather : Exec := tExec (tRec 2 (2 ^ 60) (2 ^ 60 + 0x40) (4 * 2 ^ 60) 0 (2 ^ 17))
/-- A SOW of one row of table 0. -/
def tSow : Exec := tExec (tRec 11 (2 ^ 60 + 0x40) (2 ^ 60) (4 * 2 ^ 60) 0 0)
/-- A MOVE of two executions from DA. -/
def tStream : Exec := tExec (tRec (1 + 2 ^ 32) (4 * 2 ^ 60) (2 ^ 60 + 0x40) 0 0 1)
/-- Table 0, and an execution at the head of the plot DMA's queue. -/
def tDma (e : Exec) : State := tTab tTdesc fun d => d.modPlot 0 fun p => { p with dmaQ := [e] }

/-- GatherSowAndRunAhead: table 0's row 0, gathered, sown to and fetched ahead; a MOVE's next execution. -/
theorem witness_GatherSowAndRunAhead :
    ((tDma tGather).atHead 0 .dma .gather tGather ∧ ∃ r m1, runGather (tDma tGather).mod 0 tGather [] = .ok (some r, m1)) ∧
    ((tDma tSow).atHead 0 .dma .sow tSow ∧ ∃ m1, runSow (tDma tSow).mod 0 tSow = .ok m1) ∧
    ((tDma tStream).mod.dev.stopped = false ∧ ((tDma tStream).mod.dev.plot 0).dmaQ.head? = some tStream ∧
      recOpc tStream.record = 1 ∧ (recOpd tStream.record 0).space = spDa ∧
      streamNext ((tDma tStream).mod.dev.plot 0) tStream = some 0 ∧ streamBarred (tDma tStream).mod.dev 0 (moveBytes tStream) = false) ∧
    (∃ key w t, aheadNext (tDma tGather).mod 0 tGather = some (key, w, t) ∧
      (aheadRow (tDma tGather).mod tGather t (bitsOf w 39 0)).tier ≠ .cold) := by
  refine ⟨⟨by decide +kernel, ?_⟩, ⟨by decide +kernel, ok_of_toBool (by decide +kernel)⟩, by decide +kernel, ?_⟩
  · exact ok_some (by decide +kernel)
  · have h : (match aheadNext (tDma tGather).mod 0 tGather with
        | some x => decide ((aheadRow (tDma tGather).mod tGather x.2.2 (bitsOf x.2.1 39 0)).tier ≠ .cold)
        | none => false) = true := by decide +kernel
    revert h
    generalize aheadNext (tDma tGather).mod 0 tGather = x
    intro h
    match x, h with
    | some x, h => exact ⟨x.1, x.2.1, x.2.2, rfl, of_decide_eq_true h⟩

/-- A plot whose sequencer issues from entry 0, with the first bytes of its furrow store. -/
def tSeq (store : KMap Byte) (f : Sequencer → Sequencer := id) : State :=
  tPlot fun p => { p with store := store, seq := f { p.seq with running := true } }

/-- A furrow in flight with nothing open, with STOK for counter 3. -/
def tFlight : InFlight := ⟨7, 5, tRec (2 ^ 56 + 3 * 2 ^ 52) 0 0 0 0 0, 0, true, none, [0, 0, 0, 0, 0, 0], none, false⟩

/-- FurrowsIssueAndEnd: an IDLE record at entry 0, OPC 0x0F there, a furrow that has ended, one with a fault at execution 0, half B
READY while the sequencer waits for it. -/
theorem witness_FurrowsIssueAndEnd :
    (let d := (tSeq []).mod.dev; let p := d.plot 0; let r := recordAt p p.seq.entry;
      d.stopped = false ∧ seqOpen p.seq = true ∧ legalHere d.base 0 r = true ∧ Opc.ofCode (recOpc r) = some .idle ∧
        mayBegin p r = true ∧ trainOpen d 0 r = true ∧ phaseJoined d 0 r = true ∧ unitRoom p Opc.idle.unitK = true ∧
        hazardFree p r 0 = true ∧ nextExec r (readBitmap p r) (recRepeat r + 2) 0 = (0, some 0) ∧ idleQuota d 0 ≤ idleCount d p ∧
        isReplayed r = false) ∧
    (let d := (tSeq [(0, 0x0F)]).mod.dev; let p := d.plot 0;
      d.stopped = false ∧ seqOpen p.seq = true ∧ legalHere d.base 0 (recordAt p p.seq.entry) = false) ∧
    (let d := (tSeq [] fun q => { q with inflight := [tFlight] }).mod.dev; let p := d.plot 0; let q := p.seq;
      d.stopped = false ∧
      (q.inflight.find? fun x => x.issued && x.open_ == 0 && x.fault.isNone && q.waitRelease != some x.fid) = some tFlight ∧
      recBit tFlight.record 56 = true ∧ tokOf p (recHdr tFlight.record 55 52) < 2 ^ 32 - 1) ∧
    (let x : InFlight := { tFlight with fault := some (0, .recvLong) };
      let d := (tSeq [] fun q => { q with inflight := [x] }).mod.dev; let q := (d.plot 0).seq;
      d.stopped = false ∧ q.inflight.find? (·.fault.isSome) = some x ∧ x.fault = some (0, .recvLong)) ∧
    (let d := (tSeq [] fun q => { q with waitHalf := true, entry := 1024, halfB := .ready }).mod.dev; let q := (d.plot 0).seq;
      d.stopped = false ∧ q.waitHalf = true ∧ halfSt q (halfOf q.entry) = .ready) := by
  decide +kernel

/-- An execution that the sequencer itself carries out. -/
def tOwn (e : Exec) (f : Dev → Dev := id) : State := tDev fun d => f (d.modPlot 0 fun p => { p with seq := { p.seq with own := some e } })

/-- SequencerOwnFurrows: IDLE; SIGNAL to a counter at its last increment before saturation, to another plot, to a dependency slot;
MILESTONE. -/
theorem witness_SequencerOwnFurrows :
    (let e := tExec (tRec 0 0 0 0 0 0); let s := tOwn e;
      s.mod.dev.stopped = false ∧ (s.mod.dev.plot 0).seq.own = some e ∧ recOpc e.record = 0) ∧
    (let e := tExec (tRec 10 0 0 0 0 (0xFFFF + 15 * 2 ^ 16)); let s := tOwn e;
      s.mod.dev.stopped = false ∧ (s.mod.dev.plot 0).seq.own = some e ∧ recOpc e.record = 10 ∧ ctrlBits e.record 33 32 = 0 ∧
        tokOf (s.mod.dev.plot 0) (ctrlBits e.record 19 16) + ctrlBits e.record 15 0 < 2 ^ 32) ∧
    (let e := tExec (tRec 10 0 0 0 0 (1 + 4095 * 2 ^ 20 + 2 ^ 32)); let s := tOwn e;
      s.mod.dev.stopped = false ∧ (s.mod.dev.plot 0).seq.own = some e ∧ recOpc e.record = 10 ∧ ctrlBits e.record 33 32 = 1) ∧
    (let e := tExec (tRec 10 0 0 0 0 (1 + 2 ^ 33));
      let s := tOwn e fun d => { d with work := { d.work with slots := [(0, ⟨2, none⟩)] } };
      s.mod.dev.stopped = false ∧ (s.mod.dev.plot 0).seq.own = some e ∧ recOpc e.record = 10 ∧ ctrlBits e.record 33 32 = 2 ∧
        kfind s.mod.dev.work.slots (ctrlBits e.record 31 20 + 4096 * ctrlBits e.record 19 16) = some ⟨2, none⟩ ∧
        ctrlBits e.record 15 0 < 2) ∧
    (let e := tExec (tRec 14 0 0 0 0 0); let s := tOwn e;
      s.mod.dev.stopped = false ∧ (s.mod.dev.plot 0).seq.own = some e ∧ recOpc e.record = 14 ∧ logicalOf s.mod.dev.base 0 = some 0) := by
  decide +kernel

/-- A SEND of 64 bytes to logical plot 1, channel 0; plot 1 is physical plot 1. -/
def tSend : Exec := tExec (tRec 7 (2 ^ 60) 0 0 0 (64 + 2 ^ 16))
/-- A RECV of at most 64 bytes from channel 0. -/
def tRecv : Exec := tExec (tRec 8 (2 ^ 60) (2 ^ 60 + 0x40) 0 0 64)
/-- A message of one byte from logical plot 1. -/
def tMsg : Msg := ⟨1, 0, [0xAA]⟩

/-- MessagesTravel: one command of each, between logical plots 0 and 1. -/
theorem witness_MessagesTravel :
    (let s := tPlot fun p => { p with sendQ := [tSend] }; let d := s.mod.dev;
      d.stopped = false ∧ (d.plot 0).sendQ.head? = some tSend ∧
        (readOpd s.mod 0 tSend 0 0 (ctrlBits tSend.record 12 0)).toBool = true ∧ ctrlBits tSend.record 29 28 = 0 ∧
        physOf d.base (ctrlBits tSend.record 27 16) = some 1 ∧ (chanOf (d.plot 1) (ctrlBits tSend.record 15 13)).holder = none ∧
        (d.plot 1).remapping = false) ∧
    (let d := (tPlot fun p => { p with sent := [.msg 1 7 tMsg 0] }).mod.dev;
      d.stopped = false ∧ physOf d.base 0 = some 0 ∧ physOf d.base 1 = some 1 ∧ (d.plot 0).sent = .msg 1 7 tMsg 0 :: [] ∧
        (chanOf (d.plot 1) 7).msg = none) ∧
    (let s := tPlot fun p => setChan { p with recvQ := [tRecv] } 0 ⟨some tMsg, some 1, []⟩; let d := s.mod.dev;
      d.stopped = false ∧ (d.plot 0).recvQ.head? = some tRecv ∧ (chanOf (d.plot 0) (ctrlBits tRecv.record 15 13)).msg = some tMsg ∧
        tMsg.data.length ≤ ctrlBits tRecv.record 12 0 ∧
        ∃ m1, writeOpd s.mod 0 tRecv 0 0 tMsg.data = .ok m1 ∧
          ∃ m2, writeOpd m1 0 tRecv 1 0 (leBytes 2 tMsg.src ++ leBytes 2 tMsg.data.length ++ leBytes 1 tMsg.cls ++ zeros 11) = .ok m2) ∧
    (let d := (tPlot fun p => setChan p 0 ⟨none, some 1, [2]⟩).mod.dev;
      d.stopped = false ∧ physOf d.base 0 = some 0 ∧ (chanOf (d.plot 0) 0).msg = none ∧ (d.plot 0).remapping = false ∧
        (chanOf (d.plot 0) 0).holder = some 1 ∧ physOf d.base 1 = some 1 ∧ (d.plot 1).sent = []) ∧
    (let d := (tPlot fun p => { p with sent := [.signal 1 15 0xFFFF 0] }).mod.dev;
      d.stopped = false ∧ physOf d.base 0 = some 0 ∧ physOf d.base 1 = some 1 ∧ firstSignal (d.plot 0) 1 = some (15, 0xFFFF, 0) ∧
        earlierSend (d.plot 0) 1 0 = false ∧ tokOf (d.plot 1) 15 + 0xFFFF < 2 ^ 32) := by
  refine ⟨by decide +kernel, by decide +kernel, ⟨by decide +kernel, by decide +kernel, by decide +kernel, by decide +kernel, ok_bind (by decide +kernel)⟩,
    by decide +kernel, by decide +kernel⟩

/-- A block of the forward phase of step 0, whose completion decrements slot 0. -/
def tBlock : Block := ⟨0, 0, 0, 0, 1, false, false, none, 0, 0, some 0, 1⟩
/-- A work queue that holds it. -/
def tWork (f : WorkState → WorkState) : State := tDev fun d => { d with work := f d.work }

/-- Some list holds all numbers below one. -/
theorem all_listed (n : Nat) : ∃ ls : List Nat, ∀ l, l < n → l ∈ ls := ⟨List.range n, fun _ h => List.mem_range.2 h⟩

/-- The join of WorkIsGrantedJoinedAndRemapped: a module that runs, where every logical plot has issued its PHASE furrow. -/
theorem witness_WorkIsGrantedJoinedAndRemapped_join : ∃ ls : List Nat,
    let d : Dev := { tUp with work := { WorkState.reset with phaseIssued := ls } };
    d.stopped = false ∧ schedUp d = true ∧ d.work.joined = false ∧ (d.work.granted.all fun g => g.2.backward) = true ∧
      (∀ l, l < 4096 → physOf d.base l ≠ none → isExpress d.base l = false → l ∈ d.work.phaseIssued) ∧
      cfgFabMsCfgPhasejob d.base = 0 := by
  have h : ∀ ls : List Nat, (∀ l, l < 4096 → l ∈ ls) →
      let d : Dev := { tUp with work := { WorkState.reset with phaseIssued := ls } };
      d.stopped = false ∧ schedUp d = true ∧ d.work.joined = false ∧ (d.work.granted.all fun g => g.2.backward) = true ∧
        (∀ l, l < 4096 → physOf d.base l ≠ none → isExpress d.base l = false → l ∈ d.work.phaseIssued) ∧
        cfgFabMsCfgPhasejob d.base = 0 :=
    fun ls h => ⟨rfl, (show schedUp tUp = true by decide +kernel), rfl, rfl, fun l hl _ _ => h l hl,
      (show cfgFabMsCfgPhasejob tUp.base = 0 by decide +kernel)⟩
  obtain ⟨ls, hl⟩ := all_listed 4096
  exact ⟨ls, h ls hl⟩

/-- WorkIsGrantedJoinedAndRemapped: a plot that waits in FWORK, a block that has run, every training plot at its PHASE furrow, a
fallow plot with a spare to go to. -/
theorem witness_WorkIsGrantedJoinedAndRemapped :
    (let d := ((tThread [] id fun h => { h with park := .fwork 5 }).mod.dev).onWork fun w =>
        { w with waiting := [(0, 0)], queue := [tBlock] };
      d.stopped = false ∧ physOf d.base 0 = some 0 ∧ d.work.waiting.find? (fun x => x.1 = 0) = some (0, 0) ∧
        isExpress d.base 0 = false ∧ grantHeld d 0 = false ∧ (d.plot 0).remapping = false ∧ (healthOf d 0).owes = false ∧
        (healthOf d 0).borrowed = false ∧ pickBlock d.work 0 = some tBlock ∧ (threadOf (d.plot 0) 0).park = .fwork 5) ∧
    (let d := ((tPlot fun p => { p with blocks := [(0, 0)] }).mod.dev).onWork fun w =>
        { w with granted := [(0, tBlock)], slots := [(0, ⟨2, none⟩)], left := 1 };
      d.stopped = false ∧ physOf d.base 0 = some 0 ∧ d.work.granted.find? (fun g => g.1 = 0) = some (0, tBlock) ∧ (d.plot 0).blocks = (0, 0) :: [] ∧
        furrowsDone (d.plot 0).seq 0 = true ∧ tBlock.doneSlot = some 0 ∧ kfind d.work.slots 0 = some ⟨2, none⟩ ∧ tBlock.doneInc < 2) := by
  decide +kernel

/-- The remap of WorkIsGrantedJoinedAndRemapped: logical plot 0 fallow, the one spare of its die not retired in column 16. -/
theorem witness_WorkIsGrantedJoinedAndRemapped_remap :
    (let d := (tOn fun d => modHealth (d.modPlot 0 fun p => { p with remapping := true }) 0 fun h => { h with fallow := true }).mod.dev;
      let d := d.onBase fun b => { b with
        regs := (List.range 32).map fun i => (0x501000 + 8 * i, if i = 0 then 0x3FFFEFFFF else 0x3FFFFFFFF) };
      d.stopped = false ∧ physOf d.base 0 = some 0 ∧ (healthOf d 0).fallow = true ∧ (d.plot 0).blocks = [] ∧ qcUp d 0 = true ∧
        (d.plot 0).remapping = true ∧ spareFor d 0 = some 16) := by
  decide +kernel

/-- RowReadsAnswer: the row at EXTENT, a cold row, a hot row whose record passes its FPRINT, a previous version that nothing needs. -/
theorem witness_RowReadsAnswer :
    (let m := (tTab tTdesc id).mod;
      m.dev.stopped = false ∧ tdescAt m 0 = some tTdesc ∧ rowHeld m tTdesc 3 = false ∧ (tTdesc.verAt 0).extent ≤ 3 ∧
        rowHeld m tTdesc 1 = false ∧ 1 < (tTdesc.verAt 0).extent ∧ (rowEnt m (tTdesc.verAt 0).rowmap 1).tier = .cold ∧
        rowHeld m tTdesc 0 = false ∧ (rowEnt m (tTdesc.verAt 0).rowmap 0).tier ≠ .cold ∧
        (verifyHome m tTdesc (tTdesc.verAt 0) 0).isSome = true) ∧
    (let t := { tTdesc with prevValid := true }; let m := (tTab t id).mod;
      m.dev.stopped = false ∧ tdescAt m 0 = some t ∧ rowHeld m t 0 = false ∧ t.prevValid = true ∧ t.pinPrev = 0 ∧
        (m.dev.tab.pins.any fun p => p.table = 0 && p.version = t.prevVersion) = false ∧
        stepNewer (BitVec.ofNat 32 t.switchStep) m.dev.base.cleared = false ∧ noWarmLeft m.dev t = true) := by
  decide +kernel

/-- A module whose coalescer of row 0 of table 0 is as given. -/
def tCoal (x : Coal) : Dev := Dev.reset.onTab fun t => { t with coal := [(coalOf 0 0, x)] }

/-- CoalescersCount: a key one below its end, a new key, a coalescer that passes keys through, an empty one. -/
theorem witness_CoalescersCount :
    (let x : Coal := ⟨5, [(0, 0xFFFFFFFE)], [], [], false⟩; let d := tCoal x;
      d.stopped = false ∧ coalAt d (coalOf 0 0) = x ∧ x.step = 5 ∧ x.passing = false ∧ kfind x.window (rowKey 0 0) = some 0xFFFFFFFE) ∧
    (let x : Coal := ⟨5, [], [], [], false⟩; let d := tCoal x;
      d.stopped = false ∧ coalAt d (coalOf 0 0) = x ∧ kfind x.window (rowKey 0 0) = none ∧ x.window.length < 16384) ∧
    (let x : Coal := ⟨5, [], [], [], true⟩; let d := tCoal x;
      d.stopped = false ∧ coalAt d (coalOf 0 0) = x ∧ x.step = 5 ∧ x.passing = true ∧ (coalAt d 15).runs = []) := by
  decide +kernel

/-- The full window of CoalescersCount: 16,384 keys, none of them row 0's, and a spill area with room for them. -/
theorem witness_CoalescersCount_full : ∃ w : KMap Nat,
    let d := tCoal ⟨5, w, [], [], false⟩;
    d.stopped = false ∧ (coalAt d (coalOf 0 0)).window = w ∧ kfind w (rowKey 0 0) = none ∧ 16384 ≤ w.length ∧
      16 * (spilled d (coalOf 0 0) + w.length) ≤ cfgTierCoalCfgSpill d.base * miB := by
  have h : ∀ n : Nat, ∃ w : KMap Nat, w.length = n ∧ kfind w 0 = none := by
    intro n
    induction n with
    | zero => exact ⟨[], rfl, rfl⟩
    | succ n ih =>
      obtain ⟨w, h1, h2⟩ := ih
      exact ⟨(1, 1) :: w, by simp [h1], by simpa [kfind] using h2⟩
  obtain ⟨w, hl, hf⟩ := h 16384
  have hs : spilled (tCoal ⟨5, w, [], [], false⟩) (coalOf 0 0) = 0 := by
    simp only [spilled, coalAt, tCoal, Dev.onTab, kget, kfind]
    rw [show coalOf 0 0 = 10 by decide +kernel]
    simp [List.range, List.range.loop, sumNat, Coal.reset]
  refine ⟨w, rfl, ?_, hf, by omega, ?_⟩
  · simp [coalAt, tCoal, Dev.onTab, kget, kfind]
  · rw [hs, hl]
    show 16 * (0 + 16384) ≤ cfgTierCoalCfgSpill Dev.reset.base * miB
    decide +kernel

/-- A module but for a change of its tiers. -/
def tTier (f : TierState → TierState) : Dev := Dev.reset.onTier f
/-- The ledger entry of row 0 of table 0 where it lies in a slot. -/
def tSlot : Slot := ⟨0, 0, 1, 3, false, none⟩

/-- MemoryErrorsCount: every channel in its first hour, an execution that meets an uncorrectable HBM error, a warm record, a scrub. -/
theorem witness_MemoryErrorsCount :
    (let d := Dev.reset;
      d.stopped = false ∧ (hpcOf d.tier 11 63).hour = hourOf d.base ∧ (hpcOf d.tier 11 63).period = periodOf d.base ∧
        (ddrOf d.tier 15).hour = hourOf d.base ∧ (ddrOf d.tier 15).period = periodOf d.base ∧
        kfind d.tier.slots (d.tier.scrubHot / 64) = none ∧ 0 < 1) ∧
    (let d := Dev.reset.modPlot 4351 fun p => { p with dmaQ := [tMove] };
      d.stopped = false ∧ daPlace (0xFFFFFFFFFF#56).toNat = .hot 3 0x3FFFFFFFFF ∧
        (d.tier.slots.find? fun s => s.1 ≤ (0xFFFFFFFFFF#56).toNat / 64 ∧ (0xFFFFFFFFFF#56).toNat / 64 < s.1 + s.2.gran) = none ∧
        (d.plot 4351).dmaQ = tMove :: []) ∧
    (let d := tTier fun t => { t with slots := [(0x4000000000, tSlot)] };
      d.stopped = false ∧ daPlace (0x1000000000BF#56).toNat = .warm 0 0xBF ∧ tSlot.copy = false ∧
        (d.tier.slots.find? fun s => s.1 ≤ (0x1000000000BF#56).toNat / 64 ∧ (0x1000000000BF#56).toNat / 64 < s.1 + s.2.gran)
          = some (0x4000000000, tSlot)) := by
  decide +kernel

/-- MemoryUnitsRepaired: a row at ROWCE, a worn pseudo-channel with and without a spare of its stack, a fallow one under test, a lost
one, a channel past PCCE, an extent with room on another channel. -/
theorem witness_MemoryUnitsRepaired :
    (let d := tTier fun t => { t with hpc := [(0, { Hpc.reset with rowCe := [(9, 4)] })] };
      d.stopped = false ∧ cfgTierRasCfgRowce d.base ≤ kget 0 (hpcOf d.tier 0 0).rowCe 9 ∧ 9 ∉ (hpcOf d.tier 0 0).soft) ∧
    (let d := Dev.reset;
      d.stopped = false ∧ stackSpare d.tier 11 = some 62 ∧ 61 ∈ stackMap d.tier 11 ∧ hpcWorn d 11 61 true = true ∧
        3 < d.tier.dieP 3 ∧ slotsIn d.tier 3 = [] ∧ (stackMap d.tier 11).Nodup) ∧
    (let d := tTier fun t => { t with hpc := [(62, { Hpc.reset with fallow := true }), (63, { Hpc.reset with fallow := true })] };
      d.stopped = false ∧ (hpcOf d.tier 0 63).fallow = true ∧ kfind d.tier.reform 0 = none ∧ stackSpare d.tier 0 = none ∧
        0 ∈ stackMap d.tier 0 ∧ hpcWorn d 0 0 true = true ∧ 3 < d.tier.dieP 0) ∧
    (let d := tTier fun t => { t with ddr := [(15, { Ddr.reset with st := .inService, ce := 65 })] };
      d.stopped = false ∧ (ddrOf d.tier 15).st = .inService ∧ cfgTierRasCfgPcce d.base < (ddrOf d.tier 15).ce ∧
        (ddrOf d.tier 15).hour = hourOf d.base ∧ (d.tier.evacs.any fun e => e.kind = 1 && e.unit = 15) = false) ∧
    (let d := tTier fun t => { t with backedCh := [(0, 1)], capCh := 1, startCh := [(0, [0])]
                                      ddr := [(1, { Ddr.reset with st := .inService })] };
      d.stopped = false ∧ 63 < extentCount d.tier 0 ∧ (ddrOf d.tier 1).st = .inService ∧ extentChan d.tier 0 63 ≠ 1 ∧
        ((extentsOn d.tier 0 1).map (extentPlace d.tier 0)).length < d.tier.capCh * 64 ∧ d.tier.capCh * 64 ≤ 2 ^ 20) := by
  decide +kernel

/-- Bay 3 holds a cartridge in service of 100 erase blocks. -/
def tCart (f : Cart → Cart) : Dev := tTier fun t => { t with carts := [(3, f { Cart.reset with st := .inService, blocks := 100 })] }

/-- FlashKeeps: the block being filled, a free one, a spread one past WLDELTA, a full block, too few free blocks, an uncorrectable page,
a cartridge with no records. -/
theorem witness_FlashKeeps :
    (let d := tCart fun c => { c with opened := some 7 }; let c := cartOf d.tier 3;
      d.stopped = false ∧ c.st = .inService ∧ c.opened = some 7) ∧
    (let d := tCart id; let c := cartOf d.tier 3;
      d.stopped = false ∧ c.st = .inService ∧ c.opened = none ∧ c.leastWorn = some 0 ∧ d.tier.moves = [] ∧
        (d.tier.cold.filter fun x => coldBay x.1 = 3) = []) ∧
    (let d := tCart fun c => { c with erases := [(0, 201)], full := [(1, 0)] }; let c := cartOf d.tier 3;
      d.stopped = false ∧ cfgFlsFtlCfgWldelta d.base < c.spread ∧ minBy (fun x => kget 0 c.erases x) (c.full.map (·.1)) = some 1 ∧
        (c.empty 1).isSome = true ∧ kfind c.full 1 = some 0) ∧
    (let d := tCart fun c => { c with retired := List.range 98, full := [(98, 0)] }; let c := cartOf d.tier 3;
      d.stopped = false ∧ 1000 * c.freeBlocks.length < cfgFlsFtlCfgGclow d.base * c.blocks ∧
        minBy (fun x => c.validIn x) (c.full.map (·.1)) = some 98 ∧ (c.empty 98).isSome = true) := by
  decide +kernel

/-- Table 0 beside a change of the tiers; its row 2 lies in warm tier. -/
def tRows (f : TierState → TierState) (b : BaseState → BaseState := id) : Mod :=
  (tTab { tTdesc with policy := 4 } fun d => (d.onTier f).onBase b).mod.putRow 0x40000 2 ⟨.warm, 0, false, 0x4000000000⟩
/-- The descriptor of that table. -/
def tRowsDesc : TDesc := { tTdesc with policy := 4 }
/-- A move of row 2 to the hot tier that has been written. -/
def tMv : Move := ⟨0, 2, false, .hot, 0, some 0x40000000, true, 0, 0, false, false⟩
/-- A pool of die 0 with nothing FREE: 3.375 GiB of HBM in service, of which 3 GiB soft band, and no soft band of the warm tier. -/
def tShort (t : TierState) : TierState := { t with started := true, lostPc := [(0, 183)], backedCh := [(0, 1)], capCh := 1 }
/-- The soft bands of `tShort`. -/
def tSoft (b : BaseState) : BaseState := { b with regs := [(0x300210, 3)] }

/-- RowsMove: a demanded promotion, a move to write, a move to switch whose source has and has not changed, a failed one, a request
without a move. -/
theorem witness_RowsMove :
    (let m := tRows fun t => { t with promote := [⟨0, 1, .warm, true⟩] }; let e := rowEnt m 0x40000 1;
      m.dev.stopped = false ∧ tdescAt m 0 = some tRowsDesc ∧ (heldPool m.dev).isSome = false ∧ moveOf m.dev 0 1 = none ∧ e.state = 0 ∧
        e.tier = .cold ∧ wantedMove m tRowsDesc 1 = some .warm ∧ rowHeld m tRowsDesc 1 = false) ∧
    (let x : Move := { tMv with row := 0, target := .warm, written := false, retried := true }; let m := tRows fun t => { t with moves := [x] };
      m.dev.stopped = false ∧ tdescAt m 0 = some tRowsDesc ∧ (heldPool m.dev).isSome = false ∧ moveOf m.dev 0 0 = some x ∧
        x.written = false ∧ x.dst = some 0x40000000 ∧ (rowEnt m 0x40000 0).near = true ∧
        (verifyHome m tRowsDesc tRowsDesc.curVer 0).isSome = true ∧ x.retried = true) ∧
    (let m := tRows fun t => { t with moves := [tMv], slots := [(0x40000000, { tSlot with row := 2 })] }; let e := rowEnt m 0x40000 2;
      m.dev.stopped = false ∧ tdescAt m 0 = some tRowsDesc ∧ (heldPool m.dev).isSome = false ∧ moveOf m.dev 0 2 = some tMv ∧
        m.dev.sow.app = none ∧ e.tier = .warm ∧
        (m.dev.sow.grads.any fun g => g.table = tRowsDesc.id && g.row = 2 && g.iaq.isSome && g.applied.isNone) = false ∧
        recTag (recordOf m e 1) = tMv.tag ∧ recFprint (recordOf m e 1) = tMv.fprint.toNat ∧ cfgTierMirrorCfgEn m.dev.base = 1 ∧
        kfind m.dev.tier.slots 0x40000000 = some { tSlot with row := 2 } ∧ 0x40000000 ≠ e.loc) ∧
    (let x : Move := { tMv with tag := 1, target := .cold }; let m := tRows fun t => { t with moves := [x] };
      m.dev.stopped = false ∧ moveOf m.dev 0 2 = some x ∧ x.written = true ∧ m.dev.sow.app = none ∧ x.target ≠ .hot ∧
        recTag (recordOf m (rowEnt m 0x40000 2) 1) ≠ x.tag) := by
  decide +kernel

/-- The eviction and the cleaner of RowsMove: a pool of 192 pages with none FREE and one record, and a hot record older than its home's
copy. -/
theorem witness_RowsMove_evict :
    (let m := tRows (fun t => tShort { t with evicting := [0], slots := [(0x2000, tSlot)] }) tSoft; let d := m.dev;
      d.stopped = false ∧ (heldPool d).isSome = false ∧ poolBelow d.base d.tier 0 (cfgTierWmCfgHotlow d.base) = true ∧
        0 < (poolSpan d.base d.tier 0).2 ∧ d.tier.evicting = [0] ∧ (findVictim m false 1 (slotsIn d.tier 0)).isSome = true ∧
        (slotsIn d.tier 0).length = 1 ∧ kget 0 d.tier.hand 0 = 0) ∧
    (let sl : Slot := { tSlot with warm := some 0x4000000003 };
      let m := (tRows fun t => { t with slots := [(0x2000, sl)] }).store 0x80000 [1]; let d := m.dev;
      d.stopped = false ∧ cfgTierMirrorCfgEn d.base = 1 ∧ cfgTierMirrorCfgBudget d.base ≠ 0 ∧ d.sow.app = none ∧
        minBy (fun x : Nat × Slot => estimate d x.2.table x.2.row) ((d.tier.slots.filter fun x => !x.2.copy && (match daPlace (64 * x.1) with
          | .hot _ _ => true
          | _ => false)).filter fun x => match x.2.warm with
          | none => true
          | some l => recTag (m.load (64 * l) 64) ≠ recTag (m.load (64 * x.1) 64)) = some (0x2000, sl)) := by
  decide +kernel

/-- A record of row 2 of table 0 outside the hot and warm tiers, its tag 0. -/
def tFar : ColdRec := ⟨{ tSlot with row := 2 }, zeros 192⟩

/-- LoansTagsAndRebuild: a loan that is being revoked, a lender over its limit while warm tier is short, an old tag on a cartridge. -/
theorem witness_LoansTagsAndRebuild :
    (let d := tTier fun t => { t with windows := [(15, ⟨1, 2, 3, 0, none⟩)] };
      d.stopped = false ∧ kfind d.tier.windows 15 = some ⟨1, 2, 3, 0, none⟩) ∧
    (let m := tRows (fun t => tShort { t with windows := [(0, ⟨1, 2, 3, 0, none⟩)], lent := [(2 ^ 46, tFar)] }) tSoft; let d := m.dev;
      d.stopped = false ∧ kfind d.tier.windows 0 = some ⟨1, 2, 3, 0, none⟩ ∧ warmShort d.base d.tier = true ∧
        lentIn d.tier 0 = [(2 ^ 46, tFar)] ∧ lentLimit d.base d.tier < lentGrans d.tier 2 ∧
        slotVer m tFar.slot = some (tRowsDesc, tRowsDesc.curVer) ∧ tRowsDesc.allowCold = true) ∧
    (let m := tRows (fun t => { t with cold := [(64, tFar)] }) fun b => { b with applied := 0x20000001 }; let d := m.dev;
      d.stopped = false ∧ kfind d.tier.cold 64 = some tFar ∧ slotVer m tFar.slot = some (tRowsDesc, tRowsDesc.curVer) ∧
        tagStale d tRowsDesc.curVer tFar.data = true) := by
  decide +kernel

/-- RecalibrationEvacuationReturn: a pin two taps off centre, a pin under MINMARGIN, an evacuation of pseudo-channel 0, a DIMM that
returns to socket 15. -/
theorem witness_RecalibrationEvacuationReturn :
    (let d := tTier fun t => { t with pins := [(3, ⟨2, 4, 0⟩)] };
      d.stopped = false ∧ cfgTierCalCfgEn d.base ≠ 0 ∧ kfind d.tier.pins 3 = some ⟨2, 4, 0⟩ ∧ 2 + 2 ≤ 4 ∧
        min 2 4 < cfgTierCalCfgMinmargin d.base) ∧
    (let d := tTier fun t => { t with evacs := [⟨0, 0, none⟩] };
      d.stopped = false ∧ d.tier.evacs = [⟨0, 0, none⟩] ∧ 0 % 64 ∈ stackMap d.tier 0 ∧ stackSpare d.tier 0 = some 62) ∧
    (let d := (tTier fun t => { t with ddr := [(15, { Ddr.reset with st := .returning })], capCh := 64 }).onHw fun h =>
        { h with found := [(15, 64, true)] };
      d.stopped = false ∧ slotSt d 15 = .returning ∧ d.hw.found = [(15, 64, true)] ∧ d.tier.capCh ≠ 0) := by
  decide +kernel

/-- The step that runs is 5, STAGED in its first attempt. -/
def tStep (s : StepState) : StepState := { s with cur := some 5, steps := [⟨5, 0, .staged, none, 0⟩] }
/-- An entry of the gradient stage for row 0 of table 0 that has had no contribution yet. -/
def tStage : StageEntry := ⟨0, 0, none, List.replicate 32 Wide.zero, false⟩
/-- Table 0 with a record of one granule: 32 columns of E2M1. -/
def tSmall : TDesc := { tTdesc with fmt := 7, granG := 1, granRec := 1 }
/-- Region 0 holds an entry of step 5 for row 0, whose home then fails FPRINT. -/
def tTorn : Mod :=
  let m := (tTab tSmall fun d => d.onSow fun x => { x with app := some 5 }).mod
  match appendEntry m 0 ⟨5, 5, 0, 0, 0x80000, 1, jkUpdate, false, 0, some (m.load 0x80000 64), []⟩ with
  | .ok (_, m2) => m2.store 0x80000 [1]
  | .error m2 => m2

/-- StagesCloseAndWritersRecover: a stage with one entry, a milestone that may start with and without a group area, a region that holds
nothing, a home that fails FPRINT. -/
theorem witness_StagesCloseAndWritersRecover :
    (let m := (tTab tTdesc fun d => (d.onMs tStep).onSow fun x => { x with stage := [tStage] }).mod; let d := m.dev;
      d.stopped = false ∧ cfgFabMsCfgNmod d.base = 0 ∧ d.ms.cur = some 5 ∧ d.sow.closed ≠ some 5 ∧ d.sow.stage = [tStage] ∧
        tStage.inexact = false ∧ tdescAt m 0 = some tTdesc ∧ rowEngine m tTdesc (tTdesc.gradVer 5) 0 = some 0) ∧
    (let d := Dev.reset.onMs tStep; let m : Mod := ⟨[], d.onSow fun x => { x with noArea := true }⟩;
      m.dev.stopped = false ∧ m.dev.sow.noArea = true ∧ mayApply (stageIfDone m 5) 5 = true) ∧
    (let m : Mod := ⟨[], Dev.reset.onMs tStep⟩;
      m.dev.stopped = false ∧ m.dev.sow.noArea = false ∧ mayApply (stageIfDone m 5) 5 = true) ∧
    (Dev.reset.stopped = false ∧ Dev.reset.sow.app = none ∧ (regionOf ⟨[], Dev.reset⟩ 7).ents = []) ∧
    (let m := tTorn; let e : JEnt := ⟨0, 2, 5, false, 0, 0, false, none⟩; let j := readEntry m 0 0;
      m.dev.stopped = false ∧ m.dev.sow.app = some 5 ∧ (regionOf m 0).ents = [e] ∧ e.mile = false ∧ e.pending = false ∧ e.step = 5 ∧
        tdescAt m e.table = some tSmall ∧ j.good = true ∧ j.oldValid = true ∧
        recGood tSmall (m.load j.home (64 * tSmall.granRec)) = false) := by
  exact ⟨by decide +kernel, by decide +kernel, by decide +kernel, by decide +kernel, by decide +kernel⟩

/-- A gradient of step 5 for a row of table 0. -/
def tGrad (row : Nat) (w : Word32) (iaq : Option Nat) : Grad := ⟨5, 0, row, List.replicate 32 w, iaq, none⟩
/-- Milestone 5 is being applied with that gradient. -/
def tApply (g : Grad) (bank : Option Bank) : Mod :=
  (tTab tTdesc fun d => d.onSow fun x => { x with app := some 5, closed := some 5, grads := [g], bank := bank }).mod.putRow 0x40000 2
    ⟨.warm, 0, false, 0x4000000000⟩

/-- UpdatesAreApplied: a row of die 0 and one of Iaqua 0 with no bank in use, a gradient of NaNs, a gradient of zeros that is applied. -/
theorem witness_UpdatesAreApplied :
    (let g := tGrad 0 0 none; let m := tApply g none; let d := m.dev;
      d.stopped = false ∧ d.sow.app = some 5 ∧ heldPool d ≠ some 0 ∧ dueRows m 5 0 false = [(tTdesc, false, 0)] ∧
        rowGrads d tTdesc false 0 5 = [g] ∧ d.sow.imports = [] ∧ d.tier.refresh = [] ∧ d.sow.bank = none) ∧
    (let g := tGrad 2 0 (some 0); let m := tApply g none; let d := m.dev;
      d.stopped = false ∧ d.sow.app = some 5 ∧ heldPool d ≠ some 4 ∧ dueRows m 5 4 false = [(tTdesc, false, 2)] ∧
        rowGrads d tTdesc false 2 5 = [g] ∧ d.sow.imports = [] ∧ d.tier.refresh = [] ∧ d.sow.bank = none) ∧
    (let g := tGrad 0 0x7FC00000 none; let m := tApply g (some ⟨0, [], 0⟩); let d := m.dev;
      d.stopped = false ∧ d.sow.app = some 5 ∧ heldPool d ≠ some 0 ∧ dueRows m 5 0 false = [(tTdesc, false, 0)] ∧
        rowGrads d tTdesc false 0 5 = [g] ∧ d.sow.imports = [] ∧ d.tier.refresh = [] ∧ tTdesc.freeze = false ∧
        d.sow.bank = some ⟨0, [], 0⟩ ∧ recFrozen (recordOf m (rowEnt m 0x40000 0) 1) = false ∧ (groupOf [] (groupNum m tTdesc 0)).mode ≠ 2 ∧
        (groupOf [] (groupNum m tTdesc 0)).nanpol = false ∧ nonFinite g.g = true) ∧
    (let g := tGrad 0 0 none; let m := tApply g (some ⟨0, [], 0⟩); let d := m.dev; let e := rowEnt m 0x40000 0;
      let grp := groupOf [] (groupNum m tTdesc 0); let old := recordOf m e 3;
      d.stopped = false ∧ d.sow.app = some 5 ∧ heldPool d ≠ some 0 ∧ dueRows m 5 0 false = [(tTdesc, false, 0)] ∧
        rowGrads d tTdesc false 0 5 = [g] ∧ d.sow.imports = [] ∧ d.tier.refresh = [] ∧ tTdesc.freeze = false ∧
        d.sow.bank = some ⟨0, [], 0⟩ ∧ recFrozen (recordOf m e 1) = false ∧ nonFinite g.g = false ∧ e.tier = .hot ∧
        openEntry m e = none ∧ recGood tTdesc old = true ∧ shapeMismatch tTdesc grp g.step = false ∧ d.ms.cairns = [] ∧ d.tier.lost = [] ∧
        (appendEntry m (regionOfLoc e.tier e.loc) ⟨5, g.step, 0, 0, 64 * e.loc, 1, jkUpdate, false, groupNum m tTdesc 0, some old,
          (g.g.map fun x => leBytes 4 x.toNat).flatten⟩).toBool = true) := by
  exact ⟨by decide +kernel, by decide +kernel, by decide +kernel, by decide +kernel⟩

/-- A module that runs in step 5, whose blocks have ended. -/
def tJob (f : StepState → StepState) (g : Dev → Dev := id) : State :=
  tOn fun d => g ((d.onMs fun s => f (tStep s)).onWork fun w => { w with step := 5 })
/-- A job of two modules, this one its leader. -/
def tTwo (d : Dev) : Dev := d.onBase fun b => { b with regs := [(0x600100, 2 ^ 20)] }
/-- A job with a host leader. -/
def tHostLead (d : Dev) : Dev := d.onBase fun b => { b with regs := [(0x600100, 2 ^ 39)] }
/-- The bytes of a token of step 5, attempt 0. -/
def tTok (type src mark flags cause aux repd : Nat) : BitVec 512 :=
  BitVec.ofNat 512 (leNat (Token.bytes ⟨type, 0, src, 0, 5, BitVec.ofNat 32 mark, flags, cause, aux, repd, 0⟩))
/-- The leader's work for step 5 with some READYs in. -/
def tLead (votes : List Token) : Lead := ⟨5, 0, votes, false, [], [], [], false, false⟩

/-- ReadyIsSentAndDecided: a step with a cause, one whose updates are applied, one that checking holds. -/
theorem witness_ReadyIsSentAndDecided_send :
    (let s := tJob (fun x => { x with steps := [⟨5, 0, .staged, some 2, 0⟩] }); let d := s.mod.dev;
      s.schedules = true ∧ d.ms.cur = some 5 ∧ stepInfo d 5 = some ⟨5, 0, .staged, some 2, 0⟩ ∧ d.ms.halted = false ∧ d.ms.noJob = false ∧
        d.ms.sent ≠ some (5, 0) ∧ blocksDone d 5 = true ∧ leaderOf d = some 0 ∧ nogoCause d 5 = some 2) ∧
    (let s := tJob id fun d => d.onSow fun x => { x with app := some 5, closed := some 5 }; let d := s.mod.dev;
      s.schedules = true ∧ d.ms.cur = some 5 ∧ stepInfo d 5 = some ⟨5, 0, .staged, none, 0⟩ ∧ d.ms.halted = false ∧ d.ms.noJob = false ∧
        d.ms.sent ≠ some (5, 0) ∧ blocksDone d 5 = true ∧ leaderOf d = some 0 ∧ nogoCause d 5 = none ∧ allApplied s.mod 5 = true ∧
        checkHolds d 5 = false) ∧
    (let s := tJob id fun d => tTwo ((d.onSow fun x => { x with app := some 5, closed := some 5 }).onChk fun c =>
        { c with upds := [⟨0, 1, 0, 0, [], none⟩] }); let d := s.mod.dev;
      s.schedules = true ∧ d.ms.cur = some 5 ∧ stepInfo d 5 = some ⟨5, 0, .staged, none, 0⟩ ∧ d.ms.halted = false ∧ d.ms.noJob = false ∧
        d.ms.sent ≠ some (5, 0) ∧ blocksDone d 5 = true ∧ leaderOf d = some 0 ∧ nogoCause d 5 = none ∧ allApplied s.mod 5 = true ∧
        checkHolds d 5 = true ∧ d.chk.heldSaid ≠ some 5) := by
  decide +kernel

/-- A READY that the leader of a job takes for step 5. -/
abbrev tVotes (s : State) (token : BitVec 512) (l : Lead) : Prop :=
  s.schedules = true ∧ s.takes token 1 = true ∧ isLeader s.mod.dev = true ∧ s.mod.dev.ms.lead = some l ∧ l.step = (tokenOf token).step ∧
    l.attempt = (tokenOf token).attempt ∧ l.decided = false ∧ l.deputy = false ∧ l.hold = false ∧ l.asked = [] ∧
    (l.votes.any fun x => x.src = (tokenOf token).src) = false

/-- ReadyIsSentAndDecided: the first of two READYs, then the last one with NOGO, with RBREQ, with another digest, with nothing amiss;
a leader that holds. -/
theorem witness_ReadyIsSentAndDecided_decide :
    (let l := tLead []; let t := tTok 1 1 0 0 0 0 0; let s := tJob (fun x => { x with lead := some l }) tTwo;
      tVotes s t l ∧ (l.votes ++ [tokenOf t]).length < jobSize s.mod.dev) ∧
    (let l := tLead []; let t := tTok 1 0 0 1 2 0 0; let s := tJob fun x => { x with lead := some l };
      tVotes s t l ∧ jobSize s.mod.dev ≤ (l.votes ++ [tokenOf t]).length ∧ firstCause (l.votes ++ [tokenOf t]) = some 2) ∧
    (let l := tLead []; let t := tTok 1 0 0 2 0 3 0; let s := tJob fun x => { x with lead := some l }; let v := l.votes ++ [tokenOf t];
      tVotes s t l ∧ jobSize s.mod.dev ≤ v.length ∧ firstCause v = none ∧
        oldestStep ((v.filter Token.rbreq).map fun t => BitVec.ofNat 32 t.aux) = some 3) ∧
    (let l := tLead [tokenOf (tTok 1 0 0 0 0 0 7)]; let t := tTok 1 1 0 0 0 0 8; let s := tJob (fun x => { x with lead := some l }) tTwo;
      let v := l.votes ++ [tokenOf t];
      tVotes s t l ∧ jobSize s.mod.dev ≤ v.length ∧ firstCause v = none ∧ v.filter Token.rbreq = [] ∧
        1 < (v.map Token.digests).eraseDups.length) ∧
    (let l := tLead []; let t := tTok 1 0 4 0 0 0 7; let s := tJob fun x => { x with lead := some l }; let v := l.votes ++ [tokenOf t];
      tVotes s t l ∧ jobSize s.mod.dev ≤ v.length ∧ firstCause v = none ∧ v.filter Token.rbreq = [] ∧
        (v.map Token.digests).eraseDups.length ≤ 1) ∧
    (let l := { tLead [] with hold := true }; let s := tJob fun x => { x with lead := some l };
      s.schedules = true ∧ s.mod.dev.ms.lead = some l ∧ l.hold = true ∧ l.decided = false) := by
  exact ⟨by decide +kernel, by decide +kernel, by decide +kernel, by decide +kernel, by decide +kernel, by decide +kernel⟩

/-- MissingModulesAreQueried: module 1 of two has sent no READY, has not answered, answers; a QUERY with and without DEPUTY; the walk; a
host leader. -/
theorem witness_MissingModulesAreQueried :
    (let l := tLead [tokenOf (tTok 1 0 0 0 0 0 7)]; let s := tJob (fun x => { x with lead := some l }) tTwo; let d := s.mod.dev;
      s.schedules = true ∧ d.ms.lead = some l ∧ isLeader d = true ∧ l.decided = false ∧ l.deputy = false ∧ l.asked = [] ∧
        missingReady d l = [1]) ∧
    (let l := { tLead [] with asked := [1] }; let s := tJob (fun x => { x with lead := some l }) tTwo; let d := s.mod.dev;
      s.schedules = true ∧ d.ms.lead = some l ∧ l.decided = false ∧ l.asked ≠ [] ∧ l.deputy = false ∧ unanswered l ≠ []) ∧
    (let l := { tLead [] with asked := [1] }; let t := tTok 8 1 0 0 0 0 0; let s := tJob (fun x => { x with lead := some l }) tTwo;
      s.schedules = true ∧ s.takes t 8 = true ∧ s.mod.dev.ms.lead = some l ∧ l.step = (tokenOf t).step ∧
        l.attempt = (tokenOf t).attempt ∧ l.decided = false ∧ l.deputy = false ∧ l.asked = [(tokenOf t).src]) ∧
    (let t := tTok 7 1 0 0 0 0 0; let s := tJob id tTwo; s.schedules = true ∧ s.takes t 7 = true ∧ (tokenOf t).deputy = false) ∧
    (let t := tTok 7 1 0 16 0 0 0; let s := tJob (fun x => { x with leader := some 1 }) tTwo; let d := s.mod.dev;
      s.schedules = true ∧ s.takes t 7 = true ∧ (tokenOf t).deputy = true ∧
        d.ms.took.contains ((tokenOf t).step, (tokenOf t).attempt) = false ∧ leaderOf d ≠ some (cfgFabMsCfgKidx d.base)) ∧
    (let s := tJob (fun x => { x with sent := some (5, 0) }) tTwo; let d := s.mod.dev;
      s.schedules = true ∧ d.ms.sent = some (5, 0) ∧ leaderOf d = some 0 ∧ (0 + 1 + d.ms.walk) % jobSize d ≠ cfgFabMsCfgKidx d.base) ∧
    (let s := tJob (fun x => { x with sent := some (5, 0) }) tHostLead; let d := s.mod.dev;
      s.schedules = true ∧ d.ms.sent = some (5, 0) ∧ leaderOf d = none) := by
  exact ⟨by decide +kernel, by decide +kernel, by decide +kernel, by decide +kernel, by decide +kernel, by decide +kernel, by decide +kernel⟩

/-- The step record of step 5 holds a COMMIT in its DECIDE line. -/
def tDecided : State :=
  let s := tJob (fun x => { x with sent := some (5, 0) }) tHostLead
  { s with mod := s.mod.store (stepRecDa s.mod.dev.base 5 + 192) (leBytes 64 (tTok 2 0 4 0 0 0 0).toNat) }

/-- DecisionsAreActedOn: ABORT, ROLLBACK to a step that may be undone and to one that may not, HOLD, PHASE; DECIDE with a decision and
without one; the token path of a module without a scheduler core. -/
theorem witness_DecisionsAreActedOn :
    (let t := tTok 3 0 0 0 2 0 0; let s := tJob id; let d := s.mod.dev;
      s.takes t 3 = true ∧ stagedIn d (tokenOf t).step (tokenOf t).attempt = true ∧
        d.ms.decided ≠ some ((tokenOf t).step, (tokenOf t).attempt)) ∧
    (let t := tTok 4 0 3 0 9 0 0; let s := tJob id fun d => d.onBase fun b => { b with applied := 4, cleared := 2 }; let d := s.mod.dev;
      s.takes t 4 = true ∧ stagedIn d (tokenOf t).step (tokenOf t).attempt = true ∧ stepNewer (tokenOf t).mark d.base.cleared = true ∧
        stepNewer (tokenOf t).mark d.base.applied = false) ∧
    (let t := tTok 4 0 2 0 9 0 0; let s := tJob id fun d => d.onBase fun b => { b with applied := 4, cleared := 2 }; let d := s.mod.dev;
      s.takes t 4 = true ∧ stagedIn d (tokenOf t).step (tokenOf t).attempt = true ∧ stepNewer (tokenOf t).mark d.base.cleared = false ∧
        d.ms.runs = [] ∧ leaderOf d = some (tokenOf t).src) ∧
    (let t := tTok 5 0 0 0 0 0 0; let s := tJob fun x => { x with sent := some (5, 0), sentFd := true }; let d := s.mod.dev;
      s.takes t 5 = true ∧ d.ms.sent = some ((tokenOf t).step, (tokenOf t).attempt) ∧ d.ms.held = false ∧ leaderOf d = some (tokenOf t).src ∧
        writtenRows s.mod (tokenOf t).step = [] ∧ d.ms.sentFd = true) ∧
    (let t := tTok 6 1 0 0 0 0 0; let s := tJob id fun d => d.onBase fun b => { b with applied := 4 }; let d := s.mod.dev;
      s.takes t 6 = true ∧ d.work.phaseTokens.contains ((tokenOf t).step.toNat, (tokenOf t).src) = false ∧
        stepNewer (d.base.applied + 1) (tokenOf t).step = false) ∧
    (let s := tDecided; let d := s.mod.dev; let b := s.mod.load (stepRecDa d.base 5 + 192) 64;
      s.schedules = true ∧ d.ms.sent = some (5, 0) ∧ leaderOf d = none ∧ fieldAt b 60 4 = crc32c (b.take 60) ∧
        (parseToken b).job = cfgFabMsIdJob d.base ∧ (parseToken b).step = 5 ∧ (parseToken b).attempt = 0 ∧ (parseToken b).type = 2) ∧
    (let s := tJob (fun x => { x with sent := some (5, 0) }) tHostLead; let d := s.mod.dev;
      let b := s.mod.load (stepRecDa d.base 5 + 192) 64;
      s.schedules = true ∧ d.ms.sent = some (5, 0) ∧ leaderOf d = none ∧ fieldAt b 60 4 ≠ crc32c (b.take 60)) ∧
    (let s := tJob id fun d => d.onFw fun w => { w with lost := [2] }; let d := s.mod.dev;
      d.stopped = false ∧ d.fw.lost.contains 2 = true ∧ leaderOf d = some 0 ∧
        discards d (leBytes 64 (tTok 3 0 0 0 0 0 0).toNat) = false ∧ (tokenOf (tTok 3 0 0 0 0 0 0)).type = 3 ∧
        discards d (leBytes 64 (tTok 5 0 0 0 0 0 0).toNat) = false ∧ (tokenOf (tTok 5 0 0 0 0 0 0)).type = 5 ∧
        discards d (leBytes 64 (tTok 7 0 0 0 0 0 0).toNat) = false ∧ (tokenOf (tTok 7 0 0 0 0 0 0)).type = 7) := by
  exact ⟨by decide +kernel, by decide +kernel, by decide +kernel, by decide +kernel, by decide +kernel, by decide +kernel, by decide +kernel,
    by decide +kernel⟩

/-- CommitsRerunsAndRejoins: a re-run with attempts left and without, a re-vote, a GATE that never came, a rejoin, a COMMIT. -/
theorem witness_CommitsRerunsAndRejoins :
    (let s := tJob fun x => { x with rerun := some 5 }; s.schedules = true ∧ s.mod.dev.ms.rerun = some 5 ∧ mustHalt s.mod.dev 5 = false) ∧
    (let s := tJob fun x => { x with rerun := some 5, steps := [⟨5, 0, .aborted, none, 12⟩] };
      s.schedules = true ∧ s.mod.dev.ms.rerun = some 5 ∧ mustHalt s.mod.dev 5 = true) ∧
    (let s := tJob fun x => { x with sent := some (5, 0), held := true }; let d := s.mod.dev;
      s.schedules = true ∧ d.ms.sent = some (5, 0) ∧ d.ms.held = true ∧ d.ms.revoted = false ∧ d.ms.sentFd = false ∧ leaderOf d = some 0) ∧
    (let s := tJob id fun d => d.onBase fun b => { b with regs := [(0x600100, 2 ^ 37)] }; let d := s.mod.dev;
      s.schedules = true ∧ d.ms.cur = some 5 ∧ stepInfo d 5 = some ⟨5, 0, .staged, none, 0⟩ ∧ cfgFabMsCfgClipgate d.base = 1 ∧
        bitOf (stepRecByte s.mod 5 6) 1 = false ∧ blocksDone d 5 = true ∧ d.ms.sent = none ∧ d.ms.noJob = false ∧ leaderOf d = some 0) ∧
    (let s := tJob fun x => { x with rejoinDue := some true }; let d := s.mod.dev;
      s.schedules = true ∧ d.ms.rejoinDue = some true ∧ d.sow.app = none ∧ leaderOf d = some 0 ∧ d.sow.regions = []) ∧
    (let t := tTok 2 0 4 0 0 0 0; let s := tJob id;
      s.takes t 2 = true ∧ stagedIn s.mod.dev (tokenOf t).step (tokenOf t).attempt = true ∧
        s.mod.dev.ms.decided ≠ some ((tokenOf t).step, (tokenOf t).attempt)) := by
  exact ⟨by decide +kernel, by decide +kernel, by decide +kernel, by decide +kernel, by decide +kernel, by decide +kernel⟩

/-- An open cairn of step 5 over table 0. -/
def tCairn : Cairn := ⟨5, 0, 0, 0, 0, 0, 1, [tTdesc.bytes], [], [], [], [], 9, true, [], [], 0, none, false⟩
/-- A module that holds one cairn. -/
def tCairns (c : Cairn) (f : Dev → Dev := id) : Mod := ⟨[], f ((Dev.reset.onMs fun s => { tStep s with cairns := [c] }).onWork fun w => { w with step := 5 })⟩

/-- CairnsAreSweptAndSealed: the sweep at row 2 of table 0, a dense region that fits and one that does not, a VOID cairn, one that may be
sealed. -/
theorem witness_CairnsAreSweptAndSealed :
    (let c := { tCairn with sweep := some 2 }; let d := (tCairns c).dev;
      d.stopped = false ∧ openCairn d 5 = some c ∧ c.begun = true ∧ c.cow = [] ∧ c.sweep = some 2 ∧ sweepAt c 2 = some (tTdesc, 2) ∧
        rowKey tTdesc.id 2 ∉ c.bits) ∧
    (let c := { tCairn with begun := false, denseDue := [(0, 64)] }; let d := (tCairns c).dev;
      d.stopped = false ∧ openCairn d 5 = some c ∧ c.begun = false ∧ d.ms.cur = some 5 ∧ blocksDone d 5 = true ∧ c.denseDue ≠ [] ∧
        c.cowBytes + sumNat (c.denseDue.map (·.2)) ≤ cfgFlsCairnCfgCowbuf d.base * giB) ∧
    (let c := { tCairn with begun := false, denseDue := [(0, 2 ^ 40)] }; let d := (tCairns c).dev;
      d.stopped = false ∧ openCairn d 5 = some c ∧ c.begun = false ∧ d.ms.cur = some 5 ∧ blocksDone d 5 = true ∧ c.denseDue ≠ [] ∧
        cfgFlsCairnCfgCowbuf d.base * giB < c.cowBytes + sumNat (c.denseDue.map (·.2))) ∧
    (let c := { tCairn with state := 2 }; let d := (tCairns c).dev;
      d.stopped = false ∧ (d.ms.cairns.find? fun c => c.step = 5 && c.role = 0 && (c.state = 2 || (c.state = 0 && c.pastReset))) = some c ∧
        c.state = 2 ∧ c.pastReset = false) ∧
    (let c := tCairn; let d := (tCairns c fun d => d.onBase fun b => { b with cleared := 5 }).dev;
      d.stopped = false ∧ openCairn d 5 = some c ∧ c.begun = true ∧ c.cow = [] ∧ c.sweep = none ∧ c.denseDue = [] ∧
        stepNewer 5 d.base.cleared = false ∧ (cfgFlsCairnCfgMirror d.base = 0 ∨ true = true) ∧
        (d.ms.cairns.filter fun x => x.state = 1 && x.role = 0).length < cfgFlsCairnCfgKeep d.base ∧ d.ms.cairns.count c = 1) := by
  exact ⟨by decide +kernel, by decide +kernel, by decide +kernel, by decide +kernel, by decide +kernel⟩

/-- A sample of plot 0's furrow 3, whose replay plot is 5. -/
def tSample (f : Sample → Sample := id) : Sample := f ⟨0, 0, 7, 3, 2, 0, none, [], 5, none, 9, none, none, .replay⟩
/-- A pack of one plot case that fits a CAL slot. -/
def tPack : Pack := ⟨1, 0, [⟨4, 0, true, 0, 0, 0, [], 0⟩], 0⟩
/-- A running module that has the sample, and the pack where wanted. -/
def tVote (f : Sample → Sample) (pack : Option Pack) (g : Dev → Dev := id) : State :=
  tOn fun d => g (d.onChk fun k => { k with samples := [tSample f], pack := pack })

/-- Plot 16 is a spare of the map at reset. -/
theorem spare_unmapped : logicalOf BaseState.reset 16 = none := by decide +kernel

/-- So it is wherever the shared state is as at reset. -/
theorem spare_of_base (b : BaseState) (h : b = BaseState.reset) : logicalOf b 16 = none := by
  rw [h]; exact spare_unmapped

/-- With the smallest NEXP, a quadrant onto which no express logical plot is mapped holds no express plot. -/
theorem no_express (b : BaseState) (q : Nat) (hN : cfgHifExpressCfgNexp b = 16)
    (h : ∀ k < 16, (match physOf b (256 * k + 255) with | some i => decide (4 * instDie i + instQuad i ≠ q) | none => true) = true) :
    ((quadPlots q).filter fun i => expressAt b i) = [] := by
  rw [List.filter_eq_nil_iff]
  intro i hi
  have hq : 4 * instDie i + instQuad i = q := by simpa using (List.mem_filter.mp hi).2
  unfold expressAt
  split
  · next l hl =>
    have hp : physOf b l = some i := by simpa using List.find?_some hl
    have hm : l < 4096 := by simpa using List.mem_of_find?_eq_some hl
    simp only [isExpress, hN]
    intro he
    have he : 256 - 16 / 16 ≤ l % 256 := by simpa using he
    have hl' : l = 256 * (l / 256) + 255 := by omega
    have := h (l / 256) (by omega)
    rw [← hl', hp] at this
    simp [hq] at this
  · simp

/-- A spare that nothing is held against may be a third plot or a spare. -/
theorem spare_healthy (d : Dev) (hb : logicalOf d.base 16 = none) (h : healthOf d 16 = PlotHealth.reset)
    (hr : bitOf (cfgChkRetireCol d.base (32 * instDie 16 + instRow 16)) (instCol 16) = false) : healthyPool d 16 = true := by
  simp [healthyPool, hb, h, hr, PlotHealth.reset]

/-- SamplesAreVoted: a stream at the replay plot and at the third one, the comparison (equal, and not, where a spare of another die is
the third plot), the three ways a vote comes out, a vote with no pack, an express sample sent on. -/
theorem witness_SamplesAreVoted :
    let votes := fun (t : Word64) =>
      let f := fun (x : Sample) => { x with rfp := some 8, st := .third, tfp := some t, t := some 16 }
      let s := tVote f (some tPack)
      s.schedules = true ∧ sampleOf s.mod.dev 0 3 0 = some (tSample f) ∧ s.mod.dev.chk.pack = some tPack
    (let s := tVote id none; let d := s.mod.dev;
      d.stopped = false ∧ sampleOf d 0 3 0 = some (tSample id) ∧ (tSample id).s = (0 : Fin 4352).val ∧ (tSample id).r = (5 : Fin 4352).val) ∧
    (let x := tSample fun x => { x with t := some 16 }; let d := (tVote (fun x => { x with t := some 16 }) none).mod.dev;
      sampleOf d 0 3 0 = some x ∧ x.r ≠ (16 : Fin 4352).val ∧ x.t = some (16 : Fin 4352).val) ∧
    (let f := fun (x : Sample) => { x with s := 1088, rfp := some 9 };
      sampleOf (tVote f none).mod.dev 1088 3 0 = some (tSample f) ∧ (tSample f).st = .replay ∧ (tSample f).rfp = some (tSample f).ofp) ∧
    (let f := fun (x : Sample) => { x with s := 1088, rfp := some 8 }; let d := (tVote f none).mod.dev;
      sampleOf d 1088 3 0 = some (tSample f) ∧ (tSample f).s = (1088 : Fin 4352).val ∧ (tSample f).st = .replay ∧
        (tSample f).rfp = some 8 ∧ 8 ≠ (tSample f).ofp ∧ instDie 16 ≠ instDie 1088) ∧
    (let f := fun (x : Sample) => { x with s := 1088, rfp := some 8 }; healthyPool (tVote f none).mod.dev 16 = true) ∧
    votes 9 ∧ votes 8 ∧ votes 6 ∧
    (let f := fun (x : Sample) => { x with rfp := some 8, st := .third, tfp := some 9, t := some 16 }; let s := tVote f none;
      s.schedules = true ∧ sampleOf s.mod.dev 0 3 0 = some (tSample f) ∧ (8 : Word64) ≠ (tSample f).ofp ∧ s.mod.dev.chk.pack = none ∧
        (healthOf s.mod.dev (tSample f).r).strikes = [] ∧ 1 < cfgChkRepairCfgStrikes s.mod.dev.base) ∧
    (let f := fun (x : Sample) => { x with express := some 4 };
      let d := (tVote f none fun d => d.onBase fun b => { b with regs := [(0x500000, 2 ^ 16)] }).mod.dev;
      sampleOf d 0 3 0 = some (tSample f) ∧ (tSample f).express.isSome = true ∧ (tSample f).st = .replay ∧ replayOk d 0 18 = true) := by
  refine ⟨by decide +kernel, by decide +kernel, by decide +kernel, by decide +kernel, ?_, by decide +kernel, by decide +kernel,
    by decide +kernel, by decide +kernel, by decide +kernel⟩
  exact spare_healthy _ (spare_of_base _ (by decide +kernel)) (by decide +kernel) (by decide +kernel)

/-- A running module with the pack, and one plot's checking state. -/
def tHealth (i : Nat) (h : PlotHealth → PlotHealth) (g : Dev → Dev := id) : State :=
  tOn fun d => g (d.onChk fun k => { k with pack := some tPack, health := [(i, h PlotHealth.reset)] })

/-- A CAL execution. -/
def tCal : Exec := tExec (tRec 13 (2 ^ 60) 0 0 0 0)

/-- PacksRunOnPlots: a plot that owes the pack, one that is overdue, a fallow spare at its last hourly pass, a CAL slot with no content and
with a case. -/
theorem witness_PacksRunOnPlots :
    (let s := tHealth 0 fun h => { h with owes := true }; let d := s.mod.dev;
      d.stopped = false ∧ d.chk.pack = some tPack ∧ (healthOf d 0).owes = true ∧ (healthOf d 0).fallow = false ∧
        (d.plot 0).blocks = [] ∧ qcUp d 0 = true ∧ plotCases d ≠ 0 ∧ d.chk.samples = [] ∧ logicalOf d.base 0 = some 0) ∧
    (let s := tHealth 0 id fun d => d.onBase fun b => { b with now := 2 ^ 62 }; let d := s.mod.dev; let h := healthOf d 0;
      d.chk.pack.isSome = true ∧ h.owes = false ∧ h.retired = false ∧
        h.packDone + cfgChkRepairCfgPackhrs d.base * 3600000000000 < d.nowNs) ∧
    (let s := tHealth 16 fun h => { h with unhealthy := true, passes := 1 }; let d := s.mod.dev; let h := healthOf d 16;
      d.chk.pack = some tPack ∧ h.unhealthy = true ∧ h.retired = false ∧ qcUp d 16 = true ∧ plotCases d ≠ 0 ∧
        h.passes + 1 < cfgChkRepairCfgRethrs d.base) ∧
    logicalOf (tHealth 16 fun h => { h with unhealthy := true, passes := 1 }).mod.dev.base 16 = none ∧
    (let s := tHealth 16 fun h => { h with unhealthy := true, passes := 254 }; let d := s.mod.dev; let h := healthOf d 16;
      h.unhealthy = true ∧ h.retired = false ∧ qcUp d 16 = true ∧ cfgChkRepairCfgRethrs d.base ≤ h.passes + 1) ∧
    (let d := (tPlot fun p => { p with seq := { p.seq with own := some tCal } }).mod.dev;
      d.stopped = false ∧ (d.plot 0).seq.own = some tCal ∧ recOpc tCal.record = 13 ∧ slotCase d 0 tCal = none) ∧
    (let d := (tHealth 0 id fun d => d.modPlot 0 fun p => { p with seq := { p.seq with own := some tCal } }).mod.dev;
      d.stopped = false ∧ (d.plot 0).seq.own = some tCal ∧ d.chk.pack = some tPack ∧ slotCase d 0 tCal = some 0) := by
  exact ⟨by decide +kernel, by decide +kernel, by decide +kernel, spare_of_base _ (by decide +kernel), by decide +kernel, by decide +kernel, by decide +kernel⟩

/-- A sampled update of a table that is not there: the record as written is what both sides compare. -/
def tUpd : UpdSample := ⟨0, 5, 9, 1, [1], none⟩
/-- A running module with it. -/
def tCheck (f : Dev → Dev := id) : State :=
  tOn fun d => f (d.onChk fun k => { k with upds := [tUpd], engines := [(0, { EngineHealth.reset with agreed := some 3 })] })

/-- A running module with three convictions in quadrant 0 whose express logical plot is mapped nowhere, with smallest NEXP. -/
def tNoExpress : State := tOn fun d => (d.onChk fun k => { k with quadConv := [(0, [0, 0, 0])] }).onBase fun b =>
  { b with regs := [(0x20, 16), (0x410000 + 4 * 255, 0)] }

/-- EnginesAreChecked: a sample whose records can be equal or not, an engine's pack, a quadrant due for a cycle with an application running
and with none. -/
theorem witness_EnginesAreChecked :
    (let s := tCheck; let m := s.mod; let d := m.dev; let c := checkRecord m tUpd; let home := updHome m tUpd;
      d.stopped = false ∧ (d.chk.upds.find? fun u => u.table = 9 && u.row = 1 && u.step = 5) = some tUpd ∧ tUpd.home < 8 ∧
        (none : Option (List Byte)).getD c = home ∧ (some [2]).getD c ≠ home ∧ (none : Option (List Byte)).getD c = home ∧
        (some [2]).getD c = (some [2]).getD c ∧ (some [3]).getD c ≠ (some [2]).getD c ∧ (some [3]).getD c ≠ home ∧
        (kget EngineHealth.reset d.chk.engines tUpd.home).agreed = some 3 ∧ stepNewer (3 + 1) d.base.cleared = true ∧
        stepNewer tUpd.step d.base.cleared = true) ∧
    (let s := tHealth 0 id; s.schedules = true ∧ s.mod.dev.chk.pack = some tPack ∧ s.mod.dev.sow.app = none) ∧
    (let d := (tOn fun d => (d.onSow fun w => { w with app := some 5 }).onChk fun k => { k with quadConv := [(0, [0, 0, 0])] }).mod.dev;
      d.sow.app.isSome = true ∧
      d.stopped = false ∧ quadDue d 0 = true ∧ d.pwr.cycle = none ∧ d.pwr.waiting = [] ∧ powerUp d = true) ∧
    (let d := tNoExpress.mod.dev;
      d.stopped = false ∧ quadDue d 0 = true ∧ d.pwr.cycle = none ∧ d.pwr.waiting = [] ∧ powerUp d = true ∧ d.sow.app = none ∧
        ∀ i ∈ quadPlots 0, (d.plot i).blocks = []) ∧
    ((quadPlots 0).filter fun i => expressAt tNoExpress.mod.dev.base i) = [] := by
  exact ⟨by decide +kernel, by decide +kernel, by decide +kernel, by decide +kernel,
    no_express _ 0 (by decide +kernel) (by decide +kernel)⟩

/-- A running module whose host interface is locked and ready: submission ring 0 and completion ring 0 of 64 entries with the CFG bits
given, and the event ring set. -/
def tHost (sq : Nat) (h : HifState → HifState) (f : Dev → Dev := id) : State := tOn fun d => f { d with
  base := { d.base with lockHif := true, lockAll := true, regs := [(0x100008, 2 ^ 31 + 2 ^ 24 + 6 + sq), (0x101008, 2 ^ 31 + 5 * 2 ^ 12 + 6)] }
  hif := h { d.hif with ready := true } }

/-- SC1 in a ring's CLASS field. -/
def tSc1 : Nat := 2 ^ 29

/-- A fetched descriptor of a kind, its body from byte 8 on. -/
def tDesc (kind body : Nat) : Desc := ⟨0, 0, 0, BitVec.ofNat 512 (kind + body * 2 ^ 64), 0, false, false, ⟨0, 0, 0, 0⟩⟩

/-- Ring 0, one descriptor behind the tail. -/
def tSq (f : Sq → Sq := id) (g : HifState → HifState := id) : State := tHost tSc1 fun h => g { h with sqs := [(0, f { Sq.reset with tail := 1 })] }

/-- DescriptorsAreFetched: an older tail, a good entry and a bad one, a SEQ that does not match at first and at the second read, a number
within the ring, a stopped ring. -/
theorem witness_DescriptorsAreFetched :
    (let s := tHost tSc1 id; let d := s.mod.dev;
      d.hifUp = true ∧ sqUsable d 0 = true ∧ stepNewer 1 (sqOf d 0).tail = true ∧ (0 : Fin 256).val / 64 = (0 : Fin 4).val ∧
        (1 : BitVec 64).getLsbD ((0 : Fin 256).val % 64) = true ∧ cfgRingSqCfgPoll d.base 0 ≠ 0 ∧ d.hif.ready = true) ∧
    (let d := tSq.mod.dev; let q := sqOf d 0;
      d.hifUp = true ∧ mayFetch d 0 = true ∧ kfind q.ahead q.next.toNat = none ∧ q.recheck = false ∧ descFld 10 3 1 = wantSeq d 0 ∧
        descRoom d (descFld 10 0 1) = true ∧ fetchFault d 0 10 = none ∧ descRoom d (descFld 13 0 1) = true ∧
        fetchFault d 0 13 = some 0x10 ∧ descFld (10 + 2 ^ 24) 3 1 ≠ wantSeq d 0) ∧
    (let d := (tSq fun q => { q with recheck := true }).mod.dev; let q := sqOf d 0;
      d.hifUp = true ∧ mayFetch d 0 = true ∧ kfind q.ahead q.next.toNat = none ∧ q.recheck = true ∧ descFld 10 3 1 = wantSeq d 0 ∧
        descRoom d (descFld 10 0 1) = true ∧ fetchFault d 0 10 = none ∧ descFld (10 + 2 ^ 24) 3 1 ≠ wantSeq d 0) ∧
    (let d := tSq.mod.dev; let q := sqOf d 0;
      d.hif.ready = true ∧ q.stopped = false ∧ ((63 : Word32) - q.next).toNat < sqSize d.base 0) ∧
    (let d := (tSq fun q => { q with stopped := true }).mod.dev; d.hifUp = true ∧ sqUsable d 0 = true ∧ (sqOf d 0).stopped = true) := by
  exact ⟨by decide +kernel, by decide +kernel, by decide +kernel, by decide +kernel, by decide +kernel⟩

/-- A module in which a descriptor has ended with a status. -/
def tEnded (x : Desc) (status : Nat) (c : Cq → Cq := id) : State :=
  tHost tSc1 (fun h => { h with descs := [x], cqs := [(0, c Cq.reset)] }) fun d => d.onBase fun b => { b with ended := [⟨0, status, []⟩] }

/-- One that holds one event of severity FATAL for an event ring of 64 entries. -/
def tEvent : State := tHost tSc1 id fun d => d.onBase fun b => { b with evt := { b.evt with
  ringSet := true, log2 := 6, held := [⟨0x101, 3, 0, 0, 0, 0, 0, []⟩] } }

/-- CompletionsAndEventsArePosted: a completion with room and with none, told and not told before; a quiet success; completions not
signalled; a head; an event; a read for a COPY, for the ring, for its tail, for a count; a spine short of its share. -/
theorem witness_CompletionsAndEventsArePosted :
    (let x := tDesc 10 0; let d := (tEnded x 0).mod.dev; let q := cqOf d x.cq;
      d.hifUp = true ∧ d.base.ended = [⟨0, 0, []⟩] ∧ descOf d 0 = some x ∧ x.lost = false ∧ x.quiet = false ∧ q.held = [] ∧
        cqFree d x.cq ≠ 0) ∧
    (∀ full, let x := tDesc 10 0; let d := (tEnded x 0 fun c => { c with posted := 64, full := full }).mod.dev;
      d.hifUp = true ∧ d.base.ended = [⟨0, 0, []⟩] ∧ descOf d 0 = some x ∧ x.lost = false ∧ x.quiet = false ∧ cqFree d x.cq = 0 ∧
        (cqOf d x.cq).full = full) ∧
    (let x := tDesc (10 + 2 * 2 ^ 8) 0; let d := (tEnded x 0).mod.dev;
      d.base.ended = [⟨0, 0, []⟩] ∧ descOf d 0 = some x ∧ x.quiet = true) ∧
    (let d := (tEnded (tDesc 10 0) 0 fun c => { c with unsig := 2 }).mod.dev; cfgRingCqCfgCoalus d.base 0 ≠ 0 ∧ (cqOf d 0).unsig ≠ 0) ∧
    (let d := (tEnded (tDesc 10 0) 0 fun c => { c with posted := 2 }).mod.dev;
      cqUsable d 0 = true ∧ cqFree d 0 < 64 ∧ (cqOf d 0).held = [] ∧
        ((1 : Word32) - (cqOf d 0).head).toNat ≤ ((cqOf d 0).posted - (cqOf d 0).head).toNat ∧
        ¬((3 : Word32) - (cqOf d 0).head).toNat ≤ ((cqOf d 0).posted - (cqOf d 0).head).toNat) ∧
    (let d := tEvent.mod.dev; let e : Event := ⟨0x101, 3, 0, 0, 0, 0, 0, []⟩;
      d.hifUp = true ∧ d.base.evt.ringSet = true ∧ d.base.evt.held = [e] ∧ d.base.posts e = true ∧ evFree d.base ≠ 0) ∧
    (let x := tDesc 9 0; let d := (tHost tSc1 fun h => { h with descs := [x] }).mod.dev;
      d.hifUp = true ∧ descOf d 0 = some x ∧ x.begun = false ∧ descMayBegin d x = true ∧ x.kind = 9) ∧
    (let d := (tHost tSc1 id).mod.dev;
      d.hifUp = true ∧ sqUsable d 0 = true ∧ (sqOf d 0).stopped = false ∧ (1 : Nat) ≠ 0 ∧ kfind d.hif.shareSaid 0 ≠ some (tickIdx d.base)) := by
  exact ⟨by decide +kernel, by decide +kernel, by decide +kernel, by decide +kernel, by decide +kernel, by decide +kernel, by decide +kernel,
    by decide +kernel⟩

/-- An `Option` that holds a value with a property. -/
theorem some_with {α : Type} {x : Option α} (p : α → Bool) (h : x.any p = true) : ∃ a, x = some a ∧ p a = true := by
  cases x with
  | some a => exact ⟨a, rfl, h⟩
  | none => cases h

/-- A running module with table 0, a descriptor that may begin, and a change. -/
def tRun (x : Desc) (f : Dev → Dev := id) (t : TDesc := tTdesc) : State :=
  tTab t fun _ => (tHost tSc1 (fun h => { h with descs := [x] }) f).mod.dev

/-- A field of `n` bits' place at byte `o` of a descriptor, as `tDesc` takes it. -/
def tAt (o v : Nat) : Nat := v * 2 ^ (8 * (o - 8))

/-- A STEP_RUN of a step. -/
def tStepRun (n : Nat) : Desc := tDesc 2 (tAt 8 n)

/-- LookupsStepsAndFences: lookups of no table, of a DENSE one, of rows; a STEP_RUN refused for no job, for the halt, for its number, and
taken; an input of a later step; a FENCE of each kind that holds and one that does not; an EVENT_RING_SET. -/
theorem witness_LookupsStepsAndFences :
    ((tRun (tDesc 1 (tAt 8 9))).descReady 0 1 (tDesc 1 (tAt 8 9)) ∧ tdescAt (tRun (tDesc 1 (tAt 8 9))).mod ((tDesc 1 (tAt 8 9)).fld 8 2) = none) ∧
    (let t := { tTdesc with kind := 1 }; let s := tRun (tDesc 1 0) id t;
      s.descReady 0 1 (tDesc 1 0) ∧ tdescAt s.mod ((tDesc 1 0).fld 8 2) = some t ∧ t.kind = 1) ∧
    (let x := tDesc 1 0; let s := tRun x;
      s.descReady 0 1 x ∧ tdescAt s.mod (x.fld 8 2) = some tTdesc ∧ tTdesc.kind = 0 ∧ bitsOf (x.fld 10 1) 2 1 = 0 ∧
        (x.fld 12 2 + 1) * tTdesc.pw ≤ 0x100000 ∧ x.fld 32 8 = 0) ∧
    (let s := tRun (tStepRun 1) fun d => d.onMs fun k => { k with noJob := true };
      s.descReady 0 2 (tStepRun 1) ∧ s.mod.dev.ms.noJob = true) ∧
    (let s := tRun (tStepRun 1) fun d => d.onMs fun k => { k with noJob := false, halted := true };
      s.descReady 0 2 (tStepRun 1) ∧ s.mod.dev.ms.noJob = false ∧ s.mod.dev.ms.halted = true) ∧
    (let s := tRun (tStepRun 2) fun d => d.onMs fun k => { k with noJob := false }; let d := s.mod.dev;
      s.descReady 0 2 (tStepRun 2) ∧ d.ms.noJob = false ∧ d.ms.halted = false ∧
        BitVec.ofNat 32 ((tStepRun 2).fld 8 4) ≠ d.hif.stepNext.getD (d.base.applied + 1)) ∧
    (let x := tStepRun 1; let s := tRun x fun d => d.onMs fun k => { k with noJob := false }; let d := s.mod.dev;
      s.descReady 0 2 x ∧ d.ms.noJob = false ∧ d.ms.halted = false ∧
        BitVec.ofNat 32 (x.fld 8 4) = d.hif.stepNext.getD (d.base.applied + 1) ∧ d.hif.stepRing = none ∧ x.fld 32 8 < 2 ^ 56 ∧
        x.fld 40 8 < 2 ^ 56 ∧ x.fld 48 1 = 0) ∧
    (let r : StepRun := ⟨0, 1, 2, none, [], false⟩;
      let d := (tOn fun d => d.onMs fun k => { k with runs := [⟨0, 0, 1, some true, [], true⟩, r] }).mod.dev;
      d.stopped = false ∧ runOf d 2 = some r ∧ r.input = none ∧ d.ms.halted = false ∧ (2 - d.base.applied).toNat ≤ 3 ∧
        runOf d (d.base.applied + 1) = some ⟨0, 0, 1, some true, [], true⟩ ∧ (2 : Word32) ≠ d.base.applied + 1) ∧
    (let x := tDesc 12 (tAt 8 0x10000 + tAt 16 6); (tRun x).descReady 0 12 x ∧ x.lost = false) := by
  exact ⟨by decide +kernel, by decide +kernel, by decide +kernel, by decide +kernel, by decide +kernel, by decide +kernel, by decide +kernel,
    by decide +kernel, by decide +kernel⟩

/-- The FENCEs of that statement: COND 0 and 1 with nothing before it, 2 and 3 for a step reached, and 2 for one that is not. -/
theorem witness_LookupsStepsAndFences_fence :
    let may := fun (x : Desc) => let d := (tRun x).mod.dev
      d.hifUp = true ∧ descOf d 0 = some x ∧ x.kind = 10 ∧ descMayBegin d x = true
    (may (tDesc 10 0) ∧ earlier (tRun (tDesc 10 0)).mod.dev (tDesc 10 0) = []) ∧
    (may (tDesc 10 (tAt 8 1)) ∧ ∀ y ∈ (tRun (tDesc 10 (tAt 8 1))).mod.dev.hif.descs, (tDesc 10 (tAt 8 1)).id ≤ y.id) ∧
    (may (tDesc 10 (tAt 8 2)) ∧ stepNewer 0 (tRun (tDesc 10 (tAt 8 2))).mod.dev.base.applied = false) ∧
    (may (tDesc 10 (tAt 8 3)) ∧ stepNewer 0 (tRun (tDesc 10 (tAt 8 3))).mod.dev.base.cleared = false) ∧
    (let x := tDesc 10 (tAt 8 2 + tAt 12 9);
      may x ∧ x.fld 8 1 = 2 ∧ x.fld 8 1 < 4 ∧ stepNewer (BitVec.ofNat 32 (x.fld 12 4)) (tRun x).mod.dev.base.applied ≠ false) := by
  exact ⟨by decide +kernel, by decide +kernel, by decide +kernel, by decide +kernel, by decide +kernel⟩

/-- Table 0's image as the host gives it. -/
def tImage (t : TDesc) : List Byte := ({ t with rowmap := 0, granG := 0, granRec := 0 } : TDesc).bytes.take 192

/-- A module with the descriptor and no table. -/
def tBare (x : Desc) (f : Dev → Dev := id) : State := tHost tSc1 (fun h => { h with descs := [x] }) f

/-- TablesAreCreatedAndSwitched, TABLE_CREATE: no array, a bad CRC, a table that is there, a bad field, a good image. -/
theorem witness_TablesAreCreatedAndSwitched_create :
    (let s := tBare (tDesc 3 0) fun d => d.onTab fun k => { k with noArray := true };
      s.descReady 0 3 (tDesc 3 0) ∧ (tDesc 3 0).fld 16 1 = 0 ∧ s.mod.dev.tab.noArray = true) ∧
    (let s := tBare (tDesc 3 0); let i := padTo 192 [1];
      s.descReady 0 3 (tDesc 3 0) ∧ s.mod.dev.tab.noArray = false ∧ fieldAt i 188 4 ≠ crc32c (i.take 188)) ∧
    (let s := tRun (tDesc 3 0); let i := padTo 192 (tImage tTdesc);
      s.descReady 0 3 (tDesc 3 0) ∧ s.mod.dev.tab.noArray = false ∧ fieldAt i 188 4 = crc32c (i.take 188) ∧
        tdescAt s.mod (fieldAt i 2 2 % 4096) = some tTdesc) ∧
    (let s := tBare (tDesc 3 0); let i := padTo 192 (tImage { tTdesc with extent := 0 });
      s.descReady 0 3 (tDesc 3 0) ∧ s.mod.dev.tab.noArray = false ∧ fieldAt i 188 4 = crc32c (i.take 188) ∧
        tdescAt s.mod (fieldAt i 2 2 % 4096) = none ∧ imageBad s.mod.dev.base i = true) ∧
    ((let s := tBare (tDesc 3 0); let i := padTo 192 (tImage tTdesc);
      s.descReady 0 3 (tDesc 3 0) ∧ s.mod.dev.tab.noArray = false ∧ fieldAt i 188 4 = crc32c (i.take 188) ∧
        tdescAt s.mod (fieldAt i 2 2 % 4096) = none ∧ imageBad s.mod.dev.base i = false ∧ (parseTd (i ++ zeros 64)).pgmap = 0) ∧
      ∃ r, newMap ((tBare (tDesc 3 0)).begun 0) (parseTd (padTo 192 (tImage tTdesc) ++ zeros 64))
        (parseTd (padTo 192 (tImage tTdesc) ++ zeros 64)).extent = some r) := by
  exact ⟨by decide +kernel, by decide +kernel, by decide +kernel, by decide +kernel, by decide +kernel, some_of_isSome (by decide +kernel)⟩

/-- A shard of one row of table 0. -/
def tShard : List Byte := shardBytes tTdesc 1 0 0 0 0 false [zeros 192]

/-- TablesAreCreatedAndSwitched: imports of no table, of another version, of a row; exports, LIVE ended by a reset too; switches. -/
theorem witness_TablesAreCreatedAndSwitched :
    (let x := tDesc 4 0; let s := tBare x; s.descReady 0 4 x ∧ tdescAt s.mod (x.fld 8 2) = none) ∧
    (let x := tDesc 4 (tAt 10 9); let s := tRun x;
      s.descReady 0 4 x ∧ tdescAt s.mod (x.fld 8 2) = some tTdesc ∧ bitOf (x.fld 12 1) 2 = false ∧ bitOf (x.fld 12 1) 0 = false ∧
        x.fld 10 2 ≠ tTdesc.version) ∧
    (let x := tDesc 4 (tAt 10 1 + tAt 24 320); let s := tRun x; let b := padTo (x.fld 24 8) tShard;
      let good := (shardRecs (b.length / 128 + 1) b).filter fun r => r.ok tTdesc tTdesc.extent;
      s.descReady 0 4 x ∧ tdescAt s.mod (x.fld 8 2) = some tTdesc ∧ bitOf (x.fld 12 1) 2 = false ∧ bitOf (x.fld 12 1) 0 = false ∧
        x.fld 10 2 = tTdesc.version ∧ tTdesc.kind = 0 ∧
        (good.flatMap fun r => r.ents.filterMap fun e => importRow tTdesc r e (bitOf (x.fld 12 1) 1) 0) ≠ []) ∧
    (let x := tDesc 5 0; let s := tBare x;
      s.descReady 0 5 x ∧ (s.mod.dev.sow.live.find? fun l => l.1 = 0) = none ∧ bitOf (x.fld 10 1) 0 = false ∧
        tdescAt s.mod (x.fld 8 2) = none) ∧
    (let x := tDesc 5 (tAt 10 1); let s := tBare x;
      s.descReady 0 5 x ∧ (s.mod.dev.sow.live.find? fun l => l.1 = 0) = none ∧ bitOf (x.fld 10 1) 0 = true ∧ cartsIn s.mod.dev.tier = 0) ∧
    (let x := tDesc 5 0; let s := tRun x;
      s.descReady 0 5 x ∧ (s.mod.dev.sow.live.find? fun l => l.1 = 0) = none ∧ bitOf (x.fld 10 1) 0 = false ∧
        tdescAt s.mod (x.fld 8 2) = some tTdesc) ∧
    (let x := tDesc 5 0; let s := tRun x fun d => d.onSow fun k => { k with live := [(0, 3, true)] }; let d := s.mod.dev;
      d.stopped = false ∧ descOf d 0 = some x ∧ (d.sow.live.find? fun l => l.1 = 0) = some (0, 3, true)) ∧
    (let x := tDesc 6 0; let s := tBare x; s.descReady 0 6 x ∧ tdescAt s.mod (x.fld 8 2) = none) ∧
    (let x := tDesc 6 (tAt 10 9); let s := tRun x;
      s.descReady 0 6 x ∧ tdescAt s.mod (x.fld 8 2) = some tTdesc ∧ tTdesc.pendValid = false ∧ x.fld 10 2 ≠ tTdesc.version) ∧
    (let x := tDesc 6 (tAt 10 2); let t := { tTdesc with pendValid := true, pendVersion := 2 }; let s := tRun x id t; let d := s.mod.dev;
      s.descReady 0 6 x ∧ tdescAt s.mod (x.fld 8 2) = some t ∧ (d.tab.switches.any fun w => w.table = t.id) = false ∧
        t.pendValid = true ∧ x.fld 10 2 = t.pendVersion ∧ x.fld 12 1 = 0 ∧ t.extent ≤ kget t.extent d.tab.pendExtent t.id) ∧
    (let x := tDesc 6 (tAt 10 1 + tAt 12 1); let s := tRun x; let d := s.mod.dev;
      s.descReady 0 6 x ∧ tdescAt s.mod (x.fld 8 2) = some tTdesc ∧ (d.tab.switches.any fun w => w.table = tTdesc.id) = false ∧
        tTdesc.pendValid = false ∧ x.fld 10 2 = tTdesc.version ∧ x.fld 12 1 = 1) := by
  exact ⟨by decide +kernel, by decide +kernel, by decide +kernel, by decide +kernel, by decide +kernel, by decide +kernel, by decide +kernel,
    by decide +kernel, by decide +kernel, by decide +kernel, by decide +kernel⟩

/-- Bay 3 holds a cartridge. -/
def tBay (d : Dev) : Dev := { d with tier := (tCart id).tier }
/-- Its sealed cairn of step 5, with no content. -/
def tSealed : Cairn := { tCairn with state := 1, tables := [] }
/-- A COPY that fills 64 bytes of device memory from a DA on. -/
def tFill (da : Nat) : Desc := tDesc 9 (tAt 16 da + tAt 24 64 + tAt 32 6)

/-- CairnsCopiesAndEvacuations: a CAIRN_WRITE with no cartridge, of a step behind, of one ahead; a job restore while steps run, of no
cairn, of one it holds; a COPY that ends well and one that faults; an EVACUATE of nothing and of a DDR5 channel. -/
theorem witness_CairnsCopiesAndEvacuations :
    (let x := tDesc 7 (tAt 8 1); let s := tBare x; s.descReady 0 7 x ∧ cartsIn s.mod.dev.tier = 0) ∧
    (let x := tDesc 7 0; let s := tBare x tBay;
      s.descReady 0 7 x ∧ cartsIn s.mod.dev.tier ≠ 0 ∧ stepNewer (BitVec.ofNat 32 (x.fld 8 4)) s.mod.dev.base.applied = false) ∧
    (let x := tDesc 7 (tAt 8 1); let s := tBare x tBay;
      s.descReady 0 7 x ∧ cartsIn s.mod.dev.tier ≠ 0 ∧ stepNewer (BitVec.ofNat 32 (x.fld 8 4)) s.mod.dev.base.applied = true ∧
        x.fld 12 1 = 0 ∧ x.fld 13 1 = 0) ∧
    (let x := tDesc 8 (tAt 8 5); let s := tBare x fun d => (tBay d).onMs fun k => { k with runs := [⟨0, 1, 2, none, [], false⟩] };
      s.descReady 0 8 x ∧ x.fld 12 1 = 0 ∧ cartsIn s.mod.dev.tier ≠ 0 ∧ s.mod.dev.ms.halted = false ∧ s.mod.dev.ms.runs ≠ []) ∧
    (let x := tDesc 8 (tAt 8 5); let s := tBare x tBay; let d := s.mod.dev;
      s.descReady 0 8 x ∧ x.fld 12 1 = 0 ∧ cartsIn d.tier ≠ 0 ∧ d.ms.runs = [] ∧ d.ms.cairns = []) ∧
    ((let x := tDesc 8 (tAt 8 5); let s := tBare x fun d => (tBay d).onMs fun k => { k with cairns := [tSealed] }; let d := s.mod.dev;
      s.descReady 0 8 x ∧ x.fld 12 1 = 0 ∧ cartsIn d.tier ≠ 0 ∧ d.ms.runs = [] ∧
        (d.ms.cairns.find? fun k => k.state = 1 && k.step = 5 && decide (k.kidx = cfgFabMsCfgKidx d.base)) = some tSealed) ∧
      ∃ r, restoreJob ((tBare (tDesc 8 (tAt 8 5)) fun d => (tBay d).onMs fun k => { k with cairns := [tSealed] }).begun 0) 5
          ⟨tSealed.tables, tSealed.rows, tSealed.dense⟩ = some r ∧ r.2.2.dev.tab.switches.isEmpty = true) ∧
    (let x := tFill 0x80000; let s := tBare x;
      s.descReady 0 9 x ∧ bitOf (x.fld 32 1) 0 = false ∧
        (copyPieces 0 (x.fld 8 8) (x.fld 16 8) (x.fld 32 1) x.lost [] (x.fld 24 8 / 64) 0 (s.begun 0)).2.1.isNone = true) ∧
    ((let x := tFill (2 ^ 55); let s := tBare x; s.descReady 0 9 x ∧ bitOf (x.fld 32 1) 0 = false) ∧
      ∃ f, (let x := tFill (2 ^ 55); copyPieces 0 (x.fld 8 8) (x.fld 16 8) (x.fld 32 1) x.lost [] (x.fld 24 8 / 64) 0 ((tBare x).begun 0)).2.1
        = some f ∧ (match f with | .remoteWait _ _ => false | _ => true) = true) ∧
    (let x := tDesc 11 (tAt 8 3); let s := tBare x; s.descReady 0 11 x ∧ evacNamed s.mod.dev x = none) ∧
    (let x := tDesc 11 (tAt 8 1);
      let s := tBare x fun d => d.onTier fun t => { t with ddr := [(0, { Ddr.reset with st := .inService })] };
      s.descReady 0 11 x ∧ evacNamed s.mod.dev x = some (1, 0) ∧
        (s.mod.dev.tier.evacs.any fun e => decide (e.kind = 1 ∧ e.unit = 0)) = false) := by
  refine ⟨by decide +kernel, by decide +kernel, by decide +kernel, by decide +kernel, by decide +kernel, ⟨by decide +kernel, ?_⟩,
    by decide +kernel, ⟨by decide +kernel, ?_⟩, by decide +kernel, by decide +kernel⟩
  · exact some_with (fun (r : Nat × Bool × Mod) => r.2.2.dev.tab.switches.isEmpty) (by decide +kernel)
  · exact some_with (fun (f : FaultKind) => match f with | .remoteWait _ _ => false | _ => true) (by decide +kernel)

/-- A sealed cairn that holds row 1 of table 0. -/
def tKept : Cairn := { tSealed with rows := [(rowKey 0 1, mkRecord tTdesc 5 1 0 noLink (zeros 128))] }
/-- A row restore of it, and the module that has lost the row: its pools have 64 pages each. -/
def tLost : State := tRun (tDesc 8 (tAt 8 5 + tAt 12 1)) fun d =>
  (((tBay d).onMs fun k => { k with cairns := [tKept] }).onTier fun t => { t with
    lost := [(0, 1)], lostPc := [(0, 185), (1, 185), (2, 185), (3, 185)] }).onBase fun b => { b with regs := b.regs ++ [(0x300210, 1)] }

/-- The row is placed. -/
theorem tLost_restored :
    (restoreRowTo (tLost.begun 0) tTdesc tTdesc.curVer 1 (mkRecord tTdesc 5 1 0 noLink (zeros 128))).isSome = true := by
  decide +kernel

/-- CairnsCopiesAndEvacuations, CAIRN_RESTORE of rows: no such cairn, and one lost row. -/
theorem witness_CairnsCopiesAndEvacuations_rows :
    (let x := tDesc 8 (tAt 8 5 + tAt 12 1); let s := tBare x tBay;
      s.descReady 0 8 x ∧ x.fld 12 1 = 1 ∧ cartsIn s.mod.dev.tier ≠ 0 ∧ cairnNamed s.mod.dev (x.fld 8 4) = none) ∧
    (let x := tDesc 8 (tAt 8 5 + tAt 12 1); let d := tLost.mod.dev;
      tLost.descReady 0 8 x ∧ x.fld 12 1 = 1 ∧ cartsIn d.tier ≠ 0 ∧ cairnNamed d (x.fld 8 4) = some tKept ∧ d.tier.lost = [(0, 1)] ∧
        kfind tKept.rows (rowKey 0 1) = some (mkRecord tTdesc 5 1 0 noLink (zeros 128)) ∧ tdescAt tLost.mod 0 = some tTdesc) ∧
    ∃ m1, restoreRowTo (tLost.begun 0) tTdesc tTdesc.curVer 1 (mkRecord tTdesc 5 1 0 noLink (zeros 128)) = some m1 := by
  refine ⟨?_, ?_, ?_⟩
  · decide +kernel
  · decide +kernel
  · exact some_of_isSome tLost_restored

/-- A running module with its firmware loaded and the BAR2 window at a DA. -/
def tBar2 (da : Nat) : State := tOn fun d => { d with
  fw := { d.fw with bar2Open := true }, base := { d.base with regs := if da = 0 then [] else [(0x18, da)] } }

/-- Whether an access ended with a fault that is no wait for a neighbour module. -/
def tFaults {α : Type} (x : Except FaultKind α) : Bool := match x with
  | .ok _ => false
  | .error (.remoteWait _ _) => false
  | .error _ => true

/-- What it ended with. -/
theorem fault_of {α : Type} {x : Except FaultKind α} (h : tFaults x = true) : ∃ f, x = .error f ∧ ∀ da k, f ≠ .remoteWait da k := by
  match x, h with
  | .error f, h => exact ⟨f, rfl, fun da k hf => by subst hf; exact absurd h (by simp [tFaults])⟩

/-- BarsSetupAndFlr: an access of 3 bytes, a setup register before the lock and after it, BAR2 with and without the firmware and at a DA
that no page backs, the first HIF_SETUP_DONE and a later one. -/
theorem witness_BarsSetupAndFlr :
    ((tOn id).mod.dev.hifUp = true ∧ (3 ≠ 4 ∧ 3 ≠ 8)) ∧
    (let d := (tOn id).mod.dev; d.base.lockHif = false ∧ regVal d.base 0x10 % 4096 = 0 ∧ (1 : Word32).getLsbD 0 = true) ∧
    (let d := (tHost tSc1 id).mod.dev;
      d.hifUp = true ∧ d.base.lockHif = true ∧ d.base.lockAll = true ∧ (0x10#26).toNat % 4 = 0 ∧ msixWord (0x10#26).toNat = none ∧
        (regAt (0x10#26).toNat).any (fun x => x.1.fields.all fun f => decide (f.acc = .rwl ∨ f.acc = .ro ∨ f.acc = .wo)) = true) ∧
    ((let d := (tBar2 0).mod.dev; d.hifUp = true ∧ d.fw.bar2Open = true ∧ d.stopped = false ∧ (64 : Nat) ≠ 0) ∧
      ∃ b, (tBar2 0).mod.demandRead .bar2 (bar2Da (tBar2 0).mod.dev (0#36).toNat) 64 = .ok b) ∧
    ((let d := (tBar2 (2 ^ 55)).mod.dev; d.hifUp = true ∧ d.fw.bar2Open = true ∧ d.stopped = false) ∧
      ∃ f, (tBar2 (2 ^ 55)).mod.demandRead .bar2 (bar2Da (tBar2 (2 ^ 55)).mod.dev (0#36).toNat) 64 = .error f ∧
        ∀ da k, f ≠ .remoteWait da k) ∧
    ((tOn id).mod.dev.fw.bar2Open = false ∧ (0#36).toNat < 0x2000000) ∧
    (writeNpf (tBar2 0).mod (bar2Da (tBar2 0).mod.dev (0#36).toNat) (zeros 64) = none ∧
      ∃ m1, (tBar2 0).mod.demandWrite .bar2 (bar2Da (tBar2 0).mod.dev (0#36).toNat) (zeros 64) = .ok m1) := by
  exact ⟨by decide +kernel, by decide +kernel, by decide +kernel, ⟨by decide +kernel, ok_of_toBool (by decide +kernel)⟩,
    ⟨by decide +kernel, fault_of (by decide +kernel)⟩, by decide +kernel, by decide +kernel, ok_of_toBool (by decide +kernel)⟩

/-- BarsSetupAndFlr: a write to BAR2 that faults. -/
theorem witness_BarsSetupAndFlr_write :
    writeNpf (tBar2 (2 ^ 55)).mod (bar2Da (tBar2 (2 ^ 55)).mod.dev (0#36).toNat) (zeros 64) = none ∧
      ∃ f, (tBar2 (2 ^ 55)).mod.demandWrite .bar2 (bar2Da (tBar2 (2 ^ 55)).mod.dev (0#36).toNat) (zeros 64) = .error f ∧
        ∀ da k, f ≠ .remoteWait da k := by
  exact ⟨by decide +kernel, fault_of (by decide +kernel)⟩

/-- A running module but for a change of its fabric. -/
def tFab (f : FabState → FabState) (g : Dev → Dev := id) : State := tOn fun d => g (d.onFab f)
/-- Port 0 is up with four lanes. -/
def tPort (p : Port → Port := id) (f : FabState → FabState := id) (g : Dev → Dev := id) : State :=
  tFab (fun x => f { x with ports := [(0, p { Port.reset with st := .up4, lanes := 15 })] }) g
/-- A link frame (Table 12.2): FTYPE, class, LSEQ, DST, SRC, and its payload of 64 bytes. -/
def tFrame (ftype cls lseq dst src : Nat) (payload : List Byte) : List Byte :=
  let h := leBytes 1 ftype ++ leBytes 1 cls ++ leBytes 2 lseq ++ leBytes 2 dst ++ leBytes 2 src ++ zeros 4
  h ++ leBytes 4 (crc32c (h ++ payload)) ++ payload

/-- LinksCarryFrames: a port that is down; a damaged frame and one after a gap; frames for another module, for this one, and a second
copy; credits with nothing and with one frame waiting; replays of a kept frame, the last of them too. -/
theorem witness_LinksCarryFrames :
    ((tOn id).quietFabric = true ∧ (portOf (tOn id).mod.dev 0).up = false) ∧
    (let s := tPort; let q := portOf s.mod.dev 0; let late := tFrame 1 3 5 9 4 (zeros 64);
      s.quietFabric = true ∧ q.up = true ∧ q.discarding = false ∧ frameOk [] = false ∧ bitOf (fieldAt late 8 2) 15 = false ∧
        fieldAt late 0 1 = 1 ∧ fieldAt late 2 2 % 4096 ≠ q.rxSeq ∧ 2048 ≤ seqAfter (prevSeq q.rxSeq) (fieldAt late 2 2 % 4096)) ∧
    (let s := tPort; let q := portOf s.mod.dev 0; let b := tFrame 1 3 0 9 4 (zeros 64);
      q.up = true ∧ frameOk b = true ∧ bitOf (fieldAt b 8 2) 15 = false ∧ fieldAt b 0 1 = 1 ∧ fieldAt b 2 2 % 4096 = q.rxSeq ∧
        (parseFrame b).dst ≠ s.mod.dev.fab.modid) ∧
    (let s := tPort; let q := portOf s.mod.dev 0; let b := tFrame 1 3 0 0 4 (zeros 64); let f := parseFrame b;
      q.up = true ∧ frameOk b = true ∧ bitOf (fieldAt b 8 2) 15 = false ∧ fieldAt b 0 1 = 1 ∧ fieldAt b 2 2 % 4096 = q.rxSeq ∧
        f.dst = s.mod.dev.fab.modid ∧ f.token = false ∧ kfind q.parts (chanNo f.cls f.dl) = none ∧
        alignUp 64 (32 + fieldAt f.payload 2 2) = f.payload.length) ∧
    (let q := portOf (tPort fun q => { q with rxSeq := 1 }).mod.dev 0; let b := tFrame 1 3 0 9 4 (zeros 64);
      q.up = true ∧ frameOk b = true ∧ bitOf (fieldAt b 8 2) 15 = false ∧ fieldAt b 0 1 = 1 ∧ fieldAt b 2 2 % 4096 ≠ q.rxSeq ∧
        seqAfter (prevSeq q.rxSeq) (fieldAt b 2 2 % 4096) < 2048) ∧
    ((portOf tPort.mod.dev 0).txq = [] ∧ (portOf tPort.mod.dev 0).up = true) ∧
    (let t : TxFrame := ⟨16, ⟨false, 3, false, 9, 0, zeros 64⟩⟩; let q := portOf (tPort fun q => { q with txq := [t] }).mod.dev 0;
      q.up = true ∧ q.txq = [t] ∧ t.frame.cls = (3 : Fin 5) ∧ t.frame.dl = false ∧ 0 < 1 ∧ q.openMsg = [] ∧ q.nextLanes = none ∧
        q.kept.length < 1024) ∧
    (∀ r ∈ [0, 7], let q := portOf (tPort fun q => { q with replays := r, kept := [(5, ⟨false, 3, false, 9, 0, zeros 64⟩)] }).mod.dev 0;
      q.up = true ∧ q.kept ≠ [] ∧ (∀ k ∈ q.kept, 2048 ≤ seqAfter (4#12).toNat k.1) ∧ q.replays = r) := by
  exact ⟨by decide +kernel, by decide +kernel, by decide +kernel, by decide +kernel, by decide +kernel, by decide +kernel, by decide +kernel,
    by decide +kernel⟩

/-- A line of two modules along x, every port enabled and training. -/
def tLine (p : Port → Port := id) : State :=
  tFab (fun x => { x with trainAt := some 0, ports := [(0, p { Port.reset with st := .training })] }) fun d =>
    { d with base := { d.base with regs := [(0x600008, 1), (0x600010, 0xFFFF)] }, pwr := { d.pwr with on := 0xFFFFFFFF } }

/-- PortsAndLanesFollowTheLinks: a port that may not train; the peer prescribed and another one; a port that trains again; margins that
are good and low; a lane lost of four and of three, a retrained one, a lane count agreed. -/
theorem witness_PortsAndLanesFollowTheLinks :
    ((tOn id).quietFabric = true ∧ mayTrain (tOn id).mod.dev 0 = false) ∧
    (let s := tLine; let d := s.mod.dev;
      s.quietFabric = true ∧ (portOf d 0).st = .training ∧ mayTrain d 0 = true ∧
        3 ≤ ((List.range 4).filter fun l => bitOf (7#4).toNat l).length ∧ peerOf d 0 = some (1#16).toNat ∧ portDim 2 = portDim 0 ∧
        portPlus 2 ≠ portPlus 0 ∧ peerOf d 0 ≠ some (2#16).toNat) ∧
    (let s := tPort id id fun d => d.onBase fun b => { b with regs := [(0x600028, 2 ^ 8 * 4 + 1)] }; let d := s.mod.dev;
      let q := portOf d 0; let min := cfgFabCalCfgMinmargin d.base;
      s.quietFabric = true ∧ cfgFabCalCfgEn d.base = 1 ∧ q.up = true ∧ min ≤ 4 ∧ 3 < min ∧ kfind q.margins 0 = none) ∧
    (let q := portOf tPort.mod.dev 0; let mask := withBits q.lanes 0 0 0;
      q.up = true ∧ q.nextLanes = none ∧ bitOf q.lanes 0 = true ∧ 3 ≤ ((List.range 4).filter fun l => bitOf mask l).length) ∧
    (let q := portOf (tPort fun q => { q with lanes := 7 }).mod.dev 0; let mask := withBits q.lanes 0 0 0;
      q.up = true ∧ q.nextLanes = none ∧ bitOf q.lanes 0 = true ∧ ((List.range 4).filter fun l => bitOf mask l).length < 3 ∧
        bitOf q.lanes 3 = false) ∧
    (let q := portOf (tPort fun q => { q with nextLanes := some 7 }).mod.dev 0; q.nextLanes = some 7 ∧ q.txq = []) := by
  exact ⟨by decide +kernel, by decide +kernel, by decide +kernel, by decide +kernel, by decide +kernel, by decide +kernel⟩

/-- A whole DATA message from module 4 on SC1 has arrived, with an operation and an ESEQ. -/
def tArrived (op : Nat) (eseq : Word32) (f : FabState → FabState := id) : State :=
  tFab fun x => f { x with arrived := [(4, 3, msgBytes op eseq 0 0 0 0 [])] }

/-- MessagesAreDeliveredInOrder: a transit frame; a message that is damaged, next in order, early, a second copy; an acknowledgement; tokens
for this module and for another. -/
theorem witness_MessagesAreDeliveredInOrder :
    (let t : TxFrame := ⟨16, ⟨false, 3, false, 9, 0, zeros 64⟩⟩; let s := tFab fun x => { x with transit := [t] };
      s.quietFabric = true ∧ s.mod.dev.fab.transit = [t] ∧ routePorts s.mod.dev t.frame.dst t.owner = []) ∧
    (let s := tFab fun x => { x with arrived := [(4, 3, [])] };
      s.quietFabric = true ∧ nextArrived s.mod.dev false = some (4, 3, []) ∧ msgOk [] = false) ∧
    (let s := tArrived 2 0; let b := msgBytes 2 0 0 0 0 0 []; let f := kget ⟨0, []⟩ s.mod.dev.fab.flowsIn (8 * 4 + 3);
      nextArrived s.mod.dev false = some (4, 3, b) ∧ msgOk b = true ∧ msgSeq b = f.next ∧ f.early = []) ∧
    (let s := tArrived 2 2; let b := msgBytes 2 2 0 0 0 0 []; let f := kget ⟨0, []⟩ s.mod.dev.fab.flowsIn (8 * 4 + 3);
      nextArrived s.mod.dev false = some (4, 3, b) ∧ msgOk b = true ∧ stepNewer (msgSeq b) f.next = true ∧
        kfind f.early f.next.toNat = none) ∧
    (let s := tArrived 2 0 fun x => { x with flowsIn := [(8 * 4 + 3, ⟨1, []⟩)] }; let b := msgBytes 2 0 0 0 0 0 [];
      let f := kget ⟨0, []⟩ s.mod.dev.fab.flowsIn (8 * 4 + 3);
      nextArrived s.mod.dev false = some (4, 3, b) ∧ msgOk b = true ∧ stepNewer f.next (msgSeq b) = true ∧ f.early = []) ∧
    (let s := tArrived 0x30 0; let b := msgBytes 0x30 0 0 0 0 0 []; nextArrived s.mod.dev true = some (4, 3, b) ∧ msgOk b = true) ∧
    (let t : Token := tokenOf 0; let s := tOn fun d => d.onMs fun k => { k with out := [(0, t), (5, t)] };
      s.quietFabric = true ∧ s.mod.dev.ms.out = [(0, t), (5, t)] ∧ 0 = cfgFabMsCfgKidx s.mod.dev.base ∧
        5 ≠ cfgFabMsCfgKidx s.mod.dev.base) := by
  exact ⟨by decide +kernel, by decide +kernel, by decide +kernel, by decide +kernel, by decide +kernel, by decide +kernel, by decide +kernel⟩

/-- A message of an operation from module 4 waits. -/
def tIn (op : Nat) (x : InMsg → InMsg := id) : InMsg := x ⟨4, 3, op, 0, 0, 0, 0, []⟩
/-- A module with that message. -/
def tInbox (x : InMsg) (f : FabState → FabState := id) (g : Dev → Dev := id) : State := tFab (fun k => f { k with inbox := [x] }) g
/-- A loan of one page to module 4, with id 0. -/
def tLoan : LoanOut := ⟨0, 4, 0, [512], 0, none⟩

/-- LoansAreReadAndWritten: a read and a write of a loan and of none; answers for a furrow's read, a write and a thread's write; a
destination that cannot be reached. -/
theorem witness_LoansAreReadAndWritten :
    (let x := tIn 1 fun x => { x with aux := 64 }; let s := tInbox x fun k => { k with loans := [tLoan] };
      s.quietFabric = true ∧ nextMsg s.mod.dev 1 = some x ∧ (∀ y ∈ s.mod.dev.fab.inbox, y.op = 3 → y.src ≠ x.src) ∧
        loanTo s.mod.dev x.id x.src = some tLoan ∧ loanStatus (some tLoan) x.addr x.aux false = 0 ∧
        loanStatus (some tLoan) x.addr x.aux true = 3) ∧
    (let x := tIn 3 fun x => { x with data := zeros 64 }; let s := tInbox x fun k => { k with loans := [tLoan] };
      nextMsg s.mod.dev 3 = some x ∧ loanTo s.mod.dev x.id x.src = some tLoan ∧ loanStatus (some tLoan) x.addr x.data.length false = 0) ∧
    (let x := tIn 3; nextMsg (tInbox x).mod.dev 3 = some x ∧ loanTo (tInbox x).mod.dev x.id x.src = none ∧
      loanStatus none x.addr x.data.length false ≠ 0) ∧
    (let x := tIn 2; let r : InFlightReq := ⟨0, 4, .bar2, false, 0, 64⟩; let d := (tInbox x fun k => { k with reqs := [r] }).mod.dev;
      nextMsg d 2 = some x ∧ (d.fab.reqs.find? fun r => decide (r.rtag = x.rtag) && decide (r.lender = x.src) && !r.write) = some r) ∧
    (let x := tIn 4; let r : InFlightReq := ⟨0, 4, .bar2, true, 0, 64⟩; let d := (tInbox x fun k => { k with reqs := [r] }).mod.dev;
      nextMsg d 4 = some x ∧ (d.fab.reqs.find? fun r => decide (r.rtag = x.rtag) && decide (r.lender = x.src) && r.write) = some r ∧
        x.aux % 256 = 0) ∧
    (let x := tIn 4 fun x => { x with aux := 3 }; let r : InFlightReq := ⟨0, 4, .thread 0 1, true, 0, 64⟩;
      let d := (tInbox x fun k => { k with reqs := [r] }).mod.dev;
      nextMsg d 4 = some x ∧ (d.fab.reqs.find? fun r => decide (r.rtag = x.rtag) && decide (r.lender = x.src) && r.write) = some r ∧
        x.aux % 256 = 3 ∧ r.who = .thread 0 1) ∧
    (let s := tFab fun k => { k with flowsOut := [(8 * 4 + 3, ⟨1, [⟨0, [], 0, 0⟩]⟩)], reqs := [⟨0, 4, .bar2, false, 0, 64⟩] };
      let d := s.mod.dev;
      s.quietFabric = true ∧ (∃ f ∈ d.fab.flowsOut, f.1 / 8 = (4#16).toNat ∧ f.2.unacked ≠ []) ∧ (∀ r ∈ d.fab.reqs, r.write = false) ∧
        d.fab.asks = [] ∧ d.tier.windows = [] ∧ d.fab.colls = [] ∧ d.fab.later = [] ∧
        ∀ f ∈ d.fab.flowsOut, f.1 / 8 = (5#16).toNat → f.2.unacked = []) := by
  exact ⟨by decide +kernel, by decide +kernel, by decide +kernel, by decide +kernel, by decide +kernel, by decide +kernel, by decide +kernel⟩

/-- Window 2 is bound to loan 0 of module 4. -/
def tWindow (l : LoanIn → LoanIn := id) (d : Dev) : Dev := d.onTier fun t => { t with windows := [(2, l ⟨0, 4, 1, 5, none⟩)] }
/-- Die 0 has one pseudo-channel left, and one page of its pool is lent; none of the 64 is free. -/
def tShortPool : State :=
  tFab (fun k => { k with loans := [tLoan] }) fun d => { d with
    base := { d.base with regs := [(0x300210, 1)] }
    tier := { d.tier with lostPc := [(0, 185)], pages := (List.range 64).map fun i => (512 + i, pageWord pkMeta) } }

/-- LoansBeginAndEnd: a request with lending off and one it may take; a grant, a refusal; RENEW and RETURN of a loan and of none; a
REVOKE of no window and of one; deadlines of a lender and of a borrower; an idle loan; a pool that is short. -/
theorem witness_LoansBeginAndEnd :
    (let x := tIn 0x20; let s := tInbox x; s.quietFabric = true ∧ nextMsg s.mod.dev 0x20 = some x ∧ cfgFabLendCfgEn s.mod.dev.base = 0) ∧
    (let x := tIn 0x21; let a : LoanAsk := ⟨4, 2, 1, 7⟩; let d := (tInbox x fun k => { k with asks := [a] }).mod.dev;
      nextMsg d 0x21 = some x ∧ (d.fab.asks.find? fun a => a.lender = x.src) = some a ∧ d.fw.reqs = []) ∧
    (let x := tIn 0x22; let a : LoanAsk := ⟨4, 2, 1, 7⟩; let d := (tInbox x fun k => { k with asks := [a] }).mod.dev;
      nextMsg d 0x22 = some x ∧ (d.fab.asks.find? fun a => a.lender = x.src) = some a ∧ d.fw.reqs = []) ∧
    (let x := tIn 0x24; let d := (tInbox x fun k => { k with loans := [tLoan] }).mod.dev;
      nextMsg d 0x24 = some x ∧ loanTo d x.id x.src = some tLoan) ∧
    (let d := (tInbox (tIn 0x23) id (tWindow id)).mod.dev; let l : LoanIn := ⟨0, 4, 1, 5, none⟩;
      kfind d.tier.windows 2 = some l ∧ kfind d.tier.windows 3 = none ∧ nextMsg d 0x23 = some (tIn 0x23) ∧
        (d.tier.windows.find? fun w => decide (w.2.id = (tIn 0x23).id) && decide (w.2.lender = (tIn 0x23).src)) = some (2, l) ∧
        l.deadline = none) ∧
    (let x := tIn 0x25; let d := (tInbox x fun k => { k with loans := [tLoan] }).mod.dev;
      nextMsg d 0x25 = some x ∧ loanTo d x.id x.src = some tLoan) ∧
    (let d := (tInbox (tIn 0x23)).mod.dev; nextMsg d 0x23 = some (tIn 0x23) ∧ d.tier.windows = []) ∧
    (let l := { tLoan with deadline := some 9 }; let d := (tFab fun k => { k with loans := [l] }).mod.dev;
      (d.fab.loans.find? fun l => decide (l.id = 0) && l.deadline.isSome) = some l ∧ schedUp d = true ∧
        ∀ l ∈ d.fab.loans, l.deadline ≠ none) ∧
    (let l : LoanIn := ⟨0, 4, 1, 5, some 9⟩; let d := (tFab id (tWindow fun l => { l with deadline := some 9 })).mod.dev;
      kfind d.tier.windows 2 = some l ∧ l.deadline.isSome ∧ lentIn d.tier 2 = []) ∧
    ((tFab fun k => { k with loans := [tLoan] }).mod.dev.fab.loans.find? fun l => l.id = 0) = some tLoan ∧
    (let d := tShortPool.mod.dev;
      tShortPool.quietFabric = true ∧ schedUp d = true ∧ (∃ l ∈ d.fab.loans, l.deadline = none ∧ ∃ i ∈ l.pages, ∃ u < 8,
        0 < (poolSpan d.base d.tier u).2 ∧ poolBelow d.base d.tier u 1 = true ∧ pageInPool d u i = true)) := by
  refine ⟨by decide +kernel, by decide +kernel, by decide +kernel, by decide +kernel, by decide +kernel, by decide +kernel, by decide +kernel,
    by decide +kernel, by decide +kernel, by decide +kernel, by decide +kernel, by decide +kernel, tLoan, by decide +kernel,
    by decide +kernel, 512, by decide +kernel, 0, by decide +kernel, by decide +kernel, by decide +kernel, by decide +kernel⟩

/-- A chunk of a collective: COP, EPOCH. -/
def tChunk (cop epoch : Nat) : List Byte := leBytes 1 cop ++ zeros 3 ++ leBytes 4 epoch ++ zeros 56
/-- The chunk it spells. -/
def tParsed (cop : Nat) (epoch : Word32) : Chunk := ⟨0, none, cop, epoch, 0, 0, 0, []⟩
/-- Slot 0 has run an epoch. -/
def tEpoch (c : Coll → Coll) (f : FabState → FabState := id) (g : Dev → Dev := id) : State :=
  tFab (fun k => f { k with colls := [(0, c { Coll.reset with epoch := 3 })] }) g
/-- A descriptor of CKIND 4, U8, two sources and no units. -/
def tCollDesc : List Byte := let b := [4, 0, 0, 0, 0, 0, 0, 0, 2] ++ zeros 83; b ++ leBytes 4 (crc32c b)
/-- Its CKIND changed, with two members; both slots' descriptors are read from the state of an epoch that runs. -/
def tPair (kind : Byte) : List Byte := [kind, 0, 0, 2, 0, 0, 1, 0, 2] ++ zeros 83

/-- CollectivesRunTheirEpochs: no chunk, one that parses to none, one of an older epoch, of the epoch that ran, of a newer one while an epoch
runs, on a slot with no good descriptor and with one; a stale message; COLL_ENDs and COLL_CREDITs of no epoch and of the one that runs. -/
theorem witness_CollectivesRunTheirEpochs :
    (let s := tOn id; let d := s.mod.dev;
      s.quietFabric = true ∧ d.fab.later = [] ∧ (d.meshOut.find? fun x => x.1 = 2) = none ∧ nextMsg d 0x10 = none ∧ parseChunk 0 [] = none ∧
        nextDue d 0x11 = none ∧ nextDue d 0x12 = none) ∧
    (let c := collOf (tEpoch id).mod.dev 0;
      (tEpoch id).mod.dev.fab.later = [] ∧ parseChunk 0 (tChunk 2 1) = some (tParsed 2 1) ∧ stepNewer c.epoch (tParsed 2 1).epoch = true ∧
        parseChunk 0 (tChunk 2 3) = some (tParsed 2 3) ∧ (tParsed 2 3).epoch = c.epoch ∧ c.running = false) ∧
    (let c := collOf (tEpoch fun c => { c with running := true }).mod.dev 0;
      parseChunk 0 (tChunk 2 4) = some (tParsed 2 4) ∧ stepNewer (tParsed 2 4).epoch c.epoch = true ∧ c.running = true) ∧
    (let m := (tEpoch id).mod; let b := m.load (collDa m.dev.base 0) 96;
      stepNewer (tParsed 2 4).epoch (collOf m.dev 0).epoch = true ∧ (collOf m.dev 0).running = false ∧ collOk m.dev b = false ∧
        fieldAt b 64 1 = 0) ∧
    (let m := (tEpoch id).mod.store 0 tCollDesc; let b := m.load (collDa m.dev.base 0) 96; let k := tParsed 2 4;
      stepNewer k.epoch (collOf m.dev 0).epoch = true ∧ (collOf m.dev 0).running = false ∧ collOk m.dev b = true ∧ k.cop = 2 ∧
        k.data = [] ∧ fieldAt b 0 1 < 5 ∧ 1 < fieldAt b 8 2) ∧
    (let x := tIn 0x10 fun x => { x with id := 1 }; let d := (tEpoch id fun k => { k with inbox := [x] }).mod.dev;
      nextMsg d 0x10 = some x ∧ stepNewer (collOf d (x.addr % 4096)).epoch (BitVec.ofNat 32 x.id) = true) ∧
    (∀ op ∈ [0x11, 0x12], let x := tIn op fun x => { x with id := 1, src := 0 };
      let d := (tEpoch (fun c => { c with running := true }) fun k => { k with inbox := [x] }).mod.dev; let c := collOf d (x.addr % 4096);
      nextDue d op = some x ∧ c.epoch ≠ BitVec.ofNat 32 x.id ∧ collPosOf d c.desc x.src = some 0) ∧
    (let x := tIn 0x11 fun x => { x with id := 3 };
      let d := (tEpoch (fun c => { c with running := true, desc := tPair 1 }) (fun k => { k with inbox := [x] })
        fun d => d.onBase fun b => { b with regs := [(0x610004, 4)] }).mod.dev; let c := collOf d (x.addr % 4096);
      nextDue d 0x11 = some x ∧ collPosOf d c.desc x.src = some 1 ∧ c.running = true ∧ c.epoch = BitVec.ofNat 32 x.id ∧ collKind c.desc = 1 ∧
        c.lasts < collNsrc c.desc ∧ x.rtag ≠ 1 ∧ c.ended = false ∧ kfind c.ends (collPos d c.desc) = none ∧ 1 ≠ collPos d c.desc ∧
        collPos d c.desc < collMembers d c.desc) ∧
    (let x := tIn 0x12 fun x => { x with id := 3 };
      let d := (tEpoch (fun c => { c with running := true, desc := tPair 5 }) fun k => { k with inbox := [x] }).mod.dev;
      let c := collOf d (x.addr % 4096);
      nextDue d 0x12 = some x ∧ c.running = true ∧ c.epoch = BitVec.ofNat 32 x.id ∧ collKind c.desc = 5 ∧ c.lasts < collNsrc c.desc ∧
        c.nextRot = 1 ∧ c.rotEnd = [] ∧ c.arrived = []) := by
  exact ⟨by decide +kernel, by decide +kernel, by decide +kernel, by decide +kernel, by decide +kernel, by decide +kernel, by decide +kernel,
    by decide +kernel, by decide +kernel⟩

/-- A mailbox request that waits. -/
def tReq (op : Nat) (payload : List Byte) : MbxReq := ⟨op, 7, payload, false⟩
/-- A running module in whose mailbox it waits. -/
def tMbx (r : MbxReq) (f : Dev → Dev := id) : State := tOn fun d => f (d.onFw fun w => { w with reqs := [r] })
/-- A request as its 256 bytes. -/
def tWire (version op : Nat) (payload : List Byte) : BitVec 2048 := BitVec.ofNat 2048 (leNat (mbxBytes version op 0 0 7 payload))
/-- A running module with one request to be read. -/
def tKick : State := tOn fun d => d.onFw fun w => { w with reqTail := 1 }

/-- MailboxTakesRequests: a kick; a mailbox that has not been kicked; a good request and requests with each fault. -/
theorem witness_MailboxTakesRequests :
    ((tOn id).mod.dev.hifUp = true ∧ (tOn id).mod.dev.fw.rsps = [] ∧ (tOn id).mod.dev.fw.reqTaken = (tOn id).mod.dev.fw.reqTail) ∧
    mailboxUp (tOn fun d => d.onFw fun w => { w with kicked := false }).mod.dev = false ∧
    (let d := tKick.mod.dev; let b := leBytes 256 (tWire 0 0x0903 []).toNat;
      d.hifUp = true ∧ mailboxUp d = true ∧ d.fw.reqTaken ≠ d.fw.reqTail ∧ requestFault d b = none ∧ fieldAt b 4 2 ≤ 240 ∧
        crc32c (b.take 12 ++ zeros 4 ++ (b.drop 16).take (fieldAt b 4 2)) = fieldAt b 12 4 ∧ fieldAt b 0 1 = mbVersion d / 256 ∧
        fieldAt b 1 1 ≤ mbVersion d % 256 ∧ opcodeLen (fieldAt b 2 2) = some (fieldAt b 4 2) ∧ d.fw.run = true) ∧
    (let d := tKick.mod.dev; let b := leBytes 256 (tWire 0 0x0FFF []).toNat;
      requestFault d b = some mbBadOpcode ∧ d.fw.rsps = [] ∧
        (d.fw.rspPosted - d.fw.rspHead).toNat < 2 ^ cfgMbxCfgRsplog2 d.base ∧ opcodeLen (fieldAt b 2 2) = none ∧
        fieldAt b 4 2 ≤ 240 ∧ crc32c (b.take 12 ++ zeros 4 ++ (b.drop 16).take (fieldAt b 4 2)) = fieldAt b 12 4 ∧
        fieldAt b 0 1 = mbVersion d / 256 ∧ fieldAt b 1 1 ≤ mbVersion d % 256) ∧
    240 < fieldAt (leBytes 256 (BitVec.ofNat 2048 (241 * 2 ^ 32)).toNat) 4 2 ∧
    (let b := leBytes 256 (1#2048).toNat;
      fieldAt b 4 2 ≤ 240 ∧ crc32c (b.take 12 ++ zeros 4 ++ (b.drop 16).take (fieldAt b 4 2)) ≠ fieldAt b 12 4) ∧
    (let d := tKick.mod.dev; let b := leBytes 256 (tWire 0x0300 0x0903 []).toNat;
      fieldAt b 4 2 ≤ 240 ∧ crc32c (b.take 12 ++ zeros 4 ++ (b.drop 16).take (fieldAt b 4 2)) = fieldAt b 12 4 ∧
        fieldAt b 0 1 ≠ mbVersion d / 256) := by
  exact ⟨by decide +kernel, by decide +kernel, by decide +kernel, by decide +kernel, by decide +kernel, by decide +kernel, by decide +kernel⟩

/-- A running module with a log ring of 64 entries at level 1. -/
def tLog (f : LogRing → LogRing := id) : State := tOn fun d => d.onFw fun w => { w with log := some (f ⟨0x1000, 6, 1, 3, 0, 0⟩) }

/-- LogAndTraceRingsAreKept: a LOG_SET that is refused and one that is taken; an entry below the level, into a full ring, into one with room;
a processor that does not run; heads within the trace and past it; FW_STATUS. -/
theorem witness_LogAndTraceRingsAreKept :
    (let r := tReq 0x0905 (zeros 12); (tMbx r).takesReq 0x0905 r ∧ fieldAt r.payload 8 1 < 6) ∧
    (let r := tReq 0x0905 (zeros 8 ++ [6, 3, 1, 0]);
      (tMbx r).takesReq 0x0905 r ∧ 6 ≤ fieldAt r.payload 8 1 ∧ fieldAt r.payload 8 1 ≤ 16 ∧ fieldAt r.payload 9 1 ≤ 3 ∧
        fieldAt r.payload 10 2 < 1024) ∧
    (let d := tLog.mod.dev; let l : LogRing := ⟨0x1000, 6, 1, 3, 0, 0⟩;
      procId (2#8).toNat = true ∧ procUp d (2#8).toNat = true ∧ d.fw.log = some l ∧ (0 : Fin 4).val < l.level ∧
        l.level ≤ (1 : Fin 4).val ∧ (BitVec.ofNat 32 l.posted - l.head).toNat < 2 ^ l.log2 - 1) ∧
    (let d := (tLog fun l => { l with posted := 63 }).mod.dev; let l : LogRing := ⟨0x1000, 6, 1, 3, 63, 0⟩;
      d.fw.log = some l ∧ 2 ^ l.log2 - 1 ≤ (BitVec.ofNat 32 l.posted - l.head).toNat) ∧
    procId (3#8).toNat = false ∧
    (let d := (tOn fun d => d.onBase fun b => { b with trcTail := 5 }).mod.dev; let head : Word32 := BitVec.ofNat 32 (regVal d.base 0xC00010);
      (5 : Word32).toNat ≤ (d.base.trcTail - head).toNat ∧ (d.base.trcTail - head).toNat < (6 : Word32).toNat) ∧
    (let r := tReq 0x0903 []; nextReq (tMbx r).mod.dev 0x0903 = some r ∧ schedUp (tMbx r).mod.dev = true) := by
  exact ⟨by decide +kernel, by decide +kernel, by decide +kernel, by decide +kernel, by decide +kernel, by decide +kernel, by decide +kernel⟩

/-- The signature block of slot 0, its keys and signatures zeros. -/
def tSig : List Byte := leBytes 4 0x4B474953 ++ zeros 17084
/-- Its length. -/
theorem length_tSig : tSig.length = 17088 := by
  have h : (leBytes 4 0x4B474953).length = 4 := rfl
  rw [tSig, List.length_append, h, zeros, List.length_replicate]

/-- An answer of the verification functions and of SHA-384 under which what the key hashes at reset sign verifies. -/
structure Signs : Prop where
  /-- Every hash is 0, as the key hashes at reset are. -/
  hash : ∀ b, Config.sha384 b = 0
  /-- RSASSA-PSS accepts. -/
  rsa : ∀ n e s m, Config.rsaVerify n e s m = true
  /-- SLH-DSA accepts. -/
  slh : ∀ k s m, Config.slhVerify k s m = true

/-- With them, an object with that block verifies under the keys at reset. -/
theorem verifies_of (h : Signs) (a : Authority) (hdr : List Byte) (sig : Nat) (hl : hdr.length = sig) :
    verifies State.reset.fuses a (hdr ++ tSig) sig = true := by
  subst hl
  have h0 : fieldAt tSig 0 4 = 0x4B474953 := by decide +kernel
  have h4 : fieldAt tSig 4 1 = 0 := by decide +kernel
  have hk : keyLive State.reset.fuses a 0 = true := by cases a <;> decide +kernel
  have hf : ∀ s, (0 : BitVec 384) = keyHash State.reset.fuses a 0 s := by intro s; cases a <;> cases s <;> decide +kernel
  simp [verifies, h.hash, h.rsa, h.slh, h0, h4, hk, length_tSig, ← hf]

/-- A bundle whose four images are empty, with an MBXMIN and a SECVER. -/
def tBundleHead (mbx : Nat) : List Byte :=
  let b := leBytes 4 0x4C444E42 ++ [0, 1] ++ leBytes 2 4 ++ leBytes 8 1 ++ leBytes 4 17216 ++ leBytes 4 128
    ++ (List.replicate 4 (leBytes 4 128 ++ zeros 4)).flatten ++ leBytes 2 mbx ++ zeros 66
  b ++ leBytes 4 (crc32c b)

/-- It passes every check of R521. -/
theorem bundle_good (h : Signs) (mbx : Nat) (hm : mbx = 0x0201 ∨ mbx = 0) :
    bundleFault State.reset.fuses (tBundleHead mbx ++ tSig) = none := by
  have hl : (tBundleHead mbx).length = 128 := by rcases hm with rfl | rfl <;> decide +kernel
  have ht : (tBundleHead mbx ++ tSig).length = 17216 := by rw [List.length_append, hl, length_tSig]
  have hs : fieldAt (tBundleHead mbx ++ tSig) 20 4 = 128 := by rcases hm with rfl | rfl <;> decide +kernel
  have hv := verifies_of h .firmware (tBundleHead mbx) 128 hl
  have hb : secverBad (fieldAt (tBundleHead mbx ++ tSig) 12 4) State.reset.fuses.svFw = false := by
    rcases hm with rfl | rfl <;> decide +kernel
  have ho : bundleOk (tBundleHead mbx ++ tSig) = true := by
    simp only [bundleOk, ht, hs]
    rcases hm with rfl | rfl <;> decide +kernel
  simp [bundleFault, ho, hs, hv, hb]

/-- Bytes at a hot DA of a module are what a mailbox message that names them gives. -/
theorem named_of (d : Dev) (b : List Byte) (p : List Byte) (da n off : Nat) (hz : n ≠ 0) (hb : b.length = n)
    (h : fieldAt p 8 4 = n ∧ fieldAt p 0 8 = da ∧ daPlace da = .hot 0 off ∧ accessFault d false da n = none ∧ daHeld d da = false ∧
      d.tier.started = false ∧ inLostSoft d da = false) : namedBytes ⟨writeRun [] da b, d⟩ p = some b := by
  obtain ⟨h1, h0, hp, ha, hh, hs, hl⟩ := h
  have hr := readRun_writeRun (m := []) da b rfl
  rw [hb] at hr
  simp [namedBytes, h0, h1, hz, hp, Mod.demandRead, ha, hh, Mod.load, hs, hl, hr]

/-- A running module, at whose DA 0x80000 the bytes lie that request `op` names. -/
def tNamed (op : Nat) (b : List Byte) (n : Nat) (f : Dev → Dev := id) : State :=
  { State.reset with mod := ⟨writeRun [] 0x80000 b, (tMbx (tReq op (leBytes 8 0x80000 ++ leBytes 4 n)) f).mod.dev⟩ }

/-- FirmwareIsLoadedAndUpdated, the bundles that pass: one in the staging buffer of a module that has none, one that an update names, and
one of another mailbox version. -/
theorem witness_FirmwareIsLoadedAndUpdated_good (h : Signs) :
    (let b := tBundleHead 0x0201 ++ tSig; let r := tReq 0x0901 (leBytes 4 17216);
      let s := tDev fun d => d.onFw fun w => { w with reqs := [r], staging := writeRun [] 0 b };
      nextReq s.mod.dev 0x0901 = some r ∧ s.mod.dev.fw.run = false ∧ s.mod.dev.fw.store = none ∧
        fieldAt r.payload 0 4 ≤ 0x2000000 ∧ bundleFault s.fuses (readRun s.mod.dev.fw.staging 0 (fieldAt r.payload 0 4)) = none) ∧
    (∀ mbx, mbx = 0x0201 ∨ mbx = 0 → let b := tBundleHead mbx ++ tSig; let s := tNamed 0x0902 b 17216;
      let r := tReq 0x0902 (leBytes 8 0x80000 ++ leBytes 4 17216);
      s.roleTakes 0 0x0902 r ∧ namedBytes s.mod r.payload = some b ∧ dbgOver s.mod.dev = false ∧ s.mod.dev.fw.update = none ∧
        bundleFault s.fuses b = none) ∧
    ((parseBundle (tBundleHead 0x0201 ++ tSig)).mbx / 256 ≠ 0 ∧ (parseBundle (tBundleHead 0 ++ tSig)).mbx / 256 = 0 ∧
      ∀ b, mbVersion (tNamed 0x0902 b 17216).mod.dev / 256 = 0) := by
  have hl : ∀ mbx, (tBundleHead mbx ++ tSig).length = 17216 := by
    intro mbx
    have h : (tBundleHead mbx).length = 128 := rfl
    rw [List.length_append, h, length_tSig]
  refine ⟨⟨by decide +kernel, by decide +kernel, by decide +kernel, by decide +kernel, ?_⟩, ?_, by decide +kernel, by decide +kernel, ?_⟩
  · have hn : fieldAt (tReq 0x0901 (leBytes 4 17216)).payload 0 4 = (tBundleHead 0x0201 ++ tSig).length := by rw [hl]; decide +kernel
    show bundleFault State.reset.fuses (readRun (writeRun [] 0 (tBundleHead 0x0201 ++ tSig)) 0 _) = none
    rw [hn, readRun_writeRun (m := []) 0 _ rfl]
    exact bundle_good h _ (.inl rfl)
  · intro mbx hm
    refine ⟨?_, ?_, ?_, ?_, bundle_good h _ hm⟩
    · show State.roleTakes (tMbx (tReq 0x0902 (leBytes 8 0x80000 ++ leBytes 4 17216))) 0 0x0902 _
      decide +kernel
    · exact named_of (tMbx (tReq 0x0902 (leBytes 8 0x80000 ++ leBytes 4 17216))).mod.dev _ _ 0x80000 17216 0x80000 (by decide +kernel) (hl mbx) (by decide +kernel)
    · show dbgOver (tMbx (tReq 0x0902 (leBytes 8 0x80000 ++ leBytes 4 17216))).mod.dev = false
      decide +kernel
    · show (tMbx (tReq 0x0902 (leBytes 8 0x80000 ++ leBytes 4 17216))).mod.dev.fw.update = none
      decide +kernel
  · intro b
    show mbVersion (tMbx (tReq 0x0902 (leBytes 8 0x80000 ++ leBytes 4 17216))).mod.dev / 256 = 0
    decide +kernel

/-- A bundle in the image store. -/
def tStored : Bundle := ⟨1, 1, 0x0201, [], []⟩
/-- A request of an opcode that has answered IN_PROGRESS. -/
def tBegun (op : Nat) : MbxReq := { tReq op [] with begun := true }

/-- FirmwareIsLoadedAndUpdated: FW_LOAD while firmware runs and with no bundle; the end of a load; FW_UPDATE of unreadable bytes, after a debug
opening, of no bundle; the end of an update with every standby and with none. -/
theorem witness_FirmwareIsLoadedAndUpdated :
    (let r := tReq 0x0901 (leBytes 4 0); let d := (tMbx r).mod.dev;
      nextReq d 0x0901 = some r ∧ d.fw.run = true ∧ schedUp d = true) ∧
    (let r := tReq 0x0901 (leBytes 4 0); let s := tDev fun d => d.onFw fun w => { w with reqs := [r] }; let d := s.mod.dev;
      nextReq d 0x0901 = some r ∧ d.fw.run = false ∧ d.fw.store = none ∧ fieldAt r.payload 0 4 ≤ 0x2000000 ∧
        bundleFault s.fuses (readRun d.fw.staging 0 (fieldAt r.payload 0 4)) = some mbBadArg) ∧
    (let d := (tDev fun d => d.onFw fun w => { w with reqs := [tBegun 0x0901], store := some tStored }).mod.dev;
      d.fw.store = some tStored ∧ begunReq d 0x0901 = some (tBegun 0x0901)) ∧
    ((tOn id).mod.dev.fw.store = none ∧ (tOn id).mod.dev.fw.update = none) ∧
    (let r := tReq 0x0902 (leBytes 8 0x10000000000000 ++ leBytes 4 64); let s := tMbx r;
      s.roleTakes 0 0x0902 r ∧ namedBytes s.mod r.payload = none) ∧
    (let r := tReq 0x0902 (zeros 12); let s := tMbx r fun d => d.onSec fun x => { x with dbg := 2 };
      s.roleTakes 0 0x0902 r ∧ namedBytes s.mod r.payload = some [] ∧ dbgOver s.mod.dev = true) ∧
    (let r := tReq 0x0902 (zeros 12); let s := tMbx r;
      s.roleTakes 0 0x0902 r ∧ namedBytes s.mod r.payload = some [] ∧ dbgOver s.mod.dev = false ∧ s.mod.dev.fw.update = none ∧
        bundleFault s.fuses [] = some mbBadArg) ∧
    (let d := (tOn fun d => d.onFw fun w => { w with reqs := [tBegun 0x0902], update := some tStored }).mod.dev;
      d.fw.update = some tStored ∧ begunReq d 0x0902 = some (tBegun 0x0902) ∧ ∀ k < 3, procUp d (standbyId d k) = true) ∧
    (let d := (tDev fun d => d.onFw fun w => { w with reqs := [tBegun 0x0902], update := some tStored }).mod.dev;
      d.fw.update = some tStored ∧ begunReq d 0x0902 = some (tBegun 0x0902) ∧ (∃ k < 3, procUp d (standbyId d k) = false) ∧
        ∀ i, (procOf d i).times = []) := by
  exact ⟨by decide +kernel, by decide +kernel, by decide +kernel, by decide +kernel, by decide +kernel, by decide +kernel, by decide +kernel,
    by decide +kernel, by decide +kernel, by decide +kernel, ⟨0, by decide +kernel, by decide +kernel⟩, fun _ => rfl⟩

/-- A running module but for one processor. -/
def tOne (id : Nat) (f : Proc → Proc) (g : Dev → Dev := fun d => d) : State := tOn fun d => g (d.modProc id f)

/-- ProcessorsRestartAndHandOver: requests for no processor, a failed one and one that runs; a watchdog of a controller, of the active
scheduler core with its standby, and of one that has restarted too often; a restart that ends; tokens with the role and without. -/
theorem witness_ProcessorsRestartAndHandOver :
    (let r := tReq 0x0904 [3]; (tMbx r).takesReq 0x0904 r ∧ procId (fieldAt r.payload 0 1) = false) ∧
    (let r := tReq 0x0904 [16]; let s := tMbx r fun d => d.modProc 16 fun p => { p with failed := true };
      s.takesReq 0x0904 r ∧ procId (fieldAt r.payload 0 1) = true ∧ (procOf s.mod.dev (fieldAt r.payload 0 1)).failed = true) ∧
    (let r := tReq 0x0904 [16]; (tMbx r).takesReq 0x0904 r ∧ procUp (tMbx r).mod.dev (fieldAt r.payload 0 1) = true) ∧
    (let d := (tOn id).mod.dev; let id := (16#8).toNat; let times := (procOf d id).times ++ [d.nowNs];
      procId id = true ∧ procUp d id = true ∧ ¬3 < (times.filter fun t => decide (d.nowNs < t + 3600000000000)).length ∧ 16 ≤ id) ∧
    (let d := (tOn id).mod.dev; let id := (2#8).toNat; let times := (procOf d id).times ++ [d.nowNs];
      procId id = true ∧ procUp d id = true ∧ ¬3 < (times.filter fun t => decide (d.nowNs < t + 3600000000000)).length ∧ id < 8 ∧
        id % 4 = 2 ∧ activeId d 2 = id ∧ procUp d (standbyId d 2) = true) ∧
    (let d := (tOne 16 fun p => { p with times := [0, 0, 0] }).mod.dev; let id := (16#8).toNat;
      let times := (procOf d id).times ++ [d.nowNs];
      procId id = true ∧ procUp d id = true ∧ 3 < (times.filter fun t => decide (d.nowNs < t + 3600000000000)).length) ∧
    (let d := (tOne 16 fun p => { p with restarting := true }).mod.dev;
      (procOf d (16#8).toNat).restarting = true ∧ (16#8).toNat ≠ activeId d 2 ∧ d.fw.held = [] ∧ (procOf d (17#8).toNat).restarting = false) ∧
    ((tOn id).mod.dev.stopped = false ∧ (tOn id).mod.dev.fw.lost.contains 2 = false) ∧
    (let s := tJob id fun d => d.onFw fun w => { w with lost := [2] }; let d := s.mod.dev;
      d.stopped = false ∧ d.fw.lost.contains 2 = true ∧ leaderOf d = some 0 ∧ discards d (leBytes 64 (0#512).toNat) = true ∧
        (discards d (leBytes 64 (tTok 3 0 0 0 0 0 0).toNat) = false ∧ (tokenOf (tTok 3 0 0 0 0 0 0)).type = 3) ∧
        (discards d (leBytes 64 (tTok 4 0 0 0 0 0 0).toNat) = false ∧ (tokenOf (tTok 4 0 0 0 0 0 0)).type = 4) ∧
        (discards d (leBytes 64 (tTok 5 0 0 0 0 0 0).toNat) = false ∧ (tokenOf (tTok 5 0 0 0 0 0 0)).type = 5) ∧
        (discards d (leBytes 64 (tTok 7 0 0 0 0 0 0).toNat) = false ∧ (tokenOf (tTok 7 0 0 0 0 0 0)).type = 7)) := by
  exact ⟨by decide +kernel, by decide +kernel, by decide +kernel, by decide +kernel, by decide +kernel, by decide +kernel, by decide +kernel,
    by decide +kernel, by decide +kernel⟩

/-- A pack of one empty case: the header, its case table at byte 128. -/
def tPackHead : List Byte :=
  let b := leBytes 4 0x4B434150 ++ [0, 1] ++ leBytes 2 1 ++ leBytes 4 5 ++ leBytes 4 0 ++ leBytes 4 17280 ++ leBytes 4 128 ++ leBytes 4 192
    ++ zeros 96
  b ++ leBytes 4 (crc32c b) ++ zeros 64

/-- PacksAndLoansAreAskedFor, a pack that passes every check of R424. -/
theorem witness_PacksAndLoansAreAskedFor_good (h : Signs) :
    let b := tPackHead ++ tSig; let s := tNamed 0x0701 b 17280; let r := tReq 0x0701 (leBytes 8 0x80000 ++ leBytes 4 17280)
    s.roleTakes 0 0x0701 r ∧ namedBytes s.mod r.payload = some b ∧ packFault s.fuses s.mod.dev b false = none := by
  have hh : tPackHead.length = 192 := by decide +kernel
  have hl : (tPackHead ++ tSig).length = 17280 := by rw [List.length_append, hh, length_tSig]
  refine ⟨?_, named_of (tMbx (tReq 0x0701 (leBytes 8 0x80000 ++ leBytes 4 17280))).mod.dev _ _ 0x80000 17280 0x80000 (by decide +kernel) hl (by decide +kernel), ?_⟩
  · show State.roleTakes (tMbx (tReq 0x0701 (leBytes 8 0x80000 ++ leBytes 4 17280))) 0 0x0701 _
    decide +kernel
  · show packFault State.reset.fuses (tMbx (tReq 0x0701 (leBytes 8 0x80000 ++ leBytes 4 17280))).mod.dev (tPackHead ++ tSig) false = none
    have hs : fieldAt (tPackHead ++ tSig) 24 4 = 192 := by decide +kernel
    simp only [packFault, hs, verifies_of h .firmware tPackHead 192 hh, hl]
    decide +kernel

/-- A running module with a request about loans. -/
def tAsk (r : MbxReq) (f : FabState → FabState) (g : Dev → Dev := id) : State := tMbx r fun d => g (d.onFab f)

/-- PacksAndLoansAreAskedFor: bytes that cannot be read, and no pack; loan requests of no lender, of one for a window that is bound, asked for,
free; returns; revokes. -/
theorem witness_PacksAndLoansAreAskedFor :
    (let r := tReq 0x0701 (leBytes 8 0x10000000000000 ++ leBytes 4 64); let s := tMbx r;
      s.roleTakes 0 0x0701 r ∧ namedBytes s.mod r.payload = none) ∧
    (let r := tReq 0x0701 (zeros 12); let s := tMbx r;
      s.roleTakes 0 0x0701 r ∧ namedBytes s.mod r.payload = some [] ∧ packFault s.fuses s.mod.dev [] false = some 0) ∧
    (let r := tReq 0x0801 (zeros 9); (tMbx r).quietFabric = true ∧ (tMbx r).takesReq 0x0801 r ∧ fieldAt r.payload 4 4 = 0) ∧
    (let r := tReq 0x0801 [4, 0, 1, 0, 1, 0, 0, 0, 2]; let w := fieldAt r.payload 8 1; let s := tAsk r id; let d := s.mod.dev;
      s.quietFabric = true ∧ s.takesReq 0x0801 r ∧ namedLender d r.payload = some 4 ∧ w < 16 ∧ fieldAt r.payload 4 4 ≠ 0 ∧
        4 ≠ d.fab.modid ∧ kfind d.tier.windows w = none ∧ (∀ a ∈ d.fab.asks, a.window ≠ w)) ∧
    (let r := tReq 0x0801 [4, 0, 1, 0, 1, 0, 0, 0, 2]; let s := tAsk r id (tWindow id); let d := s.mod.dev;
      s.takesReq 0x0801 r ∧ namedLender d r.payload = some 4 ∧ kfind d.tier.windows 2 ≠ none ∧ ∀ a ∈ d.fab.asks, a.window ≠ 2) ∧
    (let r := tReq 0x0801 [4, 0, 1, 0, 1, 0, 0, 0, 2]; let s := tAsk r fun k => { k with asks := [⟨4, 2, 1, 7⟩] };
      s.takesReq 0x0801 r ∧ ∃ a ∈ s.mod.dev.fab.asks, a.window = 2) ∧
    (let r := tReq 0x0802 [2]; let s := tMbx r;
      s.quietFabric = true ∧ s.takesReq 0x0802 r ∧ kfind s.mod.dev.tier.windows (fieldAt r.payload 0 1) = none) ∧
    (let r := tReq 0x0802 [2]; let s := tAsk r id (tWindow id);
      s.takesReq 0x0802 r ∧ kfind s.mod.dev.tier.windows 2 = some ⟨0, 4, 1, 5, none⟩ ∧ lentIn s.mod.dev.tier 2 = []) ∧
    (let r := tReq 0x0803 (zeros 4); let s := tMbx r; s.takesReq 0x0803 r ∧ s.mod.dev.fab.loans = []) ∧
    (let r := tReq 0x0803 (zeros 4); let s := tAsk r fun k => { k with loans := [tLoan] };
      s.takesReq 0x0803 r ∧ (s.mod.dev.fab.loans.find? fun l => l.id = fieldAt r.payload 0 4) = some tLoan ∧ tLoan.deadline = none) ∧
    (let r := tReq 0x0803 (zeros 4); let l := { tLoan with deadline := some 9 }; let s := tAsk r fun k => { k with loans := [l] };
      s.takesReq 0x0803 r ∧ (s.mod.dev.fab.loans.find? fun l => l.id = fieldAt r.payload 0 4) = some l ∧ l.deadline ≠ none) := by
  refine ⟨by decide +kernel, by decide +kernel, by decide +kernel, by decide +kernel, by decide +kernel, by decide +kernel, by decide +kernel,
    by decide +kernel, by decide +kernel, by decide +kernel, by decide +kernel⟩

/-- A token of an operation with an ARG, for DEVID 0 and the nonce of zeros. -/
def tTokenHead (op arg : Byte) : List Byte :=
  let b := leBytes 4 0x4E4B4244 ++ [0, 1, op, arg] ++ zeros 116
  b ++ leBytes 4 (crc32c b)

/-- A module that waits for a token with that nonce passes one that its key hashes sign. -/
theorem token_good (h : Signs) (a : Authority) (d : Dev) (hn : d.sec.nonce = some (zeros 32)) (op arg : Byte)
    (ho : (op, arg) = (1, 1) ∨ (op, arg) = (2, 2) ∨ (op, arg) = (3, 2) ∨ (op, arg) = (3, 1)) :
    tokenFault State.reset.fuses d op.toNat a (tTokenHead op arg ++ tSig) = none := by
  have hl : (tTokenHead op arg).length = 128 := by rcases ho with h | h | h | h <;> cases h <;> decide +kernel
  have hv := verifies_of h a (tTokenHead op arg) 128 hl
  have h1 : ¬(fieldAt (tTokenHead op arg ++ tSig) 0 4 ≠ 0x4E4B4244 ∨ fieldAt (tTokenHead op arg ++ tSig) 5 1 ≠ 1 ∨
      fieldAt (tTokenHead op arg ++ tSig) 6 1 ≠ op.toNat ∨ ¬((((tTokenHead op arg ++ tSig).drop 56).take 68).all (· == 0#8))
      ∨ crc32c ((tTokenHead op arg ++ tSig).take 124) ≠ fieldAt (tTokenHead op arg ++ tSig) 124 4) := by
    rcases ho with h | h | h | h <;> cases h <;> decide +kernel
  have h2 : fieldAt (tTokenHead op arg ++ tSig) 8 16 = State.reset.fuses.devid.toNat := by
    rcases ho with h | h | h | h <;> cases h <;> decide +kernel
  have h3 : ((tTokenHead op arg ++ tSig).drop 24).take 32 = zeros 32 := by
    rcases ho with h | h | h | h <;> cases h <;> decide +kernel
  rw [tokenFault, if_neg h1, h3, hn, if_neg (by simp [h2]), hv]
  rfl

/-- A running module that holds that nonce, and at whose DA 0x80000 a token lies that request `op` names. -/
def tNonce (op : Nat) (b : List Byte) : State := tNamed op b 17216 fun d => d.onSec fun x => { x with nonce := some (zeros 32) }

/-- FuseTokensActOnce, the tokens that pass: LIFECYCLE_ADVANCE, KEY_REVOKE of another slot and of the signing one, DEBUG_UNLOCK. -/
theorem witness_FuseTokensActOnce_good (h : Signs) :
    let r := fun op => tReq op (leBytes 8 0x80000 ++ leBytes 4 17216)
    let ready := fun (op : Nat) (b : List Byte) =>
      (tNonce op b).roleTakes 0 op (r op) ∧ namedBytes (tNonce op b).mod (r op).payload = some b ∧ tokensOff (tNonce op b).mod.dev = false
    (let b := tTokenHead 2 2 ++ tSig;
      ready 0x0A04 b ∧ tokenFault (tNonce 0x0A04 b).fuses (tNonce 0x0A04 b).mod.dev 2 .firmware b = none ∧ fieldAt b 7 1 = 2) ∧
    (let b := tTokenHead 3 2 ++ tSig; let s := tNonce 0x0A05 b;
      ready 0x0A05 b ∧ tokenFault s.fuses s.mod.dev 3 .firmware b = none ∧ fieldAt b 7 1 < 16 ∧
        bitOf (fieldAt b 7 1) (sigSlot b 128) = false ∧ s.fuses.fwRevoke ||| BitVec.ofNat 4 (fieldAt b 7 1) ≠ 15) ∧
    (let b := tTokenHead 3 1 ++ tSig; let s := tNonce 0x0A05 b;
      ready 0x0A05 b ∧ tokenFault s.fuses s.mod.dev 3 .firmware b = none ∧ bitOf (fieldAt b 7 1) (sigSlot b 128) = true) ∧
    (let b := tTokenHead 1 1 ++ tSig; let s := tNonce 0x0A02 b; let d := s.mod.dev;
      ready 0x0A02 b ∧ tokenFault s.fuses d 1 .debug b = none ∧ fieldAt b 7 1 < 16 ∧ d.base.lockHif = false ∧ d.hif.descs = [] ∧
        d.sec.locks.getLsbD 0 = false ∧ d.sec.dbg ≠ 1) := by
  have hl : ∀ op arg, (tTokenHead op arg ++ tSig).length = 17216 := by
    intro op arg
    have h : (tTokenHead op arg).length = 128 := rfl
    rw [List.length_append, h, length_tSig]
  let dev := fun op => (tMbx (tReq op (leBytes 8 0x80000 ++ leBytes 4 17216))
    fun d => d.onSec fun x => { x with nonce := some (zeros 32) }).mod.dev
  have ready : ∀ op, op = 0x0A04 ∨ op = 0x0A05 ∨ op = 0x0A02 → ∀ o a,
      let b := tTokenHead o a ++ tSig
      (tNonce op b).roleTakes 0 op (tReq op (leBytes 8 0x80000 ++ leBytes 4 17216)) ∧
      namedBytes (tNonce op b).mod (tReq op (leBytes 8 0x80000 ++ leBytes 4 17216)).payload = some b ∧
      tokensOff (tNonce op b).mod.dev = false := by
    intro op ho o a
    refine ⟨?_, named_of (dev op) _ _ 0x80000 17216 0x80000 (by decide +kernel) (hl o a) ?_, ?_⟩
    · show State.roleTakes (tMbx (tReq op (leBytes 8 0x80000 ++ leBytes 4 17216))
        fun d => d.onSec fun x => { x with nonce := some (zeros 32) }) 0 op _
      rcases ho with rfl | rfl | rfl <;> decide +kernel
    · rcases ho with rfl | rfl | rfl <;> decide +kernel
    · show tokensOff (dev op) = false
      rcases ho with rfl | rfl | rfl <;> decide +kernel
  refine ⟨⟨ready _ (.inl rfl) _ _, token_good h _ _ rfl 2 2 (.inr (.inl rfl)), by decide +kernel⟩,
    ⟨ready _ (.inr (.inl rfl)) _ _, token_good h _ _ rfl 3 2 (.inr (.inr (.inl rfl))), by decide +kernel, by decide +kernel, by decide +kernel⟩,
    ⟨ready _ (.inr (.inl rfl)) _ _, token_good h _ _ rfl 3 1 (.inr (.inr (.inr rfl))), by decide +kernel⟩,
    ⟨ready _ (.inr (.inr rfl)) _ _, token_good h _ _ rfl 1 1 (.inl rfl), by decide +kernel, ?_⟩⟩
  show (dev 0x0A02).base.lockHif = false ∧ (dev 0x0A02).hif.descs = [] ∧ (dev 0x0A02).sec.locks.getLsbD 0 = false ∧ (dev 0x0A02).sec.dbg ≠ 1
  exact ⟨rfl, rfl, by decide +kernel, by decide +kernel⟩

/-- FuseTokensActOnce: a challenge; operations after a debug opening; a token that fails; DEBUG_UNLOCK with setup locked; the scrub of an
erasure and none. -/
theorem witness_FuseTokensActOnce :
    (let r := tReq 0x0A01 []; (tMbx r).roleTakes 0 0x0A01 r) ∧
    (let r := tReq 0x0A04 (zeros 12); let s := tMbx r fun d => d.onSec fun x => { x with dbg := 2 };
      s.roleTakes 0 0x0A04 r ∧ tokensOff s.mod.dev = true) ∧
    (let r := tReq 0x0A04 (zeros 12); let s := tMbx r;
      s.roleTakes 0 0x0A04 r ∧ tokensOff s.mod.dev = false ∧ namedBytes s.mod r.payload = some [] ∧
        tokenFault s.fuses s.mod.dev 2 .firmware [] = some mbBadArg) ∧
    (let r := tReq 0x0A05 (zeros 12); let s := tMbx r fun d => d.onSec fun x => { x with dbg := 2 };
      s.roleTakes 0 0x0A05 r ∧ tokensOff s.mod.dev = true) ∧
    (let r := tReq 0x0A02 (zeros 12); let s := tMbx r fun d => d.onBase fun b => { b with lockHif := true };
      s.roleTakes 0 0x0A02 r ∧ s.mod.dev.base.lockHif = true) ∧
    (tOn id).mod.dev.sec.dbg ≠ 1 ∧
    (let d := (tOn fun d => d.onSec fun x => { x with dbg := 1 }).mod.dev;
      d.sec.dbg = 1 ∧ d.pwr.holding = false ∧ begunReq d 0x0A02 = none) := by
  exact ⟨by decide +kernel, by decide +kernel, by decide +kernel, by decide +kernel, by decide +kernel, by decide +kernel, by decide +kernel⟩

/-- A running module whose security core is as given. -/
def tSec (f : SecState → SecState) (d : Dev) : Dev := d.onSec f
/-- Every processor that runs runs SECVER 2. -/
def tSecver (d : Dev) : Dev := d.onFw fun w => { w with procs := w.procs.map fun p => (p.1, { p.2 with secver := 2 }) }

/-- SecurityOperationsAnswer: commits of no kind, after an opening, during an update, of what the fuse has and of more, of both kinds;
CERT_SET when locked and not (what the chain is worth is for Config.certOk to say); measurements; SPDM with no chain and with one, with four sessions and with none; a signature asked for and none; the
debug port. -/
theorem witness_SecurityOperationsAnswer :
    (let r := tReq 0x0A03 [2]; (tMbx r).roleTakes 0 0x0A03 r ∧ 1 < fieldAt r.payload 0 1) ∧
    (let r := tReq 0x0A03 [0]; let s := tMbx r (tSec fun x => { x with dbg := 2 });
      s.roleTakes 0 0x0A03 r ∧ fieldAt r.payload 0 1 ≤ 1 ∧ tokensOff s.mod.dev = true) ∧
    (let r := tReq 0x0A03 [0]; let s := tMbx r fun d => d.onFw fun w => { w with update := some tStored };
      s.roleTakes 0 0x0A03 r ∧ fieldAt r.payload 0 1 ≤ 1 ∧ tokensOff s.mod.dev = false ∧ s.mod.dev.fw.update ≠ none) ∧
    (let r := tReq 0x0A03 [0]; let s := tMbx r;
      s.roleTakes 0 0x0A03 r ∧ fieldAt r.payload 0 1 = 0 ∧ s.mod.dev.fw.update = none ∧ runningSecver s.mod.dev = some 0 ∧
        0 ≤ s.fuses.svFw) ∧
    (let r := tReq 0x0A03 [0]; let s := tMbx r tSecver;
      s.roleTakes 0 0x0A03 r ∧ runningSecver s.mod.dev = some 2 ∧ s.fuses.svFw < 2) ∧
    (let r := tReq 0x0A03 [1]; let s := tMbx r fun d => d.onChk fun k => { k with pack := some tPack };
      s.roleTakes 0 0x0A03 r ∧ fieldAt r.payload 0 1 = 1 ∧ s.mod.dev.chk.pack = some tPack ∧ tPack.secver ≤ s.fuses.svPack) ∧
    (let r := tReq 0x0A03 [1]; let p := { tPack with secver := 3 }; let s := tMbx r fun d => d.onChk fun k => { k with pack := some p };
      s.roleTakes 0 0x0A03 r ∧ s.mod.dev.chk.pack = some p ∧ s.fuses.svPack < p.secver) ∧
    (let r := tReq 0x0A06 (zeros 12); let s := tMbx r (tSec fun x => { x with locks := 2 });
      s.roleTakes 0 0x0A06 r ∧ s.mod.dev.sec.locks.getLsbD 1 = true) ∧
    (let r := tReq 0x0A06 (zeros 12); let s := tMbx r;
      s.roleTakes 0 0x0A06 r ∧ s.mod.dev.sec.locks.getLsbD 1 = false ∧ fieldAt r.payload 8 4 ≤ 0x10000 ∧ namedBytes s.mod r.payload = some []) ∧
    ((tMbx (tReq 0x0A07 [0])).roleTakes 0 0x0A07 (tReq 0x0A07 [0]) ∧ fieldAt (tReq 0x0A07 [0]).payload 0 1 = 0) ∧
    ((tMbx (tReq 0x0A07 [9])).roleTakes 0 0x0A07 (tReq 0x0A07 [9]) ∧ 1 ≤ fieldAt (tReq 0x0A07 [9]).payload 0 1 ∧
      fieldAt (tReq 0x0A07 [9]).payload 0 1 ≤ 9) ∧
    ((tOn id).mod.dev.hifUp = true ∧ secUp (tOn id).mod.dev = true ∧ (tOn id).mod.dev.sec.cert = none ∧ fieldAt [0x12, 0x83] 1 1 = 0x83 ∧
      kfind (tOn id).mod.dev.sec.signed 1 = none ∧ (tOn id).mod.dev.sec.dbg ≠ 2) ∧
    (let d := (tOn (tSec fun x => { x with cert := some [] })).mod.dev;
      secUp d = true ∧ d.sec.cert ≠ none ∧ spdmUnsupported (fieldAt [0x12, 0x81] 1 1) = false ∧ fieldAt [0x12, 0x81] 1 1 ≠ 0xE4 ∧
        fieldAt [0x12, 0xE4] 1 1 = 0xE4 ∧ d.sec.sessions.length < 4) ∧
    (let d := (tOn (tSec fun x => { x with cert := some [], sessions := List.replicate 4 ⟨1, true, true⟩ })).mod.dev;
      secUp d = true ∧ d.sec.cert ≠ none ∧ 4 ≤ d.sec.sessions.length) ∧
    kfind (tOn (tSec fun x => { x with signed := [(1, [])] })).mod.dev.sec.signed 1 = some [] ∧
    (let d := (tOn (tSec fun x => { x with dbg := 2, scope := 1 })).mod.dev;
      d.sec.dbg = 2 ∧ bitOf d.sec.scope (0 : Fin 4) = true ∧ bitOf d.sec.scope (1 : Fin 4) = false) := by
  exact ⟨by decide +kernel, by decide +kernel, by decide +kernel, by decide +kernel, by decide +kernel, by decide +kernel, by decide +kernel,
    by decide +kernel, by decide +kernel, by decide +kernel, by decide +kernel, by decide +kernel, by decide +kernel, by decide +kernel,
    by decide +kernel, by decide +kernel⟩

/-- A running module but for a change of clocks, power and reset. -/
def tPwr (f : PwrState → PwrState) (g : Dev → Dev := id) : State := tOn fun d => g (d.onPwr f)

/-- PowerAndHeatAreHeldBack: the four bands of input power about the limit, from a fraction of 0 and another one; no power core; CAP_SET within
and outside its range; PWR_STATUS; junctions over THROTTLE, below it, and between; the four cases of the input voltage. -/
theorem witness_PowerAndHeatAreHeldBack :
    (let d := (tPwr fun p => { p with f := 5 }).mod.dev; let lim := min (cfgPwrCapCfgLimit d.base) (d.pwr.limit.getD (cfgPwrCapCfgLimit d.base));
      d.stopped = false ∧ powerUp d = true ∧ 1000 * (lim + 100) < 3000000 ∧
        (1000 * lim < 1000 * lim + 1 ∧ 1000 * lim + 1 ≤ 1000 * (lim + 100)) ∧
        (1000 ≤ 1000 * lim ∧ 1000 + 50000 < 1000 * lim) ∧ (1000 * lim ≤ 1000 * lim ∧ 1000 * lim ≤ 1000 * lim + 50000)) ∧
    (let d := (tDev fun d => d.onPwr fun p => { p with perst := false }).mod.dev; d.stopped = false ∧ powerUp d = false) ∧
    (let r := tReq 0x0B02 [0xB0, 4]; let s := tMbx r;
      s.roleTakes 1 0x0B02 r ∧ 1200 ≤ fieldAt r.payload 0 2 ∧ fieldAt r.payload 0 2 ≤ cfgPwrCapCfgLimit s.mod.dev.base) ∧
    (let r := tReq 0x0B02 [0xAF, 4]; (tMbx r).roleTakes 1 0x0B02 r ∧ fieldAt r.payload 0 2 < 1200) ∧
    (let r := tReq 0x0B01 []; (tMbx r).roleTakes 1 0x0B01 r) ∧
    (let d := (tOn id).mod.dev; let th := cfgPwrThermCfgThrottle d.base; let temps := [th, th - 1, th - 4, th + 5, 0, 0, 0, 0, 0];
      powerUp d = true ∧ temps.length = 9 ∧ th ≤ nth 0 temps 0 ∧ (nth 0 temps 1 < th ∧ th ≤ nth 0 temps 1 + 3) ∧ nth 0 temps 2 + 3 < th) ∧
    (let d := (tOn id).mod.dev; let v := cfgPwrVoltCfgBrownv d.base; d.pwr.brown = false ∧ v - 1 < v) ∧
    (let d := (tPwr fun p => { p with brown := true }).mod.dev; let v := cfgPwrVoltCfgBrownv d.base;
      d.pwr.brown = true ∧ v + 10 ≤ v + 10 ∧ v + 9 < v + 10) := by
  exact ⟨by decide +kernel, by decide +kernel, by decide +kernel, by decide +kernel, by decide +kernel, by decide +kernel, by decide +kernel,
    by decide +kernel⟩

/-- ProtectiveActionsAndDomainCycles: a trip that is hot and one that is not; a power fail; the clock lost; DOMAIN_CYCLE in a protective action,
of no domain, while one runs, and at once; a quadrant due while another domain is cycled; the end of a cycle of PD_HIF, of a flash
controller's and of an engine's domain. -/
theorem witness_ProtectiveActionsAndDomainCycles :
    (let d := (tOn id).mod.dev;
      d.pwr.powered = true ∧ d.pwr.clkLost = false ∧ d.pwr.trip = false ∧ d.pwr.pfail = false ∧ (if true = true then 105 else 110) ≤ 105 ∧
        104 < (if true = true then 105 else 110) ∧ 399 < cfgPwrVoltCfgPfailv d.base ∧ cfgPwrVoltCfgPfailv d.base ≤ 470 ∧
        d.pwr.cycle = none) ∧
    (tPwr fun p => { p with clkLost := true }).mod.dev.pwr.clkLost = true ∧
    (let r := tReq 0x0B03 [20]; let s := tMbx r fun d => d.onPwr fun p => { p with trip := true }; let d := s.mod.dev;
      s.takesReq 0x0B03 r ∧ powerUp d = true ∧ d.stopped = true ∧ fieldAt r.payload 0 1 < 30) ∧
    (let r := tReq 0x0B03 [30]; let d := (tMbx r).mod.dev;
      (tMbx r).takesReq 0x0B03 r ∧ powerUp d = true ∧ d.stopped = false ∧ 30 ≤ fieldAt r.payload 0 1 ∧ d.pwr.waiting = []) ∧
    (let r := tReq 0x0B03 [20]; let s := tMbx r fun d => d.onPwr fun p => { p with cycle := some ⟨3, none⟩ }; let d := s.mod.dev;
      s.takesReq 0x0B03 r ∧ powerUp d = true ∧ d.stopped = false ∧ fieldAt r.payload 0 1 < 30 ∧ d.pwr.cycle = some ⟨3, none⟩) ∧
    (∀ n ∈ [(20 : Byte), 25], let r := tReq 0x0B03 [n]; let d := (tMbx r).mod.dev;
      (tMbx r).takesReq 0x0B03 r ∧ powerUp d = true ∧ d.stopped = false ∧ fieldAt r.payload 0 1 = n.toNat ∧ d.pwr.cycle = none ∧
        d.pwr.waiting = []) ∧
    (let d := (tPwr (fun p => { p with cycle := some ⟨20, none⟩ }) fun d => d.onChk fun k => { k with quadConv := [(0, [0, 0, 0])] }).mod.dev;
      d.stopped = false ∧ d.pwr.cycle = some ⟨20, none⟩ ∧ quadDue d 0 = true ∧ 20 ≠ (0 : Fin 16).val ∧
        (∀ w ∈ d.pwr.waiting, w.dom ≠ (0 : Fin 16).val) ∧ quadDue d 1 = false) ∧
    (∀ n ∈ [20, 25, 26], let d := (tPwr fun p => { p with cycle := some ⟨n, none⟩ }).mod.dev;
      d.stopped = false ∧ d.pwr.cycle = some ⟨n, none⟩ ∧ (⟨n, none⟩ : CycleReq).tag = none ∧ d.pwr.waiting = []) := by
  exact ⟨by decide +kernel, by decide +kernel, by decide +kernel, by decide +kernel, by decide +kernel, by decide +kernel, by decide +kernel,
    by decide +kernel⟩

/-- ResetsKeepWhatTable155Says: a module with power and without; a link reset acted on, with KEEP_HOT and without, and held by an erasure and
by a trip; the straps; a hold that ends, and a trip that stays too hot. -/
theorem witness_ResetsKeepWhatTable155Says :
    (let d := (tOn id).mod.dev;
      d.pwr.powered = true ∧ d.pwr.clkLost = false ∧ d.pwr.perst = false ∧ d.pwr.trip = false ∧ d.pwr.pfail = false ∧ d.sec.dbg ≠ 1 ∧
        cfgPwrRstCfgKeepHot d.base ≠ 1 ∧ d.pwr.holding = false) ∧
    cfgPwrRstCfgKeepHot (tOn fun d => d.onBase fun b => { b with regs := [(0x900018, 1)] }).mod.dev.base = 1 ∧
    (let d := (tOn (tSec fun x => { x with dbg := 1 })).mod.dev;
      d.pwr.powered = true ∧ d.pwr.clkLost = false ∧ d.pwr.perst = false ∧ d.sec.dbg = 1) ∧
    (let d := (tPwr fun p => { p with trip := true }).mod.dev;
      d.pwr.powered = true ∧ d.pwr.clkLost = false ∧ d.pwr.perst = false ∧ d.pwr.trip = true ∧ coolEnough d = false) ∧
    (State.reset.mod.dev.pwr.powered = true ∧ State.reset.mod.dev.pwr.perst = true) ∧
    (let d := (tPwr fun p => { p with holding := true, trip := true }).mod.dev; let cool := List.replicate 9 20; let hot := List.replicate 9 200;
      d.pwr.holding = true ∧ cool.length = 9 ∧ hot.length = 9 ∧ d.sec.dbg ≠ 1 ∧ (∀ t ∈ cool, t + 10 < cfgPwrThermCfgThrottle d.base) ∧
        cfgPwrVoltCfgBrownv d.base ≤ 540 ∧ (∃ t ∈ hot, cfgPwrThermCfgThrottle d.base ≤ t + 10) ∧ d.pwr.trip = true) ∧
    (tPwr fun p => { p with powered := false }).mod.dev.pwr.powered = false := by
  exact ⟨by decide +kernel, by decide +kernel, by decide +kernel, by decide +kernel, by decide +kernel, by decide +kernel, by decide +kernel⟩

/-- StagesLeadToReady: the boot ROM at reset, a stage that is not due, domains of which one failed, the link, the engine. -/
theorem witness_StagesLeadToReady :
    (let d := State.reset.mod.dev;
      d.stopped = false ∧ d.pwr.holding = false ∧ stageNo .bootRom ∉ d.pwr.stages ∧ stageDue d (stageNo .bootRom) = true ∧
        d.hif.ready = false ∧ stageDue d (stageNo .fabric) = false) ∧
    (let d := (tPwr fun p => { p with stages := [1, 3] }).mod.dev; let failed : List (Fin 30) := [3];
      d.stopped = false ∧ d.pwr.holding = false ∧ stageNo (.domains failed) ∉ d.pwr.stages ∧ stageDue d (stageNo (.domains failed)) = true ∧
        (∃ k ∈ failed, k.val < 21) ∧ stageNo (.link 1 1) ∉ d.pwr.stages ∧ stageDue d (stageNo (.link 1 1)) = true) ∧
    (let d := (tPwr (fun p => { p with stages := [1, 2, 3, 4, 5, 6, 7, 8, 10] }) fun d => d.onBase fun b => { b with lockAll := true }).mod.dev;
      d.stopped = false ∧ d.pwr.holding = false ∧ stageNo .engine ∉ d.pwr.stages ∧ stageDue d (stageNo .engine) = true) := by
  exact ⟨by decide +kernel, by decide +kernel, by decide +kernel⟩

/-- A running module but for a change of the sideband and of the tiers. -/
def tHw (f : HwState → HwState) (g : TierState → TierState := id) (h : Dev → Dev := id) : State :=
  tOn fun d => h ({ d with hw := f d.hw, tier := g d.tier })
/-- READY. -/
def tReady (d : Dev) : Dev := d.onHif fun h => { h with ready := true }

/-- SlotsAndBaysFollowTheirParts: a module with power; parts inserted into empty slots before READY and after it, genuine and not; parts
already there; slots that are live and not; a latch opened on a bay in service and on an empty one, and closed while it is emptied. -/
theorem witness_SlotsAndBaysFollowTheirParts :
    (let d := (tOn id).mod.dev;
      d.pwr.powered = true ∧ kfind d.hw.present (0 : Fin 20) = none ∧ d.hif.ready = false ∧ slotLive d (0 : Fin 20) = false ∧
        (0 : Fin 4).val ∉ d.hw.latch ∧ (cartOf d.tier (0 : Fin 4)).st ≠ .inService) ∧
    (∀ u ∈ [(0 : Fin 20), 16], let d := (tHw id (fun t => { t with capCh := 64 }) tReady).mod.dev;
      d.pwr.powered = true ∧ kfind d.hw.present u = none ∧ d.hif.ready = true ∧ d.stopped = false ∧ d.sec.dbg = 0 ∧ latchOpen d u = false ∧
        slotSt d u = .empty ∧ (∀ x ∈ d.hw.found, x.1 ≠ u.val) ∧ d.tier.capCh ≤ 64 ∧ 32 < d.tier.capCh) ∧
    (let d := (tHw fun h => { h with present := [(0, 64)] }).mod.dev; kfind d.hw.present (0 : Fin 20) ≠ none) ∧
    (let d := (tHw id fun t => { t with ddr := [(0, { Ddr.reset with st := .returning })] }).mod.dev;
      d.stopped = false ∧ slotSt d (0 : Fin 20) = .returning ∧ slotLive d (0 : Fin 20) = true) ∧
    (let d := (tHw id fun t => { t with ddr := [(0, { Ddr.reset with st := .inService })] }).mod.dev;
      d.stopped = false ∧ slotSt d (0 : Fin 20) = .inService ∧ ∀ e ∈ d.tier.evacs, e.unit ≠ (0 : Fin 20).val) ∧
    (let d := (tHw id fun t => { t with carts := [(3, { Cart.reset with st := .inService })] }).mod.dev;
      d.pwr.powered = true ∧ (3 : Fin 4).val ∉ d.hw.latch ∧ (cartOf d.tier (3 : Fin 4)).st = .inService ∧ d.stopped = false) ∧
    (let d := (tHw id fun t => { t with evacs := [⟨2, 3, none⟩] }).mod.dev;
      (d.tier.evacs.any fun e => decide (e.kind = 2 ∧ e.unit = (3 : Fin 4).val ∧ e.tag = none)) = true) := by
  exact ⟨by decide +kernel, by decide +kernel, by decide +kernel, by decide +kernel, by decide +kernel, by decide +kernel, by decide +kernel⟩

/-- EffectersActAsR593Says: limits within the range and outside it, by the effecter and by CAP_SET. -/
theorem witness_EffectersActAsR593Says :
    let r := fun (l : List Byte) => tReq 0x0B02 l; let d := (tOn id).mod.dev
    (1 ∈ d.pwr.stages ∧ d.fw.run = true ∧ schedUp d = true ∧ 1200 ≤ (1200#16).toNat ∧ (1200#16).toNat ≤ cfgPwrCapCfgLimit d.base ∧
      (1199#16).toNat < 1200) ∧
    ((tMbx (r [0xB0, 4])).roleTakes 1 0x0B02 (r [0xB0, 4]) ∧ 1200 ≤ fieldAt (r [0xB0, 4]).payload 0 2 ∧
      fieldAt (r [0xB0, 4]).payload 0 2 ≤ cfgPwrCapCfgLimit (tMbx (r [0xB0, 4])).mod.dev.base) ∧
    ((tMbx (r [0, 0])).roleTakes 1 0x0B02 (r [0, 0]) ∧ fieldAt (r [0, 0]).payload 0 2 < 1200) := by
  exact ⟨by decide +kernel, by decide +kernel, by decide +kernel⟩

/-- ManagementBusAndSnapshots: a module at reset and one that runs; control messages known and not; PLDM before the firmware runs, of an unknown
command, and a poll; a sensor whose band is the one reported and another one, with a receiver, with room and with a full queue; a snapshot
before the lock, and one of an area in the soft band. -/
theorem witness_ManagementBusAndSnapshots :
    (1 ∉ State.reset.mod.dev.pwr.stages ∧ 1 ∈ (tOn id).mod.dev.pwr.stages ∧ fieldAt [0x80, 6] 1 1 = 6 ∧ fieldAt [0x80, 1] 1 1 = 1) ∧
    (let d := (tDev fun d => d.onPwr fun p => { p with stages := [1] }).mod.dev;
      1 ∈ d.pwr.stages ∧ d.fw.run = false ∧ fieldAt [0x80, 2, 0x11] 1 1 % 64 = 2) ∧
    (let d := (tOn id).mod.dev;
      d.fw.run = true ∧ schedUp d = true ∧ pldmKnown (fieldAt [0x80, 2, 0xFF] 1 1 % 64) (fieldAt [0x80, 2, 0xFF] 2 1) = false ∧
        fieldAt [0x80, 2, 0x0B] 1 1 % 64 = 2 ∧ fieldAt [0x80, 2, 0x0B] 2 1 = 0x0B ∧ d.hw.receiver = none) ∧
    (let d := (tOn id).mod.dev;
      sensorState d (21#8).toNat 0 = some 0 ∧ kget 0 d.hw.bands (21#8).toNat = 0 ∧ sensorState d (21#8).toNat 111 = some 2 ∧
        kget 0 d.hw.bands (21#8).toNat ≠ 2 ∧ d.hw.receiver = none ∧ d.hw.events.length < 64) ∧
    (let d := (tHw fun h => { h with receiver := some 9 }).mod.dev;
      d.hw.receiver = some 9 ∧ d.fw.run = true ∧ schedUp d = true ∧ sensorState d (21#8).toNat 111 = some 2 ∧
        kget 0 d.hw.bands (21#8).toNat ≠ 2) ∧
    (let d := (tHw fun h => { h with events := List.replicate 64 ⟨1, 1, 1⟩ }).mod.dev;
      d.hw.receiver = none ∧ d.hw.events = ⟨1, 1, 1⟩ :: List.replicate 63 ⟨1, 1, 1⟩ ∧ 63 ≤ (List.replicate 63 (⟨1, 1, 1⟩ : PlatEvent)).length) ∧
    ((tOn id).mod.dev.stopped = false ∧ (tOn id).mod.dev.base.lockAll = false) ∧
    (let d := (tOn fun d => d.onBase fun b => { b with lockAll := true, regs := [(0x300210, 1), (0xD00000, 1)] }).mod.dev;
      d.stopped = false ∧ d.base.lockAll = true ∧ cfgEvtSnapBaseEn d.base = 1 ∧
        inHotSoft d.base d.tier (cfgEvtSnapBaseBase d.base * 0x100000) 0x100000 = true ∧ d.tier.softLost = []) := by
  exact ⟨by decide +kernel, by decide +kernel, by decide +kernel, by decide +kernel, by decide +kernel, by decide +kernel, by decide +kernel,
    by decide +kernel⟩

/-- FusesOnlyBlow and StepsKeepFusesLegal: a step that answers with legal fuses, and a commit that blows one. -/
theorem witness_FusesOnlyBlow :
    ((∃ s', exec (.fstop 0 0 0) State.reset = .next s') ∧ State.reset.fuses.legal = true) ∧
    (let s := tMbx (tReq 0x0A03 [0]) tSecver;
      roleUp s.mod.dev 0 = true ∧ ∃ s', exec .secverCommit s = .next s' ∧ s'.fuses ≠ s.fuses) := by
  refine ⟨⟨⟨_, rfl⟩, by decide +kernel⟩, by decide +kernel, _, rfl, by decide +kernel⟩

/-- StepsKeepFusesLegal: the step of that commit, and of an empty queue. -/
theorem witness_StepsKeepFusesLegal :
    ((∃ s', step State.reset = .next s') ∧ State.reset.fuses.legal = true) ∧
    (let s := tMbx (tReq 0x0A03 [0]) tSecver; ∃ s', step { s with pending := [.secverCommit] } = .next s' ∧ s.fuses.svFw < s'.fuses.svFw) := by
  refine ⟨⟨⟨_, rfl⟩, by decide +kernel⟩, _, rfl, by decide +kernel⟩

/-- CountsAddUp. -/
theorem witness_CountsAddUp : (3 : Nat) < 8192 ∧ kwf 0 BaseState.reset.cnt = true ∧ BaseState.reset.addsUp 5 := by
  exact ⟨by decide, by decide, rfl⟩

/-! ## Ill-formed commands -/

/-- Ill-formed terms for the checks of WellFormed, each refused by its check, and a well-formed neighbour of each. -/
theorem test_wellFormed_refuses :
    (Instr.extentMove 0 0x100000 0).wellFormed = false ∧ (Instr.extentMove 0 0xFFFFF 0).wellFormed = true ∧
    (Instr.flashWrite 0 0x1000000000 false).wellFormed = false ∧ (Instr.flashWrite 0 0 false).wellFormed = true ∧
    (Instr.bar2Read 0 0).wellFormed = false ∧ (Instr.bar2Read 0 1).wellFormed = true ∧
    (Instr.kickSq 1 1 [(0, 5)]).wellFormed = false ∧ (Instr.kickSq 0 2 [(0, 5)]).wellFormed = false ∧
      (Instr.kickSq 0 1 [(0, 5)]).wellFormed = true ∧
    (Instr.frameReceive 0 (zeros 529) 0).wellFormed = false ∧ (Instr.frameReceive 0 (zeros 80) 0).wellFormed = true ∧
    (Instr.fwLoadComplete [3]).wellFormed = false ∧ (Instr.fwLoadComplete [7]).wellFormed = false ∧
      (Instr.fwLoadComplete [0, 6]).wellFormed = true ∧
    (Instr.thermalThrottleTick [20]).wellFormed = false ∧ (Instr.thermalThrottleTick (List.replicate 9 20)).wellFormed = true ∧
    (Instr.thermalTrip true 12 110).wellFormed = false ∧ (Instr.thermalTrip false 9 110).wellFormed = false ∧
      (Instr.thermalTrip true 11 110).wellFormed = true ∧
    (Instr.resetHoldRelease [20] 540).wellFormed = false ∧ (Instr.resetHoldRelease (List.replicate 9 20) 540).wellFormed = true ∧
    (Instr.startupStageComplete (.ddr [(0, 64), (0, 64)] [] [])).wellFormed = false ∧
      (Instr.startupStageComplete (.ddr [(0, 64), (1, 64)] [] [])).wellFormed = true ∧
    (Instr.startupStageComplete (.flash [(1, 1, true, true), (1, 1, true, true)])).wellFormed = false ∧
      (Instr.startupStageComplete (.flash [(1, 1, true, true)])).wellFormed = true := by
  decide +kernel

/-! ## Results the spec states -/

/-- CRC-32C of "123456789", the check value of that CRC. -/
theorem test_crc32c : crc32c [0x31, 0x32, 0x33, 0x34, 0x35, 0x36, 0x37, 0x38, 0x39] = 0xE3069283 := by decide +kernel

/-- CRC-64/XZ of "123456789", the check value of that CRC. -/
theorem test_crc64 : crc64 [0x31, 0x32, 0x33, 0x34, 0x35, 0x36, 0x37, 0x38, 0x39] = 0x995DC9BBDF1939FA := by decide +kernel

/-- Table 3.5: 1,000.0, 3.3 in FP32 and 0.004 in FP32 become 0x7E, 0x3D and 0x01 of E4M3 under the scale 0x80, and the first saturates. -/
theorem test_table_3_5 :
    dynamicScale .e4m3 [ofF32 0x447A0000, ofF32 0x40533333, ofF32 0x3B83126F] = 0x80 ∧
    ((convertBlock .e4m3 Rounding.default 0x80 [ofF32 0x447A0000, ofF32 0x40533333, ofF32 0x3B83126F]).elems.map fun c => (c.code, c.sat))
      = [(0x7E, true), (0x3D, false), (0x01, false)] := by
  decide +kernel

/-- Table 3.1: the largest finite values of E4M3 and E5M2, 448 and 57,344. -/
theorem test_table_3_1 : (toF32 (Fmt.e4m3.decode 0x7E), toF32 (Fmt.e5m2.decode 0x7B)) = (0x43E00000, 0x47600000) := by decide +kernel

/-- f after a POWER_CAP_TICK at the limit of 1,700 W of Table 15.10. -/
def tCapped (f mw : Nat) : Nat := match exec (.powerCapTick mw 540) (tPwr fun p => { p with f := f, limit := some 1700 }) with
  | .next s => s.mod.dev.pwr.f
  | _ => 99

/-- Table 15.10: f after its first six rows and at the limit. -/
theorem test_table_15_10 :
    [tCapped 0 1900000, tCapped 2 1875000, tCapped 4 1850000, tCapped 6 1825000, tCapped 8 1800000, tCapped 9 1787500, tCapped 16 1700000]
      = [2, 4, 6, 8, 9, 10, 16] := by
  decide +kernel

/-- FTOK (R56) answers the old value of the counter and adds. -/
theorem test_ftok :
    (match exec (.ftok 0 0 3 1 2) (tThread [(1, 5), (2, 7)] fun p => { p with tok := [(5, 10)] }) with
      | .next s => (xReg (s.thread 0 0) 3, tokOf (s.mod.dev.plot 0) 5)
      | _ => (0, 0)) = (10, 17) := by
  decide +kernel

end Sys2Proof.Tests
end

section
/-!
PROOF. Cairns, COPY and EVACUATE (R8, R315, R393 to R395, R460, R461): what a descriptor that may begin does, and what its end changes.
-/

namespace Sys2Proof.Machine

/-! ## What a descriptor's command answers -/

/-- A command answers and leaves module `m`; queue and fuses are as they were. -/
abbrev State.leaves (s : State) (m : Mod) : Out := .next { s with mod := m }

/-- A command answers, and all it has done is to begin and end a descriptor. -/
abbrev State.endsAtOnce (s : State) (desc status : Nat) (words : List Nat) : Out :=
  s.leaves ((s.begun desc).onDev fun d => d.endDesc desc status words)

/-! ## A descriptor that begins -/

section Begun

variable {s : State} {desc kind : Nat} {x : Desc}

/-- A descriptor that is ready runs on the module it has begun in (R475). -/
theorem onPlane_runDesc (h : s.descReady desc kind x) (f : Mod → Desc → Mod) :
    onPlane s (fun m => runDesc m desc kind f) = s.leaves (f (s.begun desc) x) := by
  obtain ⟨hstop, hdesc, hkind, hbegin, hrun⟩ := h
  rw [onPlane_eq _ _ hstop]
  simp [runDesc, hdesc, hkind, hbegin, hrun, State.begun]

/-- The same for a CAIRN_RESTORE of its own scope (R460). -/
theorem onPlane_runRestore {scope : Nat} (h : s.descReady desc 8 x) (hscope : x.fld 12 1 = scope) (f : Mod → Desc → Mod) :
    onPlane s (fun m => runRestore m desc scope f) = s.leaves (f (s.begun desc) x) := by
  have hrun : runRestore s.mod desc scope f = runDesc s.mod desc 8 f := by simp [runRestore, h.2.1, hscope]
  rw [onPlane_eq _ _ h.1, hrun, ← onPlane_eq s (fun m => runDesc m desc 8 f) h.1, onPlane_runDesc h f]

variable (s desc)

@[simp] theorem State.begun_mem : (s.begun desc).mem = s.mod.mem := rfl
@[simp] theorem State.begun_base : (s.begun desc).dev.base = s.mod.dev.base := rfl
@[simp] theorem State.begun_tier : (s.begun desc).dev.tier = s.mod.dev.tier := rfl
@[simp] theorem State.begun_ms : (s.begun desc).dev.ms = s.mod.dev.ms := rfl
@[simp] theorem State.begun_tab : (s.begun desc).dev.tab = s.mod.dev.tab := rfl

/-- What device memory reads does not depend on the descriptors in progress. -/
@[simp] theorem State.load_begun (da n : Nat) : (s.begun desc).load da n = s.mod.load da n := rfl

/-- Which table a slot holds does not depend on the descriptors in progress. -/
@[simp] theorem tdescAt_begun (t : Nat) : tdescAt (s.begun desc) t = tdescAt s.mod t := by
  unfold tdescAt
  rw [State.begun_tab, State.begun_base, State.load_begun]

/-- Which cairn a step names does not depend on the descriptors in progress. -/
@[simp] theorem cairnNamed_begun (step : Nat) : cairnNamed (s.begun desc).dev step = cairnNamed s.mod.dev step := rfl

/-- Which unit an EVACUATE names does not depend on the descriptors in progress. -/
@[simp] theorem evacNamed_begun (x : Desc) : evacNamed (s.begun desc).dev x = evacNamed s.mod.dev x := rfl

end Begun

/-! ## A descriptor that ends -/

@[simp] theorem Dev.endDesc_ended (d : Dev) (id status : Nat) (words : List Nat) :
    (d.endDesc id status words).base.ended = d.base.ended ++ [⟨id, status, words⟩] := rfl
@[simp] theorem Dev.endDesc_out (d : Dev) (id status : Nat) (words : List Nat) :
    (d.endDesc id status words).base.out = d.base.out := rfl
@[simp] theorem Dev.endDesc_applied (d : Dev) (id status : Nat) (words : List Nat) :
    (d.endDesc id status words).base.applied = d.base.applied := rfl
@[simp] theorem Dev.endDesc_cleared (d : Dev) (id status : Nat) (words : List Nat) :
    (d.endDesc id status words).base.cleared = d.base.cleared := rfl
@[simp] theorem Dev.endDesc_tier (d : Dev) (id status : Nat) (words : List Nat) : (d.endDesc id status words).tier = d.tier := rfl
@[simp] theorem Dev.endDesc_ms (d : Dev) (id status : Nat) (words : List Nat) : (d.endDesc id status words).ms = d.ms := rfl

/-- A descriptor that ends at once leaves all but the host interface, the completions due and what it waited for as it was. -/
theorem ends_at_once {i : Instr} {s : State} {desc status : Nat} {words : List Nat} (h : exec i s = s.endsAtOnce desc status words) :
    ∃ s', exec i s = .next s' ∧ s.onlyEnds s' desc status words := by
  refine ⟨_, h, ⟨rfl, rfl, fun p hp => ?_⟩, rfl⟩
  cases p with
  | hif | base | fab => simp at hp
  | events => exact ⟨rfl, rfl, rfl, rfl⟩
  | _ => rfl

@[simp] theorem Dev.raiseAccess_ended (d : Dev) (f : FaultKind) : (d.raiseAccess f).base.ended = d.base.ended := by
  unfold Dev.raiseAccess
  split <;> simp

/-- A fault that is no wait for a neighbour module ends the descriptor with ADDRESS_ERROR (R461). -/
theorem addrError_eq (m : Mod) (id : Nat) {f : FaultKind} (words : List Nat) (hf : ∀ da n, f ≠ .remoteWait da n) :
    addrError m id f words = m.onDev fun d => (d.raiseAccess f).endDesc id 0x12 words := by
  unfold addrError
  split
  · next da n => exact absurd rfl (hf da n)
  · rfl

/-! ## CAIRN_WRITE (R8, R395) -/

/-- The cairn that a CAIRN_WRITE with no dense regions opens for step `c`. -/
def openedCairn (d : Dev) (desc : Nat) (c : Word32) : Cairn where
  step := c
  state := 0
  role := 0
  job := cfgFabMsIdJob d.base
  kidx := cfgFabMsCfgKidx d.base
  nmod := cfgFabMsCfgNmod d.base
  h := cfgFabMsCfgHm1 d.base + 1
  tables := []
  rows := []
  dense := []
  denseDue := []
  bays := baysBut d.tier none
  id := desc
  begun := false
  bits := []
  cow := []
  cowBytes := 0
  sweep := none
  pastReset := false

section CairnWrite

variable {s : State} {desc : Nat} {x : Desc} (dlist : List Byte) (h : s.descReady desc 7 x)
include h

/-- Without a cartridge in service no cairn is opened. -/
theorem cairnWrite_without_cartridge (hc : cartsIn s.mod.dev.tier = 0) :
    exec (.cairnWrite desc dlist) s = s.endsAtOnce desc 0x1E [(BitVec.ofNat 32 (x.fld 8 4)).toNat, 0, 0] := by
  refine (onPlane_runDesc h _).trans ?_
  simp [hc]

/-- No cairn is opened for a step that is not ahead of the latest APPLIED one. -/
theorem cairnWrite_of_step_behind (hc : cartsIn s.mod.dev.tier ≠ 0)
    (hstep : stepNewer (BitVec.ofNat 32 (x.fld 8 4)) s.mod.dev.base.applied = false) :
    exec (.cairnWrite desc dlist) s = s.endsAtOnce desc 0x1B [(BitVec.ofNat 32 (x.fld 8 4)).toNat, 0, 0] := by
  refine (onPlane_runDesc h _).trans ?_
  simp [hc, hstep]

/-- A cairn of a step still to come is opened. -/
theorem cairnWrite_of_step_ahead (hc : cartsIn s.mod.dev.tier ≠ 0)
    (hstep : stepNewer (BitVec.ofNat 32 (x.fld 8 4)) s.mod.dev.base.applied = true) (hn : x.fld 12 1 = 0) (hda : x.fld 13 1 = 0) :
    exec (.cairnWrite desc dlist) s = s.leaves ((s.begun desc).onDev fun d =>
      d.onMs fun k => { k with cairns := k.cairns ++ [openedCairn s.mod.dev desc (BitVec.ofNat 32 (x.fld 8 4))] }) := by
  refine (onPlane_runDesc h _).trans ?_
  simp [hc, hstep, hn, hda, descData, openedCairn, Mod.onDev]

end CairnWrite

/-- A descriptor that begins and changes the steps changes nothing else. -/
theorem State.changesOnly_begun_onMs (s : State) (desc : Nat) (f : StepState → StepState) :
    s.changesOnly { s with mod := (s.begun desc).onDev fun d => d.onMs f } [.hif, .ms] := by
  refine ⟨rfl, rfl, fun p hp => ?_⟩
  cases p with
  | hif | ms => simp at hp
  | events => exact ⟨rfl, rfl, rfl, rfl⟩
  | _ => rfl

/-! ## CAIRN_RESTORE of a job (R393, R460) -/

/-- A restored job stands at the cairn's step: it is the latest APPLIED and the cleared one, no step runs, and the halt has ended. -/
theorem restoreJob_stands_at_step {m m1 : Mod} {c : Word32} {k : CairnData} {n : Nat} {ok : Bool}
    (h : restoreJob m c k = some (n, ok, m1)) :
    m1.dev.base.applied = c ∧ m1.dev.base.cleared = c ∧ m1.dev.ms.halted = false ∧ m1.dev.ms.steps = [] := by
  unfold restoreJob at h
  dsimp only at h
  split at h
  · cases h
  · cases h
    exact ⟨rfl, rfl, rfl, rfl⟩

/-- The sealed cairn of step `c` that the module holds under its own index. -/
def ownCairn (d : Dev) (c : Word32) : Option Cairn :=
  d.ms.cairns.find? fun k => k.state = 1 && k.step = c && decide (k.kidx = cfgFabMsCfgKidx d.base)

section RestoreJob

variable {s : State} {desc : Nat} {x : Desc} (h : s.descReady desc 8 x) (hscope : x.fld 12 1 = 0) (hc : cartsIn s.mod.dev.tier ≠ 0)
include h hscope hc

/-- A job whose steps run is not restored. -/
theorem cairnRestoreJob_while_running (served : Option (List (List Byte) × List (Nat × List Byte) × List (Nat × List Byte)))
    (hhalt : s.mod.dev.ms.halted = false) (hruns : s.mod.dev.ms.runs ≠ []) :
    exec (.cairnRestoreJob desc served) s = s.endsAtOnce desc 0x1D [(BitVec.ofNat 32 (x.fld 8 4)).toNat, 0, 0] := by
  refine (onPlane_runRestore h hscope _).trans ?_
  simp [hc, hhalt, hruns]

/-- Without a sealed cairn of the step, own or served, nothing is restored. -/
theorem cairnRestoreJob_without_cairn (hruns : s.mod.dev.ms.runs = [])
    (hown : ownCairn s.mod.dev (BitVec.ofNat 32 (x.fld 8 4)) = none) :
    exec (.cairnRestoreJob desc none) s = s.endsAtOnce desc 0x1F [(BitVec.ofNat 32 (x.fld 8 4)).toNat, 0, 0] := by
  refine (onPlane_runRestore h hscope _).trans ?_
  rw [ownCairn, ← State.begun_base s desc] at hown
  simp [hc, hruns, hown, -State.begun_base]

/-- A job is restored from the module's own cairn; where no switch waits, only its descriptor ends. -/
theorem cairnRestoreJob_of_own_cairn (served : Option (List (List Byte) × List (Nat × List Byte) × List (Nat × List Byte)))
    {k : Cairn} {n : Nat} {ok : Bool} {m1 : Mod} (hruns : s.mod.dev.ms.runs = [])
    (hown : ownCairn s.mod.dev (BitVec.ofNat 32 (x.fld 8 4)) = some k)
    (hrest : restoreJob (s.begun desc) (BitVec.ofNat 32 (x.fld 8 4)) ⟨k.tables, k.rows, k.dense⟩ = some (n, ok, m1))
    (hsw : m1.dev.tab.switches = []) :
    exec (.cairnRestoreJob desc served) s = s.leaves (m1.onDev fun d =>
      d.endDesc desc (if ok then 0 else 0x18) [(BitVec.ofNat 32 (x.fld 8 4)).toNat, n, 0]) := by
  refine (onPlane_runRestore h hscope _).trans ?_
  rw [ownCairn, ← State.begun_base s desc] at hown
  simp [hc, hruns, hown, hrest, hsw, Mod.onDev, -State.begun_base]

end RestoreJob

/-! ## CAIRN_RESTORE of rows (R394, R460) -/

/-- One row listed as lost, restored from cairn `c` and lost no more where the cairn and its table hold it and `place` finds room. A
CAIRN_RESTORE places by `restoreRowTo`; `place` stands for it so that no proof about one row evaluates the pools. -/
def restoreLost (place : Mod → TDesc → TabVer → Nat → List Byte → Option Mod) (c : Cairn) (acc : Nat × Mod)
    (k : Nat × Nat) : Nat × Mod :=
  match kfind c.rows (rowKey k.1 k.2), tdescAt acc.2 k.1 with
  | some b, some t => match place acc.2 t t.curVer k.2 b with
    | some m => (acc.1 + 1, m.onDev fun d => d.onTier fun y => { y with lost := y.lost.filter fun z => z ≠ k })
    | none => acc
  | _, _ => acc

/-- A row that its cairn and its table hold is restored where there is room. -/
theorem restoreLost_of_room {place : Mod → TDesc → TabVer → Nat → List Byte → Option Mod} {c : Cairn} {acc : Nat × Mod}
    {k : Nat × Nat} {b : List Byte} {t : TDesc} {m : Mod} (hrow : kfind c.rows (rowKey k.1 k.2) = some b) (ht : tdescAt acc.2 k.1 = some t)
    (hrest : place acc.2 t t.curVer k.2 b = some m) :
    restoreLost place c acc k = (acc.1 + 1, m.onDev fun d => d.onTier fun y => { y with lost := y.lost.filter fun z => z ≠ k }) := by
  simp only [restoreLost, hrow, ht, hrest]

section RestoreRows

variable {s : State} {desc : Nat} {x : Desc} (h : s.descReady desc 8 x) (hscope : x.fld 12 1 = 1) (hc : cartsIn s.mod.dev.tier ≠ 0)
include h hscope hc

/-- Without the cairn named no row is restored. -/
theorem cairnRestoreRows_without_cairn (hk : cairnNamed s.mod.dev (x.fld 8 4) = none) :
    exec (.cairnRestoreRows desc) s = s.endsAtOnce desc 0x1F [x.fld 8 4, 0, 0] := by
  refine (onPlane_runRestore h hscope _).trans ?_
  simp [hc, hk]

/-- With the cairn named the rows listed as lost are taken in order, and those restored are of more than one step. -/
theorem cairnRestoreRows_of_cairn {k : Cairn} (hk : cairnNamed s.mod.dev (x.fld 8 4) = some k) :
    exec (.cairnRestoreRows desc) s = s.leaves (
      let r := s.mod.dev.tier.lost.foldl (restoreLost restoreRowTo k) (0, s.begun desc)
      r.2.onDev fun d => (d.raise evCairnRowsMixed { hasS := true, s := k.step.toNat, n := r.1 }).endDesc desc 0
        [k.step.toNat, r.1, 0]) := by
  refine (onPlane_runRestore h hscope _).trans ?_
  dsimp only
  rw [State.begun_tier, if_neg hc, cairnNamed_begun, hk]
  rfl

/-- The one lost row is restored where its cairn and its table hold it and a pool has room: it is lost no more. -/
theorem cairnRestoreRows_of_one_row {k : Cairn} {r : Nat × Nat} {b : List Byte} {t : TDesc} {m1 : Mod}
    (hk : cairnNamed s.mod.dev (x.fld 8 4) = some k) (hlost : s.mod.dev.tier.lost = [r]) (hrow : kfind k.rows (rowKey r.1 r.2) = some b)
    (ht : tdescAt s.mod r.1 = some t) (hrest : restoreRowTo (s.begun desc) t t.curVer r.2 b = some m1) :
    exec (.cairnRestoreRows desc) s = s.leaves (m1.onDev fun d =>
      ((d.onTier fun y => { y with lost := y.lost.filter fun z => z ≠ r }).raise evCairnRowsMixed
        { hasS := true, s := k.step.toNat, n := 1 }).endDesc desc 0 [k.step.toNat, 1, 0]) := by
  have hstep := restoreLost_of_room (acc := (0, s.begun desc)) hrow ((tdescAt_begun s desc r.1).trans ht) hrest
  rw [cairnRestoreRows_of_cairn h hscope hc hk, hlost, List.foldl_cons, List.foldl_nil, hstep]
  rfl

end RestoreRows

/-! ## COPY (R256, R461) -/

/-- A copy that no fault ended has copied all its pieces. -/
theorem copyPieces_bytes (desc src dst fl : Nat) (lost : Bool) (host : List Byte) (n done : Nat) (m : Mod)
    (h : (copyPieces desc src dst fl lost host n done m).2.1 = none) :
    (copyPieces desc src dst fl lost host n done m).1 = done + 64 * n := by
  induction n generalizing done m with
  | zero => rfl
  | succ n ih =>
    have hsum : done + 64 * (n + 1) = done + 64 + 64 * n := by omega
    rw [hsum]
    simp only [copyPieces] at h ⊢
    split at h
    · cases h
    · split at h
      · next hda =>
        rw [if_pos hda]
        split at h
        · exact ih _ _ h
        · cases h
      · next hda =>
        rw [if_neg hda]
        exact ih _ _ h

/-- The pieces of a COPY that has begun: bytes done, the fault that ended it, the module after them. -/
abbrev State.copied (s : State) (desc : Nat) (x : Desc) (host : List Byte) : Nat × Option FaultKind × Mod :=
  copyPieces desc (x.fld 8 8) (x.fld 16 8) (x.fld 32 1) x.lost host (x.fld 24 8 / 64) 0 (s.begun desc)

section Copy

variable {s : State} {desc : Nat} {x : Desc} {host : List Byte} (h : s.descReady desc 9 x) (hhost : bitOf (x.fld 32 1) 0 = false)
include h hhost

/-- A COPY that reads no device memory and meets no fault ends with the bytes of all its pieces. -/
theorem copy_of_no_fault (hdone : (s.copied desc x host).2.1 = none) :
    exec (.copy desc host) s = s.leaves ((s.copied desc x host).2.2.onDev fun d =>
      d.endDesc desc 0 [0, 64 * (x.fld 24 8 / 64), 0]) := by
  have hbytes := copyPieces_bytes _ _ _ _ _ _ _ _ _ hdone
  refine (onPlane_runDesc h _).trans ?_
  simp [hhost, hdone, hbytes]

/-- A COPY that reads no device memory ends at its first fault, with the bytes of the pieces before it. -/
theorem copy_of_fault {f : FaultKind} (hfault : (s.copied desc x host).2.1 = some f) (hf : ∀ da n, f ≠ .remoteWait da n) :
    exec (.copy desc host) s = s.leaves ((s.copied desc x host).2.2.onDev fun d =>
      (d.raiseAccess f).endDesc desc 0x12 [0, (s.copied desc x host).1, 0]) := by
  refine (onPlane_runDesc h _).trans ?_
  simp [hhost, hfault, addrError_eq _ _ _ hf]

end Copy

/-! ## EVACUATE (R315, R461) -/

section Evacuate

variable {s : State} {desc : Nat} {x : Desc} (h : s.descReady desc 11 x)
include h

/-- An EVACUATE of no unit in service ends at once. -/
theorem evacuate_of_no_unit (hu : evacNamed s.mod.dev x = none) :
    exec (.evacuate desc) s = s.endsAtOnce desc 0x10 [] := by
  refine (onPlane_runDesc h _).trans ?_
  simp [Mod.onDev, hu]

/-- An EVACUATE of a unit in service that no evacuation empties begins one. -/
theorem evacuate_of_unit {k u : Nat} (hu : evacNamed s.mod.dev x = some (k, u))
    (hnew : (s.mod.dev.tier.evacs.any fun e => decide (e.kind = k ∧ e.unit = u)) = false) :
    exec (.evacuate desc) s = s.leaves ((s.begun desc).onDev fun d => startEvac d k u (some desc)) := by
  refine (onPlane_runDesc h _).trans ?_
  simp only [Mod.onDev, evacNamed_begun, State.begun_tier, hu, hnew, Bool.false_eq_true, if_false]

end Evacuate

/-- Settles O34: each case is what its command answers on the module in which the descriptor has begun. -/
theorem cairnsCopiesAndEvacuations : Obligations.CairnsCopiesAndEvacuations := by
  unfold Obligations.CairnsCopiesAndEvacuations
  intro s desc x m d c
  refine ⟨fun dlist h => ⟨fun hc => ?_, fun hc hstep => ?_, fun hc hstep hn hda => ?_⟩,
    fun served h hscope hc => ⟨fun hhalt hruns => ?_, fun hruns hown hserved => ?_, fun k n ok m1 hruns hown hrest hsw => ?_⟩,
    fun h hscope hc => ⟨fun hk => ?_, fun k r b t m1 hk hlost hrow ht hrest => ?_⟩,
    fun host h hhost => ⟨fun hdone => ?_, fun f hfault hf => ?_⟩,
    fun h => ⟨fun hu => ?_, fun k u hu hnew => ?_⟩⟩
  · exact ends_at_once (cairnWrite_without_cartridge dlist h hc)
  · exact ends_at_once (cairnWrite_of_step_behind dlist h hc hstep)
  · exact ⟨_, openedCairn d desc c, cairnWrite_of_step_ahead dlist h hc hstep hn hda, s.changesOnly_begun_onMs desc _,
      rfl, rfl, rfl, rfl, rfl, rfl⟩
  · exact ends_at_once (cairnRestoreJob_while_running h hscope hc served hhalt hruns)
  · subst hserved
    exact ends_at_once (cairnRestoreJob_without_cairn h hscope hc hruns hown)
  · obtain ⟨happlied, hcleared, hhalted, hsteps⟩ := restoreJob_stands_at_step hrest
    exact ⟨_, cairnRestoreJob_of_own_cairn h hscope hc served hruns hown hrest hsw, rfl, happlied, hcleared, hhalted, hsteps, rfl⟩
  · exact ends_at_once (cairnRestoreRows_without_cairn h hscope hc hk)
  · exact ⟨_, cairnRestoreRows_of_one_row h hscope hc hk hlost hrow ht hrest, rfl, by simp, by simp⟩
  · exact ⟨_, copy_of_no_fault h hhost hdone, rfl, rfl, rfl⟩
  · exact ⟨_, copy_of_fault h hhost hfault hf, rfl, by simp⟩
  · exact ends_at_once (evacuate_of_no_unit h hu)
  · exact ⟨_, evacuate_of_unit h hu hnew, rfl, rfl⟩

end Sys2Proof.Machine
end

section
/-!
PROOF. READY where the step record lies in a soft band that was lost (R270, R375, R379): REPDIGEST enters what has been written into
the lost band since, which is part of the tiers and not of device memory.
-/

namespace Sys2Proof.Machine

/-! ## Bytes stored in a soft band that was lost (R270) -/

/-- Bytes listed at later addresses leave what an address holds. -/
theorem kfind_foldl_kput_of_lt {da j n : Nat} (bs : List Byte) (k : KMap Byte) (h : j < da + n) :
    kfind ((bs.zipIdx n).foldl (fun k b => kput k (da + b.2) b.1) k) j = kfind k j := by
  induction bs generalizing n k with
  | nil => rfl
  | cons b bs ih =>
    rw [List.zipIdx_cons, List.foldl_cons, ih _ (by omega), kfind_kput, if_neg (by omega)]

/-- A store in a lost soft band is kept with the bytes written there since: its first byte is found at its address. -/
theorem kfind_softNew_store {m : Mod} {da : Nat} (b : Byte) (bs : List Byte) (h : inLostSoft m.dev da = true) :
    kfind (m.store da (b :: bs)).dev.tier.softNew da = some b := by
  simp only [Mod.store, if_pos h, Dev.onTier_tier, List.zipIdx_cons, List.foldl_cons]
  rw [kfind_foldl_kput_of_lt _ _ (by omega), kfind_kput, if_pos (by omega)]

/-! ## What READY_SEND does on a step that has met a cause (R379) -/

/-- Outside a protective action a command of a scheduler core that runs is performed. -/
theorem onSched_eq {s : State} (h : s.schedules = true) (f : Mod → Mod) : onSched s f = s.leaves (f s.mod) := by
  simp only [State.schedules, Bool.and_eq_true, Bool.not_eq_true'] at h
  obtain ⟨hstop, hup⟩ := h
  simp only [onSched, onPlane_eq _ _ hstop, if_pos hup]

/-- A STAGED step whose blocks have ended and that has met a cause sends its READY. -/
theorem readySend_of_nogo {s : State} {n : Word32} {x : StepInfo} {c : Nat} (h : s.schedules = true) (hcur : s.mod.dev.ms.cur = some n)
    (hx : stepInfo s.mod.dev n = some x) (hst : x.st = .staged) (hhalt : s.mod.dev.ms.halted = false) (hjob : s.mod.dev.ms.noJob = false)
    (hsent : s.mod.dev.ms.sent ≠ some (n, x.attempt)) (hdone : blocksDone s.mod.dev n = true) (hc : nogoCause s.mod.dev n = some c) :
    exec .readySend s = s.leaves (sendReady s.mod n x.attempt) := by
  have hexec : exec .readySend s = execReadySend s := rfl
  rw [hexec, execReadySend, onSched_eq h]
  simp [hcur, hx, hst, hhalt, hjob, hsent, hdone, hc]

/-- Of the tiers, a READY changes what writing REPDIGEST into the step record changes. -/
theorem sendReady_tier (m : Mod) (n : Word32) (a : Nat) :
    (sendReady m n a).dev.tier = (m.putStepRec n 16 (leBytes 8 (repDigest m n))).dev.tier := by
  simp only [sendReady, Mod.onDev_dev]
  split <;> rfl

/-- Where the step record lies in a lost soft band, REPDIGEST is kept with the bytes written there since. -/
theorem softNew_sendReady {m : Mod} {n : Word32} (a : Nat) (h : inLostSoft m.dev (stepRecDa m.dev.base n + 16) = true) :
    (kfind (sendReady m n a).dev.tier.softNew (stepRecDa m.dev.base n + 16)).isSome = true := by
  rw [sendReady_tier, Mod.putStepRec, leBytes, kfind_softNew_store _ _ h]
  rfl

/-! ## The step that loses its own soft band -/

/-- A processor that runs. -/
def runningProc : Proc := { Proc.reset with run := true }

/-- A module whose scheduler core runs, and whose step 5 has met MEMORY_LOST with all its blocks ended: the soft band of die 0, which
holds the step record, has been lost (R270), and nothing has been written there since. -/
def lostBandState : State := { State.reset with
  mod := ⟨[], { Dev.reset with
    fw := { FwState.reset with procs := [(2, runningProc)], run := true }
    pwr := { PwrState.reset with perst := false }
    work := { WorkState.reset with step := 5 }
    tier := { TierState.reset with softLost := [0] }
    ms := { StepState.reset with cur := some 5, steps := [⟨5, 0, .staged, some 6, 0⟩] } }⟩ }

/-- Its step record lies in the lost soft band. -/
theorem lostBandState_record : inLostSoft lostBandState.mod.dev (stepRecDa lostBandState.mod.dev.base 5 + 16) = true := by
  decide +kernel

/-- Its READY has something written into the lost soft band, so the tiers do not stay as they were. -/
theorem lostBandState_tier_changes : (sendReady lostBandState.mod 5 0).dev.tier ≠ lostBandState.mod.dev.tier := by
  intro h
  have hnew := softNew_sendReady 0 lostBandState_record
  rw [h] at hnew
  cases hnew

/-- Refutes O22: its first clause has READY change device memory, steps and checking only. Where the step record lies in a soft band that
was lost, REPDIGEST is written into that band, whose new bytes the tiers hold: here with NOGO and cause MEMORY_LOST, of a step
whose own soft band HBM_PC_LOST took. -/
theorem not_readyIsSentAndDecided : ¬ Obligations.ReadyIsSentAndDecided := by
  unfold Obligations.ReadyIsSentAndDecided
  intro h
  have hs : lostBandState.schedules = true := by decide +kernel
  have hx : stepInfo lostBandState.mod.dev 5 = some ⟨5, 0, .staged, some 6, 0⟩ := by decide +kernel
  have hsent : lostBandState.mod.dev.ms.sent ≠ some (5, 0) := by decide +kernel
  have hdone : blocksDone lostBandState.mod.dev 5 = true := by decide +kernel
  have hlead : leaderOf lostBandState.mod.dev = some 0 := by decide +kernel
  have hc : nogoCause lostBandState.mod.dev 5 = some 6 := by decide +kernel
  obtain ⟨hsend, -⟩ := h lostBandState hs
  obtain ⟨hnogo, -⟩ := hsend 5 _ 0 rfl hx rfl rfl rfl hsent hdone hlead
  obtain ⟨⟨s', hexec, ⟨-, -, hsame⟩, -⟩, -⟩ := hnogo 6 hc
  have hsends := readySend_of_nogo hs rfl hx rfl rfl rfl hsent hdone hc
  cases hsends.symm.trans hexec
  exact lostBandState_tier_changes (hsame .tier (by decide))

end Sys2Proof.Machine
end

section
/-!
PROOF. The frame of a command that acts on one plot: what it may change of the device, kept by each operation in turn.
-/

namespace Sys2Proof.Machine

/-! ## A state with another device -/

/-- The state with everything but queue, fuses and device memory replaced. -/
abbrev State.withDev (s : State) (d : Dev) : State := { s with mod := { s.mod with dev := d } }

/-- `e` is `d` but for one plot and for what the shared state keeps of events and counters: `State.onlyPlot` without queue, fuses and
device memory. -/
def Dev.onlyPlot (d e : Dev) (i : Nat) : Prop :=
  (∀ j, j ≠ i → e.plot j = d.plot j) ∧
    e = { d with
      plots := e.plots
      base := { d.base with fresh := e.base.fresh, evt := e.base.evt, cnt := e.base.cnt, tot := e.base.tot } }

section OnlyPlot

variable {d e : Dev} {i : Nat}

theorem Dev.onlyPlot_refl (d : Dev) (i : Nat) : d.onlyPlot d i := ⟨fun _ _ => rfl, rfl⟩

/-- A change that keeps the frame of plot `i` may be followed by another that does. -/
theorem Dev.onlyPlot.trans {f : Dev} (h : d.onlyPlot e i) (g : e.onlyPlot f i) : d.onlyPlot f i := by
  obtain ⟨hplots, hrest⟩ := h
  obtain ⟨gplots, grest⟩ := g
  refine ⟨fun j hj => (gplots j hj).trans (hplots j hj), ?_⟩
  rw [grest, hrest]

theorem Dev.onlyPlot.setPlot (h : d.onlyPlot e i) (p : Plot) : d.onlyPlot (e.setPlot i p) i :=
  h.trans ⟨fun _ hj => e.plot_setPlot_ne p hj.symm, rfl⟩

theorem Dev.onlyPlot.modPlot (h : d.onlyPlot e i) (f : Plot → Plot) : d.onlyPlot (e.modPlot i f) i := h.setPlot _

theorem Dev.onlyPlot.tickFresh (h : d.onlyPlot e i) : d.onlyPlot e.tickFresh i := h.trans ⟨fun _ _ => rfl, rfl⟩

theorem Dev.onlyPlot.count (h : d.onlyPlot e i) (c k n : Nat) : d.onlyPlot (e.count c k n) i := h.trans ⟨fun _ _ => rfl, rfl⟩

theorem Dev.onlyPlot.raise (h : d.onlyPlot e i) (ev : Nat × Nat) (a : Args) (die unit : Nat) :
    d.onlyPlot (e.raise ev a die unit) i := by
  obtain ⟨evt, cnt, tot, hb⟩ := e.base.raise_fields ev die unit a.words
  refine h.trans ⟨fun _ _ => rfl, ?_⟩
  simp only [Dev.raise, hb]

theorem Dev.onlyPlot.raiseAccess (h : d.onlyPlot e i) (f : FaultKind) : d.onlyPlot (e.raiseAccess f) i := by
  unfold Dev.raiseAccess
  split
  · exact h.raise ..
  · exact h.raise ..
  · exact h

end OnlyPlot

/-- The frame of a control core's instruction is that of what it does to the device. -/
theorem State.onlyPlot_withDev {s : State} {e : Dev} {i : Nat} (h : s.mod.dev.onlyPlot e i) : s.onlyPlot (s.withDev e) i :=
  ⟨rfl, rfl, rfl, h.1, h.2⟩

end Sys2Proof.Machine
end

section
/-!
PROOF. FTOK, FREADY, FSTART, FSTOP and FSTAT (Table 2.3, R56, R67 to R69, R140).
-/

namespace Sys2Proof.Machine

/-! ## What a thread's instruction answers -/

/-- An instruction of a thread that can issue acts on the thread's plot and state (R40, R41). -/
theorem onPlaneDev_onThread {s : State} {plot t : Nat} (h : s.threadRuns plot t = true) (f : Dev → Plot → Thread → Dev) :
    onPlaneDev s (fun d => d.onThread plot t f) = .next (s.withDev (f s.mod.dev (s.mod.dev.plot plot) (s.thread plot t))) := by
  simp only [State.threadRuns, Bool.and_eq_true, Bool.not_eq_true'] at h
  obtain ⟨hstop, hissue⟩ := h
  rw [onPlaneDev_eq _ _ hstop]
  simp only [Dev.onThread, hissue, if_true, State.thread]

/-- The same for an instruction that may also touch device memory. -/
theorem onPlane_onThread {s : State} {plot t : Nat} (h : s.threadRuns plot t = true) (f : Mod → Plot → Thread → Mod) :
    onPlane s (fun m => m.onThread plot t f) = .next { s with mod := f s.mod (s.mod.dev.plot plot) (s.thread plot t) } := by
  simp only [State.threadRuns, Bool.and_eq_true, Bool.not_eq_true'] at h
  obtain ⟨hstop, hissue⟩ := h
  rw [onPlane_eq _ _ hstop]
  simp only [Mod.onThread, hissue, if_true, State.thread]

/-- A thread that can issue is not parked. -/
theorem State.threadRuns_park {s : State} {plot t : Nat} (h : s.threadRuns plot t = true) : (s.thread plot t).park = .no := by
  simp only [State.threadRuns, canIssue, Bool.and_eq_true, beq_iff_eq] at h
  exact h.2.2

/-- A thread that can issue has been started. -/
theorem State.threadRuns_started {s : State} {plot t : Nat} (h : s.threadRuns plot t = true) : (s.thread plot t).started = true := by
  simp only [State.threadRuns, canIssue, Bool.and_eq_true] at h
  exact h.2.1

/-! ## Token counters (R56) -/

/-- A token counter holds 32 bits. -/
theorem tokOf_lt (p : Plot) (c : Nat) : tokOf p c < 2 ^ 32 := (kget 0 p.tok c).isLt

/-- A token counter given a value of 32 bits has it. -/
theorem tokOf_setTok_self (p : Plot) (c : Nat) {v : Nat} (h : v < 2 ^ 32) : tokOf (setTok p c v) c = v := by
  simpa [tokOf, setTok] using h

/-- A counter whose sum fits takes it. -/
theorem Dev.addTok_of_lt {d : Dev} {i c n : Nat} (h : tokOf (d.plot i) c + n < 2 ^ 32) :
    d.addTok i c n = d.modPlot i fun p => setTok p c (tokOf (d.plot i) c + n) := if_pos h

/-- A counter whose sum does not fit stays at its last value and raises EV_TOKEN_SATURATED. -/
theorem Dev.addTok_of_le {d : Dev} {i c n : Nat} (h : 2 ^ 32 ≤ tokOf (d.plot i) c + n) :
    d.addTok i c n =
      (d.modPlot i fun p => setTok p c (2 ^ 32 - 1)).raise evTokenSaturated { n := c } (instDie i) (unitOf d.base i) :=
  if_neg (Nat.not_lt.2 h)

theorem tokOf_addTok_of_lt {d : Dev} {i c n : Nat} (h : tokOf (d.plot i) c + n < 2 ^ 32) :
    tokOf ((d.addTok i c n).plot i) c = tokOf (d.plot i) c + n := by
  rw [Dev.addTok_of_lt h, Dev.plot_modPlot_self, tokOf_setTok_self _ _ h]

/-- Adding to a token counter changes nothing of its plot but the counters. -/
theorem Dev.plot_addTok (d : Dev) (i c n : Nat) : ∃ tok, (d.addTok i c n).plot i = { d.plot i with tok := tok } := by
  unfold Dev.addTok setTok
  dsimp only
  split <;> simp

theorem Dev.onlyPlot.addTok {d e : Dev} {i : Nat} (h : d.onlyPlot e i) (c n : Nat) : d.onlyPlot (e.addTok i c n) i := by
  unfold Dev.addTok
  dsimp only
  split
  · exact h.modPlot _
  · exact (h.modPlot _).raise ..

/-! ## Status words and halves -/

/-- A thread does not depend on the sequencer. -/
@[simp] theorem threadOf_withSeq (p : Plot) (q : Sequencer) (t : Nat) : threadOf { p with seq := q } t = threadOf p t := rfl

theorem Dev.thread_statusTo (d : Dev) (i t rd : Nat) :
    threadOf ((d.statusTo i t rd).plot i) t = pcNext (setX (threadOf (d.plot i) t) rd (Config.statusWord d.base.fresh).toNat) 4 := by
  simp [Dev.statusTo]

theorem Dev.seq_statusTo (d : Dev) (i t rd : Nat) : ((d.statusTo i t rd).plot i).seq = (d.plot i).seq := by
  simp [Dev.statusTo]

theorem Dev.onlyPlot.statusTo {d e : Dev} {i : Nat} (h : d.onlyPlot e i) (t rd : Nat) : d.onlyPlot (e.statusTo i t rd) i :=
  (h.modPlot _).tickFresh

/-- A half that is given a state has it. -/
@[simp] theorem halfSt_setHalf_self (q : Sequencer) (b : Bool) (v : Half) : halfSt (setHalf q b v) b = v := by
  cases b <;> rfl

/-- The sequencer once started: running for its owner, at its entry, under its mode word (R67, R68). -/
theorem startSeq_fields (q : Sequencer) (t entry mode : Nat) :
    (startSeq q t entry mode).running = true ∧ (startSeq q t entry mode).owner = t ∧ (startSeq q t entry mode).entry = entry ∧
      (startSeq q t entry mode).turn = mode % 4 ∧ (startSeq q t entry mode).passLimit = bitsOf mode 31 16 := by
  unfold startSeq setHalf
  dsimp only
  split
  · split <;> exact ⟨rfl, rfl, rfl, rfl, rfl⟩
  · exact ⟨rfl, rfl, rfl, rfl, rfl⟩

/-- A half that FREADY names: READY where it was FREE (R69). -/
def readyHalf (q : Sequencer) (b : Bool) : Sequencer := if halfSt q b = .free then setHalf q b .ready else q

theorem halfSt_readyHalf (q : Sequencer) (b : Bool) :
    halfSt (readyHalf q b) b = if halfSt q b = .free then .ready else halfSt q b := by
  unfold readyHalf
  split
  · exact halfSt_setHalf_self ..
  · rfl

/-! ## FTOK, FREADY, FSTART, FSTOP, FSTAT (Table 2.3) -/

section FurrowIssue

variable {s : State} {plot : Fin 4352} {t : Fin 8} (h : s.threadRuns plot t = true) (rd : Fin 32) {rs1 rs2 : Fin 32}
include h

/-- FTOK whose sum fits the counter. -/
theorem ftok_of_sum_fits {c v : Nat} (hc : xReg (s.thread plot t) rs1 % 16 = c)
    (hv : (tokOf (s.mod.dev.plot plot) c : Int) + sext 64 (xReg (s.thread plot t) rs2) = v) (hlt : v < 2 ^ 32) :
    exec (.ftok plot t rd rs1 rs2) s = .next (s.withDev ((s.mod.dev.putThread plot t
      (pcNext (setX (s.thread plot t) rd (tokOf (s.mod.dev.plot plot) c)) 4)).modPlot plot fun p => setTok p c v)) := by
  subst hc
  refine (onPlaneDev_onThread h _).trans ?_
  dsimp only
  split
  next hinc =>
    rw [Dev.addTok_of_lt] <;> simp only [Dev.putThread, Dev.plot_modPlot_self, tokOf_setThread]
    · congr! 6
      omega
    · omega
  next hinc => rw [if_pos (by omega), hv, Int.toNat_natCast]

/-- FTOK whose sum does not fit: the counter is saturated (R56). -/
theorem ftok_of_sum_over {c : Nat} (hc : xReg (s.thread plot t) rs1 % 16 = c)
    (hv : 2 ^ 32 ≤ (tokOf (s.mod.dev.plot plot) c : Int) + sext 64 (xReg (s.thread plot t) rs2)) :
    exec (.ftok plot t rd rs1 rs2) s = .next (s.withDev (((s.mod.dev.putThread plot t
      (pcNext (setX (s.thread plot t) rd (tokOf (s.mod.dev.plot plot) c)) 4)).modPlot plot fun p => setTok p c (2 ^ 32 - 1)).raise
        evTokenSaturated { n := c } (instDie plot) (unitOf s.mod.dev.base plot))) := by
  subst hc
  refine (onPlaneDev_onThread h _).trans ?_
  have hold := tokOf_lt (s.mod.dev.plot plot) (xReg (s.thread plot t) rs1 % 16)
  have hinc : 0 ≤ sext 64 (xReg (s.thread plot t) rs2) := by omega
  dsimp only
  rw [if_pos hinc, Dev.addTok_of_le]
  · rfl
  · simp only [Dev.putThread, Dev.plot_modPlot_self, tokOf_setThread]
    omega

/-- FREADY of a half: FREE becomes READY, any other state stays. -/
theorem fready_of_half (hb : xReg (s.thread plot t) rs1 ≤ 1) :
    exec (.fready plot t rs1) s = .next (s.withDev (s.mod.dev.setPlot plot (setThread { s.mod.dev.plot plot with
      seq := readyHalf (s.mod.dev.plot plot).seq (xReg (s.thread plot t) rs1 == 1) } t (pcNext (s.thread plot t) 4)))) := by
  refine (onPlaneDev_onThread h _).trans ?_
  have hbool : decide (xReg (s.thread plot t) rs1 = 1) = (xReg (s.thread plot t) rs1 == 1) := rfl
  simp only [hb, true_and, hbool, readyHalf]
  split <;> rfl

/-- FSTART with a legal mode, of a sequencer that neither runs nor is part-way through a furrow. -/
theorem fstart_of_legal (hmode : modeLegal (xReg (s.thread plot t) rs2) = true) (hentry : xReg (s.thread plot t) rs1 < 2048)
    (hrun : (s.mod.dev.plot plot).seq.running = false) (hcur : (s.mod.dev.plot plot).seq.cur = none) :
    exec (.fstart plot t rd rs1 rs2) s = .next (s.withDev ((s.mod.dev.modPlot plot fun p =>
      { p with seq := startSeq p.seq t (xReg (s.thread plot t) rs1) (xReg (s.thread plot t) rs2) }).statusTo plot t rd)) := by
  refine (onPlaneDev_onThread h _).trans ?_
  simp [hmode, hentry, hrun, hcur]

theorem fstop_eq : exec (.fstop plot t rd) s = .next (s.withDev
    ((s.mod.dev.modPlot plot fun p => { p with seq := stopSeq p.seq }).statusTo plot t rd)) :=
  onPlaneDev_onThread h _

/-- FSTAT of a selector of ACC_STAT (R140). -/
theorem fstat_of_accStat (hlo : 0x20 ≤ xReg (s.thread plot t) rs1) (hhi : xReg (s.thread plot t) rs1 < 0x24) :
    exec (.fstat plot t rd rs1) s = .next (s.withDev (s.mod.dev.putThread plot t (pcNext (setX (s.thread plot t) rd
      (accStatWord (accStatOf (s.mod.dev.plot plot) (xReg (s.thread plot t) rs1 - 0x20)))) 4))) := by
  refine (onPlaneDev_onThread h _).trans ?_
  simp only [hlo, hhi, and_self, if_true]

end FurrowIssue

/-- Settles O2: each clause is the equation of its instruction, and the frame of what that equation does to the device. -/
theorem furrowIssueInstructions : Obligations.FurrowIssueInstructions := by
  unfold Obligations.FurrowIssueInstructions
  intro s plot t rd rs1 rs2 hrun p h c sum
  have keep := Dev.onlyPlot_refl s.mod.dev plot
  refine ⟨fun ⟨hlo, hhi⟩ => ?_, fun hover => ?_, fun hb => ?_, fun hmode hentry hstop hcur => ?_, ?_, fun hlo hhi => ?_⟩
  · obtain ⟨v, hv⟩ := Int.eq_ofNat_of_zero_le hlo
    have hlt : v < 2 ^ 32 := by omega
    refine ⟨_, ftok_of_sum_fits (c := c) hrun rd rfl hv hlt, ?_, ?_, State.onlyPlot_withDev ((keep.modPlot _).modPlot _)⟩
    · rw [hv, Dev.plot_modPlot_self, tokOf_setTok_self _ _ hlt]
    · simp [State.thread, Dev.putThread, h, p]
  · refine ⟨_, ftok_of_sum_over (c := c) hrun rd rfl hover, ?_, ?_, ?_,
      State.onlyPlot_withDev (((keep.modPlot _).modPlot _).raise ..)⟩
    · rw [Dev.plot_raise, Dev.plot_modPlot_self, tokOf_setTok_self _ _ (by norm_num)]
    · simp [State.thread, Dev.putThread, h, p]
    · simp [Dev.putThread]
  · refine ⟨_, fready_of_half hrun hb, ?_, State.onlyPlot_withDev (keep.setPlot _), ?_⟩
    · simp [State.thread, h]
    · simp only [Dev.plot_setPlot_self, setThread_seq]
      exact halfSt_readyHalf ..
  · obtain ⟨hrunning, howner, hentry', hturn, hlimit⟩ := startSeq_fields p.seq t (xReg h rs1) (xReg h rs2)
    refine ⟨_, fstart_of_legal hrun rd hmode hentry hstop hcur, State.onlyPlot_withDev ((keep.modPlot _).statusTo ..), ?_, ?_⟩
    · simp [State.thread, Dev.thread_statusTo, h]
    · simp only [Dev.seq_statusTo, Dev.plot_modPlot_self]
      exact ⟨hrunning, howner, hentry', hturn, hlimit⟩
  · refine ⟨_, fstop_eq hrun rd, State.onlyPlot_withDev ((keep.modPlot _).statusTo ..), ?_, ?_⟩
    · simp [State.thread, Dev.thread_statusTo, h]
    · simp only [Dev.seq_statusTo, Dev.plot_modPlot_self, p]
  · refine ⟨_, fstat_of_accStat hrun rd hlo hhi, State.onlyPlot_withDev (keep.modPlot _), ?_⟩
    simp [State.thread, Dev.putThread, h, p]

end Sys2Proof.Machine
end

section
/-!
PROOF. Loads and stores of a control core (Table 2.2, R37, R41, R42, R70).
-/

namespace Sys2Proof.Machine

/-! ## Reservations (R38) -/

/-- Reading a map whose values have been changed one by one. -/
theorem kfind_map_val {α : Type} (g : α → α) (m : KMap α) (k : Nat) :
    kfind (m.map fun e => (e.1, g e.2)) k = (kfind m k).map g := by
  induction m with
  | nil => rfl
  | cons e m ih =>
    obtain ⟨j, v⟩ := e
    simp only [List.map_cons, kfind_cons, ih]
    split <;> rfl

/-- A thread once bytes have been stored: a reservation on them has ended. -/
def Thread.afterStore (h : Thread) (a n : Nat) : Thread :=
  match h.resv with
  | some r => if r < a + n ∧ a < r + 8 then { h with resv := none } else h
  | none => h

theorem Thread.afterStore_eq (h : Thread) (a n : Nat) : ∃ r, h.afterStore a n = { h with resv := r } := by
  unfold Thread.afterStore
  split
  · split <;> exact ⟨_, rfl⟩
  · exact ⟨_, rfl⟩

theorem clearResv_eq (p : Plot) (a n : Nat) :
    clearResv p a n = { p with threads := p.threads.map fun e => (e.1, e.2.afterStore a n) } := by
  unfold clearResv
  congr 1
  refine List.map_congr_left fun e _ => ?_
  cases hr : e.2.resv with
  | none => simp [Thread.afterStore, hr]
  | some r =>
    simp only [Thread.afterStore, hr]
    split <;> rfl

@[simp] theorem clearResv_sram (p : Plot) (a n : Nat) : (clearResv p a n).sram = p.sram := rfl

/-- A store ends reservations and leaves the rest of a thread. -/
theorem threadOf_clearResv (p : Plot) (a n t : Nat) : threadOf (clearResv p a n) t = (threadOf p t).afterStore a n := by
  have hreset : (threadReset t).afterStore a n = threadReset t := by
    unfold threadReset
    split <;> rfl
  simp only [clearResv_eq, threadOf, kget, kfind_map_val fun h : Thread => h.afterStore a n]
  cases kfind p.threads t with
  | none => exact hreset.symm
  | some h => rfl

/-- A store to the hot tier ends reservations of every plot's threads and leaves the rest of each thread. -/
theorem Dev.threadOf_clearResvDa (d : Dev) (da n i t : Nat) :
    ∃ r, threadOf ((d.clearResvDa da n).plot i) t = { threadOf (d.plot i) t with resv := r } := by
  unfold Dev.clearResvDa
  split
  · have hplot : kget Plot.reset (d.plots.map fun e => (e.1, clearResv e.2 (2 ^ 63 + da) n)) i =
        clearResv (d.plot i) (2 ^ 63 + da) n := by
      simp only [Dev.plot, kget, kfind_map_val fun p => clearResv p (2 ^ 63 + da) n]
      cases kfind d.plots i <;> rfl
    obtain ⟨r, hr⟩ := (threadOf (d.plot i) t).afterStore_eq (2 ^ 63 + da) n
    refine ⟨r, ?_⟩
    rw [← hr, ← threadOf_clearResv, ← hplot]
    rfl
  · exact ⟨_, rfl⟩

@[simp] theorem Dev.posted_clearResvDa (d : Dev) (da n i t : Nat) :
    (threadOf ((d.clearResvDa da n).plot i) t).posted = (threadOf (d.plot i) t).posted := by
  obtain ⟨r, hr⟩ := d.threadOf_clearResvDa da n i t
  rw [hr]

/-! ## Exceptions -/

@[simp] theorem Dev.except_base (d : Dev) (i t cause val : Nat) : (d.except i t cause val).base = d.base := rfl

theorem Dev.onlyPlot.except {d e : Dev} {i : Nat} (h : d.onlyPlot e i) (t cause val : Nat) : d.onlyPlot (e.except i t cause val) i :=
  h.modPlot _

@[simp] theorem Dev.threadOf_except (d : Dev) (i t cause val : Nat) :
    threadOf ((d.except i t cause val).plot i) t = takeException (threadOf (d.plot i) t) cause val := by
  simp [Dev.except]

/-- A refused store leaves the furrow store, takes the exception and raises one event (R70). -/
theorem Dev.storeRefused_plot (d : Dev) (i t a : Nat) :
    (d.storeRefused i t a).plot i = setThread (d.plot i) t (takeException (threadOf (d.plot i) t) exStore a) := by
  simp [Dev.storeRefused, Dev.except]

theorem Dev.onlyPlot.storeRefused {d e : Dev} {i : Nat} (h : d.onlyPlot e i) (t a : Nat) : d.onlyPlot (e.storeRefused i t a) i :=
  (h.except ..).raise ..

/-! ## Loads -/

@[simp] theorem length_leBytes (n v : Nat) : (leBytes n v).length = n := by
  induction n generalizing v with
  | zero => rfl
  | succ n ih => simp [leBytes, ih]

/-- A thread that is put into its plot is in it. -/
@[simp] theorem Dev.threadOf_putThread (d : Dev) (i t : Nat) (h : Thread) : threadOf ((d.putThread i t h).plot i) t = h := by
  simp [Dev.putThread]

section Access

variable {s : State} {plot : Fin 4352} {t : Fin 8} {rs1 rs2 : Fin 32} {imm : BitVec 12} {w : Fin 4} {a n : Nat}
  (h : s.threadRuns plot t = true) (ha : effAddr (s.thread plot t) rs1 imm = a) (hn : 2 ^ w.val = n)

section Load

variable (rd : Fin 32) (sg short : Bool) (hpmp : pmpAllows (s.thread plot t) a n 0 = true)
include h ha hn hpmp

/-- A load from own SRAM answers at once. -/
theorem deviceLoad_of_sram (hplace : corePlace a n = .sram a) :
    exec (.deviceLoad plot t rd rs1 imm w sg short) s = .next (s.withDev (s.mod.dev.putThread plot t
      (setX (pcNext (s.thread plot t) (if short then 2 else 4)) rd
        (extendLoad n sg (leNat (readRun (s.mod.dev.plot plot).sram a n)))))) := by
  subst ha hn
  refine (onPlaneDev_onThread h _).trans ?_
  simp only [hpmp, hplace, Bool.not_true, Bool.false_eq_true, if_false]

/-- A load from device memory parks the thread, or holds it where six are parked (R42). -/
theorem deviceLoad_of_device {da : Nat} (hplace : corePlace a n = .device da)
    (hok : accessFault s.mod.dev false da n = none) :
    ∃ d : Dev, exec (.deviceLoad plot t rd rs1 imm w sg short) s = .next (s.withDev (d.putThread plot t { s.thread plot t with
      park := if parkedOnMem (s.mod.dev.plot plot) < 6 then .mem rd n sg da (if short then 2 else 4)
        else .held rd n sg da (if short then 2 else 4) })) := by
  subst ha hn
  have hexec : exec (.deviceLoad plot t rd rs1 imm w sg short) s = execDeviceLoad plot t rd rs1 imm w sg short s := rfl
  rw [hexec, execDeviceLoad, onPlaneDev_onThread h]
  simp only [hpmp, hplace, hok, Bool.not_true, Bool.false_eq_true, if_false]
  exact ⟨_, rfl⟩

/-- A load from an address outside Table 2.2 takes the access fault. -/
theorem deviceLoad_of_nowhere (hplace : corePlace a n = .nowhere) :
    exec (.deviceLoad plot t rd rs1 imm w sg short) s = .next (s.withDev (s.mod.dev.except plot t exLoad a)) := by
  subst ha hn
  refine (onPlaneDev_onThread h _).trans ?_
  simp only [hpmp, hplace, Bool.not_true, Bool.false_eq_true, if_false]

end Load

/-! ## Stores -/

section Store

variable (short : Bool) (hpmp : pmpAllows (s.thread plot t) a n 1 = true)
include h ha hn hpmp

/-- A store that the PMP allows is carried out where its address lies. -/
theorem deviceStore_eq :
    exec (.deviceStore plot t rs1 rs2 imm w short) s = s.leaves (coreStore s.mod plot t a n
      (xReg (s.thread plot t) rs2 % 2 ^ (8 * n)) (pcNext (s.thread plot t) (if short then 2 else 4))) := by
  subst ha hn
  refine (onPlane_onThread h _).trans ?_
  simp only [hpmp, Bool.not_true, Bool.false_eq_true, if_false]

/-- The same for a store into the furrow store. -/
theorem furrowStoreWrite_eq {o : Nat} (hplace : corePlace a n = .store o) :
    exec (.furrowStoreWrite plot t rs1 rs2 imm w short) s = s.leaves (coreStore s.mod plot t a n
      (xReg (s.thread plot t) rs2 % 2 ^ (8 * n)) (pcNext (s.thread plot t) (if short then 2 else 4))) := by
  subst ha hn
  refine (onPlane_onThread h _).trans ?_
  simp only [hpmp, hplace, Bool.not_true, Bool.false_eq_true, if_false]

end Store

end Access

/-- A store to own SRAM: its bytes, its thread, and reservations on its bytes. -/
theorem coreStore_of_sram {m : Mod} {i t a n v o : Nat} {h' : Thread} (hplace : corePlace a n = .sram o) :
    coreStore m i t a n v h' = m.onDev fun d => d.setPlot i
      (setThread (clearResv { m.dev.plot i with sram := writeRun (m.dev.plot i).sram o (leBytes n v) } a n) t { h' with
        resv := (threadOf (clearResv { m.dev.plot i with sram := writeRun (m.dev.plot i).sram o (leBytes n v) } a n) t).resv }) := by
  simp only [coreStore, hplace]

theorem coreStore_of_store {m : Mod} {i t a n v o : Nat} {h' : Thread} (hplace : corePlace a n = .store o)
    (hfree : storeBusy (m.dev.plot i) o = false) :
    coreStore m i t a n v h' = m.onDev fun d => d.setPlot i
      (setThread { m.dev.plot i with store := writeRun (m.dev.plot i).store o (leBytes n v) } t h') := by
  simp only [coreStore, hplace, hfree, Bool.false_eq_true, if_false]

theorem coreStore_of_busy {m : Mod} {i t a n v o : Nat} {h' : Thread} (hplace : corePlace a n = .store o)
    (hbusy : storeBusy (m.dev.plot i) o = true) :
    coreStore m i t a n v h' = m.onDev fun d => d.storeRefused i t a := by
  simp only [coreStore, hplace, hbusy, if_true]

/-- A demand write to the hot tier, of no held range and no lost soft band, writes its bytes and ends the reservations on them. -/
theorem demandWrite_of_hot {m : Mod} (who : Who) {da die off : Nat} (bs : List Byte)
    (hok : accessFault m.dev true da bs.length = none) (hheld : daHeld m.dev da = false) (hsoft : inLostSoft m.dev da = false)
    (hhot : daPlace da = .hot die off) :
    m.demandWrite who da bs = .ok ⟨writeRun m.mem da bs, m.dev.clearResvDa da bs.length⟩ := by
  simp only [Mod.demandWrite, hok, hheld, hhot, Mod.store, hsoft, Bool.false_eq_true, if_false, Mod.onDev]

/-- A posted store to device memory: the module once its bytes are written, one more store to be acknowledged. -/
theorem coreStore_of_device {m m' : Mod} {i t a n v da : Nat} {h' : Thread} (hplace : corePlace a n = .device da)
    (hwrite : m.demandWrite (.thread i t) da (leBytes n v) = .ok m') :
    coreStore m i t a n v h' = m'.onDev fun d => d.modPlot i fun p =>
      setThread p t { h' with posted := (threadOf p t).posted + 1, resv := (threadOf p t).resv } := by
  simp only [coreStore, hplace, hwrite]

/-- Settles O3: each clause is the equation of its access. -/
theorem coreLoadsAndStores : Obligations.CoreLoadsAndStores := by
  unfold Obligations.CoreLoadsAndStores
  intro s plot t rd rs1 rs2 imm w sg short hrun d p h a n len v
  have keep := Dev.onlyPlot_refl d plot
  refine ⟨fun hpmp hplace => ?_, fun da hpmp hplace hok => ?_, fun hpmp hplace => ?_, fun hpmp hplace => ?_,
    fun da hpmp hplace hok hheld hsoft ⟨die, off, hhot⟩ => ?_, fun o hpmp hplace hfree => ?_, fun o hpmp hplace hbusy => ?_⟩
  · exact ⟨_, deviceLoad_of_sram hrun rfl rfl rd sg short hpmp hplace, State.onlyPlot_withDev (keep.modPlot _),
      Dev.threadOf_putThread ..⟩
  · obtain ⟨e, hexec⟩ := deviceLoad_of_device hrun rfl rfl rd sg short hpmp hplace hok
    exact ⟨_, hexec, Dev.threadOf_putThread ..⟩
  · exact ⟨_, deviceLoad_of_nowhere hrun rfl rfl rd sg short hpmp hplace, State.onlyPlot_withDev (keep.except ..),
      Dev.threadOf_except ..⟩
  · refine ⟨_, deviceStore_eq hrun rfl rfl short hpmp, ?_⟩
    rw [coreStore_of_sram hplace]
    exact ⟨State.onlyPlot_withDev (keep.setPlot _), by simp +zetaDelta, by simp +zetaDelta [State.thread]⟩
  · have hwrite := demandWrite_of_hot (m := s.mod) (.thread plot t) (leBytes n v) (by simpa using hok) hheld hsoft hhot
    refine ⟨_, deviceStore_eq hrun rfl rfl short hpmp, ?_⟩
    rw [coreStore_of_device hplace hwrite]
    exact ⟨rfl, by simp +zetaDelta [State.thread], by simp +zetaDelta [State.thread]⟩
  · refine ⟨_, furrowStoreWrite_eq hrun rfl rfl short hpmp hplace, ?_⟩
    rw [coreStore_of_store hplace hfree]
    exact ⟨State.onlyPlot_withDev (keep.setPlot _), by simp +zetaDelta, by simp +zetaDelta [State.thread]⟩
  · refine ⟨_, furrowStoreWrite_eq hrun rfl rfl short hpmp hplace, ?_⟩
    rw [coreStore_of_busy hplace hbusy]
    exact ⟨State.onlyPlot_withDev (keep.storeRefused ..), by simp +zetaDelta [Dev.storeRefused_plot],
      by simp +zetaDelta [State.thread, Dev.storeRefused_plot], by simp +zetaDelta [Dev.storeRefused]⟩

end Sys2Proof.Machine
end

section
/-!
PROOF. AMO, LR and SC on a plot's own SRAM (R38).
-/

namespace Sys2Proof.Machine

/-- Bytes given to a plot's SRAM by a store: the reservations on them end. -/
def Plot.storeSram (p : Plot) (a : Nat) (bs : List Byte) : Plot :=
  clearResv { p with sram := writeRun p.sram a bs } a bs.length

@[simp] theorem Plot.storeSram_sram (p : Plot) (a : Nat) (bs : List Byte) : (p.storeSram a bs).sram = writeRun p.sram a bs := rfl

section Atomics

variable {s : State} {plot : Fin 4352} {t : Fin 8} {op : AmoOp} {dw : Bool} {rd rs1 rs2 : Fin 32} {a n : Nat}
  (h : s.threadRuns plot t = true) (ha : xReg (s.thread plot t) rs1 = a) (hn : (if dw then 8 else 4) = n)
include h ha hn

section OwnSram

variable (hplace : corePlace a n = .sram a) (halign : a % n = 0)
  (hpmp : pmpAllows (s.thread plot t) a n (if op = .lr then 0 else 1) = true)
include hplace halign hpmp

/-- An AMO writes what it computes from the old value, which goes to rd. -/
theorem amoLrsc_of_amo (hlr : op ≠ .lr) (hsc : op ≠ .sc) :
    exec (.amoLrsc plot t op dw rd rs1 rs2) s = .next (s.withDev ((s.mod.dev.modPlot plot fun p =>
      p.storeSram a (leBytes n (amoResult op (8 * n) (leNat (readRun (s.mod.dev.plot plot).sram a n))
        (xReg (s.thread plot t) rs2 % 2 ^ (8 * n))))).modPlot plot fun p =>
      setThread p t { setX (pcNext (s.thread plot t) 4) rd
        (modPow 64 (sext (8 * n) (leNat (readRun (s.mod.dev.plot plot).sram a n)))) with resv := (threadOf p t).resv })) := by
  subst ha hn
  refine (onPlane_onThread h _).trans ?_
  simp only [Plot.storeSram, length_leBytes, hplace, halign, hpmp, Bool.not_true, bne_self_eq_false, Bool.or_self,
    Bool.false_eq_true, if_false]
  cases op with
  | lr => exact absurd rfl hlr
  | sc => exact absurd rfl hsc
  | _ => rfl

/-- LR loads and reserves its address. -/
theorem amoLrsc_of_lr (hlr : op = .lr) :
    exec (.amoLrsc plot t op dw rd rs1 rs2) s = .next (s.withDev (s.mod.dev.putThread plot t { setX (pcNext (s.thread plot t) 4) rd
        (modPow 64 (sext (8 * n) (leNat (readRun (s.mod.dev.plot plot).sram a n)))) with resv := some a })) := by
  subst ha hn
  refine (onPlane_onThread h _).trans ?_
  simp only [hplace, halign, hpmp, Bool.not_true, bne_self_eq_false, Bool.or_self, Bool.false_eq_true, if_false]
  subst hlr
  rfl

/-- SC of an address the thread has reserved writes it. -/
theorem amoLrsc_of_sc_reserved (hsc : op = .sc) (hresv : (s.thread plot t).resv = some a) :
    exec (.amoLrsc plot t op dw rd rs1 rs2) s = .next (s.withDev ((s.mod.dev.modPlot plot fun p =>
      p.storeSram a (leBytes n (xReg (s.thread plot t) rs2 % 2 ^ (8 * n)))).putThread plot t
        { setX (pcNext (s.thread plot t) 4) rd 0 with resv := none })) := by
  subst ha hn
  refine (onPlane_onThread h _).trans ?_
  simp only [Plot.storeSram, length_leBytes, hplace, halign, hpmp, hresv, Bool.not_true, bne_self_eq_false, Bool.or_self,
    Bool.false_eq_true, if_false, if_true]
  subst hsc
  rfl

/-- SC of any other address writes nothing. -/
theorem amoLrsc_of_sc_unreserved (hsc : op = .sc) (hresv : (s.thread plot t).resv ≠ some a) :
    exec (.amoLrsc plot t op dw rd rs1 rs2) s = .next (s.withDev (s.mod.dev.putThread plot t
      { setX (pcNext (s.thread plot t) 4) rd 1 with resv := none })) := by
  subst ha hn
  refine (onPlane_onThread h _).trans ?_
  simp only [hplace, halign, hpmp, hresv, Bool.not_true, bne_self_eq_false, Bool.or_self, Bool.false_eq_true, if_false]
  subst hsc
  rfl

end OwnSram

/-- On an address outside Table 2.2 the access fault is taken. -/
theorem amoLrsc_of_nowhere (hplace : corePlace a n = .nowhere) :
    exec (.amoLrsc plot t op dw rd rs1 rs2) s = .next (s.withDev (s.mod.dev.except plot t (if op = .lr then exLoad else exStore) a)) := by
  subst ha hn
  refine (onPlane_onThread h _).trans ?_
  simp only [hplace, Bool.not_false, Bool.true_or, if_true]
  rfl

end Atomics

theorem modPow_lt (n : Nat) (v : Int) : modPow n v < 2 ^ n := by
  have hpos : (0 : Int) < ((2 ^ n : Nat) : Int) := by positivity
  have hlt := Int.emod_lt_of_pos v hpos
  have hnn := Int.emod_nonneg v hpos.ne'
  unfold modPow
  omega

/-- Settles O5: each clause is the equation of its operation. -/
theorem coreAtomics : Obligations.CoreAtomics := by
  unfold Obligations.CoreAtomics
  intro s plot t op dw rd rs1 rs2 hrun p h a n v old loaded
  have keep := Dev.onlyPlot_refl s.mod.dev plot
  refine ⟨fun hplace halign hpmp => ⟨fun hlr hsc => ?_, fun hlr => ?_, fun hsc hresv => ?_, fun hsc hresv => ?_⟩, fun hplace => ?_⟩
  · refine ⟨_, amoLrsc_of_amo hrun rfl rfl hplace halign hpmp hlr hsc, State.onlyPlot_withDev ((keep.modPlot _).modPlot _), ?_, ?_, ?_⟩
    · simp +zetaDelta
    · simp +zetaDelta [State.thread]
    · rw [State.thread, Dev.plot_modPlot_self, threadOf_setThread_self]
      refine (xReg_setX ..).trans ?_
      rw [Nat.mod_eq_of_lt (modPow_lt ..)]
      simp +zetaDelta
  · exact ⟨_, amoLrsc_of_lr hrun rfl rfl hplace halign hpmp hlr, State.onlyPlot_withDev (keep.modPlot _),
      by simp +zetaDelta [Dev.putThread], Dev.threadOf_putThread ..⟩
  · exact ⟨_, amoLrsc_of_sc_reserved hrun rfl rfl hplace halign hpmp hsc hresv,
      State.onlyPlot_withDev ((keep.modPlot _).modPlot _), by simp +zetaDelta [Dev.putThread], Dev.threadOf_putThread ..⟩
  · exact ⟨_, amoLrsc_of_sc_unreserved hrun rfl rfl hplace halign hpmp hsc hresv, State.onlyPlot_withDev (keep.modPlot _),
      by simp +zetaDelta [Dev.putThread], Dev.threadOf_putThread ..⟩
  · exact ⟨_, amoLrsc_of_nowhere hrun rfl rfl hplace, State.onlyPlot_withDev (keep.except ..), Dev.threadOf_except ..⟩

end Sys2Proof.Machine
end

section
/-!
PROOF. FLOAD and LOAD_DONE, the end of a device access, FWAIT, FWORK, FENCE, the start of a thread, the illegal instruction
(R39 to R43, R70, R101).
-/

namespace Sys2Proof.Machine

/-! ## One thread beside another -/

theorem kfind_kset_ne {α : Type} [DecidableEq α] (d : α) (m : KMap α) {k j : Nat} (v : α) (h : k ≠ j) :
    kfind (kset d m k v) j = kfind m j := by
  unfold kset
  split
  · rw [kfind_kdel, if_neg h]
  · rw [kfind_kput, if_neg h]

/-- Every other thread is as it was. -/
theorem threadOf_setThread_ne (p : Plot) {u t : Nat} (h : Thread) (hne : u ≠ t) : threadOf (setThread p u h) t = threadOf p t := by
  simp only [threadOf, setThread, kget, kfind_kset_ne _ _ _ hne]

/-- Waking a held thread leaves one that is not parked as it was (R42). -/
theorem threadOf_wakeHeld (p : Plot) {t : Nat} (h : (threadOf p t).park = .no) : threadOf (wakeHeld p) t = threadOf p t := by
  unfold wakeHeld
  split
  next u hu =>
    split
    next hheld =>
      refine threadOf_setThread_ne _ _ fun hut => ?_
      rw [hut, h] at hheld
      cases hheld
    next => rfl
  next => rfl

/-! ## Events delivered to a thread (R41) -/

/-- Events that a thread takes leave the rest of its plot. -/
theorem takeEvents_eq (p : Plot) (t rd mask fresh : Nat) :
    ∃ evs ths, takeEvents p t rd mask fresh = { p with events := evs, threads := ths } := ⟨_, _, rfl⟩

/-- An event delivered to a thread changes the events and threads of its plot. -/
theorem deliver_eq (fresh : Nat) (p : Plot) (t : Nat) (ev : PEv) (detail : List Nat) :
    ∃ evs ths, deliver fresh p t ev detail = { p with events := evs, threads := ths } := by
  unfold deliver
  dsimp only
  split
  · split
    · exact takeEvents_eq ..
    · exact ⟨_, _, rfl⟩
  · exact ⟨_, _, rfl⟩

/-- An event delivered to the owner of a plot's sequencer changes the events and threads of that plot. -/
theorem Dev.plot_deliverOwner (d : Dev) (i : Nat) (ev : PEv) (detail : List Nat) :
    ∃ evs ths, (d.deliverOwner i ev detail).plot i = { d.plot i with events := evs, threads := ths } := by
  simp only [Dev.deliverOwner, Dev.plot_tickFresh, Dev.plot_modPlot_self]
  exact deliver_eq ..

theorem Dev.plot_deliverOwner_ne (d : Dev) {i j : Nat} (ev : PEv) (detail : List Nat) (h : i ≠ j) :
    (d.deliverOwner i ev detail).plot j = d.plot j :=
  (Dev.plot_tickFresh ..).trans (d.plot_modPlot_ne _ h)

/-- What came back for an access is forgotten: no plot changes. -/
@[simp] theorem Dev.plot_dropGot (d : Dev) (mine : Who → Bool) (j : Nat) : (d.dropGot mine).plot j = d.plot j := by
  unfold Dev.dropGot
  split <;> rfl

/-! ## FLOAD and LOAD_DONE (R70) -/

/-- FLOAD of a half that is free to be loaded, from a DA that does not fault. -/
theorem fload_of_free {s : State} {plot : Fin 4352} {t : Fin 8} {rs1 rs2 : Fin 32} (h : s.threadRuns plot t = true)
    (hb : xReg (s.thread plot t) rs2 ≤ 1)
    (hfree : storeBusy (s.mod.dev.plot plot) (if xReg (s.thread plot t) rs2 = 1 then 0x10000 else 0) = false)
    (hok : accessFault s.mod.dev false (xReg (s.thread plot t) rs1) 0x10000 = none) :
    exec (.fload plot t rs1 rs2) s = .next (s.withDev (s.mod.dev.setPlot plot (setThread { s.mod.dev.plot plot with
      fload := (s.mod.dev.plot plot).fload ++ [⟨xReg (s.thread plot t) rs1, decide (xReg (s.thread plot t) rs2 = 1)⟩] } t
        (pcNext (s.thread plot t) 4)))) := by
  refine (onPlaneDev_onThread h _).trans ?_
  simp only [Nat.not_lt.2 hb, if_false, decide_eq_true_eq, hfree, hok, Bool.false_eq_true]

section Stopped

variable {s : State} (hstop : s.mod.dev.stopped = false)
include hstop

/-- LOAD_DONE of bytes that are there, into a half that has not become ACTIVE. -/
theorem loadDone_of_bytes {plot : Fin 4352} {l : Fload} {rest : List Fload} {bs : List Byte}
    (hload : (s.mod.dev.plot plot).fload = l :: rest) (hread : s.mod.demandRead (.fload plot) l.da 0x10000 = .ok bs)
    (hfree : storeBusy (s.mod.dev.plot plot) (if l.half then 0x10000 else 0) = false) :
    exec (.loadDone plot) s = .next (s.withDev (((s.mod.dev.dropGot fun w => decide (w = .fload plot)).setPlot plot
      { s.mod.dev.plot plot with
        fload := rest
        store := writeRun (s.mod.dev.plot plot).store (if l.half then 0x10000 else 0) bs }).deliverOwner plot .loadDone
          [if l.half then 1 else 0])) := by
  have hexec : exec (.loadDone plot) s = execLoadDone plot s := rfl
  rw [hexec, execLoadDone, onPlaneDev_eq _ _ hstop]
  have hfree' : storeBusy { s.mod.dev.plot plot with fload := rest } (if l.half then 0x10000 else 0) = false := hfree
  simp only [hload, hread, hfree', Bool.false_eq_true, if_false]

/-! ## The end of a device access (R41 to R43) -/

/-- A load whose bytes are there: the thread runs on with its value, and a held thread takes its place. -/
theorem deviceAccessCompletion_of_load {plot : Fin 4352} {t : Fin 8} {rd n da len : Nat} {sg : Bool} {bs : List Byte}
    (hpark : (s.thread plot t).park = .mem rd n sg da len) (hread : s.mod.demandRead (.thread plot t) da n = .ok bs) :
    exec (.deviceAccessCompletion plot t false) s = .next (s.withDev ((s.mod.dev.setPlot plot (wakeHeld
      (setThread (s.mod.dev.plot plot) t
        { setX (pcNext (s.thread plot t) len) rd (extendLoad n sg (leNat bs)) with park := .no }))).dropGot
          fun w => decide (w = .thread plot t))) := by
  have hexec : exec (.deviceAccessCompletion plot t false) s = execDeviceAccessCompletion plot t false s := rfl
  rw [hexec, execDeviceAccessCompletion, onPlaneDev_eq _ _ hstop]
  rw [State.thread] at hpark
  simp only [hpark, hread, Bool.false_eq_true, if_false, State.thread]

/-- The acknowledgement of a posted store that is not still on its way to a neighbour. -/
theorem deviceAccessCompletion_of_store {plot : Fin 4352} {t : Fin 8}
    (hposted : windowStores s.mod.dev plot t < (s.thread plot t).posted) :
    exec (.deviceAccessCompletion plot t true) s = .next (s.withDev (s.mod.dev.ackStore plot t)) := by
  have hexec : exec (.deviceAccessCompletion plot t true) s = execDeviceAccessCompletion plot t true s := rfl
  rw [hexec, execDeviceAccessCompletion, onPlaneDev_eq _ _ hstop]
  rw [State.thread] at hposted
  simp only [Nat.not_le.2 hposted, if_true, if_false]

end Stopped

/-- A FENCE ends with the last acknowledgement. -/
theorem Dev.threadOf_ackStore (d : Dev) (i t : Nat) {h : Thread} (hh : threadOf (d.plot i) t = h) (hposted : 0 < h.posted) :
    threadOf ((d.ackStore i t).plot i) t =
      { h with posted := h.posted - 1, park := if h.posted = 1 ∧ h.park = .fence then .no else h.park } := by
  have hlast : h.posted - 1 = 0 ↔ h.posted = 1 := by omega
  simp only [Dev.ackStore, Dev.plot_modPlot_self, threadOf_setThread_self, hh, hlast]
  split <;> rfl

/-! ## FWAIT, FWORK, FENCE, thread start, illegal instruction -/

section Waits

variable {s : State} {plot : Fin 4352} {t : Fin 8} (h : s.threadRuns plot t = true)
include h

/-- FWAIT with nothing pending parks the thread. -/
theorem fwait_of_none (rd : Fin 32) {rs1 : Fin 32} (hnone : pendingFor (s.mod.dev.plot plot) t (xReg (s.thread plot t) rs1 % 128) = []) :
    exec (.fwait plot t rd rs1) s = .next (s.withDev (s.mod.dev.setPlot plot (setThread (s.mod.dev.plot plot) t { s.thread plot t with
      park := .fwait rd (xReg (s.thread plot t) rs1 % 128) }))) := by
  refine (onPlaneDev_onThread h _).trans ?_
  simp only [hnone, List.isEmpty_nil, if_true]

/-- FWAIT with an event pending takes the events of its mask. -/
theorem fwait_of_some (rd : Fin 32) {rs1 : Fin 32} (hsome : pendingFor (s.mod.dev.plot plot) t (xReg (s.thread plot t) rs1 % 128) ≠ []) :
    exec (.fwait plot t rd rs1) s = .next (s.withDev (s.mod.dev.setPlot plot (takeEvents (s.mod.dev.plot plot) t rd
      (xReg (s.thread plot t) rs1 % 128) s.mod.dev.base.fresh)).tickFresh) := by
  refine (onPlaneDev_onThread h _).trans ?_
  simp only [List.isEmpty_iff, hsome, if_false]

/-- FWORK on a plot with a logical number: parked, and in line for a block. -/
theorem fwork_of_logical (rd : Fin 32) {l : Nat} (hl : logicalOf s.mod.dev.base plot = some l) :
    exec (.fwork plot t rd) s = .next (s.withDev ((s.mod.dev.setPlot plot (setThread (s.mod.dev.plot plot) t
      { s.thread plot t with park := .fwork rd })).onWork fun w => { w with waiting := w.waiting ++ [(l, t.val)] })) := by
  refine (onPlaneDev_onThread h _).trans ?_
  simp only [Dev.setPlot_base, hl]
  rfl

/-- FENCE parks the thread unless nothing posted is open. -/
theorem fence_eq :
    exec (.fenceInstruction plot t) s = .next (s.withDev (s.mod.dev.putThread plot t { pcNext (s.thread plot t) 4 with
      park := if (s.thread plot t).posted = 0 then .no else .fence })) := by
  refine (onPlaneDev_onThread h _).trans ?_
  dsimp only
  split
  · rw [← State.threadRuns_park h]
    rfl
  · rfl

/-- The start word of a thread that has not been started starts it at the word. -/
theorem threadStartWord_of_unstarted {u : Fin 8} (rs2 : Fin 32) (hu : (s.thread plot u).started = false) :
    exec (.threadStartWord plot t u rs2) s = .next (s.withDev (s.mod.dev.setPlot plot (setThread
      (setThread (s.mod.dev.plot plot) t (pcNext (s.thread plot t) 4)) u { s.thread plot u with
        started := true, pc := BitVec.ofNat 64 (xReg (s.thread plot t) rs2) }))) ∧ t.val ≠ u.val := by
  have hne : t.val ≠ u.val := fun he => by
    rw [← he, State.threadRuns_started h] at hu
    cases hu
  refine ⟨(onPlaneDev_onThread h _).trans ?_, hne⟩
  rw [State.thread] at hu
  simp only [threadOf_setThread_ne _ _ hne, hu, Bool.false_eq_true, if_false]
  rfl

/-- A custom-0 word with a non-zero funct7 takes the exception. -/
theorem illegalInstruction_of_custom0 {word : Word32} (hop : bitsOf word.toNat 6 0 = 0x0B) (hf : bitsOf word.toNat 31 25 ≠ 0) :
    exec (.illegalInstruction plot t word) s = .next (s.withDev (s.mod.dev.except plot t exIllegal word.toNat)) := by
  refine (onPlaneDev_onThread h _).trans ?_
  simp only [hop, hf, ne_eq, not_false_iff, and_self, if_true]

end Waits

/-- Once a thread has taken the events of a mask it runs on and none is pending. -/
theorem takeEvents_thread (p : Plot) (t rd mask fresh : Nat) :
    (threadOf (takeEvents p t rd mask fresh) t).park = .no ∧ (threadOf (takeEvents p t rd mask fresh) t).pc = (threadOf p t).pc + 4 := by
  simp only [takeEvents, threadOf_setThread_self, pcNext_pc, setX_pc]
  exact ⟨trivial, rfl⟩

theorem pendingFor_takeEvents (p : Plot) (t rd mask fresh : Nat) : pendingFor (takeEvents p t rd mask fresh) t mask = [] := by
  simp only [takeEvents, pendingFor, setThread_events, List.filter_filter, List.filter_eq_nil_iff]
  intro e _
  cases decide (e.thread = t) && bitOf mask e.ev.bit <;> simp

/-- Settles O4: each clause is the equation of its command. -/
theorem coreCompletionsWaitsAndStarts : Obligations.CoreCompletionsWaitsAndStarts := by
  unfold Obligations.CoreCompletionsWaitsAndStarts
  constructor
  · intro s plot t hstop d p h
    have keep := Dev.onlyPlot_refl s.mod.dev plot
    refine ⟨fun rs1 rs2 hissue hb hfree hok => ?_, fun l rest bs hload hread hfree => ?_,
      fun rd n sg da len bs hpark hread => ?_, fun hposted => ?_⟩
    · have hrun : s.threadRuns plot t = true := by
        rw [State.threadRuns, hstop]
        exact hissue
      exact ⟨_, fload_of_free hrun hb hfree hok, State.onlyPlot_withDev (keep.setPlot _), by simp +zetaDelta [State.thread],
        by simp +zetaDelta⟩
    · refine ⟨_, loadDone_of_bytes hstop hload hread hfree, ?_⟩
      obtain ⟨evs, ths, hplot⟩ := Dev.plot_deliverOwner ((s.mod.dev.dropGot fun w => decide (w = .fload plot)).setPlot plot
        { p with fload := rest, store := writeRun p.store (if l.half then 0x10000 else 0) bs }) plot .loadDone [if l.half then 1 else 0]
      rw [hplot, Dev.plot_setPlot_self]
      exact ⟨rfl, rfl, rfl⟩
    · refine ⟨_, deviceAccessCompletion_of_load hstop hpark hread, rfl, ?_⟩
      simp only [State.thread, Dev.plot_dropGot, Dev.plot_setPlot_self]
      rw [threadOf_wakeHeld _ (by simp), threadOf_setThread_self]
      rfl
    · exact ⟨_, deviceAccessCompletion_of_store hstop hposted, State.onlyPlot_withDev (keep.modPlot _),
        Dev.threadOf_ackStore _ _ _ rfl (Nat.zero_lt_of_lt hposted)⟩
  · intro s plot t u rd rs1 rs2 word hrun p h
    have keep := Dev.onlyPlot_refl s.mod.dev plot
    refine ⟨fun hnone => ?_, fun hsome => ?_, fun l hl => ?_, ?_, fun hu => ?_, fun hop hf => ?_⟩
    · exact ⟨_, fwait_of_none hrun rd hnone, State.onlyPlot_withDev (keep.setPlot _), by simp +zetaDelta [State.thread]⟩
    · refine ⟨_, fwait_of_some hrun rd hsome, State.onlyPlot_withDev (keep.setPlot _).tickFresh, ?_⟩
      obtain ⟨hpark, hpc⟩ := takeEvents_thread p t rd (xReg h rs1 % 128) s.mod.dev.base.fresh
      simp only [State.thread, Dev.plot_tickFresh, Dev.plot_setPlot_self]
      exact ⟨hpark, hpc, pendingFor_takeEvents ..⟩
    · exact ⟨_, fwork_of_logical hrun rd hl, by simp +zetaDelta [State.thread], rfl, rfl⟩
    · exact ⟨_, fence_eq hrun, State.onlyPlot_withDev (keep.modPlot _), Dev.threadOf_putThread ..⟩
    · obtain ⟨hexec, hne⟩ := threadStartWord_of_unstarted hrun rs2 hu
      refine ⟨_, hexec, State.onlyPlot_withDev (keep.setPlot _), ?_, by simp +zetaDelta [State.thread]⟩
      simp only [State.thread, Dev.plot_setPlot_self, threadOf_setThread_ne _ _ hne.symm, threadOf_setThread_self]
      rfl
    · exact ⟨_, illegalInstruction_of_custom0 hrun hop hf, State.onlyPlot_withDev (keep.except ..), Dev.threadOf_except ..⟩

end Sys2Proof.Machine
end

section
/-!
PROOF. What the ends of executions, token counters and dependency slots leave of a plot, and the sequencer's own furrows IDLE, SIGNAL
and MILESTONE (R51, R52, R56, R58, R76, R100).
-/

namespace Sys2Proof.Machine

/-! ## In-flight entries and unit queues -/

/-- The entry of a furrow once one of its executions has ended. -/
def endedEntry (stats : List Nat) (x : InFlight) : InFlight :=
  { x with open_ := x.open_ - 1, stats := mergeStats x.stats stats }

@[simp] theorem unitQ_modInflight (p : Plot) (fid : Nat) (f : InFlight → InFlight) (u : UnitK) :
    unitQ (modInflight p fid f) u = unitQ p u := by
  cases u <;> rfl

/-- A unit's queue once it has been changed; the sequencer's own place holds one execution. -/
theorem unitQ_onUnitQ (p : Plot) {u : UnitK} (hu : u ≠ .own) (f : List Exec → List Exec) : unitQ (onUnitQ p u f) u = f (unitQ p u) := by
  cases u with
  | own => exact absurd rfl hu
  | _ => rfl

/-! ## The end of an execution (R52) -/

section FinishExec

variable (d : Dev) (i : Nat) (u : UnitK) (e : Exec) (stats : List Nat) (c : ConvCount)

/-- Its plot: the queue one shorter, its furrow's entry brought up to date. -/
theorem plot_finishExec :
    (finishExec d i u e stats c).plot i = modInflight (onUnitQ (d.plot i) u (·.drop 1)) e.fid (endedEntry stats) := by
  simp only [finishExec]
  split <;> split <;> simp only [Dev.plot_count, Dev.plot_dropGot, Dev.plot_modPlot_self] <;> rfl

theorem plot_finishExec_ne {j : Nat} (h : i ≠ j) : (finishExec d i u e stats c).plot j = d.plot j := by
  simp only [finishExec]
  split <;> split <;> simp only [Dev.plot_count, Dev.plot_dropGot, Dev.plot_modPlot_ne _ _ h]

/-- The unit's queue is one shorter. -/
theorem unitQ_finishExec (hu : u ≠ .own) : unitQ ((finishExec d i u e stats c).plot i) u = (unitQ (d.plot i) u).drop 1 := by
  rw [plot_finishExec, unitQ_modInflight, unitQ_onUnitQ _ hu]

/-- What the plot's units compute on is as the execution left it. -/
theorem registers_finishExec :
    ((finishExec d i u e stats c).plot i).sram = (d.plot i).sram ∧ ((finishExec d i u e stats c).plot i).tiles = (d.plot i).tiles ∧
      ((finishExec d i u e stats c).plot i).vregs = (d.plot i).vregs ∧ ((finishExec d i u e stats c).plot i).acc = (d.plot i).acc := by
  rw [plot_finishExec]
  cases u <;> exact ⟨rfl, rfl, rfl, rfl⟩

/-- Nothing is sent and no channel changes. -/
theorem messages_finishExec :
    ((finishExec d i u e stats c).plot i).sent = (d.plot i).sent ∧ ((finishExec d i u e stats c).plot i).chans = (d.plot i).chans := by
  rw [plot_finishExec]
  cases u <;> exact ⟨rfl, rfl⟩

@[simp] theorem Dev.dropGot_work (mine : Who → Bool) : (d.dropGot mine).work = d.work := by
  unfold Dev.dropGot
  split <;> rfl

@[simp] theorem work_finishExec : (finishExec d i u e stats c).work = d.work := by
  simp only [finishExec]
  split <;> split <;> simp only [Dev.count_work, Dev.dropGot_work, Dev.modPlot_work]

/-- The sequencer's own place is free again. -/
theorem own_finishExec {e' : Exec} (h : (d.plot i).seq.own = some e') : ((finishExec d i .own e stats c).plot i).seq.own = none := by
  rw [plot_finishExec]
  simp [modInflight, onUnitQ, h]

end FinishExec

/-! ## Token counters and dependency slots -/

@[simp] theorem tokOf_modInflight (p : Plot) (fid : Nat) (f : InFlight → InFlight) (c : Nat) : tokOf (modInflight p fid f) c = tokOf p c := rfl

/-- A dependency slot that its decrement does not bring to zero (R100). -/
theorem decSlot_of_lt {m : Mod} {slot inc : Nat} {sl : DepSlot} (hslot : kfind m.dev.work.slots slot = some sl) (hlt : inc < sl.count) :
    decSlot m slot inc = m.onDev fun d => d.onWork fun w =>
      { w with slots := kput w.slots slot { sl with count := sl.count - inc } } := by
  simp only [decSlot, hslot, hlt, if_true]
  rfl

/-- A slot that is not in use is not decremented. -/
theorem decSlot_of_none {m : Mod} {slot inc : Nat} (hslot : kfind m.dev.work.slots slot = none) : decSlot m slot inc = m := by
  simp only [decSlot, hslot]

/-! ## IDLE, SIGNAL, MILESTONE -/

/-- A plot's step work is reported, once (R58). -/
def WorkState.report (w : WorkState) (l : Nat) : WorkState := if l ∈ w.reported then w else { w with reported := w.reported ++ [l] }

theorem WorkState.mem_report (w : WorkState) (l : Nat) : l ∈ (w.report l).reported := by
  unfold WorkState.report
  by_cases hr : l ∈ w.reported
  · rwa [if_pos hr]
  · simp [hr]

section Own

variable {s : State} {plot : Fin 4352} {e : Exec} (hstop : s.mod.dev.stopped = false) (hown : (s.mod.dev.plot plot).seq.own = some e)

/-- The module once the sequencer has carried its own execution out. -/
def State.ownDone (s : State) (plot : Nat) (e : Exec) : Dev := finishExec s.mod.dev plot .own e [0, 0, 0, 0, 0, 0] .none

/-- Its plot is as it was but for the sequencer. -/
theorem State.plot_ownDone (s : State) (plot : Nat) (e : Exec) :
    ∃ q, (s.ownDone plot e).plot plot = { s.mod.dev.plot plot with seq := q } :=
  ⟨_, plot_finishExec ..⟩

include hstop hown

theorem idle_of_own (hop : recOpc e.record = 0) : exec (.idle plot) s = .next (s.withDev (s.ownDone plot e)) := by
  have hexec : exec (.idle plot) s = execIdle plot s := rfl
  rw [hexec, execIdle, onPlaneDev_eq _ _ hstop]
  simp only [hown, hop, if_true]
  rfl

/-- A SIGNAL to a counter of its own plot. -/
theorem signal_to_counter (hop : recOpc e.record = 10) (hkind : ctrlBits e.record 33 32 = 0) :
    exec (.signal plot) s = .next (s.withDev ((s.ownDone plot e).addTok plot (ctrlBits e.record 19 16) (ctrlBits e.record 15 0))) := by
  have hexec : exec (.signal plot) s = execSignal plot s := rfl
  rw [hexec, execSignal, onPlane_eq _ _ hstop]
  simp only [hown, hop, hkind, ne_eq, not_true_eq_false, if_false]
  rfl

/-- A SIGNAL to another plot goes behind what its plot has sent before. -/
theorem signal_to_plot (hop : recOpc e.record = 10) (hkind : ctrlBits e.record 33 32 = 1) :
    exec (.signal plot) s = .next (s.withDev ((s.ownDone plot e).modPlot plot fun p => { p with
      sent := p.sent ++ [.signal (ctrlBits e.record 31 20) (ctrlBits e.record 19 16) (ctrlBits e.record 15 0) e.fid] })) := by
  have hexec : exec (.signal plot) s = execSignal plot s := rfl
  rw [hexec, execSignal, onPlane_eq _ _ hstop]
  simp only [hown, hop, hkind, ne_eq, not_true_eq_false, if_false]
  rfl

/-- A SIGNAL to a dependency slot. -/
theorem signal_to_slot (hop : recOpc e.record = 10) (hkind : ctrlBits e.record 33 32 = 2) :
    exec (.signal plot) s = s.leaves (decSlot (s.withDev (s.ownDone plot e)).mod
      (ctrlBits e.record 31 20 + 4096 * ctrlBits e.record 19 16) (ctrlBits e.record 15 0)) := by
  have hexec : exec (.signal plot) s = execSignal plot s := rfl
  rw [hexec, execSignal, onPlane_eq _ _ hstop]
  simp only [hown, hop, hkind, ne_eq, not_true_eq_false, if_false]
  rfl

/-- A MILESTONE furrow of a plot with a logical number is reported, and issue waits for the release (R58). -/
theorem milestoneFurrow_of_logical {l : Nat} (hop : recOpc e.record = 14) (hl : logicalOf s.mod.dev.base plot = some l) :
    exec (.milestoneFurrow plot) s = .next (s.withDev ((s.mod.dev.modPlot plot fun p =>
      { p with seq := { p.seq with own := none, waitRelease := some e.fid } }).onWork (·.report l))) := by
  have hexec : exec (.milestoneFurrow plot) s = execMilestoneFurrow plot s := rfl
  rw [hexec, execMilestoneFurrow, onPlaneDev_eq _ _ hstop]
  simp only [hown, hop, hl, ne_eq, not_true_eq_false, if_false, Dev.modPlot_base, Dev.modPlot_work, Dev.onWork, WorkState.report]
  by_cases hr : l ∈ s.mod.dev.work.reported
  · simp only [hr, if_true]
    rfl
  · simp only [hr, if_false]

end Own

/-- Settles O9: each clause is the equation of its furrow, and what the end of an execution leaves of its plot. -/
theorem sequencerOwnFurrows : Obligations.SequencerOwnFurrows := by
  unfold Obligations.SequencerOwnFurrows
  intro s plot e hstop hown p r inc c
  obtain ⟨q, hplot⟩ := s.plot_ownDone plot e
  have hfree : ((s.ownDone plot e).plot plot).seq.own = none := own_finishExec _ _ _ _ _ hown
  have htok : tokOf ((s.ownDone plot e).plot plot) c = tokOf p c := by
    rw [hplot]
    rfl
  refine ⟨fun hop => ?_, fun hop hkind hlt => ?_, fun hop hkind => ?_, fun sl hop hkind hslot hlt => ?_, fun l hop hl => ?_⟩
  · exact ⟨_, idle_of_own hstop hown hop, rfl, hfree, by rw [hplot]⟩
  · rw [← htok] at hlt
    obtain ⟨tok, haft⟩ := (s.ownDone plot e).plot_addTok plot c inc
    refine ⟨_, signal_to_counter hstop hown hop hkind, rfl, ?_, ?_⟩
    · rw [haft]
      exact hfree
    · rw [tokOf_addTok_of_lt hlt, htok]
  · refine ⟨_, signal_to_plot hstop hown hop hkind, rfl, ?_, ?_⟩
    · rw [Dev.plot_modPlot_self]
      exact hfree
    · rw [Dev.plot_modPlot_self, hplot]
  · have hslot' : kfind (s.withDev (s.ownDone plot e)).mod.dev.work.slots (ctrlBits r 31 20 + 4096 * c) = some sl := by
      rw [← hslot]
      exact congrArg (kfind ·.slots _) (work_finishExec ..)
    refine ⟨_, signal_to_slot hstop hown hop hkind, ?_⟩
    rw [decSlot_of_lt hslot' hlt]
    exact ⟨rfl, hfree, by simp [kfind_kput]⟩
  · refine ⟨_, milestoneFurrow_of_logical hstop hown hop hl, rfl, by simp, by simp, WorkState.mem_report ..⟩

end Sys2Proof.Machine
end

section
/-!
PROOF. Messages and signals between plots (R73 to R77): SEND, MESSAGE_ARRIVAL, CHANNEL_CREDIT_RETURN, RECV, SIGNAL_DELIVERY.
-/

namespace Sys2Proof.Machine

/-- The end of an execution leaves the channels of every plot. -/
@[simp] theorem chanOf_finishExec (d : Dev) (i : Nat) (u : UnitK) (e : Exec) (stats : List Nat) (c : ConvCount) (j ch : Nat) :
    chanOf ((finishExec d i u e stats c).plot j) ch = chanOf (d.plot j) ch := by
  by_cases hij : i = j
  · subst hij
    simp only [chanOf, (messages_finishExec ..).2]
  · rw [plot_finishExec_ne _ _ _ _ _ _ hij]

/-- An event for the owner leaves the channels. -/
@[simp] theorem chanOf_deliverOwner (d : Dev) (i j c : Nat) (ev : PEv) (detail : List Nat) :
    chanOf ((d.deliverOwner i ev detail).plot j) c = chanOf (d.plot j) c := by
  by_cases hij : i = j
  · subst hij
    obtain ⟨evs, ths, hplot⟩ := d.plot_deliverOwner i ev detail
    rw [hplot]
    rfl
  · rw [Dev.plot_deliverOwner_ne _ _ _ hij]

/-- Single-bit SRAM errors met by an execution are counted (R78). -/
def countCe (d : Dev) (i ce : Nat) : Dev := if ce = 0 then d else d.count cPlotSramCe i ce

@[simp] theorem plot_countCe (d : Dev) (i ce j : Nat) : (countCe d i ce).plot j = d.plot j := by
  unfold countCe
  split <;> rfl

@[simp] theorem physOf_countCe (d : Dev) (i ce p : Nat) : physOf (countCe d i ce).base p = physOf d.base p := by
  unfold countCe
  split
  · rfl
  · exact physOf_count ..

section Messages

variable {s : State} (hstop : s.mod.dev.stopped = false)
include hstop

/-- SEND to a plot whose channel's credit is free takes the credit and sends (R74). -/
theorem send_of_credit {plot : Fin 4352} {obs : Obs} {e : Exec} {di : Nat} {bs : List Byte}
    (hhead : (s.mod.dev.plot plot).sendQ.head? = some e) (hread : readOpd s.mod plot e 0 0 (ctrlBits e.record 12 0) = .ok bs)
    (hkind : ctrlBits e.record 29 28 = 0) (hdest : physOf s.mod.dev.base (ctrlBits e.record 27 16) = some di)
    (hcredit : (chanOf (s.mod.dev.plot di) (ctrlBits e.record 15 13)).holder = none)
    (hremap : (s.mod.dev.plot di).remapping = false) :
    exec (.send plot obs) s = .next (s.withDev (finishExec
      (((countCe s.mod.dev plot obs.ce).modPlot di fun p => setChan p (ctrlBits e.record 15 13)
        { chanOf (s.mod.dev.plot di) (ctrlBits e.record 15 13) with holder := some (unitOf s.mod.dev.base plot) }).modPlot plot fun p =>
          { p with sent := p.sent ++ [.msg (ctrlBits e.record 27 16) (ctrlBits e.record 15 13)
            ⟨unitOf s.mod.dev.base plot, ctrlBits e.record 31 30, bs⟩ e.fid] }) plot .send e [0, 0, 0, 0, 0, 0] .none)) := by
  have hexec : exec (.send plot obs) s = execSend plot obs s := rfl
  have hce : (if obs.ce = 0 then s.mod.dev else s.mod.dev.count cPlotSramCe plot obs.ce) = countCe s.mod.dev plot obs.ce := rfl
  rw [hexec, execSend, onPlane_eq _ _ hstop]
  simp only [sendHead, hhead, hread, hkind, ne_eq, not_true_eq_false, if_false, Mod.onDev, hce, physOf_countCe, plot_countCe, hdest,
    hcredit, hremap, and_self, or_true, if_true]

/-- The oldest message on its way to an empty channel arrives, and the owner there gets MESSAGE (R73, R75). -/
theorem messageArrival_of_first {src dest : Fin 4096} {ch : Fin 8} {si di k : Nat} {m : Msg} {rest : List Sent}
    (hsrc : physOf s.mod.dev.base src = some si) (hdest : physOf s.mod.dev.base dest = some di)
    (hsent : (s.mod.dev.plot si).sent = .msg dest ch m k :: rest) (hempty : (chanOf (s.mod.dev.plot di) ch).msg = none) :
    exec (.messageArrival src dest ch) s = .next (s.withDev (((s.mod.dev.modPlot si fun p =>
      { p with sent := p.sent.erase (.msg dest ch m k) }).modPlot di fun p =>
        setChan p ch { chanOf p ch with msg := some m }).deliverOwner di .message [ch.val])) := by
  have hexec : exec (.messageArrival src dest ch) s = execMessageArrival src dest ch s := rfl
  rw [hexec, execMessageArrival, onPlaneDev_eq _ _ hstop]
  simp only [hsrc, hdest, hsent, List.find?_cons, decide_true, Bool.and_self, hempty, Option.isSome_none, Bool.false_eq_true, if_false]

/-- A credit that nothing on its way still uses goes to the first waiting sender, or is free (R74). -/
theorem channelCreditReturn_of_consumed {dest : Fin 4096} {ch : Fin 8} {di : Nat} (hdest : physOf s.mod.dev.base dest = some di)
    (hempty : (chanOf (s.mod.dev.plot di) ch).msg = none) (hremap : (s.mod.dev.plot di).remapping = false)
    (hnone : ∀ h hi, (chanOf (s.mod.dev.plot di) ch).holder = some h → physOf s.mod.dev.base h = some hi →
      ∀ x ∈ (s.mod.dev.plot hi).sent, ∀ m k, x ≠ .msg dest ch m k) :
    exec (.channelCreditReturn dest ch) s = .next (s.withDev (s.mod.dev.modPlot di fun p => setChan p ch
      { chanOf (s.mod.dev.plot di) ch with
        holder := (chanOf (s.mod.dev.plot di) ch).waiters.head?
        waiters := (chanOf (s.mod.dev.plot di) ch).waiters.drop 1 })) := by
  have hexec : exec (.channelCreditReturn dest ch) s = execChannelCreditReturn dest ch s := rfl
  rw [hexec, execChannelCreditReturn, onPlaneDev_eq _ _ hstop]
  simp only [hdest, hempty, hremap, Option.isSome_none, Bool.or_false, Bool.false_or]
  cases hholder : (chanOf (s.mod.dev.plot di) ch).holder with
  | none => simp
  | some h =>
    cases hphys : physOf s.mod.dev.base h with
    | none => simp [hphys]
    | some hi =>
      simp only [Option.bind_some, hphys]
      refine congrArg (fun d => Host.Outcome.next (s.withDev d)) (if_neg fun hany => ?_)
      obtain ⟨x, hx, hmsg⟩ := List.any_eq_true.1 hany
      cases x with
      | msg t c m k =>
        simp only [Bool.and_eq_true, decide_eq_true_eq] at hmsg
        obtain ⟨rfl, rfl⟩ := hmsg
        exact hnone h hi hholder hphys _ hx m k rfl
      | signal t c inc k => cases hmsg

/-- RECV of a message that fits, whose payload and receipt can be written (R77). -/
theorem recv_of_message {plot : Fin 4352} {e : Exec} {m : Msg} {m1 m2 : Mod} (hhead : (s.mod.dev.plot plot).recvQ.head? = some e)
    (hmsg : (chanOf (s.mod.dev.plot plot) (ctrlBits e.record 15 13)).msg = some m)
    (hlen : m.data.length ≤ ctrlBits e.record 12 0) (hdata : writeOpd s.mod plot e 0 0 m.data = .ok m1)
    (hreceipt : writeOpd m1 plot e 1 0 (leBytes 2 m.src ++ leBytes 2 m.data.length ++ leBytes 1 m.cls ++ zeros 11) = .ok m2) :
    exec (.recv plot) s = s.leaves (m2.onDev fun d => finishExec (d.modPlot plot fun p =>
      setChan p (ctrlBits e.record 15 13) { chanOf (s.mod.dev.plot plot) (ctrlBits e.record 15 13) with msg := none })
        plot .recv e [0, 0, 0, 0, 0, 0] .none) := by
  have hexec : exec (.recv plot) s = execRecv plot s := rfl
  rw [hexec, execRecv, onPlane_eq _ _ hstop]
  simp only [hhead, hmsg, Nat.not_lt.2 hlen, if_false, hdata, hreceipt]

/-- A signal with no earlier message of its plot on the way arrives at its counter (R76). -/
theorem signalDelivery_of_first {src dest : Fin 4096} {si di c inc k : Nat} (hsrc : physOf s.mod.dev.base src = some si)
    (hdest : physOf s.mod.dev.base dest = some di) (hfirst : firstSignal (s.mod.dev.plot si) dest = some (c, inc, k))
    (hearlier : earlierSend (s.mod.dev.plot si) dest k = false) :
    exec (.signalDelivery src dest) s = .next (s.withDev ((s.mod.dev.modPlot si fun p =>
      { p with sent := p.sent.erase (.signal dest c inc k) }).addTok di c inc)) := by
  have hexec : exec (.signalDelivery src dest) s = execSignalDelivery src dest s := rfl
  rw [hexec, execSignalDelivery, onPlaneDev_eq _ _ hstop]
  simp only [hsrc, hdest, hfirst, hearlier, Bool.false_eq_true, if_false]

end Messages

/-- A plot whose messages on the way change keeps its token counters. -/
theorem tokOf_plot_withSent (d : Dev) (i j c : Nat) (f : List Sent → List Sent) :
    tokOf ((d.modPlot i fun p => { p with sent := f p.sent }).plot j) c = tokOf (d.plot j) c := by
  by_cases hij : i = j
  · subst hij
    rw [Dev.plot_modPlot_self]
    rfl
  · rw [Dev.plot_modPlot_ne _ _ hij]

/-- Settles O10: each clause is the equation of its command. -/
theorem messagesTravel : Obligations.MessagesTravel := by
  unfold Obligations.MessagesTravel
  intro s plot src dest ch obs e si di hstop d b
  refine ⟨fun bs hhead hread hkind hdest hne hcredit hremap => ?_, fun m k rest hsrc hdest hne hsent hempty => ?_,
    fun m hhead hmsg hlen m1 hdata m2 hreceipt => ?_, fun hdest hempty hremap hnone => ?_,
    fun c inc k hsrc hdest hfirst hearlier hlt => ?_⟩
  · refine ⟨_, send_of_credit hstop hhead hread hkind hdest hcredit hremap, rfl, ?_, ?_, ?_⟩
    · refine (unitQ_finishExec _ _ .send _ _ _ (by decide)).trans ?_
      simp only [Dev.plot_modPlot_self, Dev.plot_modPlot_ne _ _ hne, plot_countCe]
      rfl
    · simp only [(messages_finishExec ..).1, Dev.plot_modPlot_self, Dev.plot_modPlot_ne _ _ hne, plot_countCe]
      rfl
    · simp only [chanOf_finishExec, Dev.plot_modPlot_ne _ _ hne.symm, Dev.plot_modPlot_self, chanOf_setChan_self]
      rfl
  · refine ⟨_, messageArrival_of_first hstop hsrc hdest hsent hempty, rfl, ?_, ?_⟩
    · rw [Dev.plot_deliverOwner_ne _ _ _ hne.symm, Dev.plot_modPlot_ne _ _ hne.symm, Dev.plot_modPlot_self, hsent,
        List.erase_cons_head]
    · rw [chanOf_deliverOwner, Dev.plot_modPlot_self, chanOf_setChan_self]
  · refine ⟨_, recv_of_message hstop hhead hmsg hlen hdata hreceipt, rfl, ?_, ?_, ?_⟩
    · simp only [Mod.onDev_dev, (registers_finishExec ..).1, Dev.plot_modPlot_self, setChan_sram]
    · refine (unitQ_finishExec _ _ .recv _ _ _ (by decide)).trans ?_
      simp only [Dev.plot_modPlot_self]
      rfl
    · simp only [Mod.onDev_dev, chanOf_finishExec, Dev.plot_modPlot_self, chanOf_setChan_self]
  · refine ⟨_, channelCreditReturn_of_consumed hstop hdest hempty hremap hnone,
      State.onlyPlot_withDev ((Dev.onlyPlot_refl _ _).modPlot _), ?_⟩
    simp only [Dev.plot_modPlot_self, chanOf_setChan_self]
    exact ⟨rfl, rfl⟩
  · have htok := tokOf_plot_withSent d si di c fun l => l.erase (.signal dest c inc k)
    refine ⟨_, signalDelivery_of_first hstop hsrc hdest hfirst hearlier, rfl, ?_⟩
    rw [tokOf_addTok_of_lt (by rwa [htok]), htok]

end Sys2Proof.Machine
end

section
/-!
PROOF. The work queue: grants, blocks that complete, the phase join, and a plot's move to its spare (R99 to R105, R372).
-/

namespace Sys2Proof.Machine

/-- An event for a thread that is not parked stays pending (R41). -/
theorem deliver_of_unparked {p : Plot} {t : Nat} (h : (threadOf p t).park = .no) (fresh : Nat) (ev : PEv) (detail : List Nat) :
    deliver fresh p t ev detail = { p with events := p.events ++ [⟨ev, t, detail⟩] } := by
  have hpark : (threadOf { p with events := p.events ++ [⟨ev, t, detail⟩] } t).park = .no := h
  simp only [deliver, hpark]

/-! ## Grants (R100 to R102) -/

/-- A plot granted a block that its thread waits for in FWORK: rd takes the descriptor's DA and the thread runs on. -/
def grantTo (p : Plot) (t rd : Nat) (b : Block) : Plot :=
  { setThread p t { pcNext (setX (threadOf p t) rd b.da) 4 with park := .no } with
    blocks := p.blocks ++ [(b.da, max p.seq.nextFid ((p.blocks.getLast?.map (·.2)).getD 0) + b.nfur)] }

theorem threadOf_grantTo (p : Plot) (t rd : Nat) (b : Block) :
    threadOf (grantTo p t rd b) t = { pcNext (setX (threadOf p t) rd b.da) 4 with park := .no } :=
  threadOf_setThread_self p t _

section Stopped

variable {s : State} (hstop : s.mod.dev.stopped = false)
include hstop

/-- A grant to a plot from which nothing withholds one. -/
theorem workQueueGrant_of_waiting {l : Fin 4096} {i t rd : Nat} {b : Block} (hl : physOf s.mod.dev.base l = some i)
    (hwait : s.mod.dev.work.waiting.find? (fun x => x.1 = l.val) = some (l.val, t)) (hexp : isExpress s.mod.dev.base l = false)
    (hheld : grantHeld s.mod.dev i = false) (hremap : (s.mod.dev.plot i).remapping = false)
    (howes : (healthOf s.mod.dev i).owes = false) (hborrow : (healthOf s.mod.dev i).borrowed = false)
    (hpick : pickBlock s.mod.dev.work l = some b) (hpark : (threadOf (s.mod.dev.plot i) t).park = .fwork rd) :
    exec (.workQueueGrant l) s = .next (s.withDev ((((s.mod.dev.onWork fun w => { w with
      waiting := w.waiting.erase (l.val, t), queue := w.queue.erase b, granted := w.granted ++ [(l.val, b)] }).setPlot i
        (grantTo (s.mod.dev.plot i) t rd b)).modPlot i fun p => deliver s.mod.dev.base.fresh p t .grant [b.da]).tickFresh)) := by
  have hexec : exec (.workQueueGrant l) s = execWorkQueueGrant l s := rfl
  rw [hexec, execWorkQueueGrant, onPlaneDev_eq _ _ hstop]
  simp only [hwait, hl, hexp, hheld, hremap, howes, hborrow, Bool.or_self, Bool.false_eq_true, if_false, hpick]
  have hplot : ∀ w, ({ s.mod.dev with work := w } : Dev).plot i = s.mod.dev.plot i := fun _ => rfl
  simp only [Dev.modPlot, hplot, hpark]
  rfl

/-! ## Blocks that complete (R105) -/

/-- A block's done slot is decremented. -/
def doneDec (m : Mod) (b : Block) : Mod := match b.doneSlot with
  | some sl => decSlot m sl b.doneInc
  | none => m

/-- A plot's oldest block, all of whose furrows have issued and completed, is taken off and counted. -/
theorem blockComplete_of_done {l : Fin 4096} {i : Nat} {g : Nat × Block} {blk : Nat × Nat} {rest : List (Nat × Nat)}
    (hl : physOf s.mod.dev.base l = some i) (hg : s.mod.dev.work.granted.find? (fun g => g.1 = l.val) = some g)
    (hblocks : (s.mod.dev.plot i).blocks = blk :: rest) (hdone : furrowsDone (s.mod.dev.plot i).seq blk.2 = true) :
    exec (.blockComplete l) s = s.leaves (doneDec (s.withDev ((s.mod.dev.modPlot i fun p => { p with blocks := rest }).onWork fun w =>
      { w with granted := w.granted.erase g, left := w.left - 1 })).mod g.2) := by
  have hexec : exec (.blockComplete l) s = execBlockComplete l s := rfl
  rw [hexec, execBlockComplete, onPlane_eq _ _ hstop]
  simp only [hl, hg, hblocks, hdone, Bool.not_true, Bool.false_eq_true, if_false]
  rfl

end Stopped

/-- Decrementing a slot that does not come to zero changes that slot. -/
theorem doneDec_facts {m : Mod} {b : Block}
    (hlt : ∀ sl x, b.doneSlot = some sl → kfind m.dev.work.slots sl = some x → b.doneInc < x.count) :
    (doneDec m b).mem = m.mem ∧ (∀ j, (doneDec m b).dev.plot j = m.dev.plot j) ∧ (doneDec m b).dev.work.granted = m.dev.work.granted ∧
      (doneDec m b).dev.work.left = m.dev.work.left ∧
      ∀ sl x, b.doneSlot = some sl → kfind m.dev.work.slots sl = some x →
        kfind (doneDec m b).dev.work.slots sl = some { x with count := x.count - b.doneInc } := by
  cases hslot : b.doneSlot with
  | none =>
    have hm : doneDec m b = m := by simp only [doneDec, hslot]
    rw [hm]
    exact ⟨rfl, fun _ => rfl, rfl, rfl, fun _ _ h => by cases h⟩
  | some sl =>
    have hm : doneDec m b = decSlot m sl b.doneInc := by simp only [doneDec, hslot]
    rw [hm]
    cases hx : kfind m.dev.work.slots sl with
    | none =>
      rw [decSlot_of_none hx]
      refine ⟨rfl, fun _ => rfl, rfl, rfl, fun sl' x hsl' hx' => ?_⟩
      cases hsl'
      rw [hx] at hx'
      cases hx'
    | some x =>
      rw [decSlot_of_lt hx (hlt sl x hslot hx)]
      refine ⟨rfl, fun _ => rfl, rfl, rfl, fun sl' x' hsl' hx' => ?_⟩
      cases hsl'
      cases hx.symm.trans hx'
      simp [kfind_kput]

/-! ## The phase join (R372) -/

/-- Without PHASEJOB the phase is joined once every training plot in service has come to it and no block of the old phase is open. -/
theorem phaseJoin_of_all {s : State} (h : s.schedules = true) (hnew : s.mod.dev.work.joined = false)
    (hback : (s.mod.dev.work.granted.all fun g => g.2.backward) = true)
    (hall : ∀ l, l < 4096 → physOf s.mod.dev.base l ≠ none → isExpress s.mod.dev.base l = false → l ∈ s.mod.dev.work.phaseIssued)
    (hjob : cfgFabMsCfgPhasejob s.mod.dev.base = 0) :
    exec .phaseJoin s = .next (s.withDev (s.mod.dev.onWork fun w => { w with joined := true, phaseIssued := [] })) := by
  have hopen : (s.mod.dev.work.granted.any fun g => !g.2.backward) = false := by
    rw [List.any_eq_false]
    intro g hg
    simp [List.all_eq_true.1 hback g hg]
  have hcome : (((List.range 4096).filter fun l => (physOf s.mod.dev.base l).isSome && !isExpress s.mod.dev.base l).any fun l =>
      !s.mod.dev.work.phaseIssued.contains l) = false := by
    rw [List.any_eq_false]
    intro l hl
    obtain ⟨hrange, hphys, hexp⟩ : l < 4096 ∧ (physOf s.mod.dev.base l).isSome = true ∧ isExpress s.mod.dev.base l = false := by
      simpa using hl
    simp [hall l hrange (Option.isSome_iff_ne_none.1 hphys) hexp]
  have hexec : exec .phaseJoin s = execPhaseJoin s := rfl
  rw [hexec, execPhaseJoin, onSched_eq h]
  simp only [Mod.onDev, hnew, hopen, hcome, hjob, Bool.or_self, Bool.false_eq_true, if_false, zero_ne_one, false_and]

/-! ## A plot's move to its spare (R99) -/

/-- A plot's checking state once another has been changed, and what a change of it leaves. -/
@[simp] theorem plot_modHealth (d : Dev) (i j : Nat) (f : PlotHealth → PlotHealth) : (modHealth d i f).plot j = d.plot j := rfl

@[simp] theorem plot_setMap (d : Dev) (l i j : Nat) (v : Bool) : (d.setMap l v i).plot j = d.plot j :=
  Dev.plot_onBase ..

/-- A fallow plot whose credits have stopped moves to its spare between blocks. -/
theorem plotRemap_of_spare {s : State} (hstop : s.mod.dev.stopped = false) {l : Fin 4096} {i j : Nat}
    (hl : physOf s.mod.dev.base l = some i) (hfallow : (healthOf s.mod.dev i).fallow = true)
    (hblocks : (s.mod.dev.plot i).blocks = []) (hup : qcUp s.mod.dev i = true) (hremap : (s.mod.dev.plot i).remapping = true)
    (hspare : spareFor s.mod.dev i = some j) :
    exec (.plotRemap l) s = .next (s.withDev ((modHealth (((s.mod.dev.setPlot j (cycledPlot (s.mod.dev.plot i))).setPlot i
      Plot.reset).setMap l true j) j fun h => { h with worked := [], bad := [], agreed := none }).raise evPlotRemapped
        { x := some [i, j] } (instDie j) l)) := by
  have hexec : exec (.plotRemap l) s = execPlotRemap l s := rfl
  rw [hexec, execPlotRemap, onPlaneDev_eq _ _ hstop]
  simp only [hl, hfallow, hblocks, hup, hremap, hspare, Bool.not_true, Bool.false_eq_true, List.isEmpty_nil, Bool.true_eq_false, or_self,
    if_false]

/-- Settles O11: each clause is the equation of its command. -/
theorem workIsGrantedJoinedAndRemapped : Obligations.WorkIsGrantedJoinedAndRemapped := by
  unfold Obligations.WorkIsGrantedJoinedAndRemapped
  constructor
  · intro s l i hstop hl d w
    refine ⟨fun t b rd hwait hexp hheld hremap howes hborrow hpick hpark => ?_, fun g blk rest hg hblocks hdone hlt => ?_⟩
    · refine ⟨_, workQueueGrant_of_waiting hstop hl hwait hexp hheld hremap howes hborrow hpick hpark, rfl, rfl, rfl, ?_⟩
      have hthread := threadOf_grantTo (d.plot i) t rd b
      simp only [State.thread, Dev.plot_tickFresh, Dev.plot_modPlot_self, Dev.plot_setPlot_self]
      rw [deliver_of_unparked (by rw [hthread])]
      exact hthread
    · obtain ⟨hmem, hplots, hgranted, hleft, hslots⟩ := doneDec_facts (m := (s.withDev ((d.modPlot i fun p =>
        { p with blocks := rest }).onWork fun w => { w with granted := w.granted.erase g, left := w.left - 1 })).mod) hlt
      refine ⟨_, blockComplete_of_done hstop hl hg hblocks hdone, hmem, hgranted, hleft, ?_, hslots⟩
      rw [hplots, Dev.plot_onWork, Dev.plot_modPlot_self]
  · intro s hstop d
    refine ⟨fun hup hnew hback hall hjob => ?_, fun l i j hl hfallow hblocks hup hremap hspare hne => ?_⟩
    · have hsched : s.schedules = true := by
        rw [State.schedules, hstop]
        exact hup
      exact ⟨_, phaseJoin_of_all hsched hnew hback hall hjob, rfl, rfl⟩
    · refine ⟨_, plotRemap_of_spare hstop hl hfallow hblocks hup hremap hspare, rfl, ?_⟩
      simp only [Dev.plot_raise, plot_modHealth, plot_setMap, Dev.plot_setPlot_self, Dev.plot_setPlot_ne _ _ hne.symm, Dev.raise_seq]
      exact ⟨rfl, rfl, trivial, rfl⟩

end Sys2Proof.Machine
end

section
/-!
PROOF. The issue of a furrow's first execution (R46 to R50, R64 to R67): from the record at the sequencer's entry to its unit's queue.
-/

namespace Sys2Proof.Machine

/-! ## A unit's queue and the furrow count -/

/-- What an issue is measured by: a unit's queue, and how many furrows the plot has begun. -/
def Plot.issues (p : Plot) (u : UnitK) : List Exec × Nat := (unitQ p u, p.seq.nextFid)

theorem issues_withEvents (p : Plot) (u : UnitK) (evs : List PendEv) (ths : KMap Thread) :
    Plot.issues { p with events := evs, threads := ths } u = p.issues u := by
  cases u <;> rfl

theorem issues_modInflight (p : Plot) (u : UnitK) (fid : Nat) (f : InFlight → InFlight) :
    (modInflight p fid f).issues u = p.issues u := by
  cases u <;> rfl

/-- The issues of a plot depend on its sequencer's own place and furrow count, and on no other part of the sequencer. -/
theorem issues_withSeq (p : Plot) (u : UnitK) {q : Sequencer} (hown : q.own = p.seq.own) (hfid : q.nextFid = p.seq.nextFid) :
    Plot.issues { p with seq := q } u = p.issues u := by
  cases u with
  | own => simp only [Plot.issues, unitQ, hown, hfid]
  | _ => exact congrArg (Prod.mk _) hfid

/-- A queue that takes an execution: the sequencer's own place only where it is free. -/
theorem issues_onUnitQ_append {p : Plot} {u : UnitK} (hroom : unitRoom p u = true) (e : Exec) :
    (onUnitQ p u (· ++ [e])).issues u = (unitQ p u ++ [e], p.seq.nextFid) := by
  cases u with
  | own =>
    have hown : p.seq.own = none := Option.isNone_iff_eq_none.1 hroom
    simp only [Plot.issues, onUnitQ, unitQ, hown]
    rfl
  | _ => rfl

/-! ## Events at the headland -/

theorem issues_deliverOwner (d : Dev) (i : Nat) (ev : PEv) (detail : List Nat) (u : UnitK) :
    ((d.deliverOwner i ev detail).plot i).issues u = (d.plot i).issues u := by
  obtain ⟨evs, ths, hplot⟩ := d.plot_deliverOwner i ev detail
  rw [hplot, issues_withEvents]

theorem issues_deliverAll (d : Dev) (i : Nat) (evs : List PEv) (u : UnitK) :
    ((d.deliverAll i evs).plot i).issues u = (d.plot i).issues u := by
  induction evs generalizing d with
  | nil => rfl
  | cons ev evs ih => exact (ih (d.deliverOwner i ev [])).trans (issues_deliverOwner ..)

/-- The sequencer's own place and its furrow count. -/
def Sequencer.ownFid (q : Sequencer) : Option Exec × Nat := (q.own, q.nextFid)

@[simp] theorem ownFid_setHalf (q : Sequencer) (b : Bool) (v : Half) : (setHalf q b v).ownFid = q.ownFid := by
  cases b <;> rfl

theorem ownFid_turnHeadland (q : Sequencer) (at_ : Nat) : (turnHeadland q at_).1.ownFid = q.ownFid := by
  unfold turnHeadland
  dsimp only
  split
  · split <;> rfl
  · split
    · exact (ownFid_setHalf ..).trans (ownFid_setHalf ..)
    · exact ownFid_setHalf ..
  · rfl

theorem ownFid_advance (q : Sequencer) (entry : Nat) (head : Bool) : (advance q entry head).1.ownFid = q.ownFid := by
  simp only [advance]
  generalize (if (q.split && !halfOf entry) = true then 1023 else 2047) = lastE
  split
  · exact ownFid_turnHeadland ..
  · rfl

/-- A furrow that is wholly issued leaves the queues: the sequencer moves on or turns at the headland. -/
theorem issues_closeIssue (d : Dev) (i : Nat) (c : Issuing) (u : UnitK) :
    ((closeIssue d i c).plot i).issues u = (d.plot i).issues u := by
  refine (issues_deliverAll ..).trans ?_
  rw [Dev.plot_setPlot_self, endIssue, issues_modInflight]
  dsimp only
  split
  next =>
    have h := ownFid_advance { (d.plot i).seq with cur := none } c.entry (recBit c.record 23)
    exact issues_withSeq _ _ (congrArg Prod.fst h) (congrArg Prod.snd h)
  next => exact issues_withSeq _ _ rfl rfl

/-! ## What leaves the plots alone -/

@[simp] theorem plot_waymark (d : Dev) (i : Nat) (r : List Byte) (entry edge exec j : Nat) :
    (d.waymark i r entry edge exec).plot j = d.plot j := by
  unfold Dev.waymark
  split <;> rfl

@[simp] theorem plot_countSkips (d : Dev) (i n j : Nat) : (countSkips d i n).plot j = d.plot j := by
  unfold countSkips
  split <;> rfl

@[simp] theorem plot_store (m : Mod) (da : Nat) (bs : List Byte) (j : Nat) : (m.store da bs).dev.plot j = m.dev.plot j := by
  unfold Mod.store
  split <;> rfl

/-- Making a step STAGED changes the step's state and its record, no plot. -/
theorem plot_stageStep (m : Mod) (n : Word32) (j : Nat) : (stageStep m n).dev.plot j = m.dev.plot j := by
  unfold stageStep stageStepRec Mod.putStepRec
  split
  · split
    · rfl
    · exact (plot_store ..).trans (Dev.plot_onMs ..)
  · exact (plot_store ..).trans (Dev.plot_onMs ..)

/-! ## One execution issues -/

/-- An execution that is not replayed enters its unit's queue. -/
theorem putExec_queues {d : Dev} {i k : Nat} {c : Issuing} (last : Bool) (hreplay : isReplayed c.record = false)
    (hop : Opc.ofCode (recOpc c.record) ≠ some .waittok)
    (hroom : unitRoom (d.plot i) ((Opc.ofCode (recOpc c.record)).getD .idle).unitK = true) :
    ∃ e : Exec, e.record = c.record ∧ e.entry = c.entry ∧ e.index = k ∧ e.fid = c.fid ∧
      ((putExec d i c k last false none).plot i).issues ((Opc.ofCode (recOpc c.record)).getD .idle).unitK =
        (unitQ (d.plot i) ((Opc.ofCode (recOpc c.record)).getD .idle).unitK ++ [e], (d.plot i).seq.nextFid) := by
  have hwait : (Opc.ofCode (recOpc c.record)).getD .idle ≠ .waittok := by
    cases h : Opc.ofCode (recOpc c.record) with
    | none => decide
    | some op => exact fun he => hop (h.trans (congrArg some he))
  simp only [putExec, hreplay, hwait, Bool.false_and, Bool.false_eq_true, if_false, Bool.not_false, if_true, issueMark, plot_waymark,
    Dev.plot_modPlot_self, issues_modInflight]
  exact ⟨_, rfl, rfl, rfl, rfl, issues_onUnitQ_append hroom _⟩

/-- The module in which a furrow issues: a TRAIN gather outside the express plots has made its step STAGED (R375, R384). -/
def stagedFor (m : Mod) (inst : Nat) (c : Issuing) : Mod :=
  if recOpc c.record = 2 ∧ ctrlBits c.record 18 17 = 0 ∧ !expressAt m.dev.base inst then stageStep m (stepOf m.dev inst) else m

theorem plot_stagedFor (m : Mod) (inst : Nat) (c : Issuing) (j : Nat) : (stagedFor m inst c).dev.plot j = m.dev.plot j := by
  unfold stagedFor
  split
  · exact plot_stageStep ..
  · rfl

section IssueNext

variable {m : Mod} {inst k i : Nat} {c : Issuing} (stall : Nat)
  (hnext : nextExec c.record c.bitmap (recRepeat c.record + 2) c.next = (k, some i))
  (hroom : unitRoom (m.dev.plot inst) ((Opc.ofCode (recOpc c.record)).getD .idle).unitK = true)
  (hhaz : hazardFree (m.dev.plot inst) c.record i = true) (hidle : idleQuota m.dev inst ≤ idleCount m.dev (m.dev.plot inst))
  (hreplay : isReplayed c.record = false)
include hnext hroom hhaz hidle hreplay

/-- The next execution of the furrow part-way, where nothing holds it back and it is not replayed. -/
theorem issueNext_of_free :
    issueNext m inst c none stall = (stagedFor m inst c).onDev fun d =>
      let y := nextExec c.record c.bitmap (recRepeat c.record + 2) (i + 1)
      let d := putExec (countSkips d inst k) inst c i y.2.isNone false none
      if y.2.isNone then closeIssue (countSkips d inst y.1) inst c
      else d.modPlot inst fun p => { p with seq := { p.seq with cur := some { c with next := i + 1 } } } := by
  simp only [issueNext, hnext, hroom, hhaz, hreplay, Nat.not_lt.2 hidle, Bool.not_true, Bool.false_and, Bool.or_self, Bool.false_eq_true,
    if_false]
  rfl

/-- It enters its unit's queue. -/
theorem issueNext_queues (hop : Opc.ofCode (recOpc c.record) ≠ some .waittok) :
    ∃ e : Exec, e.record = c.record ∧ e.entry = c.entry ∧ e.index = i ∧ e.fid = c.fid ∧
      ((issueNext m inst c none stall).dev.plot inst).issues ((Opc.ofCode (recOpc c.record)).getD .idle).unitK =
        (unitQ (m.dev.plot inst) ((Opc.ofCode (recOpc c.record)).getD .idle).unitK ++ [e], (m.dev.plot inst).seq.nextFid) := by
  have hplot : (countSkips (stagedFor m inst c).dev inst k).plot inst = m.dev.plot inst :=
    (plot_countSkips ..).trans (plot_stagedFor ..)
  rw [← hplot] at hroom
  obtain ⟨e, hrecord, hentry, hindex, hfid, hissues⟩ :=
    putExec_queues (k := i) (nextExec c.record c.bitmap (recRepeat c.record + 2) (i + 1)).2.isNone hreplay hop hroom
  rw [hplot] at hroom hissues
  refine ⟨e, hrecord, hentry, hindex, hfid, ?_⟩
  rw [issueNext_of_free stall hnext hroom hhaz hidle hreplay, ← hissues]
  dsimp only [Mod.onDev]
  split
  · rw [issues_closeIssue, plot_countSkips]
  · rw [Dev.plot_modPlot_self]
    exact issues_withSeq _ _ rfl rfl

end IssueNext

/-! ## A furrow begins -/

theorem waitTake_eq (p : Plot) (cs : List (Nat × Nat)) : ∃ tok, waitTake p cs = { p with tok := tok } := by
  induction cs generalizing p with
  | nil => exact ⟨_, rfl⟩
  | cons c cs ih => exact ih (setTok p c.1 (tokOf p c.1 - c.2))

theorem writeStat_eq (b : BaseState) (p : Plot) (entry w : Nat) : ∃ sram, writeStat b p entry w = { p with sram := sram } := by
  unfold writeStat
  split <;> exact ⟨_, rfl⟩

/-- Beginning a furrow changes the token counters, the statistics store and the sequencer of its plot. -/
theorem beginFurrow_eq (b : BaseState) (p : Plot) (r : List Byte) :
    ∃ tok sram target srv q, beginFurrow b p r = { p with tok := tok, sram := sram, seq := q } ∧
      q.cur = some ⟨p.seq.nextFid, p.seq.entry, r, srv, 0, readBitmap p r, target⟩ ∧ q.own = p.seq.own ∧
      q.nextFid = p.seq.nextFid + 1 := by
  obtain ⟨tok, htok⟩ := waitTake_eq p (tokenConds r)
  obtain ⟨sram, hsram⟩ := writeStat_eq b { p with tok := tok } p.seq.entry 0
  simp only [beginFurrow, htok]
  split
  · rw [hsram]
    exact ⟨_, _, _, _, _, rfl, rfl, rfl, rfl⟩
  · exact ⟨_, _, _, _, _, rfl, rfl, rfl, rfl⟩

/-- A plot that has begun a furrow holds the same executions. -/
theorem unitQ_begun (p : Plot) (u : UnitK) {tok : KMap Word32} {sram : KMap Byte} {q : Sequencer} (hown : q.own = p.seq.own) :
    unitQ { p with tok := tok, sram := sram, seq := q } u = unitQ p u ∧
      unitRoom { p with tok := tok, sram := sram, seq := q } u = unitRoom p u := by
  cases u with
  | own => exact ⟨congrArg Option.toList hown, congrArg Option.isNone hown⟩
  | _ => exact ⟨rfl, rfl⟩

/-! ## FURROW_ISSUE -/

/-- A sequencer that is open is part-way through no furrow. -/
theorem seqOpen_cur {q : Sequencer} (h : seqOpen q = true) : q.cur = none := by
  simp only [seqOpen, Bool.and_eq_true, Option.isNone_iff_eq_none] at h
  obtain ⟨⟨⟨⟨⟨-, hcur⟩, -⟩, -⟩, -⟩, -⟩ := h
  exact hcur

section FurrowIssue

variable {s : State} {plot : Fin 4352} (stall : Nat) (hstop : s.mod.dev.stopped = false)
  (hopen : seqOpen (s.mod.dev.plot plot).seq = true)
include hstop hopen

/-- An illegal record stops the sequencer with an event (R46). -/
theorem furrowIssue_of_illegal
    (hlegal : legalHere s.mod.dev.base plot (recordAt (s.mod.dev.plot plot) (s.mod.dev.plot plot).seq.entry) = false) :
    exec (.furrowIssue plot none stall) s = .next (s.withDev ((s.mod.dev.modPlot plot fun p => { p with seq := stopSeq p.seq }).raise
      evFurrowIllegal { entry := (s.mod.dev.plot plot).seq.entry } (instDie plot) (unitOf s.mod.dev.base plot))) := by
  have hexec : exec (.furrowIssue plot none stall) s = execFurrowIssue plot none stall s := rfl
  rw [hexec, execFurrowIssue, onPlane_eq _ _ hstop]
  simp only [seqOpen_cur hopen, hopen, hlegal, Bool.not_false, Bool.not_true, Bool.false_eq_true, if_false, if_true]
  rfl

variable {r : List Byte} {op : Opc} (hr : recordAt (s.mod.dev.plot plot) (s.mod.dev.plot plot).seq.entry = r)
  (hlegal : legalHere s.mod.dev.base plot r = true) (hop : Opc.ofCode (recOpc r) = some op)
  (hbegin : mayBegin (s.mod.dev.plot plot) r = true) (htrain : trainOpen s.mod.dev plot r = true)
  (hphase : phaseJoined s.mod.dev plot r = true) (hroom : unitRoom (s.mod.dev.plot plot) op.unitK = true)
  (hhaz : hazardFree (s.mod.dev.plot plot) r 0 = true)
include hr hlegal hop hbegin htrain hphase hroom hhaz

/-- A legal record that nothing holds back begins, and its first execution is tried at once. -/
theorem furrowIssue_of_legal :
    exec (.furrowIssue plot none stall) s = s.leaves
      (let m := (s.withDev (s.mod.dev.modPlot plot fun p => beginFurrow s.mod.dev.base p r)).mod
       match (m.dev.plot plot).seq.cur with
       | some c => issueNext m plot c none stall
       | none => m) := by
  subst hr
  have hexec : exec (.furrowIssue plot none stall) s = execFurrowIssue plot none stall s := rfl
  rw [hexec, execFurrowIssue, onPlane_eq _ _ hstop]
  simp only [seqOpen_cur hopen, hopen, hlegal, hop, hbegin, htrain, hphase, hroom, hhaz, Option.getD_some, Bool.not_true,
    Bool.false_eq_true, Bool.or_self, if_false]
  rfl

/-- Its first execution that is not skipped enters its unit's queue. -/
theorem furrowIssue_queues {k i : Nat} (hwait : op ≠ .waittok)
    (hnext : nextExec r (readBitmap (s.mod.dev.plot plot) r) (recRepeat r + 2) 0 = (k, some i))
    (hhazI : hazardFree (s.mod.dev.plot plot) r i = true)
    (hidle : idleQuota s.mod.dev plot ≤ idleCount s.mod.dev (s.mod.dev.plot plot)) (hreplay : isReplayed r = false) :
    ∃ s' e, exec (.furrowIssue plot none stall) s = .next s' ∧ e.record = r ∧ e.entry = (s.mod.dev.plot plot).seq.entry ∧
      e.index = i ∧ e.fid = (s.mod.dev.plot plot).seq.nextFid ∧
      (s'.mod.dev.plot plot).issues op.unitK =
        (unitQ (s.mod.dev.plot plot) op.unitK ++ [e], (s.mod.dev.plot plot).seq.nextFid + 1) := by
  obtain ⟨tok, sram, target, srv, q, hbegun, hcur, hown, hfid⟩ := beginFurrow_eq s.mod.dev.base (s.mod.dev.plot plot) r
  have hplot : (s.mod.dev.modPlot plot fun p => beginFurrow s.mod.dev.base p r).plot plot =
      { s.mod.dev.plot plot with tok := tok, sram := sram, seq := q } := (Dev.plot_modPlot_self ..).trans hbegun
  obtain ⟨hqueue, hroom'⟩ := unitQ_begun (s.mod.dev.plot plot) op.unitK (tok := tok) (sram := sram) hown
  have hquota : idleQuota (s.mod.dev.modPlot plot fun p => beginFurrow s.mod.dev.base p r) plot = idleQuota s.mod.dev plot := by
    rw [idleQuota, hplot]
    rfl
  obtain ⟨e, hrecord, hentry, hindex, hfid', hissues⟩ := issueNext_queues (inst := plot) (i := i) (k := k)
    (m := (s.withDev (s.mod.dev.modPlot plot fun p => beginFurrow s.mod.dev.base p r)).mod)
    (c := ⟨(s.mod.dev.plot plot).seq.nextFid, (s.mod.dev.plot plot).seq.entry, r, srv, 0, readBitmap (s.mod.dev.plot plot) r, target⟩)
    stall hnext (by rw [hplot, hop]; exact hroom'.trans hroom) (by rw [hplot]; exact hhazI) (by rw [hquota, hplot]; exact hidle) hreplay
    (by rw [hop]; exact fun h => hwait (Option.some.inj h))
  refine ⟨_, e, furrowIssue_of_legal stall hstop hopen hr hlegal hop hbegin htrain hphase hroom hhaz, hrecord, hentry, hindex, hfid', ?_⟩
  simp only [hop, Option.getD_some, hplot, hqueue, hfid] at hissues
  simp only [hplot, hcur]
  exact hissues

end FurrowIssue

end Sys2Proof.Machine
end

section
/-!
PROOF. The ends of furrows: FURROW_COMPLETE, FURROW_FAULT, HALF_SWITCH_RESUME, CLKA_DIVIDER_SWITCH (R54, R57, R68, R560).
-/

namespace Sys2Proof.Machine

/-! ## A furrow that completes (R54) -/

/-- Run-ahead data of a furrow is discarded, and nothing else of its plot. -/
theorem plot_discardAhead (d : Dev) (i fid : Nat) : ∃ l, (discardAhead d i fid).plot i = { d.plot i with ahead := l } := by
  unfold discardAhead
  dsimp only
  split
  · exact ⟨_, Dev.plot_modPlot_self ..⟩
  · exact ⟨_, (Dev.plot_count ..).trans (Dev.plot_modPlot_self ..)⟩

/-- A furrow that completes is in flight no more: its statistics record is VALID and its run-ahead data gone. -/
def Dev.retireFurrow (d : Dev) (i : Nat) (x : InFlight) : Dev :=
  discardAhead (d.modPlot i fun p =>
    let p := { p with seq := { p.seq with inflight := p.seq.inflight.filter fun y => y.fid ≠ x.fid } }
    if keepsStats ((Opc.ofCode (recOpc x.record)).getD .idle) then writeStat d.base p x.entry (statWord x.stats true) else p) i x.fid

theorem plot_retireFurrow (d : Dev) (i : Nat) (x : InFlight) :
    ((d.retireFurrow i x).plot i).seq.inflight = (d.plot i).seq.inflight.filter (fun y => y.fid ≠ x.fid) ∧
      ((d.retireFurrow i x).plot i).tok = (d.plot i).tok := by
  obtain ⟨l, hplot⟩ := plot_discardAhead (d.modPlot i fun p =>
    let p := { p with seq := { p.seq with inflight := p.seq.inflight.filter fun y => y.fid ≠ x.fid } }
    if keepsStats ((Opc.ofCode (recOpc x.record)).getD .idle) then writeStat d.base p x.entry (statWord x.stats true) else p) i x.fid
  rw [Dev.retireFurrow, hplot, Dev.plot_modPlot_self]
  dsimp only
  split
  · obtain ⟨sram, hsram⟩ := writeStat_eq d.base
      { d.plot i with seq := { (d.plot i).seq with inflight := (d.plot i).seq.inflight.filter fun y => y.fid ≠ x.fid } } x.entry
      (statWord x.stats true)
    rw [hsram]
    exact ⟨rfl, rfl⟩
  · exact ⟨rfl, rfl⟩

section Complete

variable (d : Dev) (i : Nat) (x : InFlight)

theorem completeFurrow_eq :
    completeFurrow d i x = (if recBit x.record 56 then (d.retireFurrow i x).addTok i (recHdr x.record 55 52) 1
      else d.retireFurrow i x).waymark i x.record x.entry 2 (recRepeat x.record) := rfl

/-- It leaves the in-flight furrows. -/
theorem inflight_completeFurrow :
    ((completeFurrow d i x).plot i).seq.inflight = (d.plot i).seq.inflight.filter fun y => y.fid ≠ x.fid := by
  rw [completeFurrow_eq, plot_waymark, ← (plot_retireFurrow d i x).1]
  split
  · obtain ⟨tok, hplot⟩ := (d.retireFurrow i x).plot_addTok i (recHdr x.record 55 52) 1
    rw [hplot]
  · rfl

/-- STOK is signalled where the record asks for it. -/
theorem tokOf_completeFurrow (hstok : recBit x.record 56 = true) (hlt : tokOf (d.plot i) (recHdr x.record 55 52) < 2 ^ 32 - 1) :
    tokOf ((completeFurrow d i x).plot i) (recHdr x.record 55 52) = tokOf (d.plot i) (recHdr x.record 55 52) + 1 := by
  have htok : tokOf ((d.retireFurrow i x).plot i) (recHdr x.record 55 52) = tokOf (d.plot i) (recHdr x.record 55 52) :=
    congrArg (fun t => (kget 0 t (recHdr x.record 55 52)).toNat) (plot_retireFurrow d i x).2
  rw [completeFurrow_eq, plot_waymark, if_pos hstok, tokOf_addTok_of_lt (by omega), htok]

theorem tok_completeFurrow (hstok : recBit x.record 56 = false) : ((completeFurrow d i x).plot i).tok = (d.plot i).tok := by
  rw [completeFurrow_eq, plot_waymark, if_neg (by rw [hstok]; exact Bool.false_ne_true), (plot_retireFurrow d i x).2]

end Complete

/-! ## A furrow that faults (R57) -/

@[simp] theorem plot_raiseKind (d : Dev) (i entry exec j : Nat) (f : FaultKind) : (d.raiseKind i entry exec f).plot j = d.plot j := by
  unfold Dev.raiseKind
  dsimp only
  split
  case h_5 => rfl
  all_goals exact Dev.plot_raise ..

@[simp] theorem plot_requeueBlocks (d : Dev) (l j : Nat) : (requeueBlocks d l).plot j = d.plot j := rfl

@[simp] theorem plot_voidBlock (d : Dev) (step : Word32) (da j : Nat) : (voidBlock d step da).plot j = d.plot j := rfl

/-- A fault takes a plot's blocks from it and leaves the rest of the plot. -/
theorem plot_blockFault (d : Dev) (i fid : Nat) (f : FaultKind) : ∃ l, (blockFault d i fid f).plot i = { d.plot i with blocks := l } := by
  unfold blockFault
  split
  · exact ⟨_, rfl⟩
  · have hclear := Dev.plot_modPlot_self d i fun p => { p with blocks := [] }
    refine ⟨[], ?_⟩
    dsimp only
    split
    · split
      · exact hclear
      · exact hclear
    · exact hclear

/-- The sequencer once a furrow's fault is taken: stopped, part-way through nothing, the furrow gone. -/
def faultedSeq (q : Sequencer) (x : InFlight) : Sequencer :=
  { stopSeq q with
    inflight := (stopSeq q).inflight.filter fun y => y.fid ≠ x.fid && some y.fid != (stopSeq q).cur.map (·.fid)
    cur := none
    own := match (stopSeq q).own with
      | some e => if e.fid = x.fid then none else some e
      | none => none }

/-- The fault of a furrow stops its plot's sequencer, without a signal. -/
theorem plot_takeFault (d : Dev) (i : Nat) (x : InFlight) (idx : Nat) (f : FaultKind) :
    ((takeFault d i x idx f).plot i).seq = faultedSeq (d.plot i).seq x ∧ ((takeFault d i x idx f).plot i).tok = (d.plot i).tok := by
  obtain ⟨l, hahead⟩ := plot_discardAhead (d.modPlot i fun p => { p with seq := faultedSeq p.seq x }) i x.fid
  let raised := ((discardAhead (d.modPlot i fun p => { p with seq := faultedSeq p.seq x }) i x.fid).raise evFurrowFault
    { entry := x.entry, exec := idx, d := f.addr } (instDie i)
    (unitOf (discardAhead (d.modPlot i fun p => { p with seq := faultedSeq p.seq x }) i x.fid).base i)).raiseKind i x.entry idx f
  have heq : takeFault d i x idx f = blockFault (raised.deliverOwner i .fault [x.entry, idx]) i x.fid f := rfl
  obtain ⟨blocks, hblocks⟩ := plot_blockFault (raised.deliverOwner i .fault [x.entry, idx]) i x.fid f
  obtain ⟨evs, ths, howner⟩ := raised.plot_deliverOwner i .fault [x.entry, idx]
  have hraised : raised.plot i = { (d.modPlot i fun p => { p with seq := faultedSeq p.seq x }).plot i with ahead := l } :=
    (plot_raiseKind ..).trans ((Dev.plot_raise ..).trans hahead)
  rw [heq, hblocks, howner, hraised, Dev.plot_modPlot_self]
  exact ⟨rfl, rfl⟩

theorem inflight_faultedSeq {q : Sequencer} {x y : InFlight} (h : y ∈ (faultedSeq q x).inflight) : y.fid ≠ x.fid := by
  simp only [faultedSeq, List.mem_filter, Bool.and_eq_true, decide_eq_true_eq] at h
  exact h.2.1

/-! ## The four commands -/

section Commands

variable {s : State} (plot : Fin 4352) (hstop : s.mod.dev.stopped = false)
include hstop

/-- FURROW_COMPLETE completes the oldest furrow that may complete (R54). -/
theorem furrowComplete_next {x : InFlight}
    (hfind : ((s.mod.dev.plot plot).seq.inflight.find? fun x =>
      x.issued && x.open_ == 0 && x.fault.isNone && (s.mod.dev.plot plot).seq.waitRelease != some x.fid) = some x) :
    exec (.furrowComplete plot) s = .next (s.withDev (completeFurrow s.mod.dev plot x)) := by
  have hexec : exec (.furrowComplete plot) s = execFurrowComplete plot s := rfl
  rw [hexec, execFurrowComplete, onPlaneDev_eq _ _ hstop]
  simp only [hfind]

/-- FURROW_FAULT takes the oldest fault that is pending (R57): the sequencer stops, and no signal is given. -/
theorem furrowFault_stops {x : InFlight} {f : Nat × FaultKind}
    (hfind : (s.mod.dev.plot plot).seq.inflight.find? (·.fault.isSome) = some x) (hfault : x.fault = some f) :
    ∃ s', exec (.furrowFault plot none) s = .next s' ∧ s'.mod.mem = s.mod.mem ∧
      (s'.mod.dev.plot plot).seq = faultedSeq (s.mod.dev.plot plot).seq x ∧
      (s'.mod.dev.plot plot).tok = (s.mod.dev.plot plot).tok := by
  have hexec : exec (.furrowFault plot none) s = execFurrowFault plot none s := rfl
  rw [hexec, execFurrowFault, onPlaneDev_eq _ _ hstop]
  obtain ⟨idx, kind⟩ := f
  simp only [hfind, hfault]
  refine ⟨_, rfl, rfl, ?_⟩
  dsimp only
  exact plot_takeFault ..

/-- HALF_SWITCH_RESUME enters a half that is READY and counts the wait (R68). -/
theorem halfSwitchResume_next (n : Nat) (hwait : (s.mod.dev.plot plot).seq.waitHalf = true)
    (hready : halfSt (s.mod.dev.plot plot).seq (halfOf (s.mod.dev.plot plot).seq.entry) = .ready) :
    exec (.halfSwitchResume plot n) s = .next (s.withDev ((s.mod.dev.modPlot plot fun p => { p with
      seq := { setHalf p.seq (halfOf (s.mod.dev.plot plot).seq.entry) .active with waitHalf := false } }).count
        cSeqHeadlandWait plot n)) := by
  have hexec : exec (.halfSwitchResume plot n) s = execHalfSwitchResume plot n s := rfl
  rw [hexec, execHalfSwitchResume, onPlaneDev_eq _ _ hstop]
  simp only [hwait, hready, BEq.rfl, Bool.and_self, if_true]

theorem clkaDividerSwitch_next :
    exec (.clkaDividerSwitch plot) s =
      .next (s.withDev (s.mod.dev.modPlot plot fun p => { p with div16 := wantsDiv16 s.mod.dev plot })) := by
  have hexec : exec (.clkaDividerSwitch plot) s = execClkaDividerSwitch plot s := rfl
  rw [hexec, execClkaDividerSwitch, onPlaneDev_eq _ _ hstop]

end Commands

/-- Settles O8: by the issue rule of a legal record, the stop of an illegal one, and one rule for each of the four ends. -/
theorem furrowsIssueAndEnd : Obligations.FurrowsIssueAndEnd := by
  unfold Obligations.FurrowsIssueAndEnd
  constructor
  · intro s plot stall hstop d p r hopen
    constructor
    · intro op k i hlegal hop hwait hbegin htrain hphase hroom hhaz hnext hhazI hidle hreplay
      obtain ⟨s', e, hexec, hrecord, hentry, hindex, hfid, hissues⟩ :=
        furrowIssue_queues stall hstop hopen rfl hlegal hop hbegin htrain hphase hroom hhaz hwait hnext hhazI hidle hreplay
      exact ⟨s', e, hexec, hrecord, hentry, hindex, hfid, congrArg Prod.fst hissues, congrArg Prod.snd hissues⟩
    · intro hlegal
      refine ⟨_, furrowIssue_of_illegal stall hstop hopen hlegal,
        State.onlyPlot_withDev (((Dev.onlyPlot_refl _ _).modPlot _).raise ..), ?_, Dev.raise_seq ..⟩
      rw [Dev.plot_raise, Dev.plot_modPlot_self]
  · intro s plot x hstop d p q
    refine ⟨fun hfind => ?completes, fun f hfind hfault => ?faults, fun n hwait hready => ?resumes, ?switches⟩
    case completes =>
      exact ⟨_, furrowComplete_next plot hstop hfind, rfl, inflight_completeFurrow .., tokOf_completeFurrow _ _ _,
        tok_completeFurrow _ _ _⟩
    case faults =>
      obtain ⟨s', hexec, hmem, hseq, htok⟩ := furrowFault_stops plot hstop hfind hfault
      refine ⟨s', hexec, hmem, ?_, ?_, fun y hy => ?_, htok⟩
      · rw [hseq]
        rfl
      · rw [hseq]
        rfl
      · rw [hseq] at hy
        exact inflight_faultedSeq hy
    case resumes =>
      refine ⟨_, halfSwitchResume_next plot hstop n hwait hready,
        State.onlyPlot_withDev (((Dev.onlyPlot_refl _ _).modPlot _).count ..), ?_⟩
      rw [Dev.plot_count, Dev.plot_modPlot_self]
    case switches =>
      refine ⟨_, clkaDividerSwitch_next plot hstop, State.onlyPlot_withDev ((Dev.onlyPlot_refl _ _).modPlot _), ?_⟩
      rw [Dev.plot_modPlot_self]

end Sys2Proof.Machine
end

section
/-!
PROOF. The executions of the units (R45, R52, R81, Table 2.8): what an execution at the head of its queue leaves, and the bytes that
MOVE and FINGERPRINT write.
-/

namespace Sys2Proof.Machine

/-! ## An execution that does not fault (R52) -/

@[simp] theorem plot_noteImage (d : Dev) (i : Nat) (e : Exec) (image : List Byte) (j : Nat) : (noteImage d i e image).plot j = d.plot j := by
  unfold noteImage
  split <;> rfl

section RunHead

variable {s : State} {plot : Fin 4352} {u : UnitK} {op : Opc} {obs : Obs} {e : Exec} {r : Ran}
  {run : Mod → Nat → Exec → Except FaultKind Ran}

/-- The head of a unit's queue runs: its result, with the execution ended and its image noted. -/
theorem runHead_of_ok (hhead : s.atHead plot u op e) (hrun : run (prepHead s.mod plot u op obs e) plot e = .ok r) :
    runHead s.mod plot u op obs run = r.m.onDev fun d => noteImage (finishExec d plot u e r.stats r.cnt) plot e r.image := by
  obtain ⟨-, hfirst, hop⟩ := hhead
  simp only [runHead, hfirst, hop, ne_eq, not_true_eq_false, if_false, hrun]

/-- A command that runs the head of a unit's queue answers with its result. -/
theorem ranAs_of_ok {c : Instr} (hexec : exec c s = onPlane s fun m => runHead m plot u op obs run) (hu : u ≠ .own)
    (hhead : s.atHead plot u op e) (hrun : run (prepHead s.mod plot u op obs e) plot e = .ok r) :
    ∃ s', exec c s = .next s' ∧ s.ranAs s' plot u r := by
  rw [hexec, onPlane_eq _ _ hhead.1, runHead_of_ok hhead hrun]
  refine ⟨_, rfl, rfl, rfl, rfl, ?_⟩
  rw [Mod.onDev_dev, plot_noteImage]
  exact ⟨unitQ_finishExec _ _ u _ _ _ hu, registers_finishExec ..⟩

end RunHead

/-! ## Before an execution runs -/

/-- The logical plot at a position depends on the registers in force alone. -/
theorem logicalOf_congr {b c : BaseState} (hregs : b.regs = c.regs) (hfallback : b.fallback = c.fallback) (i : Nat) :
    logicalOf b i = logicalOf c i := by
  simp only [logicalOf, physOf_congr hregs hfallback]

/-- So do the writes of a furrow that fault. -/
theorem sramWriteFault_congr {b c : BaseState} (hregs : b.regs = c.regs) (hfallback : b.fallback = c.fallback) (i a n : Nat) :
    sramWriteFault b i a n = sramWriteFault c i a n := by
  have hforce : regForce b = regForce c := funext (regForce_congr hregs hfallback)
  unfold sramWriteFault replicaBase isExpress cfgPlotReplCfgSize cfgChkCfgBrwarea cfgPlotArithModeStatsEn cfgHifExpressCfgNexp regField
  rw [logicalOf_congr hregs hfallback, hforce]

/-- An execution's operands in SRAM are the same: the SRAM of its plot, and the registers its addresses are checked against. -/
def Dev.sameOperands (d d' : Dev) (i : Nat) : Prop :=
  (d'.plot i).sram = (d.plot i).sram ∧ d'.base.regs = d.base.regs ∧ d'.base.fallback = d.base.fallback

section SameOperands

variable {d d' : Dev} {i : Nat}

theorem Dev.sameOperands_refl (d : Dev) (i : Nat) : d.sameOperands d i := ⟨rfl, rfl, rfl⟩

theorem Dev.sameOperands.count (h : d.sameOperands d' i) (c k n : Nat) : d.sameOperands (d'.count c k n) i := h

theorem Dev.sameOperands.modPlot (h : d.sameOperands d' i) {f : Plot → Plot} (hf : ∀ p, (f p).sram = p.sram) :
    d.sameOperands (d'.modPlot i f) i :=
  ⟨(congrArg Plot.sram (Dev.plot_modPlot_self ..)).trans ((hf _).trans h.1), h.2⟩

theorem Dev.sameOperands.ite {c : Prop} [Decidable c] {d'' : Dev} (h : d.sameOperands d' i) (g : d.sameOperands d'' i) :
    d.sameOperands (if c then d' else d'') i := by
  split
  · exact h
  · exact g

theorem Dev.sameOperands.useAhead (h : d.sameOperands d' i) (fid late : Nat) (keys : List Nat) :
    d.sameOperands (useAhead d' i fid late keys) i := by
  unfold Machine.useAhead
  dsimp only
  split
  · exact h
  · split
    · refine .count (.modPlot h ?_) ..
      exact fun _ => rfl
    · refine .count (.count (.modPlot h ?_) ..) ..
      exact fun _ => rfl

end SameOperands

/-- A furrow's first execution clears no SRAM. -/
theorem sram_firstExec (p : Plot) (e : Exec) : (firstExec p e).sram = p.sram := by
  unfold firstExec
  split
  · rfl
  · split
    · dsimp only
      split <;> rfl
    · rfl
    · split <;> rfl
    · rfl

/-- What precedes an execution counts, clears registers and uses run-ahead data. -/
theorem sameOperands_prepHead (m : Mod) (i : Nat) (u : UnitK) (op : Opc) (obs : Obs) (e : Exec) :
    m.dev.sameOperands (prepHead m i u op obs e).dev i := by
  have hbefore := Dev.sameOperands_refl m.dev i
  unfold prepHead
  dsimp only [Mod.onDev]
  refine .ite (.useAhead (.modPlot (.ite (.count ?hstall ..) ?hstall) (sram_firstExec · e)) ..)
    (.modPlot (.ite (.count ?hstall ..) ?hstall) (sram_firstExec · e))
  refine .ite ?hce (.ite (.count ?hce ..) (.ite (.count ?hce ..) ?hce))
  exact .ite hbefore (hbefore.count ..)

/-! ## Operands in SRAM -/

section Operands

variable {m : Mod} {i : Nat} {e : Exec} {k a : Nat} (hspace : (recOpd e.record k).space = spSram) (hbase : opdBase e.record k e.index = a)
include hspace hbase

/-- The bytes of an operand that lies inside SRAM. -/
theorem readOpd_of_sram {n : Nat} (hfits : a + n ≤ 0x100000) : readOpd m i e k 0 n = .ok (readRun (m.dev.plot i).sram a n) := by
  have hin : ¬ ((a : Int) + (0 : Nat) < 0 ∨ 0x100000 < (a : Int) + (0 : Nat) + n) := by omega
  simp only [readOpd, hspace, hbase, if_pos, if_neg hin]
  congr

/-- A write of an operand that no fault bars. -/
theorem writeOpd_of_sram {bs : List Byte} (hfree : sramWriteFault m.dev.base i a bs.length = none) :
    writeOpd m i e k 0 bs = .ok (m.onDev fun d => d.modPlot i fun p =>
      { clearResv p a bs.length with sram := writeRun p.sram a bs }) := by
  have hin : ¬ (a : Int) + (0 : Nat) < 0 := by omega
  have hto : ((a : Int) + (0 : Nat)).toNat = a := by omega
  simp only [writeOpd, hspace, hbase, if_pos, if_neg hin, hto, hfree]

end Operands

/-! ## MOVE and FINGERPRINT -/

section Moves

variable {m : Mod} {i : Nat} {e : Exec} {a b n : Nat} (hsrc : (recOpd e.record 0).space = spSram)
  (hdst : (recOpd e.record 1).space = spSram) (hfrom : opdBase e.record 0 e.index = a) (hto : opdBase e.record 1 e.index = b)
  (hfits : a + n ≤ 0x100000)
include hsrc hdst hfrom hto hfits

/-- A MOVE of one row in one format, from SRAM to SRAM, copies its bytes (R81). -/
theorem runMove_of_row (hfmt : (recOpd e.record 0).fmt = (recOpd e.record 1).fmt) (hrow : ctrlBits e.record 27 16 = 0)
    (hturn : ctrlBits e.record 52 52 = 0) (hcmode : ctrlBits e.record 54 53 = 0)
    (hn : n = (recOpd e.record 0).format.rowBytes (ctrlBits e.record 15 0)) (hfree : sramWriteFault m.dev.base i b n = none) :
    ∃ r, runMove m i e = .ok r ∧ r.m.mem = m.mem ∧
      (r.m.dev.plot i).sram = writeRun (m.dev.plot i).sram b (readRun (m.dev.plot i).sram a n) := by
  have hmove : runMove m i e = copyRows m i e 1 (ctrlBits e.record 15 0) (ctrlBits e.record 39 28) (ctrlBits e.record 51 40) := by
    simp [runMove, hturn, hrow, hcmode, hfmt, hsrc, hdst]
  have hread := readOpd_of_sram (m := m) (i := i) hsrc hfrom hfits
  have hwrite := writeOpd_of_sram (m := m) (i := i) (bs := readRun (m.dev.plot i).sram a n) hdst hto (by rwa [length_readRun])
  have htake : (readRun (m.dev.plot i).sram a n).take n = readRun (m.dev.plot i).sram a n :=
    List.take_of_length_le (length_readRun ..).le
  subst hn
  simp only [hmove, copyRows, Nat.sub_self, Nat.zero_mul, Nat.zero_add, hread, List.range_one, List.map_cons, List.map_nil, List.drop_zero,
    htake, writeRowBytes, hwrite]
  exact ⟨_, rfl, rfl, congrArg Plot.sram (Dev.plot_modPlot_self ..)⟩

/-- A FINGERPRINT of a region of SRAM writes its CRC-64. -/
theorem runFingerprint_of_region (hn : n = 64 * ctrlBits e.record 14 0) (hfree : sramWriteFault m.dev.base i b 8 = none) :
    ∃ r, runFingerprint m i e = .ok r ∧ r.m.mem = m.mem ∧
      (r.m.dev.plot i).sram = writeRun (m.dev.plot i).sram b (leBytes 8 (crc64 (readRun (m.dev.plot i).sram a n))) := by
  have hregion : regionBytes m i e (64 * ctrlBits e.record 14 0) = .ok (readRun (m.dev.plot i).sram a n) := by
    rw [regionBytes, hsrc, if_neg (by decide), ← hn, readOpd_of_sram hsrc hfrom hfits]
  have hwrite := writeOpd_of_sram (m := m) (i := i) (bs := leBytes 8 (crc64 (readRun (m.dev.plot i).sram a n))) hdst hto
    (by rwa [length_leBytes])
  simp only [runFingerprint, hregion, hwrite]
  exact ⟨_, rfl, rfl, congrArg Plot.sram (Dev.plot_modPlot_self ..)⟩

end Moves

/-- Settles O6: an execution that does not fault answers with its result, and what precedes it leaves SRAM and the address checks as
they were. -/
theorem unitExecutionsRunAndAnswer : Obligations.UnitExecutionsRunAndAnswer := by
  unfold Obligations.UnitExecutionsRunAndAnswer
  constructor
  · intro s plot obs e r
    exact ⟨ranAs_of_ok rfl (by decide), ranAs_of_ok rfl (by decide), ranAs_of_ok rfl (by decide), ranAs_of_ok rfl (by decide),
      ranAs_of_ok rfl (by decide), ranAs_of_ok rfl (by decide)⟩
  · intro s plot obs e a b hsrc hdst hfrom hto p
    constructor
    · intro n hhead hfmt hrow hturn hcmode hn hfits hfree
      obtain ⟨hsram, hregs, hfallback⟩ := sameOperands_prepHead s.mod plot .dma .move obs e
      obtain ⟨r, hrun, hmem, hr⟩ := runMove_of_row (m := prepHead s.mod plot .dma .move obs e) (i := plot) hsrc hdst hfrom hto hfits hfmt
        hrow hturn hcmode hn (by rw [sramWriteFault_congr hregs hfallback, hfree])
      obtain ⟨s', hexec, -, -, hmem', -, hs', -⟩ := ranAs_of_ok (c := .move plot obs) rfl (by decide) hhead hrun
      exact ⟨s', hexec, hmem'.trans hmem, by rw [hs', hr, hsram]⟩
    · intro n hhead hn hfits hfree
      obtain ⟨hsram, hregs, hfallback⟩ := sameOperands_prepHead s.mod plot .dma .fingerprint obs e
      obtain ⟨r, hrun, hmem, hr⟩ := runFingerprint_of_region (m := prepHead s.mod plot .dma .fingerprint obs e) (i := plot)
        hsrc hdst hfrom hto hfits hn (by rw [sramWriteFault_congr hregs hfallback, hfree])
      obtain ⟨s', hexec, -, -, hmem', -, hs', -⟩ := ranAs_of_ok (c := .fingerprint plot obs) rfl (by decide) hhead hrun
      exact ⟨s', hexec, hmem'.trans hmem, by rw [hs', hr, hsram]⟩

end Sys2Proof.Machine
end

section
/-!
PROOF. Packs on plots (R59, R411, R413, R425, R426, R429): the run that is owed, the overdue plot, the hourly run while fallow, and the
CAL slot.
-/

namespace Sys2Proof.Machine

/-! ## What a pack run changes -/

/-- The counts of a pack run: the cases that ran, and those that failed. -/
def Dev.packCounts (d : Dev) (n f : Nat) : Dev :=
  let d := if n = 0 then d else d.count cPackCase 0 n
  if f = 0 then d else d.count cPackFail 0 f

/-- `d'` is `d` but for checking, events and counters: `State.changesOnly` of these without queue, fuses and device memory. -/
def Dev.chkOnly (d d' : Dev) : Prop :=
  ∃ chk evt cnt tot fresh, d' = { d with chk := chk, base := { d.base with evt := evt, cnt := cnt, tot := tot, fresh := fresh } }

section ChkOnly

variable {d d' : Dev}

theorem Dev.chkOnly_refl (d : Dev) : d.chkOnly d := ⟨_, _, _, _, _, rfl⟩

theorem Dev.chkOnly.count (h : d.chkOnly d') (c k n : Nat) : d.chkOnly (d'.count c k n) := by
  obtain ⟨chk, evt, cnt, tot, fresh, rfl⟩ := h
  exact ⟨_, _, _, _, _, rfl⟩

theorem Dev.chkOnly.packCounts (h : d.chkOnly d') (n f : Nat) : d.chkOnly (d'.packCounts n f) := by
  unfold Dev.packCounts
  dsimp only
  split <;> split
  · exact h
  · exact h.count ..
  · exact h.count ..
  · exact (h.count ..).count ..

theorem Dev.chkOnly.modHealth (h : d.chkOnly d') (i : Nat) (f : PlotHealth → PlotHealth) : d.chkOnly (modHealth d' i f) := by
  obtain ⟨chk, evt, cnt, tot, fresh, rfl⟩ := h
  exact ⟨_, _, _, _, _, rfl⟩

theorem Dev.chkOnly.raise (h : d.chkOnly d') (ev : Nat × Nat) (a : Args) (die unit : Nat) : d.chkOnly (d'.raise ev a die unit) := by
  obtain ⟨evt', cnt', tot', hbase⟩ := d'.base.raise_fields ev die unit a.words
  rw [Dev.raise, hbase]
  obtain ⟨chk, evt, cnt, tot, fresh, rfl⟩ := h
  exact ⟨_, _, _, _, _, rfl⟩

/-- A command that changes only these. -/
theorem State.changesOnly_withDev {s : State} (h : s.mod.dev.chkOnly d') : s.changesOnly (s.withDev d') [.chk, .events] := by
  obtain ⟨chk, evt, cnt, tot, fresh, rfl⟩ := h
  refine ⟨rfl, rfl, fun p hp => ?_⟩
  cases p with
  | chk | events => simp at hp
  | _ => rfl

end ChkOnly

@[simp] theorem healthOf_modHealth_self (d : Dev) (i : Nat) (f : PlotHealth → PlotHealth) : healthOf (modHealth d i f) i = f (healthOf d i) :=
  kget_kmod_self ..

/-- What checking keeps of the plots depends on checking alone. -/
theorem healthOf_congr {d d' : Dev} (h : d'.chk.health = d.chk.health) (i : Nat) : healthOf d' i = healthOf d i :=
  congrArg (kget PlotHealth.reset · i) h

/-! ## A conviction (R413, R427, R428) -/

@[simp] theorem chk_voidBlock (d : Dev) (step : Word32) (da : Nat) : (voidBlock d step da).chk = d.chk := rfl

/-- A plot whose die has no spare left stays as checking has it. -/
theorem chk_plotExhausted (d : Dev) (l i : Nat) : (plotExhausted d l i).chk = d.chk := by
  unfold plotExhausted
  dsimp only
  generalize hblocks : List.filter _ _ = blocks
  have hraise : ((d.setMap l false i).raise evPlotSparesExhausted {} (instDie i) l).chk = d.chk := rfl
  rw [← hraise]
  clear hblocks hraise
  generalize (d.setMap l false i).raise evPlotSparesExhausted {} (instDie i) l = d
  induction blocks generalizing d with
  | nil => rfl
  | cons b blocks ih => exact ih _

/-- A plot that is made fallow is unhealthy and owes no run. -/
theorem healthOf_makeFallow (d : Dev) (i : Nat) :
    healthOf (makeFallow d i) i = { healthOf d i with unhealthy := true, fallow := true, owes := false, strikes := [] } := by
  refine (healthOf_congr (d := modHealth d i fun h => { h with unhealthy := true, fallow := true, owes := false, strikes := [] })
    ?_ i).trans (healthOf_modHealth_self ..)
  unfold makeFallow
  dsimp only
  split
  · rfl
  · split
    · rw [chk_plotExhausted]
      rfl
    · rfl

theorem health_askRollback (d : Dev) (start : Word32) (suspect : Bool) : (askRollback d start suspect).chk.health = d.chk.health := by
  unfold askRollback
  dsimp only
  split <;> rfl

/-- A plot that is convicted is fallow, and its convictions are one more. -/
theorem healthOf_convictPlot (d : Dev) (i : Nat) (express : Bool) :
    (healthOf (convictPlot d i express) i).fallow = true ∧ (healthOf (convictPlot d i express) i).unhealthy = true ∧
      (healthOf (convictPlot d i express) i).convictions = (healthOf d i).convictions + 1 := by
  have hhealth : healthOf (convictPlot d i express) i = { healthOf (makeFallow d i) i with
      convictions := (healthOf (makeFallow d i) i).convictions + 1, retired := decide (0 < (healthOf d i).convictions), worked := [],
      bad := [], agreed := none } := by
    refine (healthOf_congr (d := modHealth (makeFallow d i) i fun h => { h with
      convictions := h.convictions + 1, retired := decide (0 < (healthOf d i).convictions), worked := [], bad := [], agreed := none })
      ?_ i).trans (healthOf_modHealth_self ..)
    unfold convictPlot
    dsimp only
    split
    · rw [health_askRollback]
      split <;> simp only [Dev.raise_chk, Dev.onChk_chk]
    · split <;> simp only [Dev.raise_chk, Dev.onChk_chk]
  rw [hhealth, healthOf_makeFallow]
  exact ⟨rfl, rfl, rfl⟩

/-! ## PACK_RUN (R411, R425) -/

/-- With no vote that waits for a pack, a plot's pack run settles none. -/
theorem votesAfterPack_of_none {d : Dev} (hnone : ∀ y ∈ d.chk.samples, ∀ l b, y.st ≠ .pack l b) (i : Nat) (passed : Bool) :
    votesAfterPack d i passed = d := by
  unfold votesAfterPack
  rw [List.filter_eq_nil_iff.2, List.foldl_nil]
  intro y hy
  split
  next l b hst => exact absurd hst (hnone y hy l b)
  next => exact Bool.false_ne_true

theorem Dev.packCounts_of_pass (d : Dev) {n : Nat} (hn : n ≠ 0) : d.packCounts n 0 = d.count cPackCase 0 n := by
  simp only [Dev.packCounts, hn, if_false, if_true]

theorem Dev.packCounts_of_fail (d : Dev) {n f : Nat} (hn : n ≠ 0) (hf : f ≠ 0) :
    d.packCounts n f = (d.count cPackCase 0 n).count cPackFail 0 f := by
  simp only [Dev.packCounts, hn, hf, if_false]

/-- The device once a plot has run the cases of its pack, `f` of which failed. -/
def Dev.ranPack (d : Dev) (i f : Nat) : Dev :=
  modHealth (d.packCounts (plotCases d) f) i fun h =>
    { h with owes := false, unhealthy := decide (f ≠ 0), packDone := (d.packCounts (plotCases d) f).nowNs, nextCase := 0 }

@[simp] theorem chk_packCounts (d : Dev) (n f : Nat) : (d.packCounts n f).chk = d.chk := by
  unfold Dev.packCounts
  dsimp only
  split <;> split <;> rfl

@[simp] theorem logicalOf_packCounts (d : Dev) (n f i : Nat) : logicalOf (d.packCounts n f).base i = logicalOf d.base i := by
  unfold Dev.packCounts
  dsimp only
  split <;> split <;> exact logicalOf_congr rfl rfl i

@[simp] theorem samples_ranPack (d : Dev) (i f : Nat) : (d.ranPack i f).chk.samples = d.chk.samples := by
  unfold Dev.ranPack modHealth
  rw [chk_packCounts]

@[simp] theorem logicalOf_ranPack (d : Dev) (i f j : Nat) : logicalOf (d.ranPack i f).base j = logicalOf d.base j :=
  logicalOf_packCounts ..

section PackRun

variable {s : State} {plot : Fin 4352} {pk : Pack} (hstop : s.mod.dev.stopped = false) (hpack : s.mod.dev.chk.pack = some pk)
  (howes : (healthOf s.mod.dev plot).owes = true) (hblocks : (s.mod.dev.plot plot).blocks = []) (hqc : qcUp s.mod.dev plot = true)
  (hcases : plotCases s.mod.dev ≠ 0) (hnone : ∀ y ∈ s.mod.dev.chk.samples, ∀ l b, y.st ≠ .pack l b)
include hstop hpack howes hblocks hqc hcases hnone

/-- A plot passes the pack it owes. -/
theorem packRun_of_pass : exec (.packRun plot 0) s = .next (s.withDev (s.mod.dev.ranPack plot 0)) := by
  have hexec : exec (.packRun plot 0) s = execPackRun plot 0 s := rfl
  have hran : s.mod.dev.ranPack plot 0 = modHealth (s.mod.dev.count cPackCase 0 (plotCases s.mod.dev)) plot fun h =>
      { h with owes := false, unhealthy := false, packDone := (s.mod.dev.count cPackCase 0 (plotCases s.mod.dev)).nowNs
               nextCase := 0 } := by
    rw [Dev.ranPack, Dev.packCounts_of_pass _ hcases]
    rfl
  rw [hexec, execPackRun, onPlaneDev_eq _ _ hstop]
  simp only [howes, hblocks, hpack, hqc, hcases, Nat.zero_min, List.isEmpty_nil, Option.isNone_some, Bool.not_true, Bool.false_eq_true,
    Bool.true_eq_false, or_self, if_false, if_true, ne_eq, not_true_eq_false, false_and, decide_false]
  rw [← hran, votesAfterPack_of_none (by rwa [samples_ranPack])]

/-- A plot in service fails it and is convicted. -/
theorem packRun_of_fail {fails l : Nat} (hfails : 0 < fails) (hfallow : (healthOf s.mod.dev plot).fallow = false)
    (hlogical : logicalOf s.mod.dev.base plot = some l) :
    ∃ express, exec (.packRun plot fails) s =
      .next (s.withDev (convictPlot (s.mod.dev.ranPack plot (min fails (plotCases s.mod.dev))) plot express)) := by
  have hexec : exec (.packRun plot fails) s = execPackRun plot fails s := rfl
  have hf : min fails (plotCases s.mod.dev) ≠ 0 := by omega
  have hran : s.mod.dev.ranPack plot (min fails (plotCases s.mod.dev)) =
      modHealth ((s.mod.dev.count cPackCase 0 (plotCases s.mod.dev)).count cPackFail 0 (min fails (plotCases s.mod.dev))) plot fun h =>
        { h with owes := false, unhealthy := true
                 packDone := ((s.mod.dev.count cPackCase 0 (plotCases s.mod.dev)).count cPackFail 0 (min fails (plotCases s.mod.dev))).nowNs
                 nextCase := 0 } := by
    rw [Dev.ranPack, Dev.packCounts_of_fail _ hcases hf, decide_eq_true hf]
  rw [hexec, execPackRun, onPlaneDev_eq _ _ hstop]
  simp only [howes, hblocks, hpack, hqc, hcases, hf, hfallow, List.isEmpty_nil, Option.isNone_some, Bool.not_true, Bool.false_eq_true,
    Bool.true_eq_false, or_self, if_false, ne_eq, not_false_eq_true, decide_true, decide_false, true_and, and_true]
  rw [← hran, votesAfterPack_of_none (by rwa [samples_ranPack]), List.any_eq_false.2, if_pos rfl, logicalOf_ranPack, hlogical,
    Option.isSome_some, if_pos rfl]
  · exact ⟨_, rfl⟩
  · intro y hy
    split
    next l b hst => exact absurd hst (hnone y hy l b)
    next => exact Bool.false_ne_true

end PackRun

/-! ## PACK_OVERDUE and FALLOW_HOURLY_PACK (R425, R429) -/

section Service

variable {s : State} (plot : Fin 4352) (hstop : s.mod.dev.stopped = false)
include hstop

/-- An overdue plot owes the run. -/
theorem packOverdue_next (hpack : s.mod.dev.chk.pack.isSome = true) (howes : (healthOf s.mod.dev plot).owes = false)
    (hretired : (healthOf s.mod.dev plot).retired = false)
    (hlate : (healthOf s.mod.dev plot).packDone + cfgChkRepairCfgPackhrs s.mod.dev.base * 3600000000000 < s.mod.dev.nowNs) :
    exec (.packOverdue plot) s = .next (s.withDev ((modHealth s.mod.dev plot fun h => { h with owes := true }).raise evPackOverdue
      { x := some [plot.val] } (instDie plot) (unitOf s.mod.dev.base plot))) := by
  have hexec : exec (.packOverdue plot) s = execPackOverdue plot s := rfl
  have hsome : s.mod.dev.chk.pack.isNone = false := by rw [← Option.not_isSome, hpack]; rfl
  rw [hexec, execPackOverdue, onPlaneDev_eq _ _ hstop]
  simp only [hsome, howes, hretired, Nat.not_le.2 hlate, Bool.false_eq_true, or_self, if_false]

/-- The hourly run of a fallow plot: the counts, then a pass more, none, or the return to service. -/
theorem fallowHourlyPack_next (fails : Nat) {pk : Pack} (hpack : s.mod.dev.chk.pack = some pk)
    (hunhealthy : (healthOf s.mod.dev plot).unhealthy = true) (hretired : (healthOf s.mod.dev plot).retired = false)
    (hspare : logicalOf s.mod.dev.base plot = none) (hqc : qcUp s.mod.dev plot = true) :
    exec (.fallowHourlyPack plot fails) s = .next (s.withDev (
      let f := min fails (plotCases s.mod.dev)
      let d := s.mod.dev.packCounts (plotCases s.mod.dev) f
      if f ≠ 0 then modHealth d plot fun h => { h with passes := 0 }
      else if (healthOf s.mod.dev plot).passes + 1 < cfgChkRepairCfgRethrs d.base then
        modHealth d plot fun h => { h with passes := h.passes + 1 }
      else (modHealth d plot fun h => { h with
          passes := 0, unhealthy := false, fallow := false, packDone := d.nowNs, worked := [], bad := [], agreed := none }).raise
        evPlotReturned { x := some [plot.val] } (instDie plot))) := by
  have hexec : exec (.fallowHourlyPack plot fails) s = execFallowHourlyPack plot fails s := rfl
  rw [hexec, execFallowHourlyPack, onPlaneDev_eq _ _ hstop]
  simp only [hpack, hunhealthy, hretired, hspare, hqc, Option.isNone_some, Option.isSome_none, Bool.not_true, Bool.false_eq_true,
    Bool.true_eq_false, or_self, if_false]
  rfl

/-- A pass of the hourly run with the passes it makes. -/
theorem fallowHourlyPack_of_pass {pk : Pack} (hpack : s.mod.dev.chk.pack = some pk)
    (hunhealthy : (healthOf s.mod.dev plot).unhealthy = true) (hretired : (healthOf s.mod.dev plot).retired = false)
    (hspare : logicalOf s.mod.dev.base plot = none) (hqc : qcUp s.mod.dev plot = true) (hcases : plotCases s.mod.dev ≠ 0) :
    exec (.fallowHourlyPack plot 0) s = .next (s.withDev (
      let d := s.mod.dev.count cPackCase 0 (plotCases s.mod.dev)
      if (healthOf s.mod.dev plot).passes + 1 < cfgChkRepairCfgRethrs s.mod.dev.base then
        modHealth d plot fun h => { h with passes := h.passes + 1 }
      else (modHealth d plot fun h => { h with
          passes := 0, unhealthy := false, fallow := false, packDone := d.nowNs, worked := [], bad := [], agreed := none }).raise
        evPlotReturned { x := some [plot.val] } (instDie plot))) := by
  have hrethrs : cfgChkRepairCfgRethrs (s.mod.dev.count cPackCase 0 (plotCases s.mod.dev)).base = cfgChkRepairCfgRethrs s.mod.dev.base := by
    simp only [cfgChkRepairCfgRethrs, regField, regForce_count]
  rw [fallowHourlyPack_next plot hstop 0 hpack hunhealthy hretired hspare hqc]
  simp only [Nat.zero_min, Dev.packCounts_of_pass _ hcases, hrethrs, ne_eq, not_true_eq_false, if_false]

end Service

/-! ## CAL_SLOT (R59, R425, R426) -/

/-- The SRAM that a CAL furrow names as scratch, once content has run there. -/
def scratched (d : Dev) (m : KMap Byte) (e : Exec) : KMap Byte :=
  writeRun m (opdBase e.record 0 e.index).toNat
    ((List.range (min (64 * ctrlBits e.record 31 16) (0x100000 - (opdBase e.record 0 e.index).toNat))).map fun k =>
      (Config.freeWord (d.base.fresh * 2 ^ 24 + k)).setWidth 8)

/-- A byte outside the scratch is as it was. -/
theorem kget_scratched (d : Dev) (m : KMap Byte) (e : Exec) {a : Nat}
    (hout : a < (opdBase e.record 0 e.index).toNat ∨ (opdBase e.record 0 e.index).toNat + 64 * ctrlBits e.record 31 16 ≤ a) :
    kget 0 (scratched d m e) a = kget 0 m a := by
  rw [scratched]
  refine (kget_writeRun ..).trans (if_neg ?_)
  rw [List.length_map, List.length_range]
  omega

/-- A plot's SRAM is as it was after steps that each leave it. -/
theorem sram_foldl {α : Type} (l : List α) (f : Plot → α → Plot) (hf : ∀ p a, (f p a).sram = p.sram) (p : Plot) :
    (l.foldl f p).sram = p.sram := by
  induction l generalizing p with
  | nil => rfl
  | cons a l ih => exact (ih _).trans (hf ..)

/-- Content that runs in a CAL slot writes the scratch, tiles, and nothing else of SRAM. -/
theorem sram_scramble (d : Dev) (i : Nat) (e : Exec) : ((scramble d i e).plot i).sram = scratched d (d.plot i).sram e := by
  unfold scramble
  dsimp only
  rw [Dev.plot_tickFresh, Dev.plot_modPlot_self]
  rw [sram_foldl]
  · rfl
  · intro p t
    rw [sram_foldl]
    exact fun _ _ => rfl

theorem plot_scramble_ne (d : Dev) {i j : Nat} (e : Exec) (h : i ≠ j) : (scramble d i e).plot j = d.plot j :=
  (Dev.plot_tickFresh ..).trans (Dev.plot_modPlot_ne _ _ h)

@[simp] theorem chk_scramble (d : Dev) (i : Nat) (e : Exec) : (scramble d i e).chk = d.chk := rfl

@[simp] theorem chk_dropGot (d : Dev) (mine : Who → Bool) : (d.dropGot mine).chk = d.chk := by
  unfold Dev.dropGot
  split <;> rfl

@[simp] theorem chk_finishExec (d : Dev) (i : Nat) (u : UnitK) (e : Exec) (stats : List Nat) (c : ConvCount) :
    (finishExec d i u e stats c).chk = d.chk := by
  simp only [finishExec]
  split <;> split <;> simp only [Dev.count_chk, chk_dropGot, Dev.modPlot_chk]

section CalSlot

variable {s : State} {plot : Fin 4352} {e : Exec} (hstop : s.mod.dev.stopped = false)
  (hown : (s.mod.dev.plot plot).seq.own = some e) (hcal : recOpc e.record = 13)
include hstop hown hcal

/-- A CAL slot with nothing to run completes. -/
theorem calSlot_of_none (hcase : slotCase s.mod.dev plot e = none) :
    exec (.calSlot plot none true) s = .next (s.withDev (s.ownDone plot e)) := by
  have hexec : exec (.calSlot plot none true) s = execCalSlot plot none true s := rfl
  rw [hexec, execCalSlot, onPlaneDev_eq _ _ hstop]
  simp only [hown, hcal, ne_eq, not_true_eq_false, if_false, hcase]
  rfl

/-- A case of the pack that passes in a CAL slot. -/
theorem calSlot_of_case {k : Nat} {pk : Pack} (hcase : slotCase s.mod.dev plot e = some k) (hpack : s.mod.dev.chk.pack = some pk) :
    exec (.calSlot plot none true) s = .next (s.withDev (
      let d := (finishExec (scramble s.mod.dev plot e) plot .own e [0, 0, 0, 0, 0, 0] .none).count cPackCase 0 1
      modHealth d plot fun h => if k + 1 < pk.cases.length then { h with nextCase := k + 1 }
        else { h with nextCase := 0, packDone := d.nowNs, unhealthy := false })) := by
  have hexec : exec (.calSlot plot none true) s = execCalSlot plot none true s := rfl
  rw [hexec, execCalSlot, onPlaneDev_eq _ _ hstop]
  simp only [hown, hcal, ne_eq, not_true_eq_false, if_false, if_true, hcase, Dev.count_chk, chk_finishExec, chk_scramble, hpack]

end CalSlot

/-- Settles O28: by one rule for each command and outcome, a conviction's effect on its plot, and the writes of what runs in a slot. -/
theorem packsRunOnPlots : Obligations.PacksRunOnPlots := by
  unfold Obligations.PacksRunOnPlots
  intro s plot hstop d h
  refine ⟨fun pk hpack howes hblocks hqc hcases hnone => ⟨?passes, fun fails l hfails hfallow hlogical => ?fails⟩,
    fun hpack howes hretired hlate => ?overdue,
    fun pk hpack hunhealthy hretired hspare hqc hcases => ⟨fun fails hfails => ?again, fun hfew => ?more, fun henough => ?returns⟩,
    fun e hown hcal => ⟨fun hcase => ?idle, fun k pk hcase hpack => ?slot⟩⟩
  case passes =>
    have hcount := d.packCounts_of_pass hcases
    refine ⟨_, packRun_of_pass hstop hpack howes hblocks hqc hcases hnone,
      State.changesOnly_withDev (((Dev.chkOnly_refl _).packCounts ..).modHealth ..), ?_, ?_⟩
    · refine (healthOf_modHealth_self ..).trans ?_
      rw [hcount]
      rfl
    · rw [← hcount]
      rfl
  case fails =>
    obtain ⟨express, hexec⟩ := packRun_of_fail hstop hpack howes hblocks hqc hcases hnone hfails hfallow hlogical
    obtain ⟨hf, hu, hconv⟩ := healthOf_convictPlot (s.mod.dev.ranPack plot (min fails (plotCases s.mod.dev))) plot express
    refine ⟨_, hexec, rfl, rfl, rfl, ?_⟩
    dsimp only
    refine ⟨hf, hu, hconv.trans ?_⟩
    rw [Dev.ranPack, healthOf_modHealth_self, healthOf_congr (congrArg ChkState.health (chk_packCounts ..))]
  case overdue =>
    exact ⟨_, packOverdue_next plot hstop hpack howes hretired hlate,
      State.changesOnly_withDev (((Dev.chkOnly_refl _).modHealth ..).raise ..), healthOf_modHealth_self .., rfl⟩
  case again =>
    have hf : min fails (plotCases d) ≠ 0 := by omega
    refine ⟨_, (fallowHourlyPack_next plot hstop fails hpack hunhealthy hretired hspare hqc).trans (by rw [if_pos hf]),
      State.changesOnly_withDev (((Dev.chkOnly_refl _).packCounts ..).modHealth ..), ?_⟩
    refine (healthOf_modHealth_self ..).trans ?_
    rw [healthOf_congr (congrArg ChkState.health (chk_packCounts ..))]
  case more =>
    exact ⟨_, (fallowHourlyPack_of_pass plot hstop hpack hunhealthy hretired hspare hqc hcases).trans (by rw [if_pos hfew]),
      State.changesOnly_withDev (((Dev.chkOnly_refl _).count ..).modHealth ..), healthOf_modHealth_self ..⟩
  case returns =>
    refine ⟨_, (fallowHourlyPack_of_pass plot hstop hpack hunhealthy hretired hspare hqc hcases).trans
      (by rw [if_neg (Nat.not_lt.2 henough)]), State.changesOnly_withDev ((((Dev.chkOnly_refl _).count ..).modHealth ..).raise ..), ?_⟩
    refine ⟨?_, ?_, ?_, rfl⟩
    all_goals rw [healthOf_congr (congrArg ChkState.health (Dev.raise_chk ..)), healthOf_modHealth_self]
  case idle =>
    exact ⟨_, calSlot_of_none hstop hown hcal hcase, rfl, rfl, rfl, rfl⟩
  case slot =>
    refine ⟨_, calSlot_of_case hstop hown hcal hcase hpack, rfl, fun a hout => ?_, fun hmore => ?_, fun j hj => ?_⟩
    · rw [plot_modHealth, Dev.plot_count, (registers_finishExec ..).1, sram_scramble, kget_scratched _ _ _ hout]
    · refine (congrArg PlotHealth.nextCase (healthOf_modHealth_self ..)).trans ?_
      rw [if_pos hmore]
    · rw [plot_modHealth, Dev.plot_count, plot_finishExec_ne _ _ _ _ _ _ hj.symm, plot_scramble_ne _ _ hj.symm]

end Sys2Proof.Machine
end

section
/-!
PROOF. The frame of a command that changes parts of the module: kept by each operation in turn.
-/

namespace Sys2Proof.Machine

section PartsFrame

variable {s : State} {d : Dev} {ps : List Part}

theorem State.changesOnly_refl (s : State) (ps : List Part) : s.changesOnly s ps := by
  refine ⟨rfl, rfl, fun p _ => ?_⟩
  cases p with
  | events => exact ⟨rfl, rfl, rfl, rfl⟩
  | _ => rfl

section Change

variable (h : s.changesOnly (s.withDev d) ps)
include h

theorem State.changesOnly.onTab (hp : Part.tab ∈ ps) (f : TabState → TabState) : s.changesOnly (s.withDev (d.onTab f)) ps := by
  obtain ⟨-, -, hsame⟩ := h
  refine ⟨rfl, rfl, fun p hnot => ?_⟩
  have hbefore := hsame p hnot
  cases p with
  | tab => exact absurd hp hnot
  | _ => exact hbefore

theorem State.changesOnly.onTier (hp : Part.tier ∈ ps) (f : TierState → TierState) : s.changesOnly (s.withDev (d.onTier f)) ps := by
  obtain ⟨-, -, hsame⟩ := h
  refine ⟨rfl, rfl, fun p hnot => ?_⟩
  have hbefore := hsame p hnot
  cases p with
  | tier => exact absurd hp hnot
  | _ => exact hbefore

/-- Where events and counters may change, any values of theirs will do. -/
theorem State.changesOnly.withEvents (hp : Part.events ∈ ps) {b : BaseState}
    (hb : ∃ evt cnt tot fresh, b = { d.base with evt := evt, cnt := cnt, tot := tot, fresh := fresh }) :
    s.changesOnly (s.withDev { d with base := b }) ps := by
  obtain ⟨-, -, hsame⟩ := h
  obtain ⟨evt, cnt, tot, fresh, rfl⟩ := hb
  refine ⟨rfl, rfl, fun p hnot => ?_⟩
  have hbefore := hsame p hnot
  cases p with
  | events => exact absurd hp hnot
  | base => exact congrArg (fun b : BaseState => { b with evt := evt, cnt := cnt, tot := tot, fresh := fresh }) hbefore
  | _ => exact hbefore

theorem State.changesOnly.count (hp : Part.events ∈ ps) (c k n : Nat) : s.changesOnly (s.withDev (d.count c k n)) ps :=
  h.withEvents hp ⟨_, _, _, _, rfl⟩

theorem State.changesOnly.raise (hp : Part.events ∈ ps) (ev : Nat × Nat) (a : Args) (die unit : Nat) :
    s.changesOnly (s.withDev (d.raise ev a die unit)) ps := by
  obtain ⟨evt, cnt, tot, hb⟩ := d.base.raise_fields ev die unit a.words
  exact h.withEvents hp ⟨evt, cnt, tot, _, hb⟩

end Change

end PartsFrame

end Sys2Proof.Machine
end

section
/-!
PROOF. Coalescers (R234 to R237): what one index and the merge leave in each of them.
-/

namespace Sys2Proof.Machine

/-! ## A coalescer that is given a state -/

theorem coalAt_setCoal (d : Dev) (c : Nat) (x : Coal) (j : Nat) : coalAt (d.setCoal c x) j = if j = c then x else coalAt d j :=
  (kget_kset ..).trans (if_congr eq_comm rfl rfl)

@[simp] theorem coalAt_setCoal_self (d : Dev) (c : Nat) (x : Coal) : coalAt (d.setCoal c x) c = x := by
  rw [coalAt_setCoal, if_pos rfl]

/-- Two states given one after the other: the later one stands. -/
theorem coalAt_setCoal_setCoal (d : Dev) (c : Nat) (x y : Coal) (j : Nat) :
    coalAt ((d.setCoal c x).setCoal c y) j = if j = c then y else coalAt d j := by
  rw [coalAt_setCoal, coalAt_setCoal]
  split <;> rfl

/-- What the coalescers hold is a part of the tables. -/
theorem coalAt_congr {d d' : Dev} (h : d'.tab.coal = d.tab.coal) (j : Nat) : coalAt d' j = coalAt d j :=
  congrArg (kget Coal.reset · j) h

theorem State.changesOnly.setCoal {s : State} {d : Dev} {ps : List Part} (h : s.changesOnly (s.withDev d) ps) (hp : Part.tab ∈ ps)
    (c : Nat) (x : Coal) : s.changesOnly (s.withDev (d.setCoal c x)) ps := h.onTab hp _

/-! ## One more of a key (R235) -/

/-- A key whose count is not at its end counts one more. -/
theorem countKey_of_lt {d : Dev} {c key n : Nat} (hn : kget 0 (coalAt d c).window key = n) (hlt : n < 0xFFFFFFFF) :
    countKey d c key = d.setCoal c { coalAt d c with window := kput (coalAt d c).window key (n + 1) } := by
  subst hn
  rw [countKey, if_neg hlt.ne]

/-! ## A window that goes to the spill area (R236) -/

/-- A coalescer whose window has become a run. -/
def Coal.spilled (x : Coal) : Coal := { x with runs := x.runs ++ [x.window], window := [] }

/-- The window of coalescer `c` becomes a run, which is counted. -/
def Dev.spillWindow (d : Dev) (c : Nat) : Dev := (d.setCoal c (coalAt d c).spilled).count cCoalSpill (c / 4) 1

/-- So it does where the spill area has room for it. -/
theorem spillRun_of_room {d : Dev} {c : Nat}
    (hroom : 16 * (spilled d c + (coalAt d c).window.length) ≤ cfgTierCoalCfgSpill d.base * miB) :
    spillRun d c = some (d.spillWindow c) := by
  simp only [spillRun, if_pos hroom]
  rfl

/-- The first key after a spill is alone in the window. -/
theorem countKey_spillWindow (d : Dev) (c key : Nat) :
    countKey (d.spillWindow c) c key = (d.spillWindow c).setCoal c { (coalAt d c).spilled with window := [(key, 1)] } := by
  have hwin : coalAt (d.spillWindow c) c = (coalAt d c).spilled := coalAt_setCoal_self ..
  rw [countKey_of_lt (n := 0) (by rw [hwin]; rfl) (by decide), hwin]
  rfl

/-! ## A key passed through (R237) -/

/-- A key is passed through and counted apart; the first of its step is said. -/
def passKey (d : Dev) (step : Word32) (c key : Nat) : Dev :=
  let d := (d.setCoal c { coalAt d c with passing := true, passed := kmod 0 (coalAt d c).passed key (· + 1) }).count cCoalPass (c / 4) 1
  if d.tab.passSaid = some step then d
  else (d.raise evCoalescePass { hasS := true, s := step.toNat, n := c } (c / 4)).onTab fun t => { t with passSaid := some step }

theorem coalAt_passKey (d : Dev) (step : Word32) (c key j : Nat) : coalAt (passKey d step c key) j =
    if j = c then { coalAt d c with passing := true, passed := kmod 0 (coalAt d c).passed key (· + 1) } else coalAt d j := by
  refine Eq.trans (coalAt_congr ?_ j) (coalAt_setCoal d c _ j)
  unfold passKey
  dsimp only
  split <;> rfl

theorem State.changesOnly_passKey (s : State) (step : Word32) (c key : Nat) :
    s.changesOnly (s.withDev (passKey s.mod.dev step c key)) [.tab, .events] := by
  have hcount := ((s.changesOnly_refl [.tab, .events]).setCoal (d := s.mod.dev) (by decide) c
    { coalAt s.mod.dev c with passing := true, passed := kmod 0 (coalAt s.mod.dev c).passed key (· + 1) }).count (by decide)
    cCoalPass (c / 4) 1
  unfold passKey
  dsimp only
  split
  · exact hcount
  · exact (hcount.raise (by decide) ..).onTab (by decide) _

/-! ## COALESCE_INDEX -/

section Index

variable {s : State} {step : Word32} {table : Fin 4096} {row : BitVec 40} {c key : Nat} (hstop : s.mod.dev.stopped = false)
  (hc : c = coalOf table row.toNat) (hkey : key = rowKey table row.toNat) (hstep : (coalAt s.mod.dev c).step = step)
include hstop hc hkey hstep

/-- A key in the window, or a new one where the window has room, is counted. -/
theorem coalesceIndex_of_room (hpass : (coalAt s.mod.dev c).passing = false)
    (hroom : (kfind (coalAt s.mod.dev c).window key).isSome ∨ (coalAt s.mod.dev c).window.length < 16384) :
    exec (.coalesceIndex step table row) s = .next (s.withDev (countKey s.mod.dev c key)) := by
  subst hc hkey
  have hexec : exec (.coalesceIndex step table row) s = execCoalesceIndex step table row s := rfl
  rw [hexec, execCoalesceIndex, onPlaneDev_eq _ _ hstop]
  simp only [if_pos hstep, hpass, Bool.false_eq_true, if_false, if_pos hroom]

/-- A new key that finds the window full is counted once the window has been spilled. -/
theorem coalesceIndex_of_spill {d' : Dev} (hpass : (coalAt s.mod.dev c).passing = false)
    (hnew : kfind (coalAt s.mod.dev c).window key = none) (hfull : 16384 ≤ (coalAt s.mod.dev c).window.length)
    (hspill : spillRun s.mod.dev c = some d') :
    exec (.coalesceIndex step table row) s = .next (s.withDev (countKey d' c key)) := by
  have hno : ¬ ((kfind (coalAt s.mod.dev c).window key).isSome ∨ (coalAt s.mod.dev c).window.length < 16384) := by
    simp [hnew, hfull]
  subst hc hkey
  have hexec : exec (.coalesceIndex step table row) s = execCoalesceIndex step table row s := rfl
  rw [hexec, execCoalesceIndex, onPlaneDev_eq _ _ hstop]
  simp only [if_pos hstep, hpass, Bool.false_eq_true, if_false, if_neg hno, hspill]

/-- Once the coalescer passes keys through, so it does with every key. -/
theorem coalesceIndex_of_passing (hpass : (coalAt s.mod.dev c).passing = true) :
    exec (.coalesceIndex step table row) s = .next (s.withDev (passKey s.mod.dev step c key)) := by
  subst hc hkey
  have hexec : exec (.coalesceIndex step table row) s = execCoalesceIndex step table row s := rfl
  rw [hexec, execCoalesceIndex, onPlaneDev_eq _ _ hstop]
  simp only [if_pos hstep, hpass, if_true]
  rfl

end Index

/-! ## COALESCE_MERGE -/

/-- A coalescer that has no runs leaves the counts of its window, with those passed through, as the step's list. -/
theorem coalesceMerge_of_window {s : State} {k : Fin 16} (hstop : s.mod.dev.stopped = false) (hruns : (coalAt s.mod.dev k).runs = []) :
    exec (.coalesceMerge k) s = .next (s.withDev ((s.mod.dev.setCoal k Coal.reset).onTab fun t => { t with
      distinct := (t.distinct.filter fun l => !(l.step = (coalAt s.mod.dev k).step && l.coal = k.val)) ++
        [⟨(coalAt s.mod.dev k).step, k, mergeCounts (coalAt s.mod.dev k).window (coalAt s.mod.dev k).passed⟩] })) := by
  have hexec : exec (.coalesceMerge k) s = execCoalesceMerge k s := rfl
  rw [hexec, execCoalesceMerge, onPlaneDev_eq _ _ hstop]
  simp only [hruns, if_true, List.foldl_nil]

/-- Settles O13: by one rule for each way a key can go and one for the merge. -/
theorem coalescersCount : Obligations.CoalescersCount := by
  unfold Obligations.CoalescersCount
  intro s step table row hstop d key c x
  have hsame := s.changesOnly_refl
  refine ⟨fun n hstep hpass hfind hlt => ?held, fun hstep hpass hnew hlen => ?new, fun hstep hpass hnew hfull hroom => ?spill,
    fun hstep hpass => ?pass, fun k hruns => ?merge⟩
  case held =>
    have hcount : countKey d c key = d.setCoal c { x with window := kput x.window key (n + 1) } :=
      countKey_of_lt (congrArg (Option.getD · 0) hfind) hlt
    refine ⟨_, coalesceIndex_of_room hstop rfl rfl hstep hpass (.inl (Option.isSome_of_eq_some hfind)), ?_⟩
    rw [hcount]
    exact ⟨(hsame _).setCoal (by decide) .., rfl, coalAt_setCoal d c _⟩
  case new =>
    have hcount : countKey d c key = d.setCoal c { x with window := kput x.window key 1 } :=
      countKey_of_lt (congrArg (Option.getD · 0) hnew) (by decide)
    refine ⟨_, coalesceIndex_of_room hstop rfl rfl hstep hpass (.inr hlen), ?_⟩
    rw [hcount]
    exact ⟨(hsame _).setCoal (by decide) .., coalAt_setCoal d c _⟩
  case spill =>
    refine ⟨_, coalesceIndex_of_spill hstop rfl rfl hstep hpass hnew hfull (spillRun_of_room hroom), ?_⟩
    rw [countKey_spillWindow]
    exact ⟨(((hsame _).setCoal (by decide) ..).count (by decide) ..).setCoal (by decide) .., coalAt_setCoal_setCoal d c x.spilled _⟩
  case pass =>
    exact ⟨_, coalesceIndex_of_passing hstop rfl rfl hstep hpass, s.changesOnly_passKey .., coalAt_passKey d step c key⟩
  case merge =>
    refine ⟨_, coalesceMerge_of_window hstop hruns, ((hsame _).setCoal (by decide) ..).onTab (by decide) _,
      coalAt_setCoal d k Coal.reset, ?_⟩
    exact List.mem_append_right _ (List.mem_singleton_self _)

end Sys2Proof.Machine
end

section
/-!
PROOF. Reads of rows and the end of a previous version (R209, R215, R223, R225, R228).
-/

namespace Sys2Proof.Machine

/-! ## What is read is left as the answer -/

/-- An answer is left for the unit that reads. -/
def Dev.answers (d : Dev) (gst : Nat) (bs : List Byte) : Dev := d.onTab fun x => { x with answer := some (gst, bs) }

/-! ## A promotion that is queued (Table 7.13) -/

/-- A row whose promotion has been asked for has one in the queue. -/
theorem mem_queuePromote (d : Dev) (table row : Nat) (target : Tier) (demand : Bool) :
    ∃ q ∈ (d.queuePromote table row target demand).tier.promote, q.table = table ∧ q.row = row := by
  rw [Dev.queuePromote, Dev.onTier_tier]
  split
  · next hany =>
    obtain ⟨q, hq, hrow⟩ := List.any_eq_true.1 hany
    have hthis : q.table = table ∧ q.row = row := by simpa using hrow
    exact ⟨_, List.mem_map_of_mem hq, by rw [if_pos hthis]; exact ⟨rfl, rfl⟩⟩
  · exact ⟨_, List.mem_append_right _ (List.mem_singleton_self _), rfl, rfl⟩

/-! ## ROW_READ -/

section RowRead

variable {s : State} {table : Fin 4096} {row : BitVec 40} {target : Word32} {t : TDesc} (hstop : s.mod.dev.stopped = false)
  (htab : tdescAt s.mod table = some t) (hheld : rowHeld s.mod t row.toNat = false)
include hstop htab hheld

/-- A row outside EXTENT answers a zero slice with BAD_INDEX. -/
theorem rowRead_outside_extent (whole training : Bool) (hext : (t.verAt target).extent ≤ row.toNat) :
    exec (.rowRead table row target whole training) s =
      .next (s.withDev (s.mod.dev.answers gstBadIndex (zeros (64 * if whole then t.granRec else t.granG)))) := by
  have hexec : exec (.rowRead table row target whole training) s = execRowRead table row target whole training s := rfl
  rw [hexec, execRowRead, onPlane_eq _ _ hstop]
  simp only [htab, hheld, Bool.false_eq_true, if_false, if_pos hext]
  rfl

/-- A cold row answers a zero slice with COLD, and its promotion to warm tier is queued. -/
theorem rowRead_of_cold (whole : Bool) (hext : row.toNat < (t.verAt target).extent)
    (hcold : (rowEnt s.mod (t.verAt target).rowmap row.toNat).tier = .cold) :
    exec (.rowRead table row target whole false) s =
      .next (s.withDev ((s.mod.dev.queuePromote table row.toNat .warm false).answers gstCold
        (zeros (64 * if whole then t.granRec else t.granG)))) := by
  have hexec : exec (.rowRead table row target whole false) s = execRowRead table row target whole false s := rfl
  rw [hexec, execRowRead, onPlane_eq _ _ hstop]
  simp only [htab, hheld, Bool.false_eq_true, if_false, if_neg (Nat.not_le.2 hext), hcold, false_and, if_true]
  rfl

/-- Any other row answers the record of the target; a whole record is verified first. -/
theorem rowRead_of_record {whole : Bool} {m1 : Mod} (hext : row.toNat < (t.verAt target).extent)
    (hcold : (rowEnt s.mod (t.verAt target).rowmap row.toNat).tier ≠ .cold) (hpart : whole = false → m1 = s.mod)
    (hwhole : whole = true → verifyHome s.mod t (t.verAt target) row.toNat = some m1) :
    let n := if whole then t.granRec else t.granG
    let x := readRow m1 t (t.verAt target) row.toNat target n
    exec (.rowRead table row target whole false) s =
      .next { s with mod := m1.onDev fun d => (d.noteRead table row.toNat target x).answers x.gst (sliceOf (64 * n) x) } := by
  have hexec : exec (.rowRead table row target whole false) s = execRowRead table row target whole false s := rfl
  rw [hexec, execRowRead, onPlane_eq _ _ hstop]
  simp only [htab, hheld, Bool.false_eq_true, if_false, if_neg (Nat.not_le.2 hext), hcold, false_and]
  cases whole with
  | false =>
    rw [hpart rfl]
    rfl
  | true =>
    simp only [if_true, hwhole rfl]
    rfl

end RowRead

/-! ## What frees a version: memory and tiers only -/

/-- `m'` is `m` but for device memory and the tiers. -/
def Mod.storageOnly (m m' : Mod) : Prop := ∃ mem tier, m' = ⟨mem, { m.dev with tier := tier }⟩

section StorageOnly

variable {m m' : Mod}

theorem Mod.storageOnly_refl (m : Mod) : m.storageOnly m := ⟨_, _, rfl⟩

theorem Mod.storageOnly.trans {m'' : Mod} (h : m.storageOnly m') (g : m'.storageOnly m'') : m.storageOnly m'' := by
  obtain ⟨mem, tier, rfl⟩ := h
  obtain ⟨mem', tier', rfl⟩ := g
  exact ⟨_, _, rfl⟩

theorem Mod.storageOnly_onTier (m : Mod) (f : TierState → TierState) : m.storageOnly (m.onDev fun d => d.onTier f) := ⟨_, _, rfl⟩

theorem storageOnly_freePages (m : Mod) (da bytes : Nat) : m.storageOnly (freePages m da bytes) := ⟨_, _, rfl⟩

theorem Mod.storageOnly_store (m : Mod) (da : Nat) (bs : List Byte) : m.storageOnly (m.store da bs) := by
  unfold Mod.store
  split
  · exact ⟨_, _, rfl⟩
  · exact ⟨_, _, rfl⟩

theorem storageOnly_freeSlot (m : Mod) (loc : Nat) : m.storageOnly (freeSlot m loc) := by
  unfold freeSlot
  split
  · exact m.storageOnly_refl
  · dsimp only [Mod.onDev]
    split
    · exact ⟨_, _, rfl⟩
    · exact ⟨_, _, rfl⟩

theorem storageOnly_freeSlots (locs : List Nat) (m : Mod) : m.storageOnly (locs.foldl freeSlot m) := by
  induction locs generalizing m with
  | nil => exact m.storageOnly_refl
  | cons loc locs ih => exact (storageOnly_freeSlot m loc).trans (ih _)

theorem storageOnly_dropVersion (m : Mod) (table version rowmap bytes : Nat) :
    m.storageOnly (dropVersion m table version rowmap bytes) := by
  unfold dropVersion
  exact ((storageOnly_freeSlots _ m).trans (Mod.storageOnly_onTier ..)).trans (storageOnly_freePages ..)

/-- A command that changes only these. -/
theorem State.changesOnly_of_storageOnly {s : State} (h : s.mod.storageOnly m') : s.changesOnly { s with mod := m' } [.mem, .tier] := by
  obtain ⟨mem, tier, rfl⟩ := h
  refine ⟨rfl, rfl, fun p hp => ?_⟩
  cases p with
  | mem | tier => simp at hp
  | events => exact ⟨rfl, rfl, rfl, rfl⟩
  | _ => rfl

end StorageOnly

/-! ## VERSION_FREE -/

/-- A previous version that nothing needs goes. -/
theorem versionFree_of_unneeded {s : State} {table : Fin 4096} {t : TDesc} (hstop : s.mod.dev.stopped = false)
    (htab : tdescAt s.mod table = some t) (hprev : t.prevValid = true) (hpin : t.pinPrev = 0)
    (hpins : (s.mod.dev.tab.pins.any fun p => p.table = table && p.version = t.prevVersion) = false)
    (hclear : stepNewer (BitVec.ofNat 32 t.switchStep) s.mod.dev.base.cleared = false) (hwarm : noWarmLeft s.mod.dev t = true) :
    exec (.versionFree table) s = s.leaves ((dropVersion s.mod table t.prevVersion t.prevRowmap (t.mapBytes t.prevExtent)).putTd
      table { t with prevValid := false }) := by
  have hexec : exec (.versionFree table) s = execVersionFree table s := rfl
  rw [hexec, execVersionFree, onPlane_eq _ _ hstop]
  simp only [htab, hprev, hpin, hpins, hclear, hwarm, ne_eq, not_true_eq_false, Bool.false_eq_true, Bool.not_true, or_self, if_false]

/-- Settles O12: by one rule for each answer of ROW_READ, and one for VERSION_FREE. -/
theorem rowReadsAnswer : Obligations.RowReadsAnswer := by
  unfold Obligations.RowReadsAnswer
  intro s table row target t hstop htab hheld v m
  have hsame := s.changesOnly_refl
  refine ⟨fun whole training hext => ?outside, fun whole hext hcold => ?cold, fun whole m1 hext hcold hpart hwhole => ?record,
    fun hprev hpin hpins hclear hwarm => ?free⟩
  case outside =>
    exact ⟨_, rowRead_outside_extent hstop htab hheld whole training hext, (hsame _).onTab (by decide) _, rfl⟩
  case cold =>
    exact ⟨_, rowRead_of_cold hstop htab hheld whole hext hcold, ((hsame _).onTier (by decide) _).onTab (by decide) _, rfl,
      mem_queuePromote m.dev table row.toNat .warm false⟩
  case record =>
    exact ⟨_, rowRead_of_record hstop htab hheld hext hcold hpart hwhole, rfl, rfl, rfl, rfl⟩
  case free =>
    refine ⟨_, versionFree_of_unneeded hstop htab hprev hpin hpins hclear hwarm, State.changesOnly_of_storageOnly ?_, rfl⟩
    exact (storageOnly_dropVersion ..).trans (Mod.storageOnly_store ..)

end Sys2Proof.Machine
end

section
/-!
PROOF. GATHER, SOW, and the run-ahead of rows and streams (R86 to R90, R215, R228 to R233, R323).
-/

namespace Sys2Proof.Machine

/-! ## Run-ahead data that demand uses -/

/-- A plot whose run-ahead data is used keeps everything else. -/
theorem plot_useAhead (d : Dev) (i fid late : Nat) (keys : List Nat) :
    ∃ l, (useAhead d i fid late keys).plot i = { d.plot i with ahead := l } := by
  simp only [useAhead]
  split
  · exact ⟨_, rfl⟩
  · split <;> simp only [Dev.plot_count, Dev.plot_modPlot_self] <;> exact ⟨_, rfl⟩

/-! ## Pins (R225) -/

@[simp] theorem plot_putPins (m : Mod) (table j : Nat) : (m.putPins table).dev.plot j = m.dev.plot j := by
  unfold Mod.putPins
  split
  · rfl
  · exact plot_store ..

@[simp] theorem plot_pin (m : Mod) (holder table version j : Nat) : (m.pin holder table version).dev.plot j = m.dev.plot j := by
  unfold Mod.pin
  dsimp only
  split
  · rfl
  · exact plot_putPins ..

/-! ## GATHER -/

/-- The keys of the index words of an execution of a GATHER. -/
def gatherKeys (e : Exec) : List Nat := (List.range (ctrlBits e.record 15 0 + 1)).map fun j => 65536 * e.index + j

theorem code_lt_of_ofCode {n : Nat} {op : Opc} (h : Opc.ofCode n = some op) : n < 15 := by
  revert h
  fun_cases Opc.ofCode n <;> simp

/-- An opcode has one code. -/
theorem ofCode_inj {a b : Nat} {op : Opc} (ha : Opc.ofCode a = some op) (hb : Opc.ofCode b = some op) : a = b := by
  have hinj : ∀ x y : Fin 15, Opc.ofCode x = Opc.ofCode y → x = y := by decide
  exact congrArg Fin.val (hinj ⟨a, code_lt_of_ofCode ha⟩ ⟨b, code_lt_of_ofCode hb⟩ (ha.trans hb.symm))

section Heads

variable {s : State} {plot : Fin 4352} {e : Exec}

/-- A GATHER that runs has its execution ended and its run-ahead data used, in a module where the step may have pinned the table's
version, which no plot sees. -/
theorem gather_of_ok (obs : Obs) {fails : List (Nat × Bool)} {r : Ran} {m1 : Mod} (hhead : s.atHead plot .dma .gather e)
    (hrun : runGather s.mod plot e fails = .ok (some r, m1)) :
    ∃ m2 : Mod, (∀ j, m2.dev.plot j = r.m.dev.plot j) ∧
      exec (.gather plot obs fails) s = s.leaves (m2.onDev fun d =>
        noteImage (finishExec (useAhead (countCe d plot obs.ce) plot e.fid obs.late (gatherKeys e)) plot .dma e r.stats r.cnt)
          plot e r.image) := by
  obtain ⟨hstop, hfirst, hop⟩ := hhead
  have hdma : (s.mod.dev.plot plot).dmaQ.head? = some e := hfirst
  have hcode : recOpc e.record = 2 := ofCode_inj hop rfl
  have hexec : exec (.gather plot obs fails) s = execGather plot obs fails s := rfl
  rw [hexec, execGather, onPlane_eq _ _ hstop]
  simp only [hdma, hcode, ne_eq, not_true_eq_false, if_false, hrun]
  refine ⟨_, fun j => ?_, rfl⟩
  split
  · split
    · rfl
    · exact plot_pin ..
  · rfl

/-- A SOW that runs has its execution ended. -/
theorem sow_of_ok {obs : Obs} {m1 : Mod} (hhead : s.atHead plot .dma .sow e) (hce : obs.ce = 0)
    (hrun : runSow s.mod plot e = .ok m1) :
    exec (.sow plot obs) s = s.leaves (m1.onDev fun d => finishExec d plot .dma e [0, 0, 0, 0, 0, 0] .none) := by
  obtain ⟨hstop, hfirst, hop⟩ := hhead
  have hdma : (s.mod.dev.plot plot).dmaQ.head? = some e := hfirst
  have hcode : recOpc e.record = 11 := ofCode_inj hop rfl
  have hexec : exec (.sow plot obs) s = execSow plot obs s := rfl
  rw [hexec, execSow, onPlane_eq _ _ hstop]
  simp only [hdma, hcode, ne_eq, not_true_eq_false, if_false, hce, if_true, hrun]

end Heads

@[simp] theorem sow_dropGot (d : Dev) (mine : Who → Bool) : (d.dropGot mine).sow = d.sow := by
  unfold Dev.dropGot
  split <;> rfl

/-- The end of an execution leaves the gradient stages. -/
@[simp] theorem sow_finishExec (d : Dev) (i : Nat) (u : UnitK) (e : Exec) (stats : List Nat) (c : ConvCount) :
    (finishExec d i u e stats c).sow = d.sow := by
  simp only [finishExec]
  split <;> split <;> simp only [Dev.count_sow, sow_dropGot, Dev.modPlot_sow]

/-! ## Run-ahead (R86 to R90) -/

/-- A run-ahead fetch under a key is dropped where it is barred and issued where it is not, and counted as such. -/
def Dev.runAhead (d : Dev) (plot fid key : Nat) (barred : Bool) : Dev :=
  (d.noteAhead plot fid key barred).count (if barred then cPfDropBound else cPfIssued) plot 1

section RunAhead

variable (d : Dev) (i fid key : Nat) (barred : Bool)

theorem Dev.onlyPlot_runAhead : d.onlyPlot (d.runAhead i fid key barred) i := ((d.onlyPlot_refl i).modPlot _).count ..

theorem ahead_runAhead : ((d.runAhead i fid key barred).plot i).ahead = (d.plot i).ahead ++ [⟨fid, key, barred⟩] :=
  congrArg Plot.ahead (d.plot_modPlot_self i fun p => { p with ahead := p.ahead ++ [⟨fid, key, barred⟩] })

/-- Which of the two counters counts one more. -/
theorem cnt_runAhead :
    (barred = true → kget 0 (d.runAhead i fid key barred).base.cnt (8192 * cPfDropBound + i) =
      kget 0 d.base.cnt (8192 * cPfDropBound + i) + 1) ∧
    (barred = false → kget 0 (d.runAhead i fid key barred).base.cnt (8192 * cPfIssued + i) =
      kget 0 d.base.cnt (8192 * cPfIssued + i) + 1) := by
  refine ⟨?_, ?_⟩ <;> rintro rfl <;> exact Dev.count_cnt ..

end RunAhead

section RunsAhead

variable {s : State} {plot : Fin 4352} {e : Exec} (hstop : s.mod.dev.stopped = false)
  (hfirst : (s.mod.dev.plot plot).dmaQ.head? = some e)
include hstop hfirst

/-- The DMA runs ahead for the next execution of a MOVE from DA. -/
theorem streamRunAhead_of_next {da : Nat} (hop : recOpc e.record = 1) (hspace : (recOpd e.record 0).space = spDa)
    (hnext : streamNext (s.mod.dev.plot plot) e = some da) :
    exec (.streamRunAhead plot) s =
      .next (s.withDev (s.mod.dev.runAhead plot e.fid da (streamBarred s.mod.dev da (moveBytes e)))) := by
  have hexec : exec (.streamRunAhead plot) s = execStreamRunAhead plot s := rfl
  rw [hexec, execStreamRunAhead, onPlaneDev_eq _ _ hstop]
  simp only [hfirst, hop, hspace, ne_eq, not_true_eq_false, or_self, if_false, hnext]
  cases streamBarred s.mod.dev da (moveBytes e) <;> rfl

/-- It runs ahead for the next index word of a GATHER, whose row is not in cold tier. -/
theorem gatherRunAhead_of_next {key w : Nat} {t : TDesc} (hnext : aheadNext s.mod plot e = some (key, w, t))
    (hcold : (aheadRow s.mod e t (bitsOf w 39 0)).tier ≠ .cold) :
    exec (.gatherRunAhead plot) s = .next (s.withDev (s.mod.dev.runAhead plot e.fid key (aheadBarred s.mod e t w))) := by
  have hexec : exec (.gatherRunAhead plot) s = execGatherRunAhead plot s := rfl
  rw [hexec, execGatherRunAhead, onPlane_eq _ _ hstop]
  simp only [hfirst, hnext, hcold, if_false]
  cases aheadBarred s.mod e t w <;> rfl

end RunsAhead

/-- Settles O7: an execution that runs ends on what it leaves, and a run-ahead fetch is noted and counted by whether it is barred. -/
theorem gatherSowAndRunAhead : Obligations.GatherSowAndRunAhead := by
  unfold Obligations.GatherSowAndRunAhead
  constructor
  · intro s plot obs fails e
    refine ⟨fun r m1 hhead hrun => ?gather, fun m1 hhead hce hrun => ?sow⟩
    case gather =>
      obtain ⟨m2, hkeeps, hexec⟩ := gather_of_ok obs hhead hrun
      obtain ⟨ahead, hplot⟩ := plot_useAhead (countCe m2.dev plot obs.ce) plot e.fid obs.late (gatherKeys e)
      rw [plot_countCe, hkeeps] at hplot
      refine ⟨_, hexec, ?_, ?_⟩ <;> rw [Mod.onDev_dev, plot_noteImage]
      · exact (unitQ_finishExec _ _ .dma _ _ _ (by decide)).trans (by rw [hplot]; rfl)
      · rw [(registers_finishExec ..).1, hplot]
    case sow =>
      exact ⟨_, sow_of_ok hhead hce hrun, rfl, sow_finishExec .., unitQ_finishExec _ _ .dma _ _ _ (by decide)⟩
  · intro s plot e hstop hfirst d cnt
    refine ⟨fun da hop hspace hnext => ?stream, fun key w t hnext hcold => ?row⟩
    case stream =>
      exact ⟨_, streamRunAhead_of_next hstop hfirst hop hspace hnext, State.onlyPlot_withDev (d.onlyPlot_runAhead ..),
        ahead_runAhead .., cnt_runAhead d plot e.fid da _⟩
    case row =>
      exact ⟨_, gatherRunAhead_of_next hstop hfirst hnext hcold, State.onlyPlot_withDev (d.onlyPlot_runAhead ..),
        ahead_runAhead .., cnt_runAhead d plot e.fid key _⟩

end Sys2Proof.Machine
end

section
/-!
PROOF. Units of memory (R262 to R277): one pseudo-channel or channel changed, and what their corrections and errors leave.
-/

namespace Sys2Proof.Machine

/-! ## One unit changed -/

section Units

variable (d : Dev) (stack pc ch : Nat) (f : Hpc → Hpc) (g : Ddr → Ddr)

@[simp] theorem hpcOf_modHpc_self : hpcOf (d.modHpc stack pc f).tier stack pc = f (hpcOf d.tier stack pc) := kget_kmod_self ..

theorem hpcOf_modHpc_ne {st p : Nat} (h : 64 * st + p ≠ 64 * stack + pc) :
    hpcOf (d.modHpc stack pc f).tier st p = hpcOf d.tier st p := kget_kmod_ne _ _ _ h.symm

@[simp] theorem ddrOf_modDdr_self : ddrOf (d.modDdr ch g).tier ch = g (ddrOf d.tier ch) := kget_kmod_self ..

theorem ddrOf_modDdr_ne {c : Nat} (h : c ≠ ch) : ddrOf (d.modDdr ch g).tier c = ddrOf d.tier c := kget_kmod_ne _ _ _ h.symm

end Units

/-- What a counter leaves in the shared state depends on nothing else. -/
theorem Dev.count_base (d : Dev) (c i n : Nat) : (d.count c i n).base = d.base.count c i n := rfl

theorem Dev.raise_base (d : Dev) (ev : Nat × Nat) (a : Args) (die unit : Nat) :
    (d.raise ev a die unit).base = d.base.raise ev die unit a.words := rfl

/-! ## A correction (R263, R266, R267, R275) -/

/-- A pseudo-channel after a correction of a DRAM row. -/
def Hpc.corrected (hour period row : Nat) (c : Hpc) : Hpc :=
  { c with
    ce := (if c.hour = hour then c.ce else 0) + 1
    hour := hour
    rowCe := kmod 0 (if c.period = period then c.rowCe else []) row (· + 1)
    period := period }

/-- A channel after a correction of a DRAM row. -/
def Ddr.corrected (hour period row : Nat) (c : Ddr) : Ddr :=
  { c with
    ce := (if c.hour = hour then c.ce else 0) + 1
    hour := hour
    rowCe := kmod 0 (if c.period = period then c.rowCe else []) row (· + 1)
    period := period }

theorem Hpc.ce_corrected {c : Hpc} {hour : Nat} (h : c.hour = hour) (period row : Nat) :
    (c.corrected hour period row).ce = c.ce + 1 := by
  rw [Hpc.corrected, if_pos h]

theorem Hpc.rowCe_corrected {c : Hpc} {period : Nat} (h : c.period = period) (hour row : Nat) :
    kget 0 (c.corrected hour period row).rowCe row = kget 0 c.rowCe row + 1 := by
  rw [Hpc.corrected, if_pos h, kget_kmod_self]

theorem Ddr.ce_corrected {c : Ddr} {hour : Nat} (h : c.hour = hour) (period row : Nat) :
    (c.corrected hour period row).ce = c.ce + 1 := by
  rw [Ddr.corrected, if_pos h]

theorem Ddr.rowCe_corrected {c : Ddr} {period : Nat} (h : c.period = period) (hour row : Nat) :
    kget 0 (c.corrected hour period row).rowCe row = kget 0 c.rowCe row + 1 := by
  rw [Ddr.corrected, if_pos h, kget_kmod_self]

/-! ## An uncorrectable error (R264, R275) -/

section MemoryUe

variable {m : Mod} {da : Nat}

/-- The slot whose record covers a DA: what an uncorrectable error there looks for. -/
abbrev recordOver (t : TierState) (da : Nat) : Option (Nat × Slot) :=
  t.slots.find? fun s => s.1 ≤ da / 64 ∧ da / 64 < s.1 + s.2.gran

/-- A home record that lies there is restored. -/
theorem memoryUe_of_record {k : Nat} {sl : Slot} (hrec : recordOver m.dev.tier da = some (k, sl)) (hcopy : sl.copy = false)
    (who : Option (Fin 4352 × UnitSel)) :
    memoryUe m da who = restoreAll (m.onDev fun d => d.count cTierError (spineOf sl.table sl.row) 1) [sl] := by
  simp only [memoryUe, hrec, hcopy, Bool.false_eq_true, if_false]

/-- Where no record lies, the execution of the DMA that met it faults. -/
theorem memoryUe_of_dma {p : Fin 4352} {e : Exec} {q : List Exec} (hrec : recordOver m.dev.tier da = none)
    (hhead : (m.dev.plot p).dmaQ = e :: q) :
    memoryUe m da (some (p, .dma)) = m.onDev fun d => faultExec d p .dma e (.tierError da) := by
  have hfirst : (unitQ (m.dev.plot p) .dma).head? = some e := congrArg List.head? hhead
  simp only [memoryUe, hrec, hfirst]

end MemoryUe

/-! ## The commands -/

section Errors

variable {s : State} (hstop : s.mod.dev.stopped = false)
include hstop

theorem hbmCorrection_next (stack : Fin 12) (pc : Fin 64) (row : Nat) :
    exec (.hbmCorrection stack pc row) s = .next (s.withDev ((s.mod.dev.count cHbmCe (stack / 3) 1).modHpc stack pc
      (Hpc.corrected (hourOf s.mod.dev.base) (periodOf s.mod.dev.base) row))) :=
  have hexec : exec (.hbmCorrection stack pc row) s = execHbmCorrection stack pc row s := rfl
  hexec.trans (onPlaneDev_eq _ _ hstop)

theorem ddrCorrection_next (ch : Fin 16) (row : Nat) :
    exec (.ddrCorrection ch row) s = .next (s.withDev ((s.mod.dev.count cDdrCe (ch / 4) 1).modDdr ch
      (Ddr.corrected (hourOf s.mod.dev.base) (periodOf s.mod.dev.base) row))) :=
  have hexec : exec (.ddrCorrection ch row) s = execDdrCorrection ch row s := rfl
  hexec.trans (onPlaneDev_eq _ _ hstop)

/-- An uncorrectable error of HBM counts and raises its event before what it met is seen to. -/
theorem hbmUe_of_hot {da : BitVec 56} {die off : Nat} (hplace : daPlace da.toNat = .hot die off) (who : Option (Fin 4352 × UnitSel)) :
    exec (.hbmUe da who) s = s.leaves (memoryUe (s.mod.onDev fun d =>
      (d.count cHbmUe die 1).raise evHbmUe { d := da.toNat } die) da.toNat who) := by
  have hexec : exec (.hbmUe da who) s = execHbmUe da who s := rfl
  rw [hexec, execHbmUe, onPlane_eq _ _ hstop]
  simp only [hplace]

/-- The same for DDR5. -/
theorem ddrUe_of_warm {da : BitVec 56} {q off : Nat} (hplace : daPlace da.toNat = .warm q off) (who : Option (Fin 4352 × UnitSel)) :
    exec (.ddrUe da who) s = s.leaves (memoryUe (s.mod.onDev fun d =>
      (d.count cDdrUe q 1).raise evDdrUe { d := da.toNat } q) da.toNat who) := by
  have hexec : exec (.ddrUe da who) s = execDdrUe da who s := rfl
  rw [hexec, execDdrUe, onPlane_eq _ _ hstop]
  simp only [hplace]

/-- A scrub of hot tier that finds corrections and no record. -/
theorem patrolScrub_of_no_record {ce : Nat} (hce : 0 < ce) (hrec : kfind s.mod.dev.tier.slots (s.mod.dev.tier.scrubHot / 64) = none) :
    exec (.patrolScrub false ce) s = .next (s.withDev ((s.mod.dev.onTier fun t =>
      { t with scrubHot := scrubNext s.mod.dev false s.mod.dev.tier.scrubHot }).count cHbmCe
        (locUnit (s.mod.dev.tier.scrubHot / 64)) ce)) := by
  have hexec : exec (.patrolScrub false ce) s = execPatrolScrub false ce s := rfl
  rw [hexec, execPatrolScrub, onPlane_eq _ _ hstop]
  simp only [Bool.false_eq_true, if_false, if_neg hce.ne', Mod.onDev_dev, Dev.count_tier, Dev.onTier_tier, hrec]
  rfl

end Errors

/-- Settles O14: by one rule for each command, and one for what an uncorrectable error meets. -/
theorem memoryErrorsCount : Obligations.MemoryErrorsCount := by
  unfold Obligations.MemoryErrorsCount
  intro s hstop d
  have hsame : s.changesOnly (s.withDev d) [.tier, .events] := s.changesOnly_refl _
  refine ⟨fun stack pc row hhour hperiod => ?hbm, fun ch row hhour hperiod => ?ddr,
    fun da p die off e q hplace hrec hhead => ?fault, fun da q off k sl hplace hcopy hrec => ?restore,
    fun ce hce hrec => ?scrub⟩
  case hbm =>
    refine ⟨_, hbmCorrection_next hstop stack pc row, (hsame.count (by decide) ..).onTier (by decide) _, rfl, ?_, ?_,
      fun st p hne => hpcOf_modHpc_ne _ _ _ _ hne⟩ <;> rw [hpcOf_modHpc_self]
    · exact Hpc.ce_corrected hhour ..
    · exact Hpc.rowCe_corrected hperiod ..
  case ddr =>
    refine ⟨_, ddrCorrection_next hstop ch row, (hsame.count (by decide) ..).onTier (by decide) _, rfl, ?_, ?_,
      fun c hne => ddrOf_modDdr_ne _ _ _ hne⟩ <;> rw [ddrOf_modDdr_self]
    · exact Ddr.ce_corrected hhour ..
    · exact Ddr.rowCe_corrected hperiod ..
  case fault =>
    refine ⟨_, hbmUe_of_hot hstop hplace _, ?_, ?_⟩ <;> rw [memoryUe_of_dma (by exact hrec) (by exact hhead)] <;> rfl
  case restore =>
    exact ⟨_, ddrUe_of_warm hstop hplace none, memoryUe_of_record (by exact hrec) hcopy none⟩
  case scrub =>
    refine ⟨_, patrolScrub_of_no_record hstop hce hrec, (hsame.onTier (by decide) _).count (by decide) .., ?_, ?_⟩
    · rw [Dev.count_tier, Dev.onTier_tier]
    · rw [Dev.count_base, Dev.onTier_base, Dev.count_base]

end Sys2Proof.Machine
end

section
/-!
PROOF. The channel maps of the stacks, and what a re-form leaves of them (R262, R267, R269).
-/

namespace Sys2Proof.Machine

/-- Reading a map where an entry has just been listed. -/
theorem kget_kput_self {α : Type} (d : α) (m : KMap α) (k : Nat) (v : α) : kget d (kput m k v) k = v := by
  rw [kget, kfind_kput, if_pos rfl, Option.getD_some]

/-! ## The values of one stack's map -/

/-- The entries that a list gives a stack's map from logical index `n` on: none where the index is its own. -/
def putIndices (stack n : Nat) (base : KMap Nat) (l : List Nat) : KMap Nat :=
  (l.zipIdx n).foldl (fun m x => if x.1 = x.2 then m else kput m (64 * stack + x.2) x.1) base

theorem setStackMap_eq (t : TierState) (stack : Nat) (l : List Nat) : setStackMap t stack l =
    { t with chanMap := putIndices stack 0 (t.chanMap.filter fun e => e.1 / 64 ≠ stack) l } := rfl

theorem putIndices_cons (stack n : Nat) (base : KMap Nat) (x : Nat) (l : List Nat) : putIndices stack n base (x :: l) =
    putIndices stack (n + 1) (if x = n then base else kput base (64 * stack + n) x) l := rfl

/-- An entry that is not of these indices stays. -/
theorem kfind_putIndices_of_outside {stack k : Nat} {l : List Nat} (n : Nat) (base : KMap Nat)
    (h : ∀ i < l.length, k ≠ 64 * stack + (n + i)) : kfind (putIndices stack n base l) k = kfind base k := by
  induction l generalizing n base with
  | nil => rfl
  | cons x l ih =>
    have hrest : ∀ i < l.length, k ≠ 64 * stack + (n + 1 + i) := fun i hi => by
      have := h (i + 1) (by simpa using hi)
      omega
    have hfirst : 64 * stack + n ≠ k := (h 0 (by simp)).symm
    rw [putIndices_cons, ih _ _ hrest]
    split
    · rfl
    · rw [kfind_kput, if_neg hfirst]

/-- An index of the list has its value, where the map had none before. -/
theorem kfind_putIndices {stack i : Nat} {l : List Nat} (n : Nat) (base : KMap Nat) (hi : i < l.length)
    (hbase : kfind base (64 * stack + (n + i)) = none) :
    (kfind (putIndices stack n base l) (64 * stack + (n + i))).getD (n + i) = l[i] := by
  induction l generalizing n i base with
  | nil => exact absurd hi (Nat.not_lt_zero i)
  | cons x l ih =>
    rw [putIndices_cons]
    cases i with
    | zero =>
      rw [kfind_putIndices_of_outside _ _ fun j _ => by omega]
      split
      · next hown => rw [hbase]; exact hown.symm
      · rw [Nat.add_zero, kfind_kput, if_pos rfl]
        rfl
    | succ i =>
      have hstep : kfind (if x = n then base else kput base (64 * stack + n) x) (64 * stack + (n + 1 + i)) = none := by
        rw [Nat.add_right_comm n 1 i, Nat.add_assoc n i 1]
        split
        · exact hbase
        · rw [kfind_kput, if_neg (by omega), hbase]
      have := ih (n + 1) _ (Nat.lt_of_succ_lt_succ hi) hstep
      rwa [Nat.add_right_comm n 1 i, Nat.add_assoc n i 1] at this

/-! ## A stack that is given its map -/

theorem dieP_le (t : TierState) (die : Nat) : t.dieP die ≤ 186 := Nat.sub_le ..

theorem stackP_le (t : TierState) (stack : Nat) : stackP t stack ≤ 62 := by
  have := dieP_le t (stack / 3)
  unfold stackP
  omega

@[simp] theorem length_stackMap (t : TierState) (stack : Nat) : (stackMap t stack).length = stackP t stack := by
  rw [stackMap, List.length_map, List.length_range]

@[simp] theorem stackP_setStackMap (t : TierState) (stack : Nat) (l : List Nat) (st : Nat) :
    stackP (setStackMap t stack l) st = stackP t st := rfl

/-- It has the values given. -/
theorem stackMap_setStackMap {t : TierState} {stack : Nat} {l : List Nat} (hlen : l.length = stackP t stack) :
    stackMap (setStackMap t stack l) stack = l := by
  refine List.ext_getElem (by rw [length_stackMap, stackP_setStackMap, hlen]) fun i _ hi => ?_
  have hlt : i < 62 := by have := stackP_le t stack; omega
  have hfree : kfind (t.chanMap.filter fun e => e.1 / 64 ≠ stack) (64 * stack + (0 + i)) = none := by
    have hkey : (64 * stack + (0 + i)) / 64 = stack := by omega
    rw [kfind_filter (fun j => decide (j / 64 ≠ stack)), hkey]
    simp
  have := kfind_putIndices 0 _ hi hfree
  rw [Nat.zero_add] at this
  simpa only [stackMap, List.getElem_map, List.getElem_range, setStackMap_eq] using this

/-- The map of another stack is as it was. -/
theorem stackMap_setStackMap_ne {t : TierState} {stack st : Nat} {l : List Nat} (hne : st ≠ stack) (hlen : l.length ≤ 64) :
    stackMap (setStackMap t stack l) st = stackMap t st := by
  refine List.map_congr_left fun i hi => ?_
  have hlt : i < 62 := by
    have hp : i < stackP t st := List.mem_range.1 hi
    have := stackP_le t st
    omega
  have hkey : (64 * st + i) / 64 = st := by omega
  rw [setStackMap_eq, kfind_putIndices_of_outside _ _ fun j hj => by omega,
    kfind_filter (fun j => decide (j / 64 ≠ stack)), hkey, if_pos (by simpa using hne)]

/-! ## Several stacks that are given their maps -/

/-- Give each stack of a list its map. -/
def setStackMaps (t : TierState) (maps : List (Nat × List Nat)) : TierState := maps.foldl (fun t x => setStackMap t x.1 x.2) t

theorem setStackMaps_fields (t : TierState) (maps : List (Nat × List Nat)) :
    ∃ chanMap, setStackMaps t maps = { t with chanMap := chanMap } := by
  induction maps generalizing t with
  | nil => exact ⟨_, rfl⟩
  | cons x maps ih =>
    obtain ⟨chanMap, h⟩ := ih (setStackMap t x.1 x.2)
    exact ⟨chanMap, h⟩

theorem stackMap_setStackMaps_of_not_mem {t : TierState} {maps : List (Nat × List Nat)} {st : Nat}
    (hnot : ∀ x ∈ maps, st ≠ x.1) (hlen : ∀ x ∈ maps, x.2.length ≤ 64) :
    stackMap (setStackMaps t maps) st = stackMap t st := by
  induction maps generalizing t with
  | nil => rfl
  | cons x maps ih =>
    rw [List.forall_mem_cons] at hnot hlen
    exact (ih hnot.2 hlen.2).trans (stackMap_setStackMap_ne hnot.1 hlen.1)

theorem stackMap_setStackMaps {t : TierState} {maps : List (Nat × List Nat)} {st : Nat} {l : List Nat}
    (honce : (maps.map (·.1)).Nodup) (hlen : ∀ x ∈ maps, x.2.length ≤ 64) (hmem : (st, l) ∈ maps) (hl : l.length = stackP t st) :
    stackMap (setStackMaps t maps) st = l := by
  induction maps generalizing t with
  | nil => exact absurd hmem List.not_mem_nil
  | cons x maps ih =>
    rw [List.forall_mem_cons] at hlen
    rw [List.map_cons, List.nodup_cons] at honce
    rcases List.mem_cons.1 hmem with rfl | hrest
    · have hnot : ∀ x ∈ maps, st ≠ x.1 := fun x hx heq => honce.1 (List.mem_map.2 ⟨x, hx, heq.symm⟩)
      exact (stackMap_setStackMaps_of_not_mem hnot hlen.2).trans (stackMap_setStackMap hl)
    · exact ih honce.2 hlen.2 hrest hl

/-! ## A die that is re-formed (R269) -/

/-- The maps of a die's stacks after its re-form. -/
def reformedMaps (t : TierState) (die stack pc : Nat) : List (Nat × List Nat) :=
  (List.range 3).map fun k =>
    (3 * die + k, if 3 * die + k = stack then (stackMap t (3 * die + k)).filter (· ≠ pc) else (stackMap t (3 * die + k)).dropLast)

theorem reformMaps_eq (t : TierState) (die stack pc : Nat) : reformMaps t die stack pc =
    setStackMaps { t with lostPc := kput t.lostPc die (kget 0 t.lostPc die + 3), reform := kdel t.reform die }
      (reformedMaps t die stack pc) := rfl

theorem reformMaps_fields (t : TierState) (die stack pc : Nat) : ∃ chanMap, reformMaps t die stack pc =
    { t with lostPc := kput t.lostPc die (kget 0 t.lostPc die + 3), reform := kdel t.reform die, chanMap := chanMap } := by
  rw [reformMaps_eq]
  exact setStackMaps_fields ..

/-- The die has three pseudo-channels fewer. -/
theorem dieP_reformMaps (t : TierState) (die stack pc : Nat) : (reformMaps t die stack pc).dieP die = t.dieP die - 3 := by
  obtain ⟨chanMap, h⟩ := reformMaps_fields t die stack pc
  rw [h]
  simp only [TierState.dieP, kget_kput_self]
  omega

/-- The retired pseudo-channel has left its stack's map. -/
theorem stackMap_reformMaps {t : TierState} {stack pc : Nat} (hmem : pc ∈ stackMap t stack) (hfit : 3 < t.dieP (stack / 3))
    (honce : (stackMap t stack).Nodup) :
    stackMap (reformMaps t (stack / 3) stack pc) stack = (stackMap t stack).filter (· ≠ pc) := by
  have hstack : 3 * (stack / 3) + stack % 3 = stack := Nat.div_add_mod stack 3
  rw [reformMaps_eq]
  refine stackMap_setStackMaps ?_ ?_ ?_ ?_
  · rw [reformedMaps, List.map_map]
    exact List.nodup_range.map fun a b h => Nat.add_left_cancel h
  · intro x hx
    obtain ⟨k, -, rfl⟩ := List.mem_map.1 hx
    have hle := stackP_le t (3 * (stack / 3) + k)
    have hlen := length_stackMap t (3 * (stack / 3) + k)
    dsimp only
    split
    · exact (List.length_filter_le ..).trans (by omega)
    · rw [List.length_dropLast]; omega
  · refine List.mem_map.2 ⟨stack % 3, List.mem_range.2 (Nat.mod_lt _ (by decide)), ?_⟩
    simp only [hstack, if_true]
  · have hlost : stackP { t with lostPc := kput t.lostPc (stack / 3) (kget 0 t.lostPc (stack / 3) + 3),
                                 reform := kdel t.reform (stack / 3) } stack = stackP t stack - 1 := by
      simp only [stackP, TierState.dieP, kget_kput_self] at hfit ⊢
      omega
    have hrest : (stackMap t stack).filter (· ≠ pc) = (stackMap t stack).erase pc :=
      (List.filter_congr fun x _ => (decide_not ..)).trans (honce.erase_eq_filter pc).symm
    rw [hlost, hrest, List.length_erase_of_mem hmem, length_stackMap]

end Sys2Proof.Machine
end

section
/-!
PROOF. Rows, pseudo-channels, stacks and channels that are repaired or leave service (R266 to R273, R276).
-/

namespace Sys2Proof.Machine

/-! ## Repair of rows and pseudo-channels (R266 to R268) -/

/-- A pseudo-channel one of whose DRAM rows has had its soft repair. -/
def Hpc.softRepaired (row : Nat) (c : Hpc) : Hpc := { c with soft := c.soft ++ [row], rowCe := kdel c.rowCe row }

/-- A pseudo-channel whose soft repairs have become hard ones, after its test. -/
def Hpc.hardRepaired (pass : Bool) (c : Hpc) : Hpc := { c with hard := c.hard ++ c.soft, soft := [], fallow := !pass }

/-- The corrections of a row that has been repaired count from zero. -/
theorem Hpc.rowCe_softRepaired (c : Hpc) (row : Nat) : kget 0 (c.softRepaired row).rowCe row = 0 := by
  rw [Hpc.softRepaired, kget, kfind_kdel, if_pos rfl]
  rfl

theorem stackMap_spareHpc (d : Dev) (stack pc sp : Nat) :
    stackMap (spareHpc d stack pc sp).tier stack = (stackMap d.tier stack).map fun x => if x = pc then sp else x :=
  stackMap_setStackMap ((List.length_map ..).trans (length_stackMap ..))

theorem fallow_spareHpc (d : Dev) (stack pc sp : Nat) : (hpcOf (spareHpc d stack pc sp).tier stack pc).fallow = true := by
  rw [spareHpc, Dev.raise_tier, hpcOf_modHpc_self]

theorem State.changesOnly.spareHpc {s : State} {d : Dev} {ps : List Part} (h : s.changesOnly (s.withDev d) ps) (htier : Part.tier ∈ ps)
    (hevents : Part.events ∈ ps) (stack pc sp : Nat) : s.changesOnly (s.withDev (spareHpc d stack pc sp)) ps :=
  ((h.onTier htier _).onTier htier _).raise hevents ..

/-- The re-form of a die is noted, with nothing rewritten yet (R269). -/
def Dev.beginReform (d : Dev) (die : Nat) : Dev :=
  d.onTier fun t => { t with reform := kput t.reform die ⟨t.dieP die, 0⟩ }

section PseudoChannels

variable {s : State} {stack : Fin 12} {pc : Fin 64} (hstop : s.mod.dev.stopped = false)
include hstop

theorem softPpr_of_row {row : Nat} (da : BitVec 56)
    (hce : cfgTierRasCfgRowce s.mod.dev.base ≤ kget 0 (hpcOf s.mod.dev.tier stack pc).rowCe row)
    (hnew : row ∉ (hpcOf s.mod.dev.tier stack pc).soft) :
    exec (.softPpr (.hbm stack pc) row da) s = .next (s.withDev ((s.mod.dev.modHpc stack pc (Hpc.softRepaired row)).raise
      evHbmSppr { d := da.toNat } (stack / 3))) := by
  have hexec : exec (.softPpr (.hbm stack pc) row da) s = execSoftPpr (.hbm stack pc) row da s := rfl
  rw [hexec, execSoftPpr, onPlaneDev_eq _ _ hstop]
  simp only [Nat.not_lt.2 hce, hnew, or_self, if_false]
  rfl

theorem hbmPcSpare_of_worn {sp : Nat} {ex : Bool} (hspare : stackSpare s.mod.dev.tier stack = some sp)
    (hused : pc.val ∈ stackMap s.mod.dev.tier stack) (hworn : hpcWorn s.mod.dev stack pc ex = true) :
    exec (.hbmPcSpare stack pc ex) s = .next (s.withDev (spareHpc s.mod.dev stack pc sp)) := by
  have hexec : exec (.hbmPcSpare stack pc ex) s = execHbmPcSpare stack pc ex s := rfl
  rw [hexec, execHbmPcSpare, onPlaneDev_eq _ _ hstop]
  simp only [hspare, List.contains_iff_mem.2 hused, hworn, Bool.and_self, if_true]

theorem hardPprTest_of_fallow (pass : Bool) (hfallow : (hpcOf s.mod.dev.tier stack pc).fallow = true) :
    exec (.hardPprTest stack pc pass) s = .next (s.withDev (s.mod.dev.modHpc stack pc (Hpc.hardRepaired pass))) := by
  have hexec : exec (.hardPprTest stack pc pass) s = execHardPprTest stack pc pass s := rfl
  rw [hexec, execHardPprTest, onPlaneDev_eq _ _ hstop]
  simp only [hfallow, Bool.not_true, Bool.false_eq_true, if_false]
  rfl

/-- With no spare left, the die's re-form begins. -/
theorem hbmDieReform_begins {ex : Bool} (n : Nat) (hnone : kfind s.mod.dev.tier.reform (stack / 3) = none)
    (hspare : stackSpare s.mod.dev.tier stack = none) (hused : pc.val ∈ stackMap s.mod.dev.tier stack)
    (hworn : hpcWorn s.mod.dev stack pc ex = true) (hfit : 3 < s.mod.dev.tier.dieP (stack / 3)) :
    exec (.hbmDieReform stack pc ex n) s = .next (s.withDev ((s.mod.dev.beginReform (stack / 3)).raise evHbmDieReform
      { n := (stack / 3 : Nat) } (stack / 3))) := by
  have hexec : exec (.hbmDieReform stack pc ex n) s = execHbmDieReform stack pc ex n s := rfl
  rw [hexec, execHbmDieReform, onPlane_eq _ _ hstop]
  simp only [hnone, hspare, List.contains_iff_mem.2 hused, hworn, Nat.not_le.2 hfit, Option.isSome_none, Bool.not_true,
    Bool.false_eq_true, or_self, if_false]
  rfl

end PseudoChannels

/-! ## A pseudo-channel that is lost (R270) -/

/-- The module once a pseudo-channel of a die is known to be lost, before its records are restored. -/
def Dev.losePc (d : Dev) (die pc : Nat) : Dev :=
  let d := d.raise evHbmPcLost { n := pc } die
  let d := match d.ms.cur with
    | some st => d.failStep st 6
    | none => d
  let d := d.modRegion die fun _ => Region.reset
  (d.onTier fun t => { t with
    softLost := if die ∈ t.softLost then t.softLost else t.softLost ++ [die]
    softNew := t.softNew.filter fun c => decide (daPlace c.1 ≠ .hot die (c.1 - hotBase die))
    moves := t.moves.filter fun x => !(x.target = .hot && x.unit = die) }).raise evHbmDieReform { n := die } die

/-- The die smaller by the lost pseudo-channel and one of each of its other stacks. -/
def Dev.reformed (d : Dev) (die size stack pc : Nat) : Dev :=
  ((d.onTier fun t => reformMaps (clearBand t die size) die stack pc).modHpc stack pc
    fun c => { c with fallow := true }).raise evHbmDieReform { n := die } die

/-- The tiers lose what the die's soft band and its moves held, and keep the rest. -/
theorem tier_losePc (d : Dev) (die pc : Nat) : (d.losePc die pc).tier = { d.tier with
    softLost := if die ∈ d.tier.softLost then d.tier.softLost else d.tier.softLost ++ [die]
    softNew := d.tier.softNew.filter fun c => decide (daPlace c.1 ≠ .hot die (c.1 - hotBase die))
    moves := d.tier.moves.filter fun x => !(x.target = .hot && x.unit = die) } := by
  unfold Dev.losePc
  dsimp only [Dev.raise_ms]
  cases d.ms.cur <;> rfl

theorem lostPc_losePc (d : Dev) (die pc : Nat) : (d.losePc die pc).tier.lostPc = d.tier.lostPc := by rw [tier_losePc]

theorem chanMap_losePc (d : Dev) (die pc : Nat) : (d.losePc die pc).tier.chanMap = d.tier.chanMap := by rw [tier_losePc]

theorem mem_softLost_losePc (d : Dev) (die pc : Nat) : die ∈ (d.losePc die pc).tier.softLost := by
  rw [tier_losePc]
  dsimp only
  split
  · assumption
  · exact List.mem_append_right _ (List.mem_singleton_self _)

/-- The running step has its cause. -/
theorem ms_losePc {d : Dev} {st : Word32} (h : d.ms.cur = some st) (die pc : Nat) : (d.losePc die pc).ms = (d.failStep st 6).ms := by
  unfold Dev.losePc
  simp only [Dev.raise_ms, h]
  rfl

/-- The tiers of a die that is re-formed, but for the lost pseudo-channel itself. -/
theorem tier_reformed (d : Dev) (die size stack pc : Nat) : ∃ hpc, (d.reformed die size stack pc).tier =
    { reformMaps (clearBand d.tier die size) die stack pc with hpc := hpc } := ⟨_, rfl⟩

theorem softLost_reformed (d : Dev) (die size stack pc : Nat) : (d.reformed die size stack pc).tier.softLost = d.tier.softLost := by
  obtain ⟨hpc, h⟩ := tier_reformed d die size stack pc
  obtain ⟨chanMap, hmaps⟩ := reformMaps_fields (clearBand d.tier die size) die stack pc
  rw [h, hmaps]
  rfl

theorem dieP_congr {t t' : TierState} (h : t.lostPc = t'.lostPc) (die : Nat) : t.dieP die = t'.dieP die := by
  rw [TierState.dieP, TierState.dieP, h]

theorem dieP_reformed (d : Dev) (die size stack pc : Nat) : (d.reformed die size stack pc).tier.dieP die = d.tier.dieP die - 3 := by
  obtain ⟨hpc, h⟩ := tier_reformed d die size stack pc
  have hmaps := dieP_reformMaps (clearBand d.tier die size) die stack pc
  rw [dieP_congr (t := clearBand d.tier die size) (t' := d.tier) rfl] at hmaps
  rw [h, ← hmaps]
  exact dieP_congr rfl die

/-- A stack's map is its entries and its die's size. -/
theorem stackMap_congr {t t' : TierState} (hsize : t.lostPc = t'.lostPc) (hmap : t.chanMap = t'.chanMap) (stack : Nat) :
    stackMap t stack = stackMap t' stack := by
  rw [stackMap, stackMap, stackP, stackP, dieP_congr hsize, hmap]

theorem stackMap_reformed {d : Dev} {stack pc : Nat} (size : Nat) (hmem : pc ∈ stackMap d.tier stack)
    (hfit : 3 < d.tier.dieP (stack / 3)) (honce : (stackMap d.tier stack).Nodup) :
    stackMap (d.reformed (stack / 3) size stack pc).tier stack = (stackMap d.tier stack).filter (· ≠ pc) := by
  obtain ⟨hpc, h⟩ := tier_reformed d (stack / 3) size stack pc
  have hband : stackMap (clearBand d.tier (stack / 3) size) stack = stackMap d.tier stack := stackMap_congr rfl rfl stack
  have hsize : (clearBand d.tier (stack / 3) size).dieP (stack / 3) = d.tier.dieP (stack / 3) := dieP_congr rfl _
  have hmaps := stackMap_reformMaps (t := clearBand d.tier (stack / 3) size) (by rwa [hband]) (by rwa [hsize]) (by rwa [hband])
  rw [h, ← hband, ← hmaps]
  exact stackMap_congr rfl rfl stack

theorem fallow_reformed (d : Dev) (die size stack pc : Nat) :
    (hpcOf (d.reformed die size stack pc).tier stack pc).fallow = true := by
  rw [Dev.reformed, Dev.raise_tier, hpcOf_modHpc_self]

/-- What sees to the records of a die's pool when its soft band is lost: a new place for those beyond the new size, then every record
restored. -/
def restorePool (m : Mod) (die size : Nat) : Mod :=
  let slots := ((slotsIn m.dev.tier die).filter fun s => !s.2.copy).map (·.2)
  let far := (slotsBeyond m.dev.tier die size).filter fun s => !s.copy
  restoreAll (far.foldl rehome (m.onDev fun d => d.beginReform die)) slots

/-- Where the pool holds no record, only the re-form is noted. -/
theorem restorePool_of_empty {m : Mod} {die : Nat} (hempty : slotsIn m.dev.tier die = []) (size : Nat) :
    restorePool m die size = m.onDev fun d => d.beginReform die := by
  simp only [restorePool, slotsBeyond, hempty]
  rfl

/-- A pseudo-channel in use of a die that can shrink. -/
theorem hbmPcLost_of_used {s : State} {stack : Fin 12} {pc : Fin 64} (hstop : s.mod.dev.stopped = false)
    (hused : pc.val ∈ stackMap s.mod.dev.tier stack) (hfit : 3 < s.mod.dev.tier.dieP (stack / 3)) :
    exec (.hbmPcLost stack pc) s = s.leaves ((restorePool (s.mod.onDev fun d => d.losePc (stack / 3) (64 * stack.val + pc.val))
      (stack / 3) (reformSize s.mod.dev.tier (stack / 3))).onDev fun d =>
        d.reformed (stack / 3) (reformSize s.mod.dev.tier (stack / 3)) stack pc) := by
  have hexec : exec (.hbmPcLost stack pc) s = execHbmPcLost stack pc s := rfl
  rw [hexec, execHbmPcLost, onPlane_eq _ _ hstop]
  simp only [List.contains_iff_mem.2 hused, Nat.not_le.2 hfit, Bool.not_true, Bool.false_eq_true, or_self, if_false]
  rfl

/-- The same where the die's pool holds no record. -/
theorem hbmPcLost_of_empty_pool {s : State} {stack : Fin 12} {pc : Fin 64} (hstop : s.mod.dev.stopped = false)
    (hused : pc.val ∈ stackMap s.mod.dev.tier stack) (hfit : 3 < s.mod.dev.tier.dieP (stack / 3))
    (hempty : slotsIn s.mod.dev.tier (stack / 3) = []) :
    exec (.hbmPcLost stack pc) s = .next (s.withDev (((s.mod.dev.losePc (stack / 3) (64 * stack.val + pc.val)).beginReform
      (stack / 3)).reformed (stack / 3) (reformSize s.mod.dev.tier (stack / 3)) stack pc)) := by
  have hslots : slotsIn (s.mod.dev.losePc (stack / 3) (64 * stack.val + pc.val)).tier (stack / 3) = [] := by
    rw [tier_losePc]; exact hempty
  rw [hbmPcLost_of_used hstop hused hfit, restorePool_of_empty (by exact hslots)]
  rfl

/-! ## Channels and extents (R271 to R276) -/

/-- A channel that is worn is evacuated. -/
theorem ddrChannelFallow_of_worn {s : State} {ch : Fin 16} (hstop : s.mod.dev.stopped = false)
    (hst : (ddrOf s.mod.dev.tier ch).st = .inService) (hce : cfgTierRasCfgPcce s.mod.dev.base < (ddrOf s.mod.dev.tier ch).ce)
    (hhour : (ddrOf s.mod.dev.tier ch).hour = hourOf s.mod.dev.base) :
    exec (.ddrChannelFallow ch false) s = .next (s.withDev (startEvac s.mod.dev 1 ch none)) := by
  have hexec : exec (.ddrChannelFallow ch false) s = execDdrChannelFallow ch false s := rfl
  rw [hexec, execDdrChannelFallow, onPlane_eq _ _ hstop]
  simp only [hst, hce, hhour, decide_true, Bool.and_self, Bool.or_true, Bool.not_true, ne_eq, not_true_eq_false, Bool.false_eq_true,
    or_self, if_false]
  rfl

/-- The evacuation of a channel begins. -/
theorem startEvac_of_channel {d : Dev} {ch : Nat} {tag : Option Nat}
    (hnew : (d.tier.evacs.any fun e => e.kind = 1 && e.unit = ch) = false) : startEvac d 1 ch tag =
      (d.onTier fun t => { t with evacs := t.evacs ++ [⟨1, ch, tag⟩] }).modDdr ch fun c => { c with st := .evacuating } := by
  rw [startEvac, hnew]
  rfl

/-- Fewer numbers than `n` leave one below `n` free. -/
theorem exists_lt_not_mem {l : List Nat} {n : Nat} (h : l.length < n) : ∃ p < n, p ∉ l := by
  by_contra hall
  have hsub : List.range n ⊆ l := fun p hp => by
    by_contra hp'
    exact hall ⟨p, List.mem_range.1 hp, hp'⟩
  have := (List.nodup_range.subperm hsub).length_le
  rw [List.length_range] at this
  omega

/-- A channel with room takes the extent in a channel extent of its own. -/
theorem moveExtent_of_room {t : TierState} {q c : Nat} (e : Nat)
    (h : ((extentsOn t q c).map (extentPlace t q)).length < t.capCh * 64) :
    ∃ p < t.capCh * 64, moveExtent t q e c = { t with extents := kput t.extents (q * 2 ^ 20 + e) (c * 2 ^ 20 + p) } := by
  cases hfind : (List.range (t.capCh * 64)).find? fun p => !(((extentsOn t q c).map (extentPlace t q)).contains p) with
  | none =>
    obtain ⟨p, hp, hfree⟩ := exists_lt_not_mem h
    have := List.find?_eq_none.1 hfind p (List.mem_range.2 hp)
    simp [hfree] at this
  | some p =>
    refine ⟨p, List.mem_range.1 (List.mem_of_find?_eq_some hfind), ?_⟩
    simp only [moveExtent, hfind]

/-- Each extent's channel after the extent table has changed in one place. -/
theorem extentChan_kput (t : TierState) (q e c : Nat) {p : Nat} (hp : p < 2 ^ 20) (x : Nat) :
    extentChan { t with extents := kput t.extents (q * 2 ^ 20 + e) (c * 2 ^ 20 + p) } q x =
      if x = e then c else extentChan t q x := by
  unfold extentChan
  dsimp only
  rw [kfind_kput]
  by_cases hx : x = e
  · rw [if_pos (by rw [hx]), if_pos hx]
    dsimp only
    omega
  · rw [if_neg (by omega), if_neg hx]

theorem extentMove_of_room {s : State} {q dst : Fin 4} {ext : Nat} (hstop : s.mod.dev.stopped = false)
    (hext : ext < extentCount s.mod.dev.tier q) (hst : (ddrOf s.mod.dev.tier (4 * q + dst)).st = .inService)
    (hother : extentChan s.mod.dev.tier q ext ≠ dst.val) :
    exec (.extentMove q ext dst) s = .next (s.withDev (s.mod.dev.onTier fun t => moveExtent t q ext dst)) := by
  have hexec : exec (.extentMove q ext dst) s = execExtentMove q ext dst s := rfl
  rw [hexec, execExtentMove, onPlaneDev_eq _ _ hstop]
  simp only [Dev.onTier, if_pos (And.intro hext (And.intro hst hother))]

/-- Settles O15: by one rule for each command, and what its change of the unit leaves. -/
theorem memoryUnitsRepaired : Obligations.MemoryUnitsRepaired := by
  unfold Obligations.MemoryUnitsRepaired
  intro s stack pc hstop d die
  have htier : s.changesOnly (s.withDev d) [.tier] := s.changesOnly_refl _
  have hboth : s.changesOnly (s.withDev d) [.tier, .events] := s.changesOnly_refl _
  refine ⟨fun row da hce hnew => ?soft, fun sp ex hspare hused hworn => ?spare, fun pass hfallow => ?hard,
    fun ex n hnone hspare hused hworn hfit => ?reform, fun hused hfit hempty honce => ?lost,
    fun ch hst hce hhour hnew => ?channel, fun q ext dst hext hst hother hroom hcap => ?extent⟩
  case soft =>
    refine ⟨_, softPpr_of_row hstop da hce hnew, (hboth.onTier (by decide) _).raise (by decide) .., ?_, ?_, rfl⟩ <;>
      rw [Dev.raise_tier, hpcOf_modHpc_self]
    · rfl
    · exact Hpc.rowCe_softRepaired ..
  case spare =>
    exact ⟨_, hbmPcSpare_of_worn hstop hspare hused hworn, hboth.spareHpc (by decide) (by decide) .., stackMap_spareHpc ..,
      fallow_spareHpc .., rfl⟩
  case hard =>
    refine ⟨_, hardPprTest_of_fallow hstop pass hfallow, htier.onTier (by decide) _, ?_, ?_, ?_⟩ <;> rw [hpcOf_modHpc_self] <;> rfl
  case reform =>
    exact ⟨_, hbmDieReform_begins hstop n hnone hspare hused hworn hfit, (hboth.onTier (by decide) _).raise (by decide) .., rfl, rfl⟩
  case lost =>
    have hlost := lostPc_losePc d die (64 * stack.val + pc.val)
    have hmap := chanMap_losePc d die (64 * stack.val + pc.val)
    have hsize : ((d.losePc die (64 * stack.val + pc.val)).beginReform die).tier.dieP die = d.tier.dieP die := dieP_congr hlost die
    have hstack : stackMap ((d.losePc die (64 * stack.val + pc.val)).beginReform die).tier stack = stackMap d.tier stack :=
      stackMap_congr hlost hmap stack
    refine ⟨_, hbmPcLost_of_empty_pool hstop hused hfit hempty, rfl, ?_, ?_, ?_, fallow_reformed .., fun st hcur => ms_losePc hcur ..⟩
    · rw [softLost_reformed]
      exact mem_softLost_losePc ..
    · rw [TierState.hotBacked, TierState.hotBacked, dieP_reformed, hsize]
      omega
    · rw [stackMap_reformed _ (by rwa [hstack]) (by rwa [hsize]) (by rwa [hstack])]
      simp
  case channel =>
    have hexec := ddrChannelFallow_of_worn hstop hst hce hhour
    rw [startEvac_of_channel hnew] at hexec
    refine ⟨_, hexec, (htier.onTier (by decide) _).onTier (by decide) _, ?_, rfl⟩
    rw [ddrOf_modDdr_self]
  case extent =>
    obtain ⟨p, hp, hmove⟩ := moveExtent_of_room ext hroom
    have hchan := extentChan_kput d.tier q ext dst (hp.trans_le hcap)
    rw [← hmove] at hchan
    refine ⟨_, extentMove_of_room hstop hext hst hother, htier.onTier (by decide) _, ?_, fun x hne => ?_⟩ <;>
      rw [Dev.onTier_tier, hchan]
    · exact if_pos rfl
    · exact if_neg hne

end Sys2Proof.Machine
end

section
/-!
PROOF. Recalibration of memory pins, evacuation of a unit and return of a part (R312 to R318).
-/

namespace Sys2Proof.Machine

/-! ## Pins (R312 to R314) -/

/-- Give a pin its margins and its delay. -/
def Dev.putPin (d : Dev) (pin : Nat) (p : Pin) : Dev := d.onTier fun t => { t with pins := kput t.pins pin p }

theorem kfind_putPin_self (d : Dev) (pin : Nat) (p : Pin) : kfind (d.putPin pin p).tier.pins pin = some p :=
  (kfind_kput ..).trans (if_pos rfl)

theorem kfind_putPin_ne (d : Dev) {pin j : Nat} (p : Pin) (h : j ≠ pin) : kfind (d.putPin pin p).tier.pins j = kfind d.tier.pins j :=
  (kfind_kput ..).trans (if_neg h.symm)

section Pins

variable {s : State} {pin : Nat} (hstop : s.mod.dev.stopped = false)
include hstop

theorem marginSample_of_enabled (left right : Nat) (hen : cfgTierCalCfgEn s.mod.dev.base ≠ 0) :
    exec (.marginSample pin left right) s = .next (s.withDev (s.mod.dev.putPin pin
      ⟨left, right, ((kfind s.mod.dev.tier.pins pin).map (·.delay)).getD 0⟩)) := by
  have hexec : exec (.marginSample pin left right) s = execMarginSample pin left right s := rfl
  rw [hexec, execMarginSample, onPlaneDev_eq _ _ hstop]
  simp only [hen, if_false]
  rfl

/-- A pin whose right margin is the larger by two taps or more moves one tap to the right. -/
theorem delayAdjust_of_left {p : Pin} (ch : Fin 16) (hen : cfgTierCalCfgEn s.mod.dev.base ≠ 0)
    (hpin : kfind s.mod.dev.tier.pins pin = some p) (hleft : p.left + 2 ≤ p.right) :
    exec (.delayAdjust pin (.ddr ch)) s = .next (s.withDev ((s.mod.dev.putPin pin
      ⟨p.left + 1, p.right - 1, p.delay + 1⟩).count cCalAdj (ch / 4) 1)) := by
  have hexec : exec (.delayAdjust pin (.ddr ch)) s = execDelayAdjust pin (.ddr ch) s := rfl
  rw [hexec, execDelayAdjust, onPlaneDev_eq _ _ hstop]
  simp only [hpin, hen, hleft, if_false, if_true]
  rfl

theorem memMarginLow_of_low {p : Pin} (st : Fin 12) (pc : Fin 64) (hpin : kfind s.mod.dev.tier.pins pin = some p)
    (hlow : min p.left p.right < cfgTierCalCfgMinmargin s.mod.dev.base) :
    exec (.memMarginLow pin (.hbm st pc)) s = .next (s.withDev ((s.mod.dev.modHpc st pc fun c => { c with candidate := true }).raise
      evMemMarginLow { n := 64 * st.val + pc.val } (st / 3))) := by
  have hexec : exec (.memMarginLow pin (.hbm st pc)) s = execMemMarginLow pin (.hbm st pc) s := rfl
  rw [hexec, execMemMarginLow, onPlaneDev_eq _ _ hstop]
  simp only [hpin, Nat.not_le.2 hlow, if_false]

end Pins

/-! ## An evacuation that ends (R315) -/

theorem evacTag_of_none {e : Evac} (htag : e.tag = none) (d : Dev) : evacTag d e = 0 := by
  have hfind : (d.hif.descs.find? fun x => e.tag == some x.id) = none := List.find?_eq_none.2 fun x _ => by simp [htag]
  rw [evacTag, hfind]
  rfl

/-- An evacuation is no longer in progress. -/
def Dev.dropEvac (d : Dev) (e : Evac) : Dev := d.onTier fun t => { t with evacs := t.evacs.erase e }

/-- One that no descriptor asked for ends with its event. -/
theorem evacDone_of_no_tag (d : Dev) {e : Evac} (htag : e.tag = none) (moved : Nat) :
    d.evacDone e moved = (d.dropEvac e).raise evEvacuateDone { n := e.unit } := by
  simp only [Dev.evacDone, evacTag_of_none htag, htag, Dev.dropEvac]

theorem evacs_dropEvac (d : Dev) (e : Evac) : (d.dropEvac e).tier.evacs = d.tier.evacs.erase e := rfl

theorem base_dropEvac (d : Dev) (e : Evac) : (d.dropEvac e).base = d.base := rfl

theorem evacs_spareHpc (d : Dev) (stack pc sp : Nat) : (spareHpc d stack pc sp).tier.evacs = d.tier.evacs := rfl

theorem base_spareHpc (d : Dev) (stack pc sp : Nat) : (spareHpc d stack pc sp).base =
    (d.raise evHbmPcSpared { n := 64 * stack + pc } (stack / 3)).base := rfl

/-- A pseudo-channel with a spare in its stack is spared, and its evacuation done. -/
theorem evacHbm_of_spare {m : Mod} {e : Evac} {sp : Nat} (hused : e.unit % 64 ∈ stackMap m.dev.tier (e.unit / 64))
    (hspare : stackSpare m.dev.tier (e.unit / 64) = some sp) :
    evacHbm m e = m.onDev fun d => (spareHpc d (e.unit / 64) (e.unit % 64) sp).evacDone e 0x48000000 := by
  simp only [evacHbm, List.contains_iff_mem.2 hused, hspare, Bool.not_true, Bool.false_eq_true, if_false]

theorem evacuationComplete_of_spare {s : State} {u : Fin 768} {e : Evac} {sp : Nat} (hstop : s.mod.dev.stopped = false)
    (hevac : s.mod.dev.tier.evacs = [e]) (hunit : (e.kind, e.unit) = (0, u.val)) (htag : e.tag = none)
    (hused : u.val % 64 ∈ stackMap s.mod.dev.tier (u / 64)) (hspare : stackSpare s.mod.dev.tier (u / 64) = some sp) :
    exec (.evacuationComplete (.hbm u)) s = .next (s.withDev
      (((spareHpc s.mod.dev (u / 64) (u % 64) sp).dropEvac e).raise evEvacuateDone { n := u })) := by
  have hexec : exec (.evacuationComplete (.hbm u)) s = execEvacuationComplete (.hbm u) s := rfl
  have hfind : (s.mod.dev.tier.evacs.find? fun e => (e.kind, e.unit) = evacKind (.hbm u)) = some e := by
    rw [hevac]
    exact List.find?_cons_of_pos (decide_eq_true hunit)
  have hu : e.unit = u.val := congrArg Prod.snd hunit
  rw [hexec, execEvacuationComplete, onPlane_eq _ _ hstop]
  simp only [hfind]
  rw [evacHbm_of_spare (by rwa [hu]) (by rwa [hu]), Mod.onDev, evacDone_of_no_tag _ htag, hu]

/-! ## A part that returns (R318, R598) -/

/-- A unit that already returns is not begun again. -/
theorem beginReturn_of_returning {d : Dev} {u : Nat} (hst : slotSt d u = .returning) : beginReturn d u = d := by
  have hnot : mayReturn d u = false := by simp [mayReturn, hst]
  unfold beginReturn
  split
  · rfl
  · simp only [hnot, Bool.not_false, if_true]

/-- A DIMM's capacity has been added, and its channel is in service. -/
def Dev.dimmReturned (d : Dev) (u size : Nat) : Dev :=
  (((d.onHw fun h => { h with found := h.found.filter fun x => x.1 ≠ u }).onTier fun t =>
    addChannel { t with capCh := if t.capCh = 0 then size else t.capCh } u).modDdr u fun _ =>
    { Ddr.reset with st := .inService, cap := size }).raise evUnitReturned { n := u }

theorem unitReturn_of_dimm {s : State} {u : Fin 16} {size : Nat} {g : Bool} (hstop : s.mod.dev.stopped = false)
    (hst : slotSt s.mod.dev u = .returning) (hfound : s.mod.dev.hw.found = [(u.val, size, g)]) :
    exec (.unitReturn (u.castLE (by decide))) s = .next (s.withDev (s.mod.dev.dimmReturned u size)) := by
  have hexec : exec (.unitReturn (u.castLE (by decide))) s = execUnitReturn (u.castLE (by decide)) s := rfl
  have hlatch : latchOpen s.mod.dev u = false := by simp [latchOpen, Nat.not_le.2 u.isLt]
  rw [hexec, execUnitReturn, onPlaneDev_eq _ _ hstop]
  simp only [Fin.val_castLE, beginReturn_of_returning hst, hst, u.isLt, hfound, hlatch, List.find?_cons, ne_eq, not_true_eq_false,
    Bool.false_eq_true, or_self, decide_true, if_false, if_true]
  rfl

/-- Listing extents changes the extent table only. -/
theorem listExtents_fields (l : List Nat) (t : TierState) (key val : Nat → Nat) : ∃ extents,
    l.foldl (fun t k => { t with extents := kput t.extents (key k) (val k) }) t = { t with extents := extents } := by
  induction l generalizing t with
  | nil => exact ⟨_, rfl⟩
  | cons k l ih =>
    obtain ⟨extents, h⟩ := ih { t with extents := kput t.extents (key k) (val k) }
    exact ⟨extents, h⟩

theorem addChannel_fields (t : TierState) (ch : Nat) : ∃ extents, addChannel t ch =
    { t with backedCh := kput t.backedCh (ch / 4) (kget 0 t.backedCh (ch / 4) + 1), extents := extents } := by
  obtain ⟨extents, h⟩ := listExtents_fields (List.range (t.capCh * 64))
    { t with backedCh := kput t.backedCh (ch / 4) (kget 0 t.backedCh (ch / 4) + 1) }
    (fun k => ch / 4 * 2 ^ 20 + extentCount t (ch / 4) + k) (fun k => ch % 4 * 2 ^ 20 + k)
  exact ⟨extents, h⟩

/-- The backed range of the DIMM's Iaqua grows by a channel's capacity. -/
theorem warmBacked_dimmReturned {d : Dev} (hcap : d.tier.capCh ≠ 0) (u size : Nat) :
    (d.dimmReturned u size).tier.warmBacked (u / 4) = d.tier.warmBacked (u / 4) + d.tier.capCh * giB := by
  obtain ⟨extents, h⟩ := addChannel_fields { d.tier with capCh := if d.tier.capCh = 0 then size else d.tier.capCh } u
  rw [Dev.dimmReturned, Dev.raise_tier, Dev.modDdr, Dev.onTier_tier, Dev.onTier_tier, Dev.onHw_tier, h]
  simp only [TierState.warmBacked, kget_kput_self, hcap, if_false]
  ring

theorem slotSt_dimmReturned (d : Dev) {u : Nat} (hu : u < 16) (size : Nat) : slotSt (d.dimmReturned u size) u = .inService := by
  rw [slotSt, if_pos hu, Dev.dimmReturned, Dev.raise_tier, ddrOf_modDdr_self]

/-- The part no longer waits to be returned. -/
theorem found_dimmReturned (d : Dev) (u size : Nat) :
    (d.dimmReturned u size).hw.found = d.hw.found.filter fun x => x.1 ≠ u := rfl

theorem State.changesOnly.onHw {s : State} {d : Dev} {ps : List Part} (h : s.changesOnly (s.withDev d) ps) (hp : Part.hw ∈ ps)
    (f : HwState → HwState) : s.changesOnly (s.withDev (d.onHw f)) ps := by
  obtain ⟨-, -, hsame⟩ := h
  refine ⟨rfl, rfl, fun p hnot => ?_⟩
  have hbefore := hsame p hnot
  cases p with
  | hw => exact absurd hp hnot
  | _ => exact hbefore

theorem State.changesOnly.dimmReturned {s : State} {d : Dev} {ps : List Part} (h : s.changesOnly (s.withDev d) ps)
    (hhw : Part.hw ∈ ps) (htier : Part.tier ∈ ps) (hevents : Part.events ∈ ps) (u size : Nat) :
    s.changesOnly (s.withDev (d.dimmReturned u size)) ps :=
  (((h.onHw hhw _).onTier htier _).onTier htier _).raise hevents ..

/-- Settles O19: by one rule for each command, and what its change leaves of the pin, the unit or the part. -/
theorem recalibrationEvacuationReturn : Obligations.RecalibrationEvacuationReturn := by
  unfold Obligations.RecalibrationEvacuationReturn
  intro s hstop d
  have htier : s.changesOnly (s.withDev d) [.tier] := s.changesOnly_refl _
  have hboth : s.changesOnly (s.withDev d) [.tier, .events] := s.changesOnly_refl _
  refine ⟨fun pin left right hen => ?sample, fun pin ch p hen hpin hleft => ?adjust, fun pin st pc p hpin hlow => ?low,
    fun u e sp hevac hunit htag hused hspare => ?evacuated, fun u size g hst hfound hcap => ?returned⟩
  case sample =>
    exact ⟨_, marginSample_of_enabled hstop left right hen, htier.onTier (by decide) _, ⟨_, kfind_putPin_self .., rfl, rfl, rfl⟩,
      fun j hne => kfind_putPin_ne _ _ hne⟩
  case adjust =>
    exact ⟨_, delayAdjust_of_left hstop ch hen hpin hleft, (hboth.onTier (by decide) _).count (by decide) ..,
      kfind_putPin_self .., rfl⟩
  case low =>
    refine ⟨_, memMarginLow_of_low hstop st pc hpin hlow, (hboth.onTier (by decide) _).raise (by decide) .., ?_, rfl⟩
    rw [Dev.raise_tier, hpcOf_modHpc_self]
  case evacuated =>
    have hpc : 64 * (u.val / 64) + u.val % 64 = u.val := Nat.div_add_mod u 64
    have hdie : u.val / 64 / 3 = u.val / 192 := Nat.div_div_eq_div_mul ..
    refine ⟨_, evacuationComplete_of_spare hstop hevac hunit htag hused hspare,
      ((hboth.spareHpc (by decide) (by decide) ..).onTier (by decide) _).raise (by decide) .., ?_, fallow_spareHpc .., ?_⟩
    · rw [Dev.raise_tier, evacs_dropEvac, evacs_spareHpc, hevac, List.erase_cons_head]
    · rw [Dev.raise_base, base_dropEvac, base_spareHpc, hpc, hdie]
      rfl
  case returned =>
    have hall : s.changesOnly (s.withDev d) [.tier, .hw, .events] := s.changesOnly_refl _
    refine ⟨_, unitReturn_of_dimm hstop hst hfound, hall.dimmReturned (by decide) (by decide) (by decide) ..,
      slotSt_dimmReturned _ u.isLt _, ?_, warmBacked_dimmReturned hcap .., rfl⟩
    rw [found_dimmReturned, hfound]
    simp

end Sys2Proof.Machine
end

section
/-!
PROOF. Loans that are revoked or over their limit, old tags of lent and cold records, and the rebuild (R289, R290, R311, R351).
-/

namespace Sys2Proof.Machine

/-! ## Loans (R289, R290) -/

section Loans

variable {s : State} {w : Fin 16} {l : LoanIn} (hstop : s.mod.dev.stopped = false) (hwin : kfind s.mod.dev.tier.windows w = some l)
include hstop hwin

/-- The first revoke of a loan gives it its deadline. -/
theorem loanRevokeReceived_of_first (deadline : Word64) (hfirst : l.deadline = none) :
    exec (.loanRevokeReceived w deadline) s = .next (s.withDev ((s.mod.dev.onTier fun t =>
      { t with windows := kput t.windows w { l with deadline := some deadline.toNat } }).raise evLoanRevoke
        { t := l.id, n := deadline.toNat } 0 w)) := by
  have hexec : exec (.loanRevokeReceived w deadline) s = execLoanRevokeReceived w deadline s := rfl
  rw [hexec, execLoanRevokeReceived, onPlaneDev_eq _ _ hstop]
  simp only [Dev.revokeWindow, hwin, hfirst, Option.isSome_none, Bool.false_eq_true, if_false]

/-- The one record of a window whose lender is over its limit goes to cold tier. -/
theorem lentLimitEnforce_of_one {c : Nat × ColdRec} {t : TDesc} {v : TabVer}
    (hshort : warmShort s.mod.dev.base s.mod.dev.tier = true) (hone : lentIn s.mod.dev.tier w = [c])
    (hover : lentLimit s.mod.dev.base s.mod.dev.tier < lentGrans s.mod.dev.tier l.lender)
    (hver : slotVer s.mod c.2.slot = some (t, v)) (hcold : t.allowCold = true) :
    exec (.lentLimitEnforce w) s = s.leaves (relocate s.mod t v c.2.slot.row .cold none).1 := by
  have hexec : exec (.lentLimitEnforce w) s = execLentLimitEnforce w s := rfl
  rw [hexec, execLentLimitEnforce, onPlane_eq _ _ hstop]
  simp only [hwin, hshort, hone, hver, hcold, Nat.not_le.2 hover, List.foldl_cons, List.foldl_nil, Bool.not_true, Bool.false_eq_true,
    if_false, if_true]

end Loans

/-! ## Tags (R351) -/

/-- The step at which a record's tag was last looked at. -/
def Dev.noteTag (d : Dev) (key : Nat) : Dev := d.onTier fun t => { t with checked := kput t.checked key d.base.applied }

theorem mem_queueRefresh (d : Dev) (table row : Nat) : (table, row) ∈ (d.queueRefresh table row).tier.refresh := by
  unfold Dev.queueRefresh
  split
  · assumption
  · exact List.mem_append_right _ (List.mem_singleton_self _)

/-- A refresh that is queued changes the queue of refreshes only. -/
theorem queueRefresh_fields (d : Dev) (table row : Nat) :
    ∃ refresh, d.queueRefresh table row = d.onTier fun t => { t with refresh := refresh } := by
  unfold Dev.queueRefresh
  split
  · exact ⟨_, rfl⟩
  · exact ⟨_, rfl⟩

@[simp] theorem checked_queueRefresh (d : Dev) (table row : Nat) : (d.queueRefresh table row).tier.checked = d.tier.checked := by
  obtain ⟨refresh, h⟩ := queueRefresh_fields d table row
  rw [h]
  rfl

@[simp] theorem promote_queueRefresh (d : Dev) (table row : Nat) : (d.queueRefresh table row).tier.promote = d.tier.promote := by
  obtain ⟨refresh, h⟩ := queueRefresh_fields d table row
  rw [h]
  rfl

@[simp] theorem checked_queuePromote (d : Dev) (table row : Nat) (target : Tier) (demand : Bool) :
    (d.queuePromote table row target demand).tier.checked = d.tier.checked := by
  rw [Dev.queuePromote, Dev.onTier_tier]
  split <;> rfl

theorem State.changesOnly.queueRefresh {s : State} {d : Dev} {ps : List Part} (h : s.changesOnly (s.withDev d) ps)
    (hp : Part.tier ∈ ps) (table row : Nat) : s.changesOnly (s.withDev (d.queueRefresh table row)) ps := by
  obtain ⟨refresh, hr⟩ := queueRefresh_fields d table row
  rw [hr]
  exact h.onTier hp _

/-- A cold record with an old tag. -/
theorem lentColdTagCheck_of_stale {s : State} {loc : Nat} {c : ColdRec} {t : TDesc} {v : TabVer} (hstop : s.mod.dev.stopped = false)
    (hcold : kfind s.mod.dev.tier.cold loc = some c) (hver : slotVer s.mod c.slot = some (t, v))
    (hstale : tagStale s.mod.dev v c.data = true) :
    exec (.lentColdTagCheck true loc) s = .next (s.withDev (((s.mod.dev.noteTag loc).queuePromote c.slot.table c.slot.row .warm
      false).queueRefresh c.slot.table c.slot.row)) := by
  have hexec : exec (.lentColdTagCheck true loc) s = execLentColdTagCheck true loc s := rfl
  have hstale' : tagStale (s.mod.dev.noteTag loc) v c.data = true := hstale
  rw [hexec, execLentColdTagCheck, onPlane_eq _ _ hstop]
  simp only [hcold, hver, if_true]
  exact congrArg (fun d => Host.Outcome.next (s.withDev d)) (if_pos hstale')

/-! ## The rebuild (R311) -/

/-- `m'` is `m` but for device memory, and for what has been written into lost soft bands: the frame of stores. -/
def Mod.storesOnly (m m' : Mod) : Prop := ∃ mem new, m' = ⟨mem, m.dev.onTier fun t => { t with softNew := new }⟩

theorem Mod.storesOnly_refl (m : Mod) : m.storesOnly m := ⟨_, _, rfl⟩

theorem Mod.storesOnly.trans {m m' m'' : Mod} (h : m.storesOnly m') (g : m'.storesOnly m'') : m.storesOnly m'' := by
  obtain ⟨mem, new, rfl⟩ := h
  obtain ⟨mem', new', rfl⟩ := g
  exact ⟨_, _, rfl⟩

theorem Mod.storesOnly_store (m : Mod) (da : Nat) (bs : List Byte) : m.storesOnly (m.store da bs) := by
  unfold Mod.store
  split
  · exact ⟨_, _, rfl⟩
  · exact ⟨_, _, rfl⟩

theorem Mod.storesOnly_foldl {α : Type} {f : Mod → α → Mod} (hf : ∀ (m : Mod) a, m.storesOnly (f m a)) (l : List α) (m : Mod) :
    m.storesOnly (l.foldl f m) := by
  induction l generalizing m with
  | nil => exact m.storesOnly_refl
  | cons a l ih => exact (hf m a).trans (ih _)

/-- A slot of the hot tier, by its DA ÷ 64. -/
def hotLoc (loc : Nat) : Bool := match daPlace (64 * loc) with
  | .hot _ _ => true
  | _ => false

theorem hotLoc_of_hot {loc die off : Nat} (h : daPlace (64 * loc) = .hot die off) : hotLoc loc = true := by
  rw [hotLoc, h]

/-- Rows whose home record lies in hot tier. -/
def lostRows (t : TierState) : List (Nat × Nat) :=
  ((t.slots.filter fun s => hotLoc s.1).filter fun s => !s.2.copy).map fun s => (s.2.table, s.2.row)

/-- The ledgers without the hot tier and without warm copies, its rows listed as lost. -/
def Dev.dropHot (d : Dev) : Dev := d.onTier fun t => { t with
  slots := t.slots.filter fun s => !hotLoc s.1 && !s.2.copy
  moves := []
  lost := t.lost ++ (lostRows t).filter fun x => !(t.lost.contains x) }

/-- A row-map entry is written again from a ledger entry. -/
def Mod.mapSlot (m : Mod) (s : Slot) (tier : Tier) (loc : Nat) : Mod := match slotVer m s with
  | some (_, v) => m.putRow v.rowmap s.row ⟨tier, 0, false, loc⟩
  | none => m

theorem storesOnly_mapSlot (m : Mod) (s : Slot) (tier : Tier) (loc : Nat) : m.storesOnly (m.mapSlot s tier loc) := by
  unfold Mod.mapSlot
  split
  · exact Mod.storesOnly_store ..
  · exact m.storesOnly_refl

/-- The row maps written again from the ledgers of the warm and cold tiers. -/
def rebuildMaps (m : Mod) (warm : KMap Slot) : Mod :=
  let m := warm.foldl (fun m s => m.mapSlot s.2 .warm s.1) m
  m.dev.tier.cold.foldl (fun m c => m.mapSlot c.2.slot .cold c.1) m

theorem storesOnly_rebuildMaps (m : Mod) (warm : KMap Slot) : m.storesOnly (rebuildMaps m warm) :=
  (Mod.storesOnly_foldl (fun m _ => storesOnly_mapSlot m ..) _ m).trans (Mod.storesOnly_foldl (fun m _ => storesOnly_mapSlot m ..) _ _)

theorem tierRebuild_next {s : State} (hstop : s.mod.dev.stopped = false) :
    exec .tierRebuild s = s.leaves ((rebuildMaps (s.mod.onDev Dev.dropHot)
      (s.mod.dev.tier.slots.filter fun x => !hotLoc x.1 && !x.2.copy)).onDev fun d =>
        d.raise evTierRebuilt { n := (lostRows s.mod.dev.tier).length }) :=
  have hexec : exec .tierRebuild s = execTierRebuild s := rfl
  hexec.trans (onPlane_eq _ _ hstop)

/-- What the ledgers keep is a home record outside the hot tier. -/
theorem of_mem_slots_dropHot {d : Dev} {x : Nat × Slot} (hx : x ∈ d.dropHot.tier.slots) :
    x.2.copy = false ∧ x ∈ d.tier.slots ∧ ∀ die off, daPlace (64 * x.1) ≠ .hot die off := by
  obtain ⟨hmem, hkept⟩ := List.mem_filter.1 hx
  obtain ⟨hcold, hcopy⟩ : hotLoc x.1 = false ∧ x.2.copy = false := by simpa using hkept
  exact ⟨hcopy, hmem, fun die off hhot => by simp [hotLoc_of_hot hhot] at hcold⟩

/-- A row whose home record was in hot tier is listed as lost. -/
theorem mem_lost_dropHot {d : Dev} {x : Nat × Slot} {die off : Nat} (hx : x ∈ d.tier.slots) (hhot : daPlace (64 * x.1) = .hot die off)
    (hcopy : x.2.copy = false) : (x.2.table, x.2.row) ∈ d.dropHot.tier.lost := by
  have hrow : (x.2.table, x.2.row) ∈ lostRows d.tier :=
    List.mem_map.2 ⟨x, List.mem_filter.2 ⟨List.mem_filter.2 ⟨hx, hotLoc_of_hot hhot⟩, by simp [hcopy]⟩, rfl⟩
  by_cases hold : (x.2.table, x.2.row) ∈ d.tier.lost
  · exact List.mem_append_left _ hold
  · exact List.mem_append_right _ (List.mem_filter.2 ⟨hrow, by simpa using hold⟩)

/-- Settles O18: by one rule for each command, and by what the rebuild drops and lists before it writes the row maps. -/
theorem loansTagsAndRebuild : Obligations.LoansTagsAndRebuild := by
  unfold Obligations.LoansTagsAndRebuild
  intro s hstop m d
  have htier : s.changesOnly (s.withDev d) [.tier] := s.changesOnly_refl _
  have hboth : s.changesOnly (s.withDev d) [.tier, .events] := s.changesOnly_refl _
  refine ⟨fun w deadline l hwin hfirst => ?revoke, fun w l c t v hwin hshort hone hover hver hcold => ?limit,
    fun loc c t v hrec hver hstale => ?tag, ?rebuild⟩
  case revoke =>
    exact ⟨_, loanRevokeReceived_of_first hstop hwin deadline hfirst, (hboth.onTier (by decide) _).raise (by decide) .., rfl, rfl⟩
  case limit =>
    exact ⟨_, lentLimitEnforce_of_one hstop hwin hshort hone hover hver hcold, rfl, rfl, rfl⟩
  case tag =>
    refine ⟨_, lentColdTagCheck_of_stale hstop hrec hver hstale,
      ((htier.onTier (by decide) _).onTier (by decide) _).queueRefresh (by decide) .., ?_, mem_queueRefresh .., ?_⟩
    · rw [checked_queueRefresh, checked_queuePromote]
      exact (kfind_kput ..).trans (if_pos rfl)
    · rw [promote_queueRefresh]
      exact mem_queuePromote ..
  case rebuild =>
    obtain ⟨mem, new, hmaps⟩ := storesOnly_rebuildMaps (m.onDev Dev.dropHot) (d.tier.slots.filter fun x => !hotLoc x.1 && !x.2.copy)
    have hexec := tierRebuild_next hstop
    rw [hmaps] at hexec
    exact ⟨_, hexec, rfl, rfl, Dev.raise_seq .., fun x hx => of_mem_slots_dropHot hx,
      fun x hx die off hhot hcopy => mem_lost_dropHot hx hhot hcopy⟩

end Sys2Proof.Machine
end

section
/-!
PROOF. The close of the gradient stages where the step record lies in a soft band that was lost (R270, R325, R376): the sums of squares
and STATE[0] enter what has been written into the lost band since, which is part of the tiers and not of device memory.
-/

namespace Sys2Proof.Machine

/-! ## The step record at the close of the stages (R376) -/

/-- The step record of a step whose stages held nothing: the sums of squares, and STATE[0] set. -/
def recordEmptyClose (m : Mod) (step : Word32) : Mod :=
  let m := m.putStepRec step 24 (squareLine [] ++ squareLine [])
  m.putStepRec step 6 (leBytes 1 (withBits (stepRecByte m step 6) 0 0 1))

/-- The stages of the running step close on a module that has its job to itself; here they hold nothing. -/
theorem gradientStageClose_of_empty {s : State} {step : Word32} (hstop : s.mod.dev.stopped = false)
    (halone : cfgFabMsCfgNmod s.mod.dev.base = 0) (hcur : s.mod.dev.ms.cur = some step) (hclosed : s.mod.dev.sow.closed ≠ some step)
    (hstage : s.mod.dev.sow.stage = []) :
    exec (.gradientStageClose step) s = s.leaves ((recordEmptyClose s.mod step).onDev fun d => d.onSow fun x =>
      { x with stage := [], closed := some step, replIn := none }) := by
  have hexec : exec (.gradientStageClose step) s = execGradientStageClose step s := rfl
  rw [hexec, execGradientStageClose, onPlane_eq _ _ hstop]
  simp [halone, hcur, hclosed, hstage, recordEmptyClose]

/-- A store leaves the registers, and which soft bands are lost, as they were. -/
theorem Mod.store_lost (m : Mod) (da : Nat) (bs : List Byte) :
    (m.store da bs).dev.base = m.dev.base ∧ inLostSoft (m.store da bs).dev = inLostSoft m.dev := by
  obtain ⟨_, _, h⟩ := m.storesOnly_store da bs
  rw [h]
  exact ⟨rfl, rfl⟩

/-- Where the step record lies in a lost soft band, STATE is kept with the bytes written there since. -/
theorem softNew_recordEmptyClose {m : Mod} {step : Word32} (h : inLostSoft m.dev (stepRecDa m.dev.base step + 6) = true) :
    (kfind (recordEmptyClose m step).dev.tier.softNew (stepRecDa m.dev.base step + 6)).isSome = true := by
  obtain ⟨hbase, hlost⟩ := m.store_lost (stepRecDa m.dev.base step + 24) (squareLine [] ++ squareLine [])
  simp only [recordEmptyClose, Mod.putStepRec, leBytes, hbase]
  rw [kfind_softNew_store _ _ (hlost ▸ h)]
  rfl

/-! ## The module that lost the soft band of its step record -/

/-- Closing the stages of that module's step has something written into the lost soft band, so the tiers do not stay as they were. -/
theorem lostBandState_close_changes_tier : (recordEmptyClose lostBandState.mod 5).dev.tier ≠ lostBandState.mod.dev.tier := by
  intro h
  have hlost : inLostSoft lostBandState.mod.dev (stepRecDa lostBandState.mod.dev.base 5 + 6) = true := by decide +kernel
  have hnew := softNew_recordEmptyClose hlost
  rw [h] at hnew
  cases hnew

/-- Refutes O20: its first clause has the close of the stages change device memory and sowing only. Where the step record lies in a soft
band that was lost, the sums of squares and STATE[0] are written into that band, whose new bytes the tiers hold: here for step 5 of
`lostBandState`, to which no gradient came. -/
theorem not_stagesCloseAndWritersRecover : ¬ Obligations.StagesCloseAndWritersRecover := by
  unfold Obligations.StagesCloseAndWritersRecover
  intro h
  have hstop : lostBandState.mod.dev.stopped = false := by decide
  have halone : cfgFabMsCfgNmod lostBandState.mod.dev.base = 0 := by decide +kernel
  have hclosed : lostBandState.mod.dev.sow.closed ≠ some 5 := by decide
  have hstage : ∀ e ∈ lostBandState.mod.dev.sow.stage, e.inexact = false ∧ ∃ t u, tdescAt lostBandState.mod e.table = some t ∧
      rowEngine lostBandState.mod t (t.gradVer 5) e.row = some u ∧ u < 4 := fun e he => nomatch he
  obtain ⟨hclose, -⟩ := h.1 lostBandState 5 hstop
  obtain ⟨s', hexec, ⟨-, -, hsame⟩, -⟩ := hclose halone rfl hclosed hstage
  cases (gradientStageClose_of_empty hstop halone rfl hclosed rfl).symm.trans hexec
  exact lostBandState_close_changes_tier (hsame .tier (by decide))

end Sys2Proof.Machine
end

section
/-!
PROOF. The update of a row at a milestone (R330 to R336, R348, R349, R354, R356): what an engine's command leaves of a row that has one
gradient.
-/

namespace Sys2Proof.Machine

/-! ## What an update changes -/

theorem State.changesOnly.onSow {s : State} {d : Dev} {ps : List Part} (h : s.changesOnly (s.withDev d) ps) (hp : Part.sow ∈ ps)
    (f : SowState → SowState) : s.changesOnly (s.withDev (d.onSow f)) ps := by
  obtain ⟨-, -, hsame⟩ := h
  refine ⟨rfl, rfl, fun p hnot => ?_⟩
  have hbefore := hsame p hnot
  cases p with
  | sow => exact absurd hp hnot
  | _ => exact hbefore

/-- `m'` is `m` but for what the write of a row's record may change: device memory and what is written into lost soft bands, the plots
and the directory of replicas, checking, the journal regions with the LIVE exports they end, and which gradients are used. -/
def Mod.updatesRow (m m' : Mod) : Prop := ∃ mem plots tab chk new regions live grads, m' = ⟨mem, { m.dev with
  plots := plots, tab := tab, chk := chk, tier := { m.dev.tier with softNew := new }
  sow := { m.dev.sow with regions := regions, live := live, grads := grads } }⟩

section UpdatesRow

variable {m m' : Mod}

theorem Mod.updatesRow_refl (m : Mod) : m.updatesRow m := ⟨_, _, _, _, _, _, _, _, rfl⟩

theorem Mod.updatesRow.trans {m'' : Mod} (h : m.updatesRow m') (g : m'.updatesRow m'') : m.updatesRow m'' := by
  obtain ⟨_, _, _, _, _, _, _, _, rfl⟩ := h
  obtain ⟨_, _, _, _, _, _, _, _, rfl⟩ := g
  exact ⟨_, _, _, _, _, _, _, _, rfl⟩

/-- What it leaves as it was: the rows done, the imports, the steps, the refreshes due. -/
theorem Mod.updatesRow.unchanged (h : m.updatesRow m') : m'.dev.sow.done = m.dev.sow.done ∧ m'.dev.sow.imports = m.dev.sow.imports ∧
    m'.dev.ms = m.dev.ms ∧ m'.dev.tier.refresh = m.dev.tier.refresh := by
  obtain ⟨_, _, _, _, _, _, _, _, rfl⟩ := h
  exact ⟨rfl, rfl, rfl, rfl⟩

theorem Mod.updatesRow_store (m : Mod) (da : Nat) (bs : List Byte) : m.updatesRow (m.store da bs) := by
  obtain ⟨_, _, h⟩ := m.storesOnly_store da bs
  rw [h]
  exact ⟨_, _, _, _, _, _, _, _, rfl⟩

/-- Room in a journal region is found by reclaim and by ending LIVE exports (R361, R362). -/
theorem roomFor_fields {d d' : Dev} {r n o : Nat} (h : roomFor d r n = some (o, d')) :
    ∃ regions live, d' = d.onSow fun s => { s with regions := regions, live := live } := by
  have hsame : ∀ e : Dev, (if regionUsed e r + n ≤ regionGrans e.base r then
      (fitSlot e.base r (kget Region.reset e.sow.regions r) n).map fun o => (o, e) else none) = some (o, d') → d' = e := by
    intro e he
    obtain ⟨-, hfit⟩ := Option.ite_none_right_eq_some.1 he
    obtain ⟨_, -, hpair⟩ := Option.map_eq_some_iff.1 hfit
    exact (Prod.mk.inj hpair).2.symm
  have hdev : d' = d ∨ d' = d.reclaim r ∨ d' = d.endLive.reclaim r := by
    simp only [roomFor] at h
    split at h
    · next x htry => cases h; exact .inl (hsame d htry)
    · split at h
      · next x htry => cases h; exact .inr (.inl (hsame _ htry))
      · exact .inr (.inr (hsame _ h))
  obtain rfl | rfl | rfl := hdev <;> exact ⟨_, _, rfl⟩

theorem updatesRow_appendEntry {r off : Nat} {j : JNew} (h : appendEntry m r j = .ok (off, m')) : m.updatesRow m' := by
  simp only [appendEntry] at h
  split at h
  · cases h
  · next o d hroom =>
    obtain ⟨_, _, rfl⟩ := roomFor_fields hroom
    cases h
    exact Mod.updatesRow.trans ⟨_, _, _, _, _, _, _, _, rfl⟩ (Mod.updatesRow_store ..)

/-- A change of plots, made for each member of a list. -/
theorem updatesRow_foldl {α : Type} {f : Dev → α → Dev} (hf : ∀ d a, ∃ plots, f d a = { d with plots := plots }) (l : List α)
    (m : Mod) : m.updatesRow (m.onDev fun d => l.foldl f d) := by
  induction l generalizing m with
  | nil => exact m.updatesRow_refl
  | cons a l ih =>
    obtain ⟨_, hfirst⟩ := hf m.dev a
    have hstep : m.updatesRow (m.onDev fun d => f d a) := by
      rw [Mod.onDev, hfirst]
      exact ⟨_, _, _, _, _, _, _, _, rfl⟩
    exact hstep.trans (ih _)

/-- Replicas written anew: the plots that hold them and their directory (R244, R246). -/
theorem updatesRow_writeReplicas (m : Mod) (t : TDesc) (row : Nat) (home : List Byte) : m.updatesRow (m.writeReplicas t row home) := by
  unfold Mod.writeReplicas
  split
  · exact m.updatesRow_refl
  · exact Mod.updatesRow.trans (m' := m.onDev fun d => d.onTab _) ⟨_, _, _, _, _, _, _, _, rfl⟩
      (updatesRow_foldl (fun d r => by split <;> exact ⟨_, rfl⟩) _ _)

theorem updatesRow_noteUpdate (m : Mod) (t : TDesc) (v : TabVer) (row eng : Nat) (step : Word32) :
    m.updatesRow (noteUpdate m t v row eng step) := ⟨_, _, _, _, _, _, _, _, rfl⟩

theorem updatesRow_useGrad (m : Mod) (g : Grad) (step : Word32) : m.updatesRow (m.onDev fun d => d.useGrad g step) :=
  ⟨_, _, _, _, _, _, _, _, rfl⟩

end UpdatesRow

@[simp] theorem Mod.writeReplicas_mem (m : Mod) (t : TDesc) (row : Nat) (home : List Byte) :
    (m.writeReplicas t row home).mem = m.mem := by
  unfold Mod.writeReplicas
  split <;> rfl

@[simp] theorem noteUpdate_mem (m : Mod) (t : TDesc) (v : TabVer) (row eng : Nat) (step : Word32) :
    (noteUpdate m t v row eng step).mem = m.mem := rfl

@[simp] theorem Dev.useGrad_imports (d : Dev) (g : Grad) (step : Word32) : (d.useGrad g step).sow.imports = d.sow.imports := rfl
@[simp] theorem Dev.useGrad_tier (d : Dev) (g : Grad) (step : Word32) : (d.useGrad g step).tier = d.tier := rfl

/-! ## The write of a record at its home (R356) -/

/-- A record that passes FPRINT, at a home that no interrupted write left open, is read as it lies (R219). -/
theorem verifyHome_of_good {m : Mod} {t : TDesc} {v : TabVer} {row : Nat} (hopen : openEntry m (rowEnt m v.rowmap row) = none)
    (hgood : recGood t (recordOf m (rowEnt m v.rowmap row) t.granRec) = true) : verifyHome m t v row = some m := by
  simp [verifyHome, hopen, hgood]

theorem RowEnt.near_of_tier {e : RowEnt} (h : e.tier = .hot ∨ e.tier = .warm) : e.near = true := by
  simpa [RowEnt.near] using h

/-- With no cairn in progress no old record is copied (R396). -/
theorem Dev.cowCopy_of_no_cairn {d : Dev} (h : d.ms.cairns = []) (table row : Nat) (old : Option (List Byte)) :
    d.cowCopy table row old = d := by
  rw [Dev.cowCopy, h]
  rfl

/-- A record in hot or warm tier is written at its home once its entry is journaled, LINKED to that entry. -/
theorem writeRow_of_near {m m2 : Mod} {t : TDesc} {v : TabVer} {row group off : Nat} {step gstep : Word32} {e : RowEnt}
    {payload journal : List Byte} (he : rowEnt m v.rowmap row = e) (htier : e.tier = .hot ∨ e.tier = .warm)
    (hcairns : m.dev.ms.cairns = []) (hlost : m.dev.tier.lost = [])
    (happend : appendEntry m (regionOfLoc e.tier e.loc) ⟨step, gstep, t.id, row, 64 * e.loc, v.version, jkUpdate, false, group,
      some (recordOf m e t.granRec), journal⟩ = .ok (off, m2)) :
    writeRow m ⟨t, v, row, step, gstep, jkUpdate, false, false, group, payload, journal⟩ =
      .ok ((m2.store (64 * e.loc) (mkRecord t step v.version 4 (linkOf (regionOfLoc e.tier e.loc) off) payload)).writeReplicas t row
        (mkRecord t step v.version 4 (linkOf (regionOfLoc e.tier e.loc) off) payload)) := by
  have hnear := RowEnt.near_of_tier htier
  have hkind : jkUpdate ≠ jkImport := by decide
  have hsame : (m.onDev fun d => (d.cowCopy t.id row (some (recordOf m e t.granRec))).onTier fun x =>
      { x with lost := x.lost.filter fun y => y ≠ (t.id, row) }) = m := by
    have hkeep : { m.dev.tier with lost := [] } = m.dev.tier := by rw [← hlost]
    simp only [Mod.onDev, Dev.cowCopy_of_no_cairn hcairns, Dev.onTier, hlost, List.filter_nil, hkeep]
  simp only [writeRow, he, hnear, homeFor, if_pos htier, if_true, hsame, if_neg hkind, happend]
  rfl

/-! ## One gradient of a row (R332 to R336, R348) -/

section Gradient

variable {m : Mod} {t : TDesc} {row eng : Nat} {step : Word32} {g : Grad} {torn : Option Nat} {b : Bank} {e : RowEnt} {grp : Group}

/-- A frozen row, or one without a bank in use, is skipped. -/
theorem applyGrad_of_skip (h : t.freeze = true ∨ m.dev.sow.bank = none) :
    applyGrad m t row eng step g torn = m.onDev fun d => (d.useGrad g step).count cFrozenSkip eng 1 := by
  have hskip : (t.freeze || ((rowEnt m (t.gradVer g.step).rowmap row).near
      && recFrozen (recordOf m (rowEnt m (t.gradVer g.step).rowmap row) 1)) || m.dev.sow.bank.isNone) = true := by
    obtain h | h := h <;> simp [h]
  exact if_pos hskip

variable (he : rowEnt m (t.gradVer g.step).rowmap row = e) (hfreeze : t.freeze = false) (hbank : m.dev.sow.bank = some b)
  (hfrozen : recFrozen (recordOf m e 1) = false) (hgrp : groupOf b.data (groupNum m t row) = grp)
include he hfreeze hbank hfrozen hgrp

/-- A gradient that holds a NaN or an infinity is used, and the row is not written. -/
theorem applyGrad_of_nonfinite (hmode : grp.mode ≠ 2) (hpol : grp.nanpol = false) (hbad : nonFinite g.g = true) :
    applyGrad m t row eng step g torn = m.onDev fun d => ((d.useGrad g step).count cUpdNonfinite eng 1).raise evGradNonfinite
      { hasS := true, s := g.step.toNat, row := row, table := t.id } := by
  simp [applyGrad, he, hfreeze, hbank, hfrozen, hgrp, hmode, hpol, hbad]

/-- A finite gradient of a near row whose record is whole is applied: the record that the group's update gives is written. -/
theorem applyGrad_of_written {m3 : Mod} (hfin : nonFinite g.g = false) (hnear : e.near = true)
    (hver : verifyHome m t (t.gradVer g.step) row = some m) (hshape : shapeMismatch t grp g.step = false)
    (hwrite : writeRow m ⟨t, t.gradVer g.step, row, step, g.step, jkUpdate, false, false, groupNum m t row,
      updatePayload t grp g.step row (idleSteps (t.gradVer g.step) (recordOf m e t.granRec) step) g.g
        (recPayload t (recordOf m e t.granRec)),
      (g.g.map fun x => leBytes 4 x.toNat).flatten⟩ torn = .ok m3) :
    applyGrad m t row eng step g torn = noteUpdate (m3.onDev fun d => d.useGrad g step) t (t.gradVer g.step) row eng step := by
  simp [applyGrad, he, hfreeze, hbank, hfrozen, hgrp, hfin, hnear, hver, hshape, hwrite]

end Gradient

/-! ## An engine's next row -/

section Engine

variable {s : State} {c : Instr} {eng row : Nat} {step : Word32} {t : TDesc} {g : Grad}

/-- A row with one gradient and nothing else to be written into it. -/
theorem applyRow_of_one_grad {m : Mod} (hgrads : rowGrads m.dev t false row step = [g])
    (himports : (applyGrad m t row eng step g none).dev.sow.imports = [])
    (hrefresh : (applyGrad m t row eng step g none).dev.tier.refresh = []) :
    applyRow m t false row eng step none = (applyGrad m t row eng step g none).onDev fun d => d.onSow fun s =>
      { s with done := s.done ++ [doneKey eng false t.id row] } := by
  simp [applyRow, hgrads, himports, hrefresh]

variable (hstop : s.mod.dev.stopped = false)
  (hc : (∃ die : Fin 4, eng = die ∧ c = .hotUpdateApply die 1 none) ∨ (∃ q : Fin 4, eng = 4 + q ∧ c = .iaquaUpdateApply q 1 none))
  (happ : s.mod.dev.sow.app = some step) (hheld : heldPool s.mod.dev ≠ some eng)
  (hdue : dueRows s.mod step eng false = [(t, false, row)])
include hstop hc happ hheld hdue

/-- The engine of a die or of an Iaqua writes the one row that is due. -/
theorem updateApply_of_one_row : exec c s = s.leaves (applyRow s.mod t false row eng step none) := by
  have hrows : applyRows s.mod eng 1 none = applyRow s.mod t false row eng step none := by
    simp [applyRows, hheld, happ, hdue]
  obtain ⟨die, rfl, rfl⟩ | ⟨q, rfl, rfl⟩ := hc
  · have hexec : exec (.hotUpdateApply die 1 none) s = execHotUpdateApply die 1 none s := rfl
    rw [hexec, execHotUpdateApply, onPlane_eq _ _ hstop, hrows]
  · have hexec : exec (.iaquaUpdateApply q 1 none) s = execIaquaUpdateApply q 1 none s := rfl
    rw [hexec, execIaquaUpdateApply, onPlane_eq _ _ hstop, hrows]

end Engine

/-- Settles O21: by what one gradient does to its row, in the three cases of R332, R348 and R349. -/
theorem updatesAreApplied : Obligations.UpdatesAreApplied := by
  unfold Obligations.UpdatesAreApplied
  intro s eng c step t row g hstop hc m d v e old used did happ hheld hdue hgrads himports hrefresh
  have hexec := updateApply_of_one_row hstop hc happ hheld hdue
  have hkeep : s.changesOnly (s.withDev d) [.sow, .events] := s.changesOnly_refl _
  refine ⟨fun hskip => ?skipped, fun b hfreeze hbank hfrozen => ⟨fun hmode hpol hbad => ?nonfinite,
    fun off m2 hfin htier hopen hgood hshape hcairns hlost happend => ?written⟩⟩
  case skipped =>
    have happly := applyGrad_of_skip (row := row) (eng := eng) (step := step) (g := g) (torn := none) hskip
    rw [applyRow_of_one_grad hgrads (happly ▸ himports) (happly ▸ hrefresh), happly] at hexec
    exact ⟨_, hexec, ((hkeep.onSow (by decide) _).count (by decide) ..).onSow (by decide) _, rfl, rfl⟩
  case nonfinite =>
    have happly := applyGrad_of_nonfinite (eng := eng) (step := step) (torn := none) rfl hfreeze hbank hfrozen rfl hmode hpol hbad
    rw [applyRow_of_one_grad hgrads (by rw [happly]; simpa using himports) (by rw [happly]; simpa using hrefresh), happly] at hexec
    exact ⟨_, hexec, (((hkeep.onSow (by decide) _).count (by decide) ..).raise (by decide) ..).onSow (by decide) _, rfl, rfl⟩
  case written =>
    have happly := applyGrad_of_written (eng := eng) rfl hfreeze hbank hfrozen rfl hfin (RowEnt.near_of_tier htier)
      (verifyHome_of_good hopen hgood) hshape (writeRow_of_near rfl htier hcairns hlost happend)
    have hframe : m.updatesRow (applyGrad m t row eng step g none) := by
      rw [happly]
      exact ((((updatesRow_appendEntry happend).trans (Mod.updatesRow_store ..)).trans (updatesRow_writeReplicas ..)).trans
        (updatesRow_useGrad ..)).trans (updatesRow_noteUpdate ..)
    obtain ⟨hdone, himp, hms, href⟩ := hframe.unchanged
    rw [applyRow_of_one_grad hgrads (himp.trans himports) (href.trans hrefresh)] at hexec
    refine ⟨_, hexec, rfl, rfl, ?_, hms, ?_⟩
    · exact congrArg (· ++ [doneKey eng false t.id row]) hdone.symm
    · rw [Mod.onDev_mem, happly, noteUpdate_mem, Mod.onDev_mem, Mod.writeReplicas_mem]

end Sys2Proof.Machine
end

section
/-!
PROOF. VERSION_SWITCH where the descriptor array lies in a soft band that was lost (R205, R224, R270): SWITCH_PENDING enters what has been
written into the lost band since, which is part of the tiers and not of device memory.
-/

namespace Sys2Proof.Machine

/-! ## Bytes stored in a soft band that was lost, and read again (R270) -/

/-- Bytes listed from an address on are found each at its place. -/
theorem kfind_foldl_kput {da i n : Nat} (bs : List Byte) (k : KMap Byte) (h : i < bs.length) :
    kfind ((bs.zipIdx n).foldl (fun k b => kput k (da + b.2) b.1) k) (da + (n + i)) = bs[i]? := by
  induction bs generalizing i n k with
  | nil => simp at h
  | cons b bs ih =>
    rw [List.zipIdx_cons, List.foldl_cons]
    cases i with
    | zero => rw [kfind_foldl_kput_of_lt _ _ (by omega), kfind_kput, if_pos (by omega), List.getElem?_cons_zero]
    | succ i => rw [show n + (i + 1) = n + 1 + i by omega, ih _ (by simpa using h), List.getElem?_cons_succ]

section LostBand

variable {m : Mod} {da : Nat} {bs : List Byte} (hlost : inLostSoft m.dev da = true)
include hlost

theorem kfind_softNew_store_at {i : Nat} (h : i < bs.length) : kfind (m.store da bs).dev.tier.softNew (da + i) = bs[i]? := by
  simpa only [Mod.store, if_pos hlost, Dev.onTier_tier, Nat.zero_add] using kfind_foldl_kput (n := 0) bs m.dev.tier.softNew h

/-- What is stored in a lost soft band is what is loaded there. -/
theorem load_store_of_lost (hstart : m.dev.tier.started = false) : (m.store da bs).load da bs.length = bs := by
  obtain ⟨-, hlost'⟩ := m.store_lost da bs
  have hstart' : (m.store da bs).dev.tier.started = false := by simp [Mod.store, hlost, hstart]
  rw [Mod.load, if_neg (by simp [hstart']), if_pos (hlost' ▸ hlost)]
  refine List.ext_getElem (by simp) fun i hi hbs => ?_
  rw [List.getElem_map, List.getElem_range, kfind_softNew_store_at hlost hbs, List.getElem?_eq_getElem hbs]

/-- A store in a lost soft band that changes a byte there changes the tiers. -/
theorem store_changes_tier {i : Nat} (hi : i < bs.length) (hne : kfind m.dev.tier.softNew (da + i) ≠ bs[i]?) :
    (m.store da bs).dev.tier ≠ m.dev.tier := by
  intro h
  rw [← h, kfind_softNew_store_at hlost hi] at hne
  exact hne rfl

end LostBand

/-! ## The switch to a pending version (R224) -/

section PendingSwitch

variable {s : State} {desc : Nat} {x : Desc} {t : TDesc} (h : s.descReady desc 6 x)
  (htab : tdescAt s.mod (x.fld 8 2) = some t) (hfree : (s.mod.dev.tab.switches.any fun w => w.table = t.id) = false)
  (hpend : t.pendValid = true) (hver : x.fld 10 2 = t.pendVersion) (hchg : x.fld 12 1 = 0)
  (hext : t.extent ≤ kget t.extent s.mod.dev.tab.pendExtent t.id)
include h htab hfree hpend hver hchg hext

/-- A switch to the pending version is accepted: SWITCH_PENDING is set, and the switch waits for a COMMIT. -/
theorem versionSwitch_of_pending :
    exec (.versionSwitch desc) s = s.leaves (((s.begun desc).putTd t.id { t with switchPending := true }).onDev fun d => d.onTab fun k =>
      { k with switches := k.switches ++ [⟨desc, t.id, none⟩] }) := by
  have hexec : exec (.versionSwitch desc) s = execVersionSwitch desc s := rfl
  have hroom : ¬ kget t.extent (s.begun desc).dev.tab.pendExtent t.id < t.extent := Nat.not_lt.2 hext
  have hnone : ¬ ((s.begun desc).dev.tab.switches.any fun w => w.table = t.id) = true := by simp [hfree]
  rw [hexec, execVersionSwitch, onPlane_runDesc h, tdescAt_begun, htab]
  exact congrArg s.leaves ((if_neg hnone).trans ((if_pos ⟨hpend, hver⟩).trans ((if_neg (not_not.2 hchg)).trans (if_neg hroom))))

/-- Where that changes a byte of a soft band that was lost, the switch changes the tiers too. -/
theorem versionSwitch_changes_tier {s' : State}
    (hnew : ((s.begun desc).putTd t.id { t with switchPending := true }).dev.tier ≠ s.mod.dev.tier)
    (hexec : exec (.versionSwitch desc) s = .next s') : ¬ s.changesOnly s' [.mem, .hif, .tab] := by
  rintro ⟨-, -, hsame⟩
  cases (versionSwitch_of_pending h htab hfree hpend hver hchg hext).symm.trans hexec
  exact hnew (hsame .tier (by decide))

end PendingSwitch

/-- A descriptor that lies in a lost soft band is written again with another byte: the tiers change. -/
theorem begun_putTd_changes_tier {s : State} {m : Mod} {id i : Nat} {t t' : TDesc} (desc : Nat) (hs : s.mod = m.putTd id t)
    (hlost : inLostSoft m.dev (tdescDa m.dev.base id) = true) (hi : i < t.bytes.length) (hi' : i < t'.bytes.length)
    (hne : t.bytes[i]? ≠ t'.bytes[i]?) : ((s.begun desc).putTd id t').dev.tier ≠ s.mod.dev.tier := by
  obtain ⟨hbase, hsame⟩ := m.store_lost (tdescDa m.dev.base id) t.bytes
  have hbefore : kfind (s.begun desc).dev.tier.softNew (tdescDa m.dev.base id + i) = t.bytes[i]? := by
    rw [State.begun_tier, hs]
    exact kfind_softNew_store_at hlost hi
  have hlost' : inLostSoft (s.begun desc).dev (tdescDa m.dev.base id) = true := by
    have hbegun : inLostSoft (s.begun desc).dev = inLostSoft s.mod.dev := rfl
    rw [hbegun, hs]
    exact (congrFun hsame _).trans hlost
  have hda : (s.begun desc).dev.base = m.dev.base := by rw [State.begun_base, hs, Mod.putTd, hbase]
  rw [Mod.putTd, hda]
  exact store_changes_tier hlost' hi' (ne_of_eq_of_ne hbefore hne)

/-! ## A switch after the loss of the soft band that holds the descriptors -/

/-- Table 0, of version 1, with version 2 pending. -/
def pendingTable : TDesc := { parseTd (zeros 256) with
  version := 1, width := 32, extent := 3, rowmap := 0x40000, granG := 3, granRec := 3
  pendValid := true, pendVersion := 2, pendRowmap := 0x50000 }

/-- A VERSION_SWITCH of table 0 to version 2. -/
def switchDesc : Desc := ⟨0, 0, 0, BitVec.ofNat 512 (6 + 2 * 2 ^ 80), 0, false, false, ⟨0, 0, 0, 0⟩⟩

/-- The table once its switch has been accepted. -/
def switchedTable : TDesc := { pendingTable with switchPending := true }

/-- A module that has lost the soft band of die 0, in which the descriptor array lies (R270); the VERSION_SWITCH has been fetched. -/
def lostArrayMod : Mod := ⟨[], { Dev.reset with
  tier := { TierState.reset with softLost := [0] }
  hif := { HifState.reset with descs := [switchDesc] } }⟩

/-- The descriptor of the table has been written there again since. -/
def lostArrayState : State := { State.reset with mod := lostArrayMod.putTd pendingTable.id pendingTable }

theorem lostArrayMod_array : inLostSoft lostArrayMod.dev (tdescDa lostArrayMod.dev.base pendingTable.id) = true := by decide +kernel

/-- It is read as it was written. -/
theorem tdescAt_lostArrayState : tdescAt lostArrayState.mod pendingTable.id = some pendingTable := by
  obtain ⟨hbase, -⟩ := lostArrayMod.store_lost (tdescDa lostArrayMod.dev.base pendingTable.id) pendingTable.bytes
  have hload := load_store_of_lost (bs := pendingTable.bytes) lostArrayMod_array rfl
  have hlen : pendingTable.bytes.length = 256 := by decide +kernel
  rw [hlen] at hload
  simp only [tdescAt, lostArrayState, Mod.putTd, hbase, hload]
  decide +kernel

/-- Byte 194 of the descriptor goes from PEND_VALID to PEND_VALID and SWITCH_PENDING, in the lost soft band. -/
theorem lostArrayState_switch_changes_tier :
    ((lostArrayState.begun 0).putTd pendingTable.id switchedTable).dev.tier ≠ lostArrayState.mod.dev.tier := by
  have hlong : 194 < pendingTable.bytes.length ∧ 194 < switchedTable.bytes.length := by decide +kernel
  have hbyte : pendingTable.bytes[194]? ≠ switchedTable.bytes[194]? := by decide +kernel
  exact begun_putTd_changes_tier 0 rfl lostArrayMod_array hlong.1 hlong.2 hbyte

/-- Refutes O33: its last clause but one has VERSION_SWITCH change device memory, the host interface and the tables only. Where the
descriptor array lies in a soft band that was lost, SWITCH_PENDING is written into that band, whose new bytes the tiers hold: here for
`lostArrayState`. -/
theorem not_tablesAreCreatedAndSwitched : ¬ Obligations.TablesAreCreatedAndSwitched := by
  unfold Obligations.TablesAreCreatedAndSwitched
  intro h
  have hready : lostArrayState.descReady 0 6 switchDesc := by decide +kernel
  have hid : switchDesc.fld 8 2 = pendingTable.id := by decide +kernel
  have htab : tdescAt lostArrayState.mod (switchDesc.fld 8 2) = some pendingTable := by rw [hid, tdescAt_lostArrayState]
  have hfree : (lostArrayState.mod.dev.tab.switches.any fun w => w.table = pendingTable.id) = false := by decide +kernel
  have hver : switchDesc.fld 10 2 = pendingTable.pendVersion := by decide +kernel
  have hchg : switchDesc.fld 12 1 = 0 := by decide +kernel
  have hext : pendingTable.extent ≤ kget pendingTable.extent lostArrayState.mod.dev.tab.pendExtent pendingTable.id := by decide +kernel
  obtain ⟨-, -, -, -, hswitch⟩ := h lostArrayState 0 switchDesc
  obtain ⟨-, hswitch⟩ := hswitch hready
  obtain ⟨-, hpending, -⟩ := hswitch pendingTable htab
  obtain ⟨s', hexec, hframe, -⟩ := hpending hfree rfl hver hchg hext
  exact versionSwitch_changes_tier hready htab hfree rfl hver hchg hext lostArrayState_switch_changes_tier hexec hframe

end Sys2Proof.Machine
end

section
/-!
PROOF. Modules that are missing (R381, R383, R389): the QUERYs of a leader, a loss, the answers, the deputy and the walk to it.
-/

namespace Sys2Proof.Machine

/-! ## Tokens sent to several modules -/

/-- A token goes to the modules `dst`, in that order. -/
def Dev.sendTokens (d : Dev) (dst : List Nat) (t : Token) : Dev := d.onMs fun k => { k with out := k.out ++ dst.map fun i => (i, t) }

/-- So it does when it is made anew for each of them, where what has been sent has no part in it. -/
theorem foldl_sendToken {f : Dev → Token} (hf : ∀ d i t, f (d.sendToken i t) = f d) (d : Dev) (dst : List Nat) :
    dst.foldl (fun d i => d.sendToken i (f d)) d = d.sendTokens dst (f d) := by
  induction dst generalizing d with
  | nil => simp [Dev.sendTokens, Dev.onMs]
  | cons i dst ih =>
    rw [List.foldl_cons, ih, hf]
    simp [Dev.sendTokens, Dev.sendToken, Dev.onMs]

theorem Dev.sendAll_eq (d : Dev) (t : Token) : d.sendAll t = d.sendTokens (List.range (jobSize d)) t :=
  foldl_sendToken (f := fun _ => t) (fun _ _ _ => rfl) d _

/-- What the module does as leader or deputy is now `l`. -/
def Dev.setLead (d : Dev) (l : Lead) : Dev := d.onMs fun k => { k with lead := some l }

/-- The leader's work for its step is done. -/
def Dev.leadDone (d : Dev) : Dev := d.onMs fun k => { k with lead := k.lead.map fun l => { l with decided := true } }

theorem sendDecision_eq (d : Dev) (t : Token) : sendDecision d t = (d.sendTokens (List.range (jobSize d)) t).leadDone :=
  congrArg Dev.leadDone (d.sendAll_eq t)

section Frame

variable {s : State} {d : Dev} {ps : List Part} (h : s.changesOnly (s.withDev d) ps) (hp : Part.ms ∈ ps)
include h hp

theorem State.changesOnly.onMs (f : StepState → StepState) : s.changesOnly (s.withDev (d.onMs f)) ps := by
  obtain ⟨-, -, hsame⟩ := h
  refine ⟨rfl, rfl, fun p hnot => ?_⟩
  have hbefore := hsame p hnot
  cases p with
  | ms => exact absurd hp hnot
  | _ => exact hbefore

theorem State.changesOnly.sendTokens (dst : List Nat) (t : Token) : s.changesOnly (s.withDev (d.sendTokens dst t)) ps :=
  h.onMs hp _

end Frame

/-! ## Tokens taken (R378) -/

/-- A token that the module takes is acted on by its TYPE. -/
theorem receive_eq {s : State} {token : BitVec 512} {type : Nat} (h : s.takes token type = true) :
    receive s token type = s.leaves (tokenAct s.mod (tokenOf token)) := by
  simp only [State.takes, State.schedules, Bool.and_eq_true, Bool.not_eq_true', beq_iff_eq] at h
  obtain ⟨⟨⟨⟨hstop, hup⟩, hlost⟩, hkept⟩, htype⟩ := h
  rw [receive, onPlane_eq _ _ hstop]
  simp only [takeToken, htype, hlost, hup, hkept, tokenOf, or_true, if_true, Bool.false_eq_true, if_false]

/-- The type of a token that the module takes. -/
theorem type_of_takes {s : State} {token : BitVec 512} {type : Nat} (h : s.takes token type = true) : (tokenOf token).type = type := by
  simp only [State.takes, Bool.and_eq_true, beq_iff_eq] at h
  exact h.2

theorem statusReceive_eq {s : State} {token : BitVec 512} (h : s.takes token 8 = true) :
    exec (.statusReceive token) s = s.leaves (onStatus s.mod (tokenOf token)) := by
  refine (receive_eq h).trans ?_
  simp only [tokenAct, type_of_takes h]

theorem queryReceive_eq {s : State} {token : BitVec 512} (h : s.takes token 7 = true) :
    exec (.queryReceive token) s = s.leaves (onQuery s.mod (tokenOf token)) := by
  refine (receive_eq h).trans ?_
  simp only [tokenAct, type_of_takes h]

/-! ## The leader queries, and decides on the answers (R381) -/

section Leader

variable {s : State} {l : Lead}

/-- The leader queries the modules that are missing and awaits their STATUS. -/
def Dev.queryMissing (d : Dev) (l : Lead) : Dev :=
  (d.sendTokens (missingReady d l) (myToken d 7 l.step l.attempt)).setLead { l with asked := missingReady d l, status := [] }

theorem readytmoExpiry_of_missing (h : s.schedules = true) (hl : s.mod.dev.ms.lead = some l) (hme : isLeader s.mod.dev = true)
    (hdec : l.decided = false) (hdep : l.deputy = false) (hask : l.asked = []) (hmiss : missingReady s.mod.dev l ≠ []) :
    exec .readytmoExpiry s = .next (s.withDev (s.mod.dev.queryMissing l)) := by
  have hexec : exec .readytmoExpiry s = execReadytmoExpiry s := rfl
  have hsend := foldl_sendToken (f := fun d => myToken d 7 l.step l.attempt) (fun _ _ _ => rfl) s.mod.dev (missingReady s.mod.dev l)
  rw [hexec, execReadytmoExpiry, onSched_eq h]
  simp [Mod.onDev, hl, hme, hdec, hdep, hask, hmiss, hsend, Dev.queryMissing, Dev.setLead]

/-- The lowest index among the modules that have not answered. -/
def Lead.lowestLost (l : Lead) : Nat := (minBy id (unanswered l)).getD 0

/-- The leader tells the modules that have answered of the loss of the others. -/
def Dev.abortForLost (d : Dev) (l : Lead) : Dev :=
  ((d.sendTokens ((List.range (jobSize d)).filter fun i => !(unanswered l).contains i)
      (decision d 3 l.step l.attempt 0 12 l.lowestLost)).setLead { l with decided := true }).raise evMsModuleLost
    { hasS := true, s := l.step.toNat, x := some (unanswered l) }

theorem moduleLost_of_leader (d : Dev) (hdep : l.deputy = false) : moduleLost d l = d.abortForLost l := by
  have hsend := foldl_sendToken (f := fun _ => decision d 3 l.step l.attempt 0 12 l.lowestLost) (fun _ _ _ => rfl) d
  rw [moduleLost, if_neg (ne_true_of_eq_false hdep)]
  exact congrArg (fun e : Dev => (e.setLead { l with decided := true }).raise evMsModuleLost
    { hasS := true, s := l.step.toNat, x := some (unanswered l) }) (hsend _)

theorem queryTimeout_of_unanswered (h : s.schedules = true) (hl : s.mod.dev.ms.lead = some l) (hdec : l.decided = false)
    (hask : l.asked ≠ []) (hdep : l.deputy = false) (hmiss : unanswered l ≠ []) :
    exec .queryTimeout s = .next (s.withDev (s.mod.dev.abortForLost l)) := by
  have hexec : exec .queryTimeout s = execQueryTimeout s := rfl
  rw [hexec, execQueryTimeout, onSched_eq h]
  simp [Mod.onDev, hl, hdec, hask, decideStatus, hdep, hmiss, moduleLost_of_leader]

/-- The smallest key of a list that is not empty is found in it. -/
theorem minBy_of_ne_nil {α : Type} (key : α → Nat) {l : List α} (h : l ≠ []) :
    ∃ y, minBy key l = some y ∧ y ∈ l ∧ ∀ x ∈ l, key y ≤ key x := by
  induction l with
  | nil => exact absurd rfl h
  | cons a l ih =>
    rcases eq_or_ne l [] with rfl | hl
    · exact ⟨a, rfl, by simp, by simp⟩
    · obtain ⟨y, hy, hmem, hle⟩ := ih hl
      simp only [minBy, hy, List.forall_mem_cons]
      split
      · next hay => exact ⟨a, rfl, by simp, le_rfl, fun x hx => hay.trans (hle x hx)⟩
      · next hay => exact ⟨y, rfl, by simp [hmem], by omega, hle⟩

theorem Lead.lowestLost_spec (h : unanswered l ≠ []) : l.lowestLost ∈ unanswered l ∧ ∀ i ∈ unanswered l, l.lowestLost ≤ i := by
  obtain ⟨y, hy, hmem, hle⟩ := minBy_of_ne_nil id h
  simp only [Lead.lowestLost, hy]
  exact ⟨hmem, hle⟩

/-- The leader once the only module asked has sent its STATUS. -/
def Lead.answeredBy (l : Lead) (t : Token) : Lead := { l with status := addVote l.status t }

theorem unanswered_answeredBy {t : Token} (hask : l.asked = [t.src]) : unanswered (l.answeredBy t) = [] := by
  simp [unanswered, Lead.answeredBy, addVote, hask]

/-- The last STATUS decides: an ABORT with the first cause met, to every module. -/
theorem statusReceive_of_last {token : BitVec 512} (h : s.takes token 8 = true) (hl : s.mod.dev.ms.lead = some l)
    (hstep : l.step = (tokenOf token).step) (hatt : l.attempt = (tokenOf token).attempt) (hdec : l.decided = false)
    (hdep : l.deputy = false) (hask : l.asked = [(tokenOf token).src]) :
    exec (.statusReceive token) s = .next (s.withDev (((s.mod.dev.setLead (l.answeredBy (tokenOf token))).sendTokens
      (List.range (jobSize s.mod.dev))
      (decision s.mod.dev 3 l.step l.attempt 0 (lateCause (l.answeredBy (tokenOf token))) 0)).leadDone)) := by
  have hdecide (d : Dev) : decideStatus d (l.answeredBy (tokenOf token)) false = (d.sendTokens (List.range (jobSize d))
      (decision d 3 l.step l.attempt 0 (lateCause (l.answeredBy (tokenOf token))) 0)).leadDone := by
    rw [decideStatus, unanswered_answeredBy hask, show (l.answeredBy (tokenOf token)).deputy = false from hdep, ← sendDecision_eq]
    rfl
  rw [statusReceive_eq h]
  simp only [onStatus, Mod.onDev, hl]
  rw [if_pos ⟨hstep, hatt, hdec, by simp [hask]⟩]
  exact congrArg (fun d => Host.Outcome.next (s.withDev d)) (hdecide _)

end Leader

/-! ## A QUERY is answered, or makes its receiver deputy (R381, R389) -/

/-- An event does not touch the registers, so tokens are made as before. -/
@[simp] theorem myToken_raise (d : Dev) (ev : Nat × Nat) (a : Args) (type : Nat) (step : Word32) (attempt : Nat) :
    myToken (d.raise ev a) type step attempt = myToken d type step attempt := by
  simp [myToken, cfgFabMsCfgKidx, cfgFabMsIdJob, regField]

@[simp] theorem jobSize_raise (d : Dev) (ev : Nat × Nat) (a : Args) : jobSize (d.raise ev a) = jobSize d := by
  simp [jobSize, cfgFabMsCfgNmod, regField]

/-- The module leads step `n` in attempt `a` as its deputy, and has asked every module. -/
def Dev.leadAsDeputy (d : Dev) (n : Word32) (a : Nat) : Dev := d.onMs fun k => { k with
  took := k.took ++ [(n, a)]
  leader := some (cfgFabMsCfgKidx d.base)
  lead := some ⟨n, a, [], false, [], List.range (jobSize d), [], true, false⟩ }

/-- A module that does not lead becomes deputy: the leader has changed, and every module is queried. -/
def Dev.becomeDeputy (d : Dev) (n : Word32) (a : Nat) : Dev :=
  ((d.leadAsDeputy n a).raise evMsLeaderChanged { x := some [cfgFabMsCfgKidx d.base] }).sendTokens (List.range (jobSize d))
    (myToken d 7 n a)

theorem takeRole_of_not_leader {d : Dev} (n : Word32) (a : Nat) (h : leaderOf d ≠ some (cfgFabMsCfgKidx d.base)) :
    takeRole d n a = d.becomeDeputy n a := by
  simp only [takeRole, if_pos h, Dev.sendAll_eq, myToken_raise, jobSize_raise]
  rfl

section Query

variable {s : State} {token : BitVec 512} (h : s.takes token 7 = true)
include h

theorem queryReceive_of_answered
    (hans : (tokenOf token).deputy = false ∨ s.mod.dev.ms.took.contains ((tokenOf token).step, (tokenOf token).attempt) = true) :
    exec (.queryReceive token) s = .next (s.withDev (s.mod.dev.sendTokens [(tokenOf token).src]
      (statusToken s.mod.dev (tokenOf token).step (tokenOf token).attempt))) := by
  have hnot : ((tokenOf token).deputy && !s.mod.dev.ms.took.contains ((tokenOf token).step, (tokenOf token).attempt)) = false := by
    rcases hans with hno | htook
    · rw [hno, Bool.false_and]
    · rw [htook, Bool.not_true, Bool.and_false]
  rw [queryReceive_eq h, onQuery, Mod.onDev, if_neg (ne_true_of_eq_false hnot)]
  rfl

theorem queryReceive_of_deputy (hdep : (tokenOf token).deputy = true)
    (htook : s.mod.dev.ms.took.contains ((tokenOf token).step, (tokenOf token).attempt) = false)
    (hother : leaderOf s.mod.dev ≠ some (cfgFabMsCfgKidx s.mod.dev.base)) :
    exec (.queryReceive token) s = .next (s.withDev (s.mod.dev.becomeDeputy (tokenOf token).step (tokenOf token).attempt)) := by
  rw [queryReceive_eq h, onQuery, Mod.onDev, if_pos (by rw [hdep, htook]; rfl), takeRole_of_not_leader _ _ hother]

end Query

/-! ## No decision comes (R383, R389) -/

section NoDecision

variable {s : State} {n : Word32} {a : Nat} (h : s.schedules = true) (hsent : s.mod.dev.ms.sent = some (n, a))
include h hsent

/-- The next deputy candidate, where it is another module, is asked to take the role. -/
theorem committmoExpiry_of_other {l : Nat} (hl : leaderOf s.mod.dev = some l)
    (hother : (l + 1 + s.mod.dev.ms.walk) % jobSize s.mod.dev ≠ cfgFabMsCfgKidx s.mod.dev.base) :
    exec .committmoExpiry s = .next (s.withDev ((s.mod.dev.onMs fun k => { k with walk := k.walk + 1 }).sendTokens
      [(l + 1 + s.mod.dev.ms.walk) % jobSize s.mod.dev] { myToken s.mod.dev 7 n a with flags := 16 })) := by
  have hexec : exec .committmoExpiry s = execCommittmoExpiry s := rfl
  rw [hexec, execCommittmoExpiry, onSched_eq h]
  simp only [Mod.onDev, hsent, hl]
  exact congrArg (fun d => Host.Outcome.next (s.withDev d)) (if_neg hother)

/-- A host leader that has not decided is the subject of an event. -/
theorem hostLeaderTimeout_of_host (hl : leaderOf s.mod.dev = none) :
    exec .hostLeaderTimeout s = .next (s.withDev (s.mod.dev.raise evMsHostTimeout { hasS := true, s := n.toNat })) := by
  have hexec : exec .hostLeaderTimeout s = execHostLeaderTimeout s := rfl
  rw [hexec, execHostLeaderTimeout, onSched_eq h]
  simp only [Mod.onDev, hsent, hl]

end NoDecision

/-- Settles O23: by one rule for each command, whose change is tokens sent, the lead kept, and at most one event. -/
theorem missingModulesAreQueried : Obligations.MissingModulesAreQueried := by
  unfold Obligations.MissingModulesAreQueried
  intro s hs d
  have hms : s.changesOnly (s.withDev d) [.ms] := s.changesOnly_refl _
  have hboth : s.changesOnly (s.withDev d) [.ms, .events] := s.changesOnly_refl _
  refine ⟨fun l hl hme hdec hdep hask hmiss => ?missing, fun l hl hdec hask hdep hmiss => ?lost,
    fun token l ht hl hstep hatt hdec hdep hask => ?status, fun token ht => ⟨fun hans => ?answered, fun hdep htook hother => ?deputy⟩,
    fun n a l hsent hl hother => ?walk, fun n a hsent hl => ?host⟩
  case missing =>
    exact ⟨_, readytmoExpiry_of_missing hs hl hme hdec hdep hask hmiss,
      (hms.sendTokens (by decide) ..).onMs (by decide) _, rfl, rfl⟩
  case lost =>
    obtain ⟨hmem, hle⟩ := Lead.lowestLost_spec hmiss
    exact ⟨_, l.lowestLost, queryTimeout_of_unanswered hs hl hdec hask hdep hmiss,
      ((hboth.sendTokens (by decide) ..).onMs (by decide) _).raise (by decide) .., hmem, hle, rfl, rfl⟩
  case status =>
    exact ⟨_, statusReceive_of_last ht hl hstep hatt hdec hdep hask,
      ((hms.onMs (by decide) _).sendTokens (by decide) ..).onMs (by decide) _, rfl⟩
  case answered =>
    exact ⟨_, queryReceive_of_answered ht hans, hms.sendTokens (by decide) .., rfl⟩
  case deputy =>
    exact ⟨_, queryReceive_of_deputy ht hdep htook hother,
      ((hboth.onMs (by decide) _).raise (by decide) ..).sendTokens (by decide) .., rfl, rfl, rfl, rfl⟩
  case walk =>
    exact ⟨_, committmoExpiry_of_other hs hsent hl hother,
      (hms.onMs (by decide) _).sendTokens (by decide) .., rfl, rfl⟩
  case host =>
    exact ⟨_, hostLeaderTimeout_of_host hs hsent hl, (s.changesOnly_refl [.events]).raise (by decide) .., rfl⟩

end Sys2Proof.Machine
end

section
/-!
PROOF. The re-vote where the step record lies in a soft band that was lost (R270, R375, R420): the READY sent again has REPDIGEST written
into that band, whose new bytes are part of the tiers and not of device memory.
-/

namespace Sys2Proof.Machine

/-- Where nothing has been written into the lost band of the step record, a READY changes the tiers. -/
theorem sendReady_changes_tier {m : Mod} {n : Word32} (a : Nat) (h : inLostSoft m.dev (stepRecDa m.dev.base n + 16) = true)
    (hnone : m.dev.tier.softNew = []) : (sendReady m n a).dev.tier ≠ m.dev.tier := by
  intro htier
  have hnew := softNew_sendReady a h
  rw [htier, hnone] at hnew
  cases hnew

/-- A module that holds a step, and whose READY of it carried no FDIGEST, sends that READY again. -/
theorem digestRevoteSend_of_held {s : State} {n : Word32} {a : Nat} (h : s.schedules = true)
    (hsent : s.mod.dev.ms.sent = some (n, a)) (hheld : s.mod.dev.ms.held = true) (hnew : s.mod.dev.ms.revoted = false)
    (hfd : s.mod.dev.ms.sentFd = false) :
    exec .digestRevoteSend s = s.leaves ((sendReady s.mod n a).onDev fun d =>
      d.onMs fun k => { k with revoted := true, sentFd := false }) := by
  have hexec : exec .digestRevoteSend s = execDigestRevoteSend s := rfl
  rw [hexec, execDigestRevoteSend, onSched_eq h]
  simp [hsent, hheld, hnew, hfd]

/-- The module that has lost the soft band of its step record, with the READY of step 5 sent and a HOLD received. -/
def heldLostState : State := { lostBandState with
  mod := lostBandState.mod.onDev fun d => d.onMs fun k => { k with sent := some (5, 0), held := true } }

/-- Refutes O25: its third clause has DIGEST_REVOTE_SEND change device memory, steps and checking only. Where the step record lies in a
soft band that was lost, REPDIGEST is written into that band, whose new bytes the tiers hold: here for `heldLostState`. -/
theorem not_commitsRerunsAndRejoins : ¬ Obligations.CommitsRerunsAndRejoins := by
  unfold Obligations.CommitsRerunsAndRejoins
  intro h
  have hs : heldLostState.schedules = true := by decide +kernel
  have hlead : leaderOf heldLostState.mod.dev = some 0 := by decide +kernel
  have hband : inLostSoft heldLostState.mod.dev (stepRecDa heldLostState.mod.dev.base 5 + 16) = true := by decide +kernel
  obtain ⟨hstep, -⟩ := h
  obtain ⟨-, -, hrevote, -⟩ := hstep heldLostState hs
  obtain ⟨s', hexec, ⟨-, -, hsame⟩, -⟩ := hrevote 5 0 0 rfl rfl rfl rfl hlead
  cases (digestRevoteSend_of_held hs rfl rfl rfl rfl).symm.trans hexec
  exact sendReady_changes_tier 0 hband rfl (hsame .tier (by decide))

end Sys2Proof.Machine
end

section
/-!
PROOF. Sampled executions (R403, R405, R408, R410, R411, Table 10.5): the stream at the plots that replay it, the comparison, the vote,
and an express sample sent on.
-/

namespace Sys2Proof.Machine

/-! ## What checking keeps of the plots -/

theorem State.changesOnly.onChk {s : State} {d : Dev} {ps : List Part} (h : s.changesOnly (s.withDev d) ps) (hp : Part.chk ∈ ps)
    (f : ChkState → ChkState) : s.changesOnly (s.withDev (d.onChk f)) ps := by
  obtain ⟨-, -, hsame⟩ := h
  refine ⟨rfl, rfl, fun p hnot => ?_⟩
  have hbefore := hsame p hnot
  cases p with
  | chk => exact absurd hp hnot
  | _ => exact hbefore

/-- `d'` is `d` but for what checking keeps of the plots. -/
def Dev.healthOnly (d d' : Dev) : Prop := ∃ health, d' = d.onChk fun k => { k with health := health }

section HealthOnly

variable {d d' : Dev}

theorem Dev.healthOnly_refl (d : Dev) : d.healthOnly d := ⟨_, rfl⟩

theorem Dev.healthOnly.modHealth (h : d.healthOnly d') (i : Nat) (f : PlotHealth → PlotHealth) : d.healthOnly (modHealth d' i f) := by
  obtain ⟨_, rfl⟩ := h
  exact ⟨_, rfl⟩

theorem Dev.healthOnly.giveBack (h : d.healthOnly d') (i : Nat) : d.healthOnly (d'.giveBack i) := by
  unfold Dev.giveBack
  split
  · exact h
  · split
    · exact h.modHealth ..
    · exact h

theorem Dev.healthOnly.takeReplay (h : d.healthOnly d') (r : Nat) : d.healthOnly (takeReplay d' r) := by
  unfold Machine.takeReplay
  split
  · exact h.modHealth ..
  · exact h

theorem Dev.healthOnly.oweAll (h : d.healthOnly d') (l : List Nat) : d.healthOnly (oweAll d' l) := by
  induction l generalizing d' with
  | nil => exact h
  | cons i l ih => exact ih (h.modHealth i _)

theorem Dev.healthOnly.base (h : d.healthOnly d') : d'.base = d.base := by
  obtain ⟨_, rfl⟩ := h
  rfl

theorem Dev.healthOnly.samples (h : d.healthOnly d') : d'.chk.samples = d.chk.samples := by
  obtain ⟨_, rfl⟩ := h
  rfl

theorem State.changesOnly.healthOnly {s : State} {ps : List Part} (h : s.changesOnly (s.withDev d) ps) (hp : Part.chk ∈ ps)
    (hd : d.healthOnly d') : s.changesOnly (s.withDev d') ps := by
  obtain ⟨_, rfl⟩ := hd
  exact h.onChk hp _

theorem State.changesOnly.modHealth {s : State} {ps : List Part} (h : s.changesOnly (s.withDev d) ps) (hp : Part.chk ∈ ps) (i : Nat)
    (f : PlotHealth → PlotHealth) : s.changesOnly (s.withDev (Machine.modHealth d i f)) ps :=
  h.healthOnly hp ((Dev.healthOnly_refl d).modHealth i f)

end HealthOnly

theorem healthOf_modHealth_ne (d : Dev) {i j : Nat} (f : PlotHealth → PlotHealth) (h : i ≠ j) :
    healthOf (modHealth d i f) j = healthOf d j := kget_kmod_ne _ _ _ h

/-- Giving a borrowed plot back leaves the strikes of every plot. -/
theorem strikes_giveBack (d : Dev) (i j : Nat) : (healthOf (d.giveBack i) j).strikes = (healthOf d j).strikes := by
  unfold Dev.giveBack
  split
  · rfl
  · split
    · rcases eq_or_ne i j with rfl | hne
      · rw [healthOf_modHealth_self]
      · rw [healthOf_modHealth_ne _ _ hne]
    · rfl

/-- Plots that are to run the pack owe the run. -/
theorem owes_oweAll (d : Dev) (l : List Nat) {i : Nat} (h : i ∈ l ∨ (healthOf d i).owes = true) :
    (healthOf (oweAll d l) i).owes = true := by
  induction l generalizing d with
  | nil => exact h.resolve_left List.not_mem_nil
  | cons j l ih =>
    refine ih _ ?_
    rcases eq_or_ne j i with rfl | hne
    · exact .inr (by rw [healthOf_modHealth_self])
    · rw [healthOf_modHealth_ne _ _ hne]
      exact h.imp_left fun hmem => (List.mem_cons.1 hmem).resolve_left hne.symm

/-! ## A sample that is settled -/

/-- The device without a sample. -/
def Dev.dropSample (d : Dev) (x : Sample) : Dev := d.onChk fun k => { k with samples := k.samples.erase x }

theorem Dev.settle_healthOnly (d : Dev) (x : Sample) : (d.dropSample x).healthOnly (d.settle x) := by
  unfold Dev.settle
  dsimp only
  split
  · exact ((Dev.healthOnly_refl _).giveBack _).giveBack _
  · exact (Dev.healthOnly_refl _).giveBack _

theorem strikes_settle (d : Dev) (x : Sample) (i : Nat) : (healthOf (d.settle x) i).strikes = (healthOf d i).strikes := by
  unfold Dev.settle
  dsimp only
  split
  · exact (strikes_giveBack ..).trans (strikes_giveBack ..)
  · exact strikes_giveBack ..

/-- What an event leaves of the shared state depends on the shared state alone. -/
theorem Dev.raise_base_congr {d d' : Dev} (h : d'.base = d.base) (ev : Nat × Nat) (a : Args) (die unit : Nat) :
    (d'.raise ev a die unit).base = (d.raise ev a die unit).base := by
  simp only [Dev.raise, h]

/-! ## One rule for each command and outcome -/

section Sampled

variable {s : State} {S : Fin 4352} {fid index : Nat} {x : Sample} (hx : sampleOf s.mod.dev S fid index = some x)

section Stopped

variable (hstop : s.mod.dev.stopped = false)
include hx hstop

/-- A good stream at the replay plot gives its fingerprint. -/
theorem replayStreamReceive_of_replay {plot : Fin 4352} (fp : Word64) (hr : x.r = plot.val) :
    exec (.replayStreamReceive plot S fid index true fp) s = .next (s.withDev (s.mod.dev.putSample x { x with rfp := some fp })) := by
  have hexec : exec (.replayStreamReceive plot S fid index true fp) s = execReplayStreamReceive plot S fid index true fp s := rfl
  rw [hexec, execReplayStreamReceive, onPlaneDev_eq _ _ hstop]
  simp [hx, hr]

/-- A good stream at the third plot gives its fingerprint. -/
theorem replayStreamReceive_of_third {plot : Fin 4352} (fp : Word64) (hr : x.r ≠ plot.val) (ht : x.t = some plot.val) :
    exec (.replayStreamReceive plot S fid index true fp) s = .next (s.withDev (s.mod.dev.putSample x { x with tfp := some fp })) := by
  have hexec : exec (.replayStreamReceive plot S fid index true fp) s = execReplayStreamReceive plot S fid index true fp s := rfl
  rw [hexec, execReplayStreamReceive, onPlaneDev_eq _ _ hstop]
  simp [hx, hr, ht]

/-- A bad stream discards the sample, and the sampled plot is sampled again in the next step. -/
theorem replayStreamReceive_of_bad {plot : Fin 4352} (fp : Word64) (hplot : x.r = plot.val ∨ x.t = some plot.val) :
    exec (.replayStreamReceive plot S fid index false fp) s = .next (s.withDev (modHealth
      (((s.mod.dev.settle x).count cChkShadowCrc plot 1).raise evChkShadowCrc
        { hasS := true, s := x.step.toNat, entry := x.entry, exec := x.index } (instDie plot) x.logical)
      S fun h => { h with again := some (x.step + 1) })) := by
  have hexec : exec (.replayStreamReceive plot S fid index false fp) s = execReplayStreamReceive plot S fid index false fp s := rfl
  have hmine : ¬(x.r ≠ plot.val ∧ x.t ≠ some plot.val) := by tauto
  rw [hexec, execReplayStreamReceive, onPlaneDev_eq _ _ hstop]
  simp only [hx, if_neg hmine, Bool.not_false, if_true]

/-- Equal fingerprints settle the sample. -/
theorem replayCompare_of_equal (third : Fin 4352) (hst : x.st = .replay) (hr : x.rfp = some x.ofp) :
    exec (.replayCompare S fid index third) s = .next (s.withDev (s.mod.dev.settle x)) := by
  have hexec : exec (.replayCompare S fid index third) s = execReplayCompare S fid index third s := rfl
  rw [hexec, execReplayCompare, onPlaneDev_eq _ _ hstop]
  simp only [hx, hst, hr, if_true]

/-- Unequal fingerprints go to a third plot, and the step is noted at the sampled plot. -/
theorem replayCompare_of_unequal {third : Fin 4352} {fp : Word64} (hst : x.st = .replay) (hr : x.rfp = some fp) (hne : fp ≠ x.ofp)
    (hdie : instDie third ≠ instDie x.s) (hpool : healthyPool s.mod.dev third = true) :
    exec (.replayCompare S fid index third) s = .next (s.withDev ((modHealth
      (takeReplay ((s.mod.dev.putSample x { x with st := .third, t := some third.val }).count cChkMismatch S 1) third)
      S fun h => if x.step ∈ h.bad then h else { h with bad := h.bad ++ [x.step] }).raise evChkMismatch
        { hasS := true, s := x.step.toNat, entry := x.entry, exec := x.index, x := some [x.s, x.r] } (instDie x.s) x.logical)) := by
  have hexec : exec (.replayCompare S fid index third) s = execReplayCompare S fid index third s := rfl
  rw [hexec, execReplayCompare, onPlaneDev_eq _ _ hstop]
  simp only [hx, hst, hr, if_neg hne, hdie, hpool, Bool.true_eq_false, false_and, or_self, if_false]

/-- An express sample goes to a replay plot of its die. -/
theorem expressSampleForward_next (tag : Nat) {R : Fin 4352} (hexpress : x.express.isSome = true) (hst : x.st = .replay)
    (hok : replayOk s.mod.dev S R = true) :
    exec (.expressSampleForward S fid index tag R) s =
      .next (s.withDev (takeReplay (s.mod.dev.putSample x { x with express := some tag, r := R.val }) R)) := by
  have hexec : exec (.expressSampleForward S fid index tag R) s = execExpressSampleForward S fid index tag R s := rfl
  have hsome : x.express.isNone = false := by rw [← Option.not_isSome, hexpress]; rfl
  rw [hexec, execExpressSampleForward, onPlaneDev_eq _ _ hstop]
  simp only [hx, hsome, hst, hok, ne_eq, not_true_eq_false, Bool.not_true, Bool.false_eq_true, or_self, if_false]

end Stopped

/-- The plots of a vote that are to run the pack, by the fingerprints of the replay and the third plot (Table 10.5). -/
def Sample.oddPlots (x : Sample) (r t : Word64) (third : Nat) : List Nat :=
  if t = x.ofp then [x.r] else if r = t then [x.s] else [x.s, x.r, third]

section Vote

variable {r t : Word64} {ti : Nat} (h : s.schedules = true) (hst : x.st = .third) (hr : x.rfp = some r) (ht : x.tfp = some t)
  (hti : x.t = some ti)
include hx h hst hr ht hti

/-- With a pack the odd plots are to run it; the step is in doubt where the third plot does not agree with the sampled one. -/
theorem voteSettle_of_pack {pk : Pack} (hpack : s.mod.dev.chk.pack = some pk) :
    exec (.voteSettle S fid index) s = .next (s.withDev (oweAll
      (s.mod.dev.putSample x { x with st := .pack (x.oddPlots r t ti) (decide (t ≠ x.ofp)) }) (x.oddPlots r t ti))) := by
  have hexec : exec (.voteSettle S fid index) s = execVoteSettle S fid index s := rfl
  rw [hexec, execVoteSettle, onSched_eq h]
  simp only [Mod.onDev, hx, hst, hr, ht, hti, hpack, Sample.oddPlots]
  by_cases hagree : t = x.ofp
  · simp [hagree]
  · by_cases hsame : r = t
    · simp [hagree, hsame]
    · simp [hagree, hsame]

/-- With no pack the replay plot that alone differs is treated as passing: it takes a strike, and the sample is settled. -/
theorem voteSettle_without_pack (hne : r ≠ x.ofp) (hagree : t = x.ofp) (hpack : s.mod.dev.chk.pack = none) :
    exec (.voteSettle S fid index) s = .next (s.withDev ((strikePlot s.mod.dev x.r).settle x)) := by
  have hexec : exec (.voteSettle S fid index) s = execVoteSettle S fid index s := rfl
  subst hagree
  rw [hexec, execVoteSettle, onSched_eq h]
  simp [Mod.onDev, hx, hst, hr, ht, hti, hpack, hne, packOutcome]

end Vote

end Sampled

/-- The first strike of a plot, where one is not enough to make it fallow. -/
theorem strikePlot_of_first {d : Dev} {i : Nat} (hnone : (healthOf d i).strikes = []) (hmore : 1 < cfgChkRepairCfgStrikes d.base) :
    strikePlot d i = modHealth d i fun h => { h with strikes := [d.nowNs] } := by
  simp [strikePlot, hnone, Nat.not_le.2 hmore]

/-- Settles O27: by one rule for each command and outcome; beside samples, events and counters each changes what checking keeps of the
plots only. -/
theorem samplesAreVoted : Obligations.SamplesAreVoted := by
  unfold Obligations.SamplesAreVoted
  intro s S fid index x hstop d hx _ put
  have hchk : s.changesOnly (s.withDev d) [.chk] := s.changesOnly_refl _
  have hboth : s.changesOnly (s.withDev d) [.chk, .events] := s.changesOnly_refl _
  refine ⟨fun plot fp hr => ?replay, fun plot fp hr ht => ?third, fun plot fp hplot => ?bad,
    fun third fp hst hr => ⟨fun heq => ?equal, fun hne hdie hpool => ?unequal⟩,
    fun r t ti pk h hst hr hne ht hti hpack => ?vote, fun r ti h hst hr ht hti hne hpack hnone hmore => ?unpacked,
    fun tag R hexpress hst hok => ?express⟩
  case replay =>
    exact ⟨_, replayStreamReceive_of_replay hx hstop fp hr, hchk.onChk (by decide) _, rfl⟩
  case third =>
    exact ⟨_, replayStreamReceive_of_third hx hstop fp hr ht, hchk.onChk (by decide) _, rfl⟩
  case bad =>
    have hsettle := d.settle_healthOnly x
    refine ⟨_, replayStreamReceive_of_bad hx hstop fp hplot, ?_, ?_, ?_, Dev.raise_base_congr ?_ ..⟩
    · exact ((((hboth.onChk (by decide) _).healthOnly (by decide) hsettle).count (by decide) ..).raise (by decide) ..).modHealth
        (by decide) ..
    · exact hsettle.samples
    · exact congrArg PlotHealth.again (healthOf_modHealth_self ..)
    · exact congrArg (BaseState.count · cChkShadowCrc plot 1) hsettle.base
  case equal =>
    subst heq
    have hsettle := d.settle_healthOnly x
    exact ⟨_, replayCompare_of_equal hx hstop third hst hr, (hchk.onChk (by decide) _).healthOnly (by decide) hsettle, hsettle.samples⟩
  case unequal =>
    have htake := (Dev.healthOnly_refl
      ((d.putSample x { x with st := .third, t := some third.val }).count cChkMismatch S 1)).takeReplay third
    have hnote := htake.modHealth S fun h => if x.step ∈ h.bad then h else { h with bad := h.bad ++ [x.step] }
    refine ⟨_, replayCompare_of_unequal hx hstop hst hr hne hdie hpool, ?_, ?_, ?_, ?_⟩
    · exact (((hboth.onChk (by decide) _).count (by decide) ..).healthOnly (by decide) hnote).raise (by decide) ..
    · rw [Dev.raise_chk, hnote.samples, Dev.count_chk]
      rfl
    · rw [healthOf_congr (congrArg ChkState.health (Dev.raise_chk ..)), healthOf_modHealth_self]
      split
      · assumption
      · exact List.mem_append_right _ (List.mem_singleton_self _)
    · exact Dev.raise_base_congr hnote.base ..
  case vote =>
    intro ran
    have hvote := voteSettle_of_pack hx h hst hr ht hti hpack
    have howe := (Dev.healthOnly_refl (d.putSample x { x with st := .pack (x.oddPlots r t ti) (decide (t ≠ x.ofp)) })).oweAll
      (x.oddPlots r t ti)
    have hran : ∀ odd doubt, x.oddPlots r t ti = odd → decide (t ≠ x.ofp) = doubt → ran odd doubt := by
      rintro _ _ rfl rfl
      exact ⟨_, hvote, (hchk.onChk (by decide) _).healthOnly (by decide) howe, howe.samples, fun i hi => owes_oweAll _ _ (.inl hi)⟩
    refine ⟨fun hagree => hran _ _ ?_ ?_, fun hsame hother => hran _ _ ?_ ?_, fun hdiff hother => hran _ _ ?_ ?_⟩
    · rw [Sample.oddPlots, if_pos hagree]
    · simp [hagree]
    · rw [Sample.oddPlots, if_neg hother, if_pos hsame]
    · simp [hother]
    · rw [Sample.oddPlots, if_neg hother, if_neg hdiff]
    · simp [hother]
  case unpacked =>
    have hsettle := (strikePlot d x.r).settle_healthOnly x
    have hstrike : strikePlot d x.r = _ := strikePlot_of_first hnone hmore
    refine ⟨_, voteSettle_without_pack hx h hst hr ht hti hne rfl hpack, ?_, ?_, ?_⟩
    · exact (State.changesOnly.onChk (hstrike ▸ hchk.modHealth (by decide) ..) (by decide) _).healthOnly (by decide) hsettle
    · rw [hsettle.samples, hstrike]
      rfl
    · rw [strikes_settle, hstrike, healthOf_modHealth_self]
  case express =>
    have htake := (Dev.healthOnly_refl (d.putSample x { x with express := some tag, r := R.val })).takeReplay R
    refine ⟨_, expressSampleForward_next hx hstop tag hexpress hst hok, (hchk.onChk (by decide) _).healthOnly (by decide) htake, ?_⟩
    rw [htake.samples]
    rfl

end Sys2Proof.Machine
end

section
/-!
PROOF. Update engines (R414, R415, R426, R431, Table 10.10): the check of a sampled update and what comes of a disagreement, an engine's
pack, and the cycle of a quadrant.
-/

namespace Sys2Proof.Machine

/-! ## The frame -/

section Frame

variable {s : State} {d : Dev} {ps : List Part} (h : s.changesOnly (s.withDev d) ps)
include h

theorem State.changesOnly.onPwr (hp : Part.pwr ∈ ps) (f : PwrState → PwrState) : s.changesOnly (s.withDev (d.onPwr f)) ps := by
  obtain ⟨-, -, hsame⟩ := h
  refine ⟨rfl, rfl, fun p hnot => ?_⟩
  have hbefore := hsame p hnot
  cases p with
  | pwr => exact absurd hp hnot
  | _ => exact hbefore

theorem State.changesOnly.askCycle (hp : Part.pwr ∈ ps) (dom : Nat) (tag : Option Nat) :
    s.changesOnly (s.withDev (d.askCycle dom tag)) ps :=
  h.onPwr hp fun p => { p with waiting := p.waiting ++ [⟨dom, tag⟩] }

theorem State.changesOnly.onFw (hp : Part.fw ∈ ps) (f : FwState → FwState) : s.changesOnly (s.withDev (d.onFw f)) ps := by
  obtain ⟨-, -, hsame⟩ := h
  refine ⟨rfl, rfl, fun p hnot => ?_⟩
  have hbefore := hsame p hnot
  cases p with
  | fw => exact absurd hp hnot
  | _ => exact hbefore

theorem State.changesOnly.withPlots (hp : Part.plots ∈ ps) (plots : KMap Plot) :
    s.changesOnly (s.withDev { d with plots := plots }) ps := by
  obtain ⟨-, -, hsame⟩ := h
  refine ⟨rfl, rfl, fun p hnot => ?_⟩
  have hbefore := hsame p hnot
  cases p with
  | plots => exact absurd hp hnot
  | _ => exact hbefore

theorem State.changesOnly.packCounts (hp : Part.events ∈ ps) (n f : Nat) : s.changesOnly (s.withDev (d.packCounts n f)) ps := by
  unfold Dev.packCounts
  dsimp only
  split <;> split
  · exact h
  · exact h.count hp ..
  · exact h.count hp ..
  · exact (h.count hp ..).count hp ..

end Frame

/-! ## Convictions of engines (R415) -/

/-- A span that begins in no CLEARED step is asked back whole. -/
theorem askRollback_of_newer {d : Dev} {n : Word32} (suspect : Bool) (h : stepNewer n d.base.cleared = true) :
    askRollback d n suspect = d.onChk fun k => { k with rbReq := k.rbReq ++ [(n, suspect)] } := by
  rw [askRollback, if_pos h]

/-- The first step of the span of an engine's conviction. -/
def EngineHealth.span (h : EngineHealth) : Option Word32 := match h.agreed with
  | some a => some (a + 1)
  | none => h.worked.head?

theorem EngineHealth.span_of_agreed {h : EngineHealth} {a : Word32} (ha : h.agreed = some a) : h.span = some (a + 1) := by
  rw [EngineHealth.span, ha]

/-- An engine convicted again within 24 hours of a cycle has failed for good (R432). -/
def EngineHealth.failsAt (h : EngineHealth) (now : Nat) : Bool := match h.cycledAt with
  | some t => decide (now ≤ t + 24 * 3600000000000)
  | none => false

/-- What checking keeps of an engine once it is convicted. -/
def EngineHealth.convict (h : EngineHealth) (now : Nat) : EngineHealth :=
  { h with convicted := true, failed := h.failed || h.failsAt now, agreed := none, worked := [], bad := [] }

/-- An engine is convicted: it has failed for good, or its domain is to be cycled. -/
def Dev.takeOutEngine (d : Dev) (e : Nat) : Dev :=
  let h := kget EngineHealth.reset d.chk.engines e
  let d' := (d.onChk fun k => { k with engines := kput k.engines e (h.convict d.nowNs) }).raise evEngineConvicted
    { hasS := true, s := (h.span.getD 0).toNat, x := some [e] }
  if h.failsAt d.nowNs then d'.raise evEngineFailed { x := some [e] } else d'.askCycle (if e < 4 then 16 + e else 22 + e) none

/-- An engine that is not the home engine affects no step. -/
theorem convictEngine_checker (d : Dev) (e : Nat) : convictEngine d e false = d.takeOutEngine e := by
  unfold convictEngine
  dsimp only
  split
  next htrue => cases htrue
  next => rfl

/-- The conviction of a home engine asks for a rollback of its span. -/
theorem convictEngine_home {d : Dev} {e : Nat} {n : Word32} (hspan : (kget EngineHealth.reset d.chk.engines e).span = some n) :
    convictEngine d e true = askRollback (d.takeOutEngine e) n false := by
  unfold convictEngine
  dsimp only
  split
  next k hk _ =>
    obtain rfl : n = k := Option.some.inj (hspan.symm.trans hk)
    rfl
  next hnot => exact absurd rfl (hnot n hspan)

section TakeOutEngine

variable (d : Dev) (e : Nat)

theorem chk_takeOutEngine : (d.takeOutEngine e).chk = { d.chk with
    engines := kput d.chk.engines e ((kget EngineHealth.reset d.chk.engines e).convict d.nowNs) } := by
  unfold Dev.takeOutEngine
  dsimp only
  split <;> rfl

theorem convicted_takeOutEngine : (kget EngineHealth.reset (d.takeOutEngine e).chk.engines e).convicted = true := by
  rw [chk_takeOutEngine, kget_kput_self]
  rfl

@[simp] theorem cleared_takeOutEngine : (d.takeOutEngine e).base.cleared = d.base.cleared := by
  unfold Dev.takeOutEngine
  dsimp only
  split
  · rw [Dev.raise_base_cleared, Dev.raise_base_cleared, Dev.onChk_base]
  · exact Dev.raise_base_cleared ..

end TakeOutEngine

theorem State.changesOnly.takeOutEngine {s : State} {d : Dev} {ps : List Part} (h : s.changesOnly (s.withDev d) ps)
    (hchk : Part.chk ∈ ps) (hpwr : Part.pwr ∈ ps) (hev : Part.events ∈ ps) (e : Nat) :
    s.changesOnly (s.withDev (d.takeOutEngine e)) ps := by
  unfold Dev.takeOutEngine
  dsimp only
  split
  · exact ((h.onChk hchk _).raise hev ..).raise hev ..
  · exact ((h.onChk hchk _).raise hev ..).askCycle hpwr ..

/-! ## UPDATE_CHECK (R414, R415) -/

/-- The engine that checks an update: the next of its home engine's four. -/
def UpdSample.checker (u : UpdSample) : Nat := u.home / 4 * 4 + (u.home % 4 + 1) % 4

/-- A sampled update has been checked. -/
def Dev.checked (d : Dev) (u : UpdSample) : Dev :=
  (d.onChk fun k => { k with upds := k.upds.erase u }).count cUpdCheck u.checker 1

/-- The milestone is noted as one whose samples on the home engine did not all agree. -/
def Dev.disagreed (d : Dev) (u : UpdSample) (step : Word32) : Dev :=
  (d.checked u).onChk fun k => { k with engines := kmod EngineHealth.reset k.engines u.home fun h => { h with bad := h.bad ++ [step] } }

/-- Samples that agree change of checking only what it keeps of the engines. -/
theorem engineAgreed_eq (d : Dev) (e : Nat) (step : Word32) :
    ∃ engines, engineAgreed d e step = d.onChk fun k => { k with engines := engines } := by
  unfold engineAgreed
  split <;> exact ⟨_, rfl⟩

section Check

variable {s : State} {table : Fin 4096} {row : BitVec 40} {step : Word32} {checker third : Option (List Byte)} {u : UpdSample}
  (hstop : s.mod.dev.stopped = false)
  (hu : (s.mod.dev.chk.upds.find? fun u => u.table = table.val && u.row = row.toNat && u.step = step) = some u)
include hstop hu

/-- The checker's record is the home record. -/
theorem updateCheck_of_equal (hc : checker.getD (checkRecord s.mod u) = updHome s.mod u) :
    exec (.updateCheck table row step checker third) s = .next (s.withDev (engineAgreed (s.mod.dev.checked u) u.home step)) := by
  have hexec : exec (.updateCheck table row step checker third) s = execUpdateCheck table row step checker third s := rfl
  rw [hexec, execUpdateCheck, onPlane_eq _ _ hstop]
  simp only [hu, hc, if_true]
  rfl

section Disagree

variable (hc : checker.getD (checkRecord s.mod u) ≠ updHome s.mod u)
include hc

/-- The third engine's record is the home record: the checker is odd. -/
theorem updateCheck_of_odd_checker (ht : third.getD (checkRecord s.mod u) = updHome s.mod u) :
    exec (.updateCheck table row step checker third) s =
      .next (s.withDev (convictEngine (s.mod.dev.disagreed u step) u.checker false)) := by
  have hexec : exec (.updateCheck table row step checker third) s = execUpdateCheck table row step checker third s := rfl
  rw [hexec, execUpdateCheck, onPlane_eq _ _ hstop]
  simp only [hu, if_neg hc, if_pos ht]
  rfl

variable (ht : third.getD (checkRecord s.mod u) ≠ updHome s.mod u)
include ht

/-- The third engine's record is the checker's: the home engine is odd. -/
theorem updateCheck_of_odd_home (htc : third.getD (checkRecord s.mod u) = checker.getD (checkRecord s.mod u)) :
    exec (.updateCheck table row step checker third) s =
      .next (s.withDev (convictEngine (s.mod.dev.disagreed u step) u.home true)) := by
  have hexec : exec (.updateCheck table row step checker third) s = execUpdateCheck table row step checker third s := rfl
  rw [hexec, execUpdateCheck, onPlane_eq _ _ hstop]
  simp only [hu, if_neg hc, if_neg ht, if_pos htc]
  rfl

/-- No two records are equal: the step is SUSPECT. -/
theorem updateCheck_of_none_equal (htc : third.getD (checkRecord s.mod u) ≠ checker.getD (checkRecord s.mod u)) :
    ∃ a : Args, exec (.updateCheck table row step checker third) s =
      .next (s.withDev ((askRollback (s.mod.dev.disagreed u step) step true).raise evChkSuspect a)) := by
  have hexec : exec (.updateCheck table row step checker third) s = execUpdateCheck table row step checker third s := rfl
  rw [hexec, execUpdateCheck, onPlane_eq _ _ hstop]
  simp only [hu, if_neg hc, if_neg ht, if_neg htc]
  exact ⟨_, rfl⟩

end Disagree

end Check

/-! ## ENGINE_PACK_RUN (R426) -/

/-- Cases of a pack that an engine runs: those of the sow engines, or of the Iaquas. -/
def Pack.engineCases (p : Pack) (e : Nat) : Nat := (p.cases.filter fun c => c.unit = (if e < 4 then 1 else 2)).length

/-- An engine passes its pack outside any application window. -/
theorem enginePackRun_of_pass {s : State} {e : Fin 8} {pk : Pack} (h : s.schedules = true) (hpack : s.mod.dev.chk.pack = some pk)
    (happ : s.mod.dev.sow.app = none) :
    exec (.enginePackRun e 0) s = .next (s.withDev ((s.mod.dev.packCounts (pk.engineCases e) 0).onChk fun k =>
      { k with engines := kmod EngineHealth.reset k.engines e fun h => { h with packDone := s.mod.dev.nowNs } })) := by
  have hexec : exec (.enginePackRun e 0) s = execEnginePackRun e 0 s := rfl
  have hnow : (s.mod.dev.packCounts (pk.engineCases e) 0).nowNs = s.mod.dev.nowNs := by
    unfold Dev.packCounts
    dsimp only
    split <;> split <;> rfl
  rw [hexec, execEnginePackRun, onSched_eq h, ← hnow]
  simp only [Mod.onDev, hpack, happ, Option.isSome_none, Bool.false_eq_true, if_false, Nat.zero_min, if_true]
  rfl

/-! ## QUADRANT_CYCLE (R431, Table 10.10) -/

/-- Plots of a domain that is switched off keep what Table 15.3 keeps. -/
def Dev.cyclePlots (d : Dev) (l : List Nat) : Dev :=
  l.foldl (fun d i => if (kfind d.plots i).isSome then d.modPlot i cycledPlot else d) d

theorem cyclePlots_eq (d : Dev) (l : List Nat) : ∃ plots, d.cyclePlots l = { d with plots := plots } := by
  induction l generalizing d with
  | nil => exact ⟨_, rfl⟩
  | cons i l ih =>
    obtain ⟨plots, hl⟩ := ih (if (kfind d.plots i).isSome then d.modPlot i cycledPlot else d)
    refine ⟨plots, hl.trans ?_⟩
    split <;> rfl

/-- SRAM is kept. -/
theorem sram_cyclePlots (d : Dev) (l : List Nat) (j : Nat) : ((d.cyclePlots l).plot j).sram = (d.plot j).sram := by
  induction l generalizing d with
  | nil => rfl
  | cons i l ih =>
    refine (ih _).trans ?_
    dsimp only
    split
    · rcases eq_or_ne i j with rfl | hne
      · rw [Dev.plot_modPlot_self]
        rfl
      · rw [Dev.plot_modPlot_ne _ _ hne]
    · rfl

/-- A quadrant's plots and its controller are off. -/
def Dev.quadOff (d : Dev) (q : Nat) : Dev := (d.cyclePlots (quadPlots q)).modProc (16 + q) fun p => { p with run := false }

theorem sram_quadOff (d : Dev) (q j : Nat) : ((d.quadOff q).plot j).sram = (d.plot j).sram := by
  rw [Dev.quadOff, Dev.modProc, Dev.plot_onFw, sram_cyclePlots]

/-- A quadrant whose express plots are all elsewhere and whose blocks have completed is switched off. -/
theorem turnQuad_of_idle {d : Dev} {q : Nat} (happ : d.sow.app = none) (hexpress : ((quadPlots q).filter fun i => expressAt d.base i) = [])
    (hblocks : ∀ i ∈ quadPlots q, (d.plot i).blocks = []) : turnQuad d q = .go (d.quadOff q) := by
  have hidle : ¬((quadPlots q).any fun i => !(d.plot i).blocks.isEmpty) = true := by
    simp only [List.any_eq_true, not_exists, not_and]
    intro i hi
    simp [hblocks i hi]
  unfold turnQuad
  rw [if_neg (by rw [happ]; exact Bool.false_ne_true), hexpress]
  dsimp only [moveAllOut]
  rw [if_neg hidle, Dev.quadOff, Dev.cyclePlots]

section StartCycle

variable {d d' : Dev} {q : Nat} (hq : q < 16) (hcycle : d.pwr.cycle = none) (hwait : d.pwr.waiting = [⟨q, none⟩])
  (hup : powerUp d = true)
include hq hcycle hwait hup

/-- A quadrant's cycle that waits alone waits on where the quadrant still has work to end. -/
theorem startCycle_of_wait (hturn : turnQuad d q = .wait d') : startCycle d = d' := by
  simp [startCycle, hup, hcycle, hwait, turnCycle, hq, hturn]

/-- It begins where the quadrant has none. -/
theorem startCycle_of_go (hturn : turnQuad d q = .go d') : startCycle d = d'.onPwr fun p =>
    { p with waiting := [], cycle := some ⟨q, none⟩, on := p.on &&& ~~~(BitVec.ofNat 30 (2 ^ q)) } := by
  simp [startCycle, hup, hcycle, hwait, turnCycle, hq, hturn]

end StartCycle

/-- The domain that is switched off is off. -/
theorem bitOf_switched_off (on : BitVec 30) {q : Nat} (hq : q < 30) : bitOf (on &&& ~~~(BitVec.ofNat 30 (2 ^ q))).toNat q = false := by
  simp only [bitOf, BitVec.testBit_toNat, BitVec.getLsbD_and, BitVec.getLsbD_not, BitVec.getLsbD_ofNat, Nat.testBit_two_pow_self, hq,
    decide_true, Bool.and_self, Bool.not_true, Bool.and_false]

/-- A quadrant that is due asks for its cycle where none runs or waits, and the power core turns to it. -/
theorem quadrantCycle_of_due {s : State} {q : Fin 16} (hstop : s.mod.dev.stopped = false) (hdue : quadDue s.mod.dev q = true)
    (hcycle : s.mod.dev.pwr.cycle = none) (hwait : s.mod.dev.pwr.waiting = []) :
    exec (.quadrantCycle q) s = .next (s.withDev (startCycle (s.mod.dev.askCycle q none))) := by
  have hexec : exec (.quadrantCycle q) s = execQuadrantCycle q s := rfl
  rw [hexec, execQuadrantCycle, onPlaneDev_eq _ _ hstop]
  simp [hdue, Dev.cycling, hcycle, hwait]

/-- Settles O29: by one rule for each outcome of a check, one for a pack that passes, and one for a cycle that is asked for. -/
theorem enginesAreChecked : Obligations.EnginesAreChecked := by
  unfold Obligations.EnginesAreChecked
  intro s hstop m d
  refine ⟨fun table row step checker third u hu _ => ?check, fun e pk h hpack happ => ?pack,
    fun q hdue hcycle hwait hup => ⟨fun happ => ?waits, fun happ hexpress hblocks => ?goes⟩⟩
  case check =>
    have hchecked : s.changesOnly (s.withDev (d.checked u)) [.chk, .pwr, .events] :=
      (((s.changesOnly_refl _).onChk (d := d) (by decide) _).count (by decide) ..)
    have hdis : s.changesOnly (s.withDev (d.disagreed u step)) [.chk, .pwr, .events] := hchecked.onChk (by decide) _
    refine ⟨fun hc => ?equal, fun hc ht => ?checker, fun a hc htc ht ha hnew => ?home, fun hc htc ht hnew => ?none⟩
    case equal =>
      obtain ⟨engines, hagreed⟩ := engineAgreed_eq (d.checked u) u.home step
      refine ⟨_, updateCheck_of_equal hstop hu hc, ?_, ?_⟩
      · rw [hagreed]
        exact hchecked.onChk (by decide) _
      · rw [hagreed]
        exact ⟨rfl, rfl, rfl, rfl⟩
    case checker =>
      refine ⟨_, updateCheck_of_odd_checker hstop hu hc ht, ?_⟩
      rw [convictEngine_checker]
      refine ⟨hdis.takeOutEngine (by decide) (by decide) (by decide) _, ?_, convicted_takeOutEngine .., ?_⟩
      · rw [chk_takeOutEngine]
        rfl
      · rw [chk_takeOutEngine]
        rfl
    case home =>
      have hspan : (kget EngineHealth.reset (d.disagreed u step).chk.engines u.home).span = some (a + 1) := by
        rw [Dev.disagreed, Dev.onChk_chk, kget_kmod_self]
        exact EngineHealth.span_of_agreed ha
      refine ⟨_, updateCheck_of_odd_home hstop hu hc ht htc, ?_⟩
      rw [convictEngine_home hspan, askRollback_of_newer _ (by rwa [cleared_takeOutEngine])]
      refine ⟨(hdis.takeOutEngine (by decide) (by decide) (by decide) _).onChk (by decide) _, ?_, convicted_takeOutEngine .., ?_⟩
      · rw [Dev.onChk_chk, chk_takeOutEngine]
        rfl
      · rw [Dev.onChk_chk, chk_takeOutEngine]
        rfl
    case none =>
      obtain ⟨a, hexec⟩ := updateCheck_of_none_equal hstop hu hc ht htc
      refine ⟨_, hexec, ?_⟩
      rw [askRollback_of_newer (d := s.mod.dev.disagreed u step) _ hnew]
      exact ⟨(hdis.onChk (by decide) _).raise (by decide) .., rfl, rfl, rfl⟩
  case pack =>
    refine ⟨_, enginePackRun_of_pass h hpack happ,
      (((s.changesOnly_refl _).packCounts (d := d) (by decide) ..).onChk (by decide) _), ?_⟩
    rw [Dev.onChk_chk, kget_kmod_self, chk_packCounts]
  case waits =>
    have hasked : (d.askCycle q none).pwr.waiting = [⟨q, none⟩] := congrArg (· ++ [(⟨q, none⟩ : CycleReq)]) hwait
    have hturn : turnQuad (d.askCycle q none) q = .wait (d.askCycle q none) := if_pos happ
    have hone := startCycle_of_wait (d := d.askCycle q none) q.isLt hcycle hasked hup hturn
    refine ⟨_, (quadrantCycle_of_due hstop hdue hcycle hwait).trans (by rw [hone]),
      (s.changesOnly_refl _).askCycle (d := d) (by decide) .., ?_⟩
    rw [← hasked]
    rfl
  case goes =>
    have hasked : (d.askCycle q none).pwr.waiting = [⟨q, none⟩] := congrArg (· ++ [(⟨q, none⟩ : CycleReq)]) hwait
    have hturn := turnQuad_of_idle (d := d.askCycle q none) (q := q) happ hexpress hblocks
    have hone := startCycle_of_go (d := d.askCycle q none) q.isLt hcycle hasked hup hturn
    obtain ⟨plots, hplots⟩ := cyclePlots_eq (d.askCycle q none) (quadPlots q)
    refine ⟨_, (quadrantCycle_of_due hstop hdue hcycle hwait).trans (by rw [hone]), ?_, ?_, ?_, ?_, fun i _ => ?_⟩
    · rw [Dev.quadOff, hplots]
      exact ((((s.changesOnly_refl _).askCycle (d := d) (by decide) ..).withPlots (by decide) _).onFw (by decide) _).onPwr (by decide) _
    · rw [Dev.onPwr_pwr]
    · rw [Dev.onPwr_pwr]
    · rw [Dev.onPwr_pwr]
      exact bitOf_switched_off _ (q.isLt.trans (by decide))
    · rw [Dev.plot_onPwr, sram_quadOff]
      rfl

end Sys2Proof.Machine
end

section
/-!
PROOF. PACK_LOAD and the mailbox operations on loans (R424, R498, R501, Table 13.5): what an answer and a message sent may change, then one
rule for each outcome.
-/

namespace Sys2Proof.Machine

/-! ## What an answer changes (R534, R535) -/

/-- `d'` is `d` but for the firmware's state, and what has left for the host or waits to. -/
def Dev.mailOnly (d d' : Dev) : Prop :=
  ∃ fw out pend, d' = { d with fw := fw, base := { d.base with out := out, msixPend := pend } }

section MailOnly

variable {d d' : Dev}

theorem Dev.mailOnly_refl (d : Dev) : d.mailOnly d := ⟨_, _, _, rfl⟩

theorem Dev.mailOnly.onFw (h : d.mailOnly d') (f : FwState → FwState) : d.mailOnly (d'.onFw f) := by
  obtain ⟨_, _, _, rfl⟩ := h
  exact ⟨_, _, _, rfl⟩

theorem Dev.mailOnly.hostWrite (h : d.mailOnly d') (addr : Nat) (data : List Byte) : d.mailOnly (d'.hostWrite addr data) := by
  obtain ⟨_, _, _, rfl⟩ := h
  exact ⟨_, _, _, rfl⟩

theorem Dev.mailOnly.msixSend (h : d.mailOnly d') (v : Nat) : d.mailOnly (d'.msixSend v) := by
  obtain ⟨fw, out, pend, rfl⟩ := h
  simp only [Dev.msixSend, BaseState.msixSend]
  split
  · split
    · exact ⟨fw, out, pend, rfl⟩
    · exact ⟨_, _, _, rfl⟩
  · exact ⟨_, _, _, rfl⟩

theorem Dev.mailOnly.flushRsps (h : d.mailOnly d') (n : Nat) : d.mailOnly (flushRsps n d') := by
  induction n generalizing d' with
  | zero => exact h
  | succ n ih =>
    rw [Machine.flushRsps]
    split
    · exact h
    · split
      · exact h
      · exact ih ((((h.hostWrite ..).onFw _).msixSend _).onFw _)

theorem Dev.mailOnly.answer (h : d.mailOnly d') (op status : Nat) (final : Bool) (tag : Nat) (payload : List Byte) :
    d.mailOnly (d'.answer op status final tag payload) := (h.onFw _).flushRsps _

theorem Dev.mailOnly_endReq (d : Dev) (r : MbxReq) (status : Nat) (payload : List Byte) : d.mailOnly (d.endReq r status payload) :=
  (d.mailOnly_refl.onFw _).answer ..

theorem Dev.mailOnly_beginReq (d : Dev) (r : MbxReq) : d.mailOnly (d.beginReq r) := (d.mailOnly_refl.onFw _).answer ..

@[simp] theorem Dev.endReq_chk (d : Dev) (r : MbxReq) (status : Nat) (payload : List Byte) : (d.endReq r status payload).chk = d.chk := by
  obtain ⟨_, _, _, hd⟩ := d.mailOnly_endReq r status payload
  rw [hd]

@[simp] theorem Dev.endReq_sec (d : Dev) (r : MbxReq) (status : Nat) (payload : List Byte) : (d.endReq r status payload).sec = d.sec := by
  obtain ⟨_, _, _, hd⟩ := d.mailOnly_endReq r status payload
  rw [hd]

@[simp] theorem Dev.endReq_fab (d : Dev) (r : MbxReq) (status : Nat) (payload : List Byte) : (d.endReq r status payload).fab = d.fab := by
  obtain ⟨_, _, _, hd⟩ := d.mailOnly_endReq r status payload
  rw [hd]

@[simp] theorem Dev.endReq_tier (d : Dev) (r : MbxReq) (status : Nat) (payload : List Byte) :
    (d.endReq r status payload).tier = d.tier := by
  obtain ⟨_, _, _, hd⟩ := d.mailOnly_endReq r status payload
  rw [hd]

@[simp] theorem Dev.beginReq_fab (d : Dev) (r : MbxReq) : (d.beginReq r).fab = d.fab := by
  obtain ⟨_, _, _, hd⟩ := d.mailOnly_beginReq r
  rw [hd]

@[simp] theorem Dev.nowNs_beginReq (d : Dev) (r : MbxReq) : (d.beginReq r).nowNs = d.nowNs := by
  obtain ⟨_, _, _, hd⟩ := d.mailOnly_beginReq r
  rw [hd]
  rfl

theorem State.changesOnly.mailOnly {s : State} {ps : List Part} (h : s.changesOnly (s.withDev d) ps) (hfw : Part.fw ∈ ps)
    (hbase : Part.base ∈ ps) (hd : d.mailOnly d') : s.changesOnly (s.withDev d') ps := by
  obtain ⟨-, -, hsame⟩ := h
  obtain ⟨_, _, _, rfl⟩ := hd
  refine ⟨rfl, rfl, fun p hnot => ?_⟩
  have hbefore := hsame p hnot
  cases p with
  | fw => exact absurd hfw hnot
  | base => exact absurd hbase hnot
  | _ => exact hbefore

end MailOnly

/-- A request that ends on the module as it stands is all that happens. -/
theorem onlyAnswers_endReq (s : State) (r : MbxReq) (status : Nat) :
    s.onlyAnswers (s.withDev (s.mod.dev.endReq r status)) r status [] :=
  ⟨(s.changesOnly_refl _).mailOnly (d := s.mod.dev) (by decide) (by decide) (Dev.mailOnly_endReq ..), rfl⟩

/-! ## What a message sent changes (R482, R493, R496) -/

/-- `d'` is `d` but for the ports, the flows pinned to them, and what has left them. -/
def Dev.portsOnly (d d' : Dev) : Prop :=
  ∃ ports pins repin out, d' = d.onFab fun x => { x with ports := ports, pins := pins, repin := repin, out := out }

section PortsOnly

variable {d d' : Dev}

theorem Dev.portsOnly_refl (d : Dev) : d.portsOnly d := ⟨_, _, _, _, rfl⟩

theorem Dev.portsOnly.modPort (h : d.portsOnly d') (p : Nat) (f : Port → Port) : d.portsOnly (d'.modPort p f) := by
  obtain ⟨_, _, _, _, rfl⟩ := h
  exact ⟨_, _, _, _, rfl⟩

theorem Dev.portsOnly.fabOut (h : d.portsOnly d') (o : FabOut) : d.portsOnly (d'.fabOut o) := by
  obtain ⟨_, _, _, _, rfl⟩ := h
  exact ⟨_, _, _, _, rfl⟩

theorem Dev.portsOnly.pump (h : d.portsOnly d') (n p : Nat) : d.portsOnly (d'.pump n p) := by
  induction n generalizing d' with
  | zero => exact h
  | succ n ih =>
    rw [Dev.pump]
    dsimp only
    split
    · exact h
    · split
      · exact h
      · exact ih ((h.modPort ..).fabOut _)

/-- A flow is pinned to the port it is hashed to. -/
theorem Dev.portsOnly.pin (h : d.portsOnly d') {hashed : Option Nat} {key p : Nat} {d'' : Dev}
    (hpin : hashed.map (fun p => (p, d'.onFab fun x => { x with pins := kput x.pins key p, repin := x.repin.erase key })) = some (p, d'')) :
    d.portsOnly d'' := by
  obtain ⟨_, -, heq⟩ := Option.map_eq_some_iff.1 hpin
  obtain ⟨_, _, _, _, rfl⟩ := h
  cases heq
  exact ⟨_, _, _, _, rfl⟩

theorem Dev.portsOnly.choosePort (h : d.portsOnly d') {f : Frame} {inPort p : Nat} {d'' : Dev}
    (hport : choosePort d' f inPort = some (p, d'')) : d.portsOnly d'' := by
  unfold Machine.choosePort at hport
  dsimp only at hport
  split at hport
  · exact h.pin hport
  · split at hport
    · exact h.pin hport
    · cases hport
      exact h

theorem Dev.portsOnly.place (h : d.portsOnly d') (t : TxFrame) : d.portsOnly (d'.place t).1 := by
  unfold Dev.place
  split
  · exact h
  next hport => exact ((h.choosePort hport).modPort ..).pump ..

theorem Dev.portsOnly.sendFrames (h : d.portsOnly d') (dst cls : Nat) (bytes : List Byte) :
    d.portsOnly (d'.sendFrames dst cls bytes) := by
  unfold Dev.sendFrames
  generalize msgFrames d'.fab.modid dst cls bytes = frames
  induction frames generalizing d' with
  | nil => exact h
  | cons f frames ih => exact ih (h.place _)

end PortsOnly

/-- A flow once its next message is sent: it is kept until it is acknowledged. -/
def FlowOut.sent (f : FlowOut) (bytes : List Byte) (now : Nat) : FlowOut :=
  ⟨f.next + 1, f.unacked ++ [⟨f.next, bytes, now, now⟩]⟩

section SendMsg

variable (d : Dev) (dst cls op addr id rtag aux : Nat) (data : List Byte)

/-- A message that is sent is kept in its flow, and changes of the rest the ports. -/
theorem Dev.sendMsg_portsOnly : (d.setFlowOut dst cls ((flowOut d dst cls).sent
    (msgBytes op (flowOut d dst cls).next addr id rtag aux data) d.nowNs)).portsOnly (d.sendMsg dst cls op addr id rtag aux data) :=
  (Dev.portsOnly_refl _).sendFrames ..

theorem flowOut_sendMsg : flowOut (d.sendMsg dst cls op addr id rtag aux data) dst cls =
    (flowOut d dst cls).sent (msgBytes op (flowOut d dst cls).next addr id rtag aux data) d.nowNs := by
  obtain ⟨_, _, _, _, hsent⟩ := d.sendMsg_portsOnly dst cls op addr id rtag aux data
  rw [hsent]
  exact kget_kset_self ..

/-- Beside ports and flows it changes nothing. -/
theorem Dev.sendMsg_fab : ∃ ports pins repin out flows, d.sendMsg dst cls op addr id rtag aux data = d.onFab fun x =>
    { x with ports := ports, pins := pins, repin := repin, out := out, flowsOut := flows } := by
  obtain ⟨_, _, _, _, hsent⟩ := d.sendMsg_portsOnly dst cls op addr id rtag aux data
  exact ⟨_, _, _, _, _, hsent⟩

end SendMsg

section Frame

variable {s : State} {d : Dev} {ps : List Part} (h : s.changesOnly (s.withDev d) ps)
include h

theorem State.changesOnly.onFab (hp : Part.fab ∈ ps) (f : FabState → FabState) : s.changesOnly (s.withDev (d.onFab f)) ps := by
  obtain ⟨-, -, hsame⟩ := h
  refine ⟨rfl, rfl, fun p hnot => ?_⟩
  have hbefore := hsame p hnot
  cases p with
  | fab => exact absurd hp hnot
  | _ => exact hbefore

theorem State.changesOnly.onSec (hp : Part.sec ∈ ps) (f : SecState → SecState) : s.changesOnly (s.withDev (d.onSec f)) ps := by
  obtain ⟨-, -, hsame⟩ := h
  refine ⟨rfl, rfl, fun p hnot => ?_⟩
  have hbefore := hsame p hnot
  cases p with
  | sec => exact absurd hp hnot
  | _ => exact hbefore

theorem State.changesOnly.sendMsg (hp : Part.fab ∈ ps) (dst cls op addr id rtag aux : Nat) (data : List Byte) :
    s.changesOnly (s.withDev (d.sendMsg dst cls op addr id rtag aux data)) ps := by
  obtain ⟨_, _, _, _, _, hsent⟩ := d.sendMsg_fab dst cls op addr id rtag aux data
  rw [hsent]
  exact h.onFab hp _

end Frame

section SendMsgFields

variable (d : Dev) (dst cls op addr id rtag aux : Nat) (data : List Byte)

@[simp] theorem Dev.sendMsg_tier : (d.sendMsg dst cls op addr id rtag aux data).tier = d.tier := by
  obtain ⟨_, _, _, _, _, hsent⟩ := d.sendMsg_fab dst cls op addr id rtag aux data
  rw [hsent, Dev.onFab_tier]

@[simp] theorem Dev.sendMsg_asks : (d.sendMsg dst cls op addr id rtag aux data).fab.asks = d.fab.asks := by
  obtain ⟨_, _, _, _, _, hsent⟩ := d.sendMsg_fab dst cls op addr id rtag aux data
  rw [hsent, Dev.onFab_fab]

@[simp] theorem Dev.sendMsg_loans : (d.sendMsg dst cls op addr id rtag aux data).fab.loans = d.fab.loans := by
  obtain ⟨_, _, _, _, _, hsent⟩ := d.sendMsg_fab dst cls op addr id rtag aux data
  rw [hsent, Dev.onFab_fab]

@[simp] theorem Dev.sendMsg_winOut : (d.sendMsg dst cls op addr id rtag aux data).fab.winOut = d.fab.winOut := by
  obtain ⟨_, _, _, _, _, hsent⟩ := d.sendMsg_fab dst cls op addr id rtag aux data
  rw [hsent, Dev.onFab_fab]

@[simp] theorem Dev.sendMsg_wants : (d.sendMsg dst cls op addr id rtag aux data).fab.wants = d.fab.wants := by
  obtain ⟨_, _, _, _, _, hsent⟩ := d.sendMsg_fab dst cls op addr id rtag aux data
  rw [hsent, Dev.onFab_fab]

end SendMsgFields

/-- A flow is a part of the fabric. -/
theorem flowOut_congr {d d' : Dev} (h : d'.fab.flowsOut = d.fab.flowsOut) (dst cls : Nat) : flowOut d' dst cls = flowOut d dst cls := by
  rw [flowOut, flowOut, h]

/-- A message that is sent waits in its flow to be acknowledged, whatever the module has changed before that is no flow and not the
time. -/
theorem unacked_sendMsg {d d' : Dev} (hflows : d'.fab.flowsOut = d.fab.flowsOut) (hnow : d'.nowNs = d.nowNs)
    (dst cls op addr id rtag aux : Nat) (data : List Byte) : (flowOut (d'.sendMsg dst cls op addr id rtag aux data) dst cls).unacked =
      (flowOut d dst cls).unacked ++
        [⟨(flowOut d dst cls).next, msgBytes op (flowOut d dst cls).next addr id rtag aux data, d.nowNs, d.nowNs⟩] := by
  rw [flowOut_sendMsg, flowOut_congr hflows, hnow]
  rfl

/-! ## PACK_LOAD (R424) -/

/-- The operation of a role that is served runs on the request it takes. -/
theorem onRole_eq {s : State} {role op : Nat} {r : MbxReq} (h : s.roleTakes role op r) (f : Mod → MbxReq → Mod) :
    onRole s role op f = s.leaves (f s.mod r) := by
  obtain ⟨⟨hup, hnext⟩, hrole⟩ := h
  have hhas : s.mod.dev.fw.lost.contains role = false := by
    rw [roleUp, Bool.and_eq_true, Bool.not_eq_true'] at hrole
    exact hrole.1
  simp only [onRole, onReq, onMod_eq, hup, hnext, hhas, hrole, Bool.not_true, Bool.false_eq_true, if_false, if_true]

/-- The pack that bytes spell (Tables 10.6, 10.7). -/
def packOf (b : List Byte) : Pack :=
  ⟨BitVec.ofNat 32 (fieldAt b 8 4), fieldAt b 12 4, (List.range (fieldAt b 6 2)).map (parseCase b), Config.sha384 b⟩

/-- A pack becomes active and is measured. -/
def Dev.activatePack (d : Dev) (p : Pack) : Dev := (d.onChk fun c => { c with pack := some p }).measure 7 p.digest

section PackLoad

variable {s : State} {r : MbxReq} (broken : Bool) (h : s.roleTakes 0 0x0701 r)
include h

theorem packLoad_of_unread (hnone : namedBytes s.mod r.payload = none) :
    exec (.packLoad broken) s = .next (s.withDev (s.mod.dev.endReq r mbBadArg)) := by
  have hexec : exec (.packLoad broken) s = execPackLoad broken s := rfl
  rw [hexec, execPackLoad, onRole_eq h]
  simp only [hnone]
  rfl

theorem packLoad_of_fault {b : List Byte} {c : Nat} (hb : namedBytes s.mod r.payload = some b)
    (hfault : packFault s.fuses s.mod.dev b broken = some c) :
    exec (.packLoad broken) s = .next (s.withDev ((s.mod.dev.raise evPackRefused { c := c }).endReq r (packStatus c))) := by
  have hexec : exec (.packLoad broken) s = execPackLoad broken s := rfl
  rw [hexec, execPackLoad, onRole_eq h]
  simp only [hb, Mod.onDev, hfault]

theorem packLoad_of_good {b : List Byte} (hb : namedBytes s.mod r.payload = some b)
    (hgood : packFault s.fuses s.mod.dev b broken = none) :
    exec (.packLoad broken) s = .next (s.withDev
      (((s.mod.dev.activatePack (packOf b)).raise evPackLoaded { n := (packOf b).ver.toNat }).endReq r mbOk)) := by
  have hexec : exec (.packLoad broken) s = execPackLoad broken s := rfl
  rw [hexec, execPackLoad, onRole_eq h]
  simp only [hb, Mod.onDev, hgood]
  rfl

end PackLoad

/-! ## Loans (R498, R501) -/

/-- Where no access to a window waits, none is carried. -/
theorem carry_of_none {d : Dev} (hout : d.fab.winOut = []) (hwants : d.fab.wants = []) : d.carry = d := by
  simp [Dev.carry, hout, hwants]

/-- The request is in progress, and the lender is asked. -/
def Dev.askLoan (d : Dev) (r : MbxReq) (l : Nat) : Dev :=
  ((d.beginReq r).onFab fun x =>
    { x with asks := x.asks ++ [⟨l, fieldAt r.payload 8 1, fieldAt r.payload 4 4, r.tag⟩] }).sendMsg l clsCtrl 0x20
      (fieldAt r.payload 4 4) 0 r.tag (fieldAt r.payload 8 1) []

theorem asks_askLoan (d : Dev) (r : MbxReq) (l : Nat) : (d.askLoan r l).fab.asks =
    d.fab.asks ++ [⟨l, fieldAt r.payload 8 1, fieldAt r.payload 4 4, r.tag⟩] := by
  rw [Dev.askLoan, Dev.sendMsg_asks, Dev.onFab_fab, Dev.beginReq_fab]

theorem unacked_askLoan (d : Dev) (r : MbxReq) (l : Nat) : (flowOut (d.askLoan r l) l clsCtrl).unacked =
    (flowOut d l clsCtrl).unacked ++ [⟨(flowOut d l clsCtrl).next, msgBytes 0x20 (flowOut d l clsCtrl).next
      (fieldAt r.payload 4 4) 0 r.tag (fieldAt r.payload 8 1) [], d.nowNs, d.nowNs⟩] := by
  rw [Dev.askLoan, unacked_sendMsg (d := d)]
  · rw [Dev.onFab_fab, Dev.beginReq_fab]
  · exact Dev.nowNs_beginReq ..

/-- A window is bound no more, and its loan goes back. -/
def Dev.giveBackLoan (d : Dev) (w : Nat) (l : LoanIn) : Dev :=
  (d.onTier fun t => { t with windows := kdel t.windows w }).sendMsg l.lender clsCtrl 0x25 0 l.id 0 0 []

theorem tier_giveBackLoan (d : Dev) (w : Nat) (l : LoanIn) :
    (d.giveBackLoan w l).tier = { d.tier with windows := kdel d.tier.windows w } := by
  rw [Dev.giveBackLoan, Dev.sendMsg_tier, Dev.onTier_tier]

theorem loans_sendRevoke (d : Dev) (l : LoanOut) : (d.sendRevoke l).fab.loans =
    d.fab.loans.map fun y => if y.id = l.id then { y with deadline := some (d.nowNs + 1000000000) } else y := by
  rw [Dev.sendRevoke, Dev.sendMsg_loans, Dev.onFab_fab]

section Loans

variable {s : State} {r : MbxReq} (hquiet : s.quietFabric = true)
include hquiet

/-- The operation of a mailbox request about loans, where it leaves no access to a window waiting. -/
theorem onLoanReq_eq {op : Nat} (h : s.takesReq op r) {f : Mod → MbxReq → Mod} {m : Mod} (hf : f s.mod r = m)
    (hout : m.dev.fab.winOut = s.mod.dev.fab.winOut) (hwants : m.dev.fab.wants = s.mod.dev.fab.wants) :
    onLoanReq s op f = s.leaves m := by
  simp only [State.quietFabric, Bool.and_eq_true, Bool.not_eq_true', List.isEmpty_iff] at hquiet
  obtain ⟨⟨hstop, hnoOut⟩, hnoWants⟩ := hquiet
  obtain ⟨hup, hnext⟩ := h
  have hcarry := carry_of_none (hout.trans hnoOut) (hwants.trans hnoWants)
  simp only [onLoanReq, onFabric, onPlane_eq _ _ hstop, hup, hnext, hf, Mod.onDev, hcarry, Bool.not_true, Bool.false_eq_true, if_false]

/-- A request that ends at once. -/
theorem onLoanReq_endReq {op : Nat} (h : s.takesReq op r) {f : Mod → MbxReq → Mod} {status : Nat}
    (hf : f s.mod r = s.mod.onDev fun d => d.endReq r status) :
    onLoanReq s op f = .next (s.withDev (s.mod.dev.endReq r status)) :=
  onLoanReq_eq hquiet h hf (by simp) (by simp)

section Request

variable (h : s.takesReq 0x0801 r)
include h

theorem loanRequest_of_bad (hbad : namedLender s.mod.dev r.payload = none ∨ 16 ≤ fieldAt r.payload 8 1 ∨ fieldAt r.payload 4 4 = 0) :
    exec .loanRequest s = .next (s.withDev (s.mod.dev.endReq r mbBadArg)) := by
  have hexec : exec .loanRequest s = execLoanRequest s := rfl
  rw [hexec, execLoanRequest]
  refine onLoanReq_endReq hquiet h ?_
  cases hl : namedLender s.mod.dev r.payload with
  | none => simp only [Mod.onDev, hl]
  | some l =>
    have hargs : 16 ≤ fieldAt r.payload 8 1 ∨ fieldAt r.payload 4 4 = 0 ∨ l = s.mod.dev.fab.modid := by
      rw [hl] at hbad
      rcases hbad with hno | hwindow | hpages
      · cases hno
      · exact .inl hwindow
      · exact .inr (.inl hpages)
    simp only [Mod.onDev, hl, if_pos hargs]

variable {l : Nat} (hl : namedLender s.mod.dev r.payload = some l) (hw : fieldAt r.payload 8 1 < 16) (hn : fieldAt r.payload 4 4 ≠ 0)
  (hme : l ≠ s.mod.dev.fab.modid)
include hl hw hn hme

theorem loanRequest_of_asked (hasked : ∃ a ∈ s.mod.dev.fab.asks, a.window = fieldAt r.payload 8 1) :
    exec .loanRequest s = .next (s.withDev (s.mod.dev.endReq r mbBusy)) := by
  have hexec : exec .loanRequest s = execLoanRequest s := rfl
  rw [hexec, execLoanRequest]
  refine onLoanReq_endReq hquiet h ?_
  simp [Mod.onDev, hl, Nat.not_le.2 hw, hn, hme, hasked]

variable (hfree : ∀ a ∈ s.mod.dev.fab.asks, a.window ≠ fieldAt r.payload 8 1)
include hfree

theorem loanRequest_of_bound (hbound : kfind s.mod.dev.tier.windows (fieldAt r.payload 8 1) ≠ none) :
    exec .loanRequest s = .next (s.withDev (s.mod.dev.endReq r mbNotAllowed)) := by
  have hexec : exec .loanRequest s = execLoanRequest s := rfl
  rw [hexec, execLoanRequest]
  refine onLoanReq_endReq hquiet h ?_
  have hsome := Option.isSome_iff_ne_none.2 hbound
  have hnot : ¬∃ a ∈ s.mod.dev.fab.asks, a.window = fieldAt r.payload 8 1 := fun ⟨a, ha, hwin⟩ => hfree a ha hwin
  simp [Mod.onDev, hl, Nat.not_le.2 hw, hn, hme, hnot, hsome]

theorem loanRequest_of_free (hunbound : kfind s.mod.dev.tier.windows (fieldAt r.payload 8 1) = none) :
    exec .loanRequest s = .next (s.withDev (s.mod.dev.askLoan r l)) := by
  have hexec : exec .loanRequest s = execLoanRequest s := rfl
  rw [hexec, execLoanRequest]
  refine onLoanReq_eq hquiet h (m := s.mod.onDev fun d => d.askLoan r l) ?_ (by simp [Dev.askLoan]) (by simp [Dev.askLoan])
  have hnot : ¬∃ a ∈ s.mod.dev.fab.asks, a.window = fieldAt r.payload 8 1 := fun ⟨a, ha, hwin⟩ => hfree a ha hwin
  simp [Mod.onDev, hl, Nat.not_le.2 hw, hn, hme, hnot, hunbound, Dev.askLoan]

end Request

section Return

variable (h : s.takesReq 0x0802 r)
include h

theorem loanReturn_of_unbound (hnone : kfind s.mod.dev.tier.windows (fieldAt r.payload 0 1) = none) :
    exec .loanReturn s = .next (s.withDev (s.mod.dev.endReq r mbBadArg)) := by
  have hexec : exec .loanReturn s = execLoanReturn s := rfl
  rw [hexec, execLoanReturn]
  refine onLoanReq_endReq hquiet h ?_
  simp only [hnone, Option.isNone_none, if_true]

theorem loanReturn_of_empty {l : LoanIn} (hl : kfind s.mod.dev.tier.windows (fieldAt r.payload 0 1) = some l)
    (hempty : lentIn s.mod.dev.tier (fieldAt r.payload 0 1) = []) :
    exec .loanReturn s = .next (s.withDev ((s.mod.dev.giveBackLoan (fieldAt r.payload 0 1) l).endReq r mbOk)) := by
  have hexec : exec .loanReturn s = execLoanReturn s := rfl
  rw [hexec, execLoanReturn]
  refine onLoanReq_eq hquiet h (m := s.mod.onDev fun d => (d.giveBackLoan (fieldAt r.payload 0 1) l).endReq r mbOk) ?_
    (by simp [Dev.giveBackLoan]) (by simp [Dev.giveBackLoan])
  simp [hl, hempty, relocateAll, Dev.returnLoan, Dev.giveBackLoan, Mod.onDev]

end Return

section Revoke

variable (h : s.takesReq 0x0803 r)
include h

theorem loanRevoke_of_none (hnone : (s.mod.dev.fab.loans.find? fun l => l.id = fieldAt r.payload 0 4) = none) :
    exec .loanRevoke s = .next (s.withDev (s.mod.dev.endReq r mbBadArg)) := by
  have hexec : exec .loanRevoke s = execLoanRevoke s := rfl
  rw [hexec, execLoanRevoke]
  refine onLoanReq_endReq hquiet h ?_
  simp only [Mod.onDev, hnone]

variable {l : LoanOut} (hl : (s.mod.dev.fab.loans.find? fun l => l.id = fieldAt r.payload 0 4) = some l)
include hl

theorem loanRevoke_of_revoked (hrevoked : l.deadline ≠ none) :
    exec .loanRevoke s = .next (s.withDev (s.mod.dev.endReq r mbBusy)) := by
  have hexec : exec .loanRevoke s = execLoanRevoke s := rfl
  rw [hexec, execLoanRevoke]
  refine onLoanReq_endReq hquiet h ?_
  simp only [Mod.onDev, hl, if_pos (Option.isSome_iff_ne_none.2 hrevoked)]

theorem loanRevoke_of_lent (hlent : l.deadline = none) :
    exec .loanRevoke s = .next (s.withDev ((s.mod.dev.sendRevoke l).endReq r mbOk)) := by
  have hexec : exec .loanRevoke s = execLoanRevoke s := rfl
  rw [hexec, execLoanRevoke]
  refine onLoanReq_eq hquiet h (m := s.mod.onDev fun d => (d.sendRevoke l).endReq r mbOk) ?_ (by simp [Dev.sendRevoke])
    (by simp [Dev.sendRevoke])
  simp only [Mod.onDev, hl, hlent, Option.isSome_none, Bool.false_eq_true, if_false]

end Revoke

end Loans

/-- Settles O46: by one rule for each outcome, what an answer and a message sent may change, and the message kept in its flow. -/
theorem packsAndLoansAreAskedFor : Obligations.PacksAndLoansAreAskedFor := by
  unfold Obligations.PacksAndLoansAreAskedFor
  intro s m d
  refine ⟨fun r broken h => ⟨fun hnone => ?unread, fun b hb => ⟨fun c hfault => ?fault, fun hgood => ?good⟩⟩,
    fun hquiet => ⟨fun r h => ⟨fun hbad => ?bad, fun l hl hw hn hme => ⟨fun hbound hfree => ?bound, fun hasked => ?asked,
      fun hunbound hfree => ?free⟩⟩,
    fun r h => ⟨fun hnone => ?unlent, fun l hl hempty => ?returned⟩,
    fun r h => ⟨fun hnone => ?unknown, fun l hl hrevoked => ?revoked, fun l hl hlent => ?lent⟩⟩⟩
  case unread => exact ⟨_, packLoad_of_unread broken h hnone, onlyAnswers_endReq ..⟩
  case fault =>
    exact ⟨_, packLoad_of_fault broken h hb hfault,
      ((s.changesOnly_refl _).raise (d := d) (by decide) ..).mailOnly (by decide) (by decide) (Dev.mailOnly_endReq ..), rfl⟩
  case good =>
    refine ⟨_, packLoad_of_good broken h hb hgood, ?_, ?_, ?_⟩
    · exact ((((s.changesOnly_refl _).onChk (d := d) (by decide) _).onSec (by decide) _).raise (by decide) ..).mailOnly (by decide)
        (by decide) (Dev.mailOnly_endReq ..)
    · rw [Dev.endReq_chk, Dev.raise_chk]
      rfl
    · rw [Dev.endReq_sec, Dev.raise_sec]
      rfl
  case bad => exact ⟨_, loanRequest_of_bad hquiet h hbad, onlyAnswers_endReq ..⟩
  case bound => exact ⟨_, loanRequest_of_bound hquiet h hl hw hn hme hfree hbound, onlyAnswers_endReq ..⟩
  case asked => exact ⟨_, loanRequest_of_asked hquiet h hl hw hn hme hasked, onlyAnswers_endReq ..⟩
  case free =>
    refine ⟨_, loanRequest_of_free hquiet h hl hw hn hme hfree hunbound, ?_, ?_, ?_⟩
    · exact (((s.changesOnly_refl _).mailOnly (d := d) (by decide) (by decide) (d.mailOnly_beginReq r)).onFab (by decide) _).sendMsg
        (by decide) ..
    · exact asks_askLoan ..
    · exact unacked_askLoan ..
  case unlent => exact ⟨_, loanReturn_of_unbound hquiet h hnone, onlyAnswers_endReq ..⟩
  case returned =>
    refine ⟨_, loanReturn_of_empty hquiet h hl hempty, ?_, ?_, ?_⟩
    · exact (((s.changesOnly_refl _).onTier (d := d) (by decide) _).sendMsg (by decide) ..).mailOnly (by decide) (by decide)
        (Dev.mailOnly_endReq ..)
    · rw [Dev.endReq_tier, tier_giveBackLoan]
    · rw [flowOut_congr (congrArg FabState.flowsOut (Dev.endReq_fab ..))]
      exact unacked_sendMsg rfl rfl ..
  case unknown => exact ⟨_, loanRevoke_of_none hquiet h hnone, onlyAnswers_endReq ..⟩
  case revoked => exact ⟨_, loanRevoke_of_revoked hquiet h hl hrevoked, onlyAnswers_endReq ..⟩
  case lent =>
    refine ⟨_, loanRevoke_of_lent hquiet h hl hlent, ?_, ?_, ?_⟩
    · exact (((s.changesOnly_refl _).onFab (d := d) (by decide) _).sendMsg (by decide) ..).mailOnly (by decide) (by decide)
        (Dev.mailOnly_endReq ..)
    · rw [Dev.endReq_fab, loans_sendRevoke]
    · rw [flowOut_congr (congrArg FabState.flowsOut (Dev.endReq_fab ..))]
      exact unacked_sendMsg rfl rfl ..

end Sys2Proof.Machine
end

section
/-!
PROOF. The host interface and the shared state in the frame of a command, and what a command does while the interface is up.
-/

namespace Sys2Proof.Machine

section Frame

variable {s : State} {d : Dev} {ps : List Part} (h : s.changesOnly (s.withDev d) ps)
include h

theorem State.changesOnly.onHif (hp : Part.hif ∈ ps) (f : HifState → HifState) : s.changesOnly (s.withDev (d.onHif f)) ps := by
  obtain ⟨-, -, hsame⟩ := h
  refine ⟨rfl, rfl, fun p hnot => ?_⟩
  have hbefore := hsame p hnot
  cases p with
  | hif => exact absurd hp hnot
  | _ => exact hbefore

/-- Where the shared state may change, it may take any value that keeps events and counters. -/
theorem State.changesOnly.withBase (hp : Part.base ∈ ps) {b : BaseState} (hevt : b.evt = d.base.evt) (hcnt : b.cnt = d.base.cnt)
    (htot : b.tot = d.base.tot) (hfresh : b.fresh = d.base.fresh) : s.changesOnly (s.withDev { d with base := b }) ps := by
  obtain ⟨-, -, hsame⟩ := h
  refine ⟨rfl, rfl, fun p hnot => ?_⟩
  have hbefore := hsame p hnot
  cases p with
  | base => exact absurd hp hnot
  | events =>
    obtain ⟨hevt', hcnt', htot', hfresh'⟩ := hbefore
    exact ⟨hevt.trans hevt', hcnt.trans hcnt', htot.trans htot', hfresh.trans hfresh'⟩
  | _ => exact hbefore

/-- Where the shared state, events and counters may change, it may take any value. -/
theorem State.changesOnly.onBase (hbase : Part.base ∈ ps) (hevents : Part.events ∈ ps) (f : BaseState → BaseState) :
    s.changesOnly (s.withDev (d.onBase f)) ps :=
  (h.withBase hbase (b := { f d.base with evt := d.base.evt, cnt := d.base.cnt, tot := d.base.tot, fresh := d.base.fresh })
    rfl rfl rfl rfl).withEvents hevents ⟨_, _, _, _, rfl⟩

theorem State.changesOnly.hostWrite (hp : Part.base ∈ ps) (addr : Nat) (data : List Byte) :
    s.changesOnly (s.withDev (d.hostWrite addr data)) ps := h.withBase hp rfl rfl rfl rfl

theorem State.changesOnly.endDesc (hbase : Part.base ∈ ps) (hfab : Part.fab ∈ ps) (id status : Nat) (words : List Nat) :
    s.changesOnly (s.withDev (d.endDesc id status words)) ps := by
  obtain ⟨-, -, hsame⟩ := h
  refine ⟨rfl, rfl, fun p hnot => ?_⟩
  have hbefore := hsame p hnot
  cases p with
  | base => exact absurd hbase hnot
  | fab => exact absurd hfab hnot
  | _ => exact hbefore

theorem State.changesOnly.modSq (hp : Part.hif ∈ ps) (ring : Nat) (f : Sq → Sq) : s.changesOnly (s.withDev (d.modSq ring f)) ps :=
  h.onHif hp _

theorem State.changesOnly.modCq (hp : Part.hif ∈ ps) (cq : Nat) (f : Cq → Cq) : s.changesOnly (s.withDev (d.modCq cq f)) ps :=
  h.onHif hp _

end Frame

/-- An MSI-X message is sent or left pending, and nothing else changes. -/
theorem BaseState.msixSend_eq (b : BaseState) (v : Nat) : b.msixSend v = { b with msixPend := b.msixPend ++ [v] } ∨
    b.msixSend v = b ∨ b.msixSend v = { b with out := b.out ++ [.msix v] } := by
  unfold BaseState.msixSend
  dsimp only
  split
  · split
    · exact .inr (.inl rfl)
    · exact .inl rfl
  · exact .inr (.inr rfl)

/-- An MSI-X message keeps what has been sent before it. -/
theorem BaseState.mem_out_msixSend {b : BaseState} {o : HostOut} (v : Nat) (h : o ∈ b.out) : o ∈ (b.msixSend v).out := by
  rcases b.msixSend_eq v with hb | hb | hb <;> rw [hb]
  · exact h
  · exact h
  · exact List.mem_append_left _ h

@[simp] theorem BaseState.msixSend_evt (b : BaseState) (v : Nat) : (b.msixSend v).evt = b.evt := by
  rcases b.msixSend_eq v with hb | hb | hb <;> rw [hb]

@[simp] theorem BaseState.msixSend_ended (b : BaseState) (v : Nat) : (b.msixSend v).ended = b.ended := by
  rcases b.msixSend_eq v with hb | hb | hb <;> rw [hb]

theorem State.changesOnly.msixSend {s : State} {d : Dev} {ps : List Part} (h : s.changesOnly (s.withDev d) ps) (hp : Part.base ∈ ps)
    (v : Nat) : s.changesOnly (s.withDev (d.msixSend v)) ps := by
  rcases d.base.msixSend_eq v with hb | hb | hb <;> rw [Dev.msixSend, hb]
  · exact h.withBase hp rfl rfl rfl rfl
  · exact h
  · exact h.withBase hp rfl rfl rfl rfl

/-- A command of the rings while the host interface is up. -/
theorem onRing_eq {s : State} (h : s.mod.dev.hifUp = true) (f : Dev → Dev) : onRing s f = .next (s.withDev (f s.mod.dev)) := by
  simp only [onRing, onDev_eq, if_pos h]

/-! ## A ring that is changed (R445, R446) -/

section Rings

variable (d : Dev) (n : Nat)

@[simp] theorem sqOf_modSq_self (f : Sq → Sq) : sqOf (d.modSq n f) n = f (sqOf d n) := kget_kmod_self ..

theorem sqOf_modSq_ne (f : Sq → Sq) {j : Nat} (h : j ≠ n) : sqOf (d.modSq n f) j = sqOf d j := kget_kmod_ne _ _ _ h.symm

@[simp] theorem cqOf_modCq_self (f : Cq → Cq) : cqOf (d.modCq n f) n = f (cqOf d n) := kget_kmod_self ..

end Rings

end Sys2Proof.Machine
end

section
/-!
PROOF. Submission rings (R447 to R454): doorbells, descriptors taken and run ahead, a mismatched SEQ, stop and restart.
-/

namespace Sys2Proof.Machine

/-! ## A ring and its doorbells (R446, R448) -/

/-- `d'` holds `q` for submission ring `n`, and every other ring as `d` does. -/
abbrev Dev.changesSq (d d' : Dev) (n : Nat) (q : Sq) : Prop := sqOf d' n = q ∧ ∀ j, j ≠ n → sqOf d' j = sqOf d j

theorem Dev.changesSq_modSq (d : Dev) (n : Nat) (f : Sq → Sq) : d.changesSq (d.modSq n f) n (f (sqOf d n)) :=
  ⟨sqOf_modSq_self .., fun _ hj => sqOf_modSq_ne _ _ _ hj⟩

/-- A ring whose doorbells up to `tail` are observed now. -/
def Sq.observed (q : Sq) (b : BaseState) (tail : Word32) : Sq :=
  { q with tail := tail, seen := q.seen ++ [⟨tail, b.now, b.applied, b.cleared⟩] }

section Ring

variable {s : State} {ring : Fin 256} (hup : s.mod.dev.hifUp = true) (huse : sqUsable s.mod.dev ring = true)

section Doorbells

include huse

/-- A newer SQ_TAIL of a usable ring is observed. -/
theorem observe_of_newer {tail : Word32} (hnew : stepNewer tail (sqOf s.mod.dev ring).tail = true) :
    observe s.mod.dev ring tail = s.mod.dev.modSq ring fun q => q.observed s.mod.dev.base tail := by
  rw [observe, huse, hnew]
  rfl

include hup

theorem kickSq_of_newer {tail : Word32} (hnew : stepNewer tail (sqOf s.mod.dev ring).tail = true) {g : Fin 4} {rings : Word64}
    (hgroup : ring.val / 64 = g.val) (hring : rings.getLsbD (ring.val % 64) = true) :
    exec (.kickSq g rings [(ring, tail)]) s = .next (s.withDev (s.mod.dev.modSq ring fun q => q.observed s.mod.dev.base tail)) := by
  have hexec : exec (.kickSq g rings [(ring, tail)]) s = execKickSq g rings [(ring, tail)] s := rfl
  rw [hexec, execKickSq, onRing_eq hup, List.foldl_cons, List.foldl_nil, if_pos ⟨hgroup, hring⟩, observe_of_newer huse hnew]

theorem sqPoll_of_newer {tail : Word32} (hnew : stepNewer tail (sqOf s.mod.dev ring).tail = true)
    (hpoll : cfgRingSqCfgPoll s.mod.dev.base ring ≠ 0) (hready : s.mod.dev.hif.ready = true) :
    exec (.sqPoll ring tail) s = .next (s.withDev (s.mod.dev.modSq ring fun q => q.observed s.mod.dev.base tail)) := by
  have hexec : exec (.sqPoll ring tail) s = execSqPoll ring tail s := rfl
  rw [hexec, execSqPoll, onRing_eq hup, if_neg (by simp [hpoll, hready]), observe_of_newer huse hnew]

end Doorbells

/-! ## Running ahead, and a restart (R449, R450) -/

section RunAhead

include hup huse

theorem descriptorRunAhead_of_within {number : Word32} (entry : BitVec 512) (hready : s.mod.dev.hif.ready = true)
    (hrun : (sqOf s.mod.dev ring).stopped = false)
    (hin : (number - (sqOf s.mod.dev ring).next).toNat < sqSize s.mod.dev.base ring) :
    exec (.descriptorRunAhead ring number entry) s =
      .next (s.withDev (s.mod.dev.modSq ring fun q => { q with ahead := kput q.ahead number.toNat entry })) := by
  have hexec : exec (.descriptorRunAhead ring number entry) s = execDescriptorRunAhead ring number entry s := rfl
  rw [hexec, execDescriptorRunAhead, onRing_eq hup]
  exact congrArg (fun d => Host.Outcome.next (s.withDev d)) (if_neg (by simpa [huse, hready, hrun] using hin))

theorem kickRestart_of_stopped (pos : Word32) (hstop : (sqOf s.mod.dev ring).stopped = true) :
    exec (.kickRestart ring pos) s = .next (s.withDev (s.mod.dev.modSq ring fun q =>
      { q with stopped := false, recheck := false, next := pos, ahead := [] })) := by
  have hexec : exec (.kickRestart ring pos) s = execKickRestart ring pos s := rfl
  rw [hexec, execKickRestart, onRing_eq hup, if_neg (by simp [huse, hstop])]

end RunAhead

end Ring

/-! ## A descriptor that is taken (R451 to R454) -/

/-- A ring once its next descriptor has been fetched. -/
def Sq.fetched (q : Sq) : Sq :=
  { q with
    next := q.next + 1, recheck := false, ahead := kdel q.ahead q.next.toNat
    seen := q.seen.filter fun y => stepNewer y.upto (q.next + 1) }

/-- The descriptor that an entry of a ring becomes. -/
def newDesc (d : Dev) (ring : Nat) (entry : BitVec 512) : Desc where
  id := d.hif.nextId
  ring := ring
  num := (sqOf d ring).next
  bytes := entry
  cq := if cqUsable d (descFld entry.toNat 2 1) then descFld entry.toNat 2 1 else cfgRingSqCfgDefcq d.base ring
  begun := (fetchFault d ring entry.toNat).isSome
  lost := false
  seen := seenFor d (sqOf d ring)

/-- An entry of a ring becomes a descriptor in progress; an express lookup's indices are noted (R466). -/
def Dev.listDesc (d : Dev) (ring : Nat) (entry : BitVec 512) : Dev :=
  (d.modSq ring Sq.fetched).onHif fun h => { h with
    descs := h.descs ++ [newDesc d ring entry]
    nextId := h.nextId + 1
    lookups := if descFld entry.toNat 0 1 = 1 ∧ fetchFault d ring entry.toNat = none then
      h.lookups ++ [((seenFor d (sqOf d ring)).time, descFld entry.toNat 12 2 + 1)] else h.lookups }

/-- A sound descriptor completes in the ring it names. -/
theorem newDesc_of_sound {d : Dev} {ring : Nat} {entry : BitVec 512} (hok : fetchFault d ring entry.toNat = none) :
    newDesc d ring entry =
      ⟨d.hif.nextId, ring, (sqOf d ring).next, entry, descFld entry.toNat 2 1, false, false, seenFor d (sqOf d ring)⟩ := by
  have hcq : cqUsable d (descFld entry.toNat 2 1) = true := by
    by_contra hnot
    simp [fetchFault, eq_false_of_ne_true hnot] at hok
  rw [newDesc, if_pos hcq, hok]
  rfl

section Take

variable {d : Dev} {ring : Nat} {entry : BitVec 512}

@[simp] theorem sqOf_listDesc_self : sqOf (d.listDesc ring entry) ring = (sqOf d ring).fetched := sqOf_modSq_self ..

variable (hroom : descRoom d (descFld entry.toNat 0 1) = true)
include hroom

/-- With room for it the next descriptor is listed, and one that is refused has ended. -/
theorem takeDesc_of_room : takeDesc d ring entry =
    (fetchFault d ring entry.toNat).elim (d.listDesc ring entry) ((d.listDesc ring entry).endDesc d.hif.nextId) := by
  rw [takeDesc, if_neg (by simp [hroom])]
  unfold Dev.listDesc newDesc
  cases fetchFault d ring entry.toNat <;> rfl

theorem takeDesc_of_sound (hok : fetchFault d ring entry.toNat = none) : takeDesc d ring entry = d.listDesc ring entry := by
  rw [takeDesc_of_room hroom, hok, Option.elim_none]

theorem takeDesc_of_fault {st : Nat} (hbad : fetchFault d ring entry.toNat = some st) :
    takeDesc d ring entry = (d.listDesc ring entry).endDesc d.hif.nextId st := by
  rw [takeDesc_of_room hroom, hbad, Option.elim_some]

end Take

/-! ## Fetching (R447, R449, R450) -/

/-- A ring stops at a descriptor it cannot take. -/
theorem stopRing_of_running {d : Dev} {ring : Nat} (hrun : (sqOf d ring).stopped = false) (num : Word32) :
    stopRing d ring num =
      (d.modSq ring fun q => { q with stopped := true, recheck := false }).raise evRingStopped { n := num.toNat } 0 ring := by
  rw [stopRing, if_neg (ne_true_of_eq_false hrun)]

/-- A ring that fetches is not stopped. -/
theorem stopped_of_mayFetch {d : Dev} {ring : Nat} (h : mayFetch d ring = true) : (sqOf d ring).stopped = false := by
  simp only [mayFetch, Bool.and_eq_true, Bool.not_eq_true'] at h
  obtain ⟨⟨-, hrun⟩, -⟩ := h
  exact hrun

section Fetch

variable {s : State} {ring : Fin 256} {entry : BitVec 512} (hup : s.mod.dev.hifUp = true) (hmay : mayFetch s.mod.dev ring = true)
include hup hmay

section FirstRead

variable (hnone : kfind (sqOf s.mod.dev ring).ahead (sqOf s.mod.dev ring).next.toNat = none)
  (hfirst : (sqOf s.mod.dev ring).recheck = false)
include hnone hfirst

theorem descriptorFetch_of_match (hseq : descFld entry.toNat 3 1 = wantSeq s.mod.dev ring) :
    exec (.descriptorFetch ring entry) s = .next (s.withDev (takeDesc s.mod.dev ring entry)) := by
  have hexec : exec (.descriptorFetch ring entry) s = execDescriptorFetch ring entry s := rfl
  rw [hexec, execDescriptorFetch, onRing_eq hup]
  simp [hmay, hfirst, hnone, hseq]

/-- An entry whose SEQ does not match is to be read again. -/
theorem descriptorFetch_of_mismatch (hseq : descFld entry.toNat 3 1 ≠ wantSeq s.mod.dev ring) :
    exec (.descriptorFetch ring entry) s = .next (s.withDev (s.mod.dev.modSq ring fun q =>
      { q with recheck := true, ahead := kdel q.ahead q.next.toNat })) := by
  have hexec : exec (.descriptorFetch ring entry) s = execDescriptorFetch ring entry s := rfl
  rw [hexec, execDescriptorFetch, onRing_eq hup]
  simp [hmay, hfirst, hnone, hseq]

end FirstRead

section SecondRead

variable (hagain : (sqOf s.mod.dev ring).recheck = true)
include hagain

theorem seqMismatchRecheck_of_match (hseq : descFld entry.toNat 3 1 = wantSeq s.mod.dev ring) :
    exec (.seqMismatchRecheck ring entry) s = .next (s.withDev (takeDesc s.mod.dev ring entry)) := by
  have hexec : exec (.seqMismatchRecheck ring entry) s = execSeqMismatchRecheck ring entry s := rfl
  rw [hexec, execSeqMismatchRecheck, onRing_eq hup]
  simp [hmay, hagain, hseq]

/-- A second mismatch stops the ring. -/
theorem seqMismatchRecheck_of_mismatch (hseq : descFld entry.toNat 3 1 ≠ wantSeq s.mod.dev ring) :
    exec (.seqMismatchRecheck ring entry) s = .next (s.withDev (stopRing s.mod.dev ring (sqOf s.mod.dev ring).next)) := by
  have hexec : exec (.seqMismatchRecheck ring entry) s = execSeqMismatchRecheck ring entry s := rfl
  rw [hexec, execSeqMismatchRecheck, onRing_eq hup]
  simp [hmay, hagain, hseq]

end SecondRead

end Fetch

/-- Settles O30: by one rule for each command and outcome; each changes its ring, and a fetch lists the descriptor it takes. -/
theorem descriptorsAreFetched : Obligations.DescriptorsAreFetched := by
  unfold Obligations.DescriptorsAreFetched
  intro s ring hup huse d q sqIs
  have hhif : s.changesOnly (s.withDev d) [.hif] := s.changesOnly_refl _
  have hends : s.changesOnly (s.withDev d) [.hif, .base, .fab] := s.changesOnly_refl _
  have hevents : s.changesOnly (s.withDev d) [.hif, .events] := s.changesOnly_refl _
  have hlisted (entry : BitVec 512) : s.changesOnly (s.withDev (d.listDesc ring entry)) [.hif] :=
    (hhif.modSq (by decide) ring _).onHif (by decide) _
  refine ⟨fun tail hnew => ⟨fun g rings hgroup hring => ?kick, fun hpoll hready => ?poll⟩,
    fun entry hmay hnone => ⟨fun hfirst hseq hroom => ⟨fun hok => ?taken, fun st hbad => ?refused⟩, fun hfirst hseq => ?mismatch,
      fun hagain hseq hroom hok => ?again, fun hagain hseq => ?stop⟩,
    fun number entry hready hrun hin => ?ahead, fun pos hstop => ?restart⟩
  case kick =>
    exact ⟨_, kickSq_of_newer hup huse hnew hgroup hring, hhif.modSq (by decide) ring _, d.changesSq_modSq ring _⟩
  case poll =>
    exact ⟨_, sqPoll_of_newer hup huse hnew hpoll hready, hhif.modSq (by decide) ring _, d.changesSq_modSq ring _⟩
  case taken =>
    refine ⟨_, descriptorFetch_of_match hup hmay hnone hfirst hseq, ?_⟩
    rw [takeDesc_of_sound hroom hok]
    exact ⟨hlisted entry, congrArg Sq.next sqOf_listDesc_self, congrArg (d.hif.descs ++ [·]) (newDesc_of_sound hok)⟩
  case refused =>
    refine ⟨_, descriptorFetch_of_match hup hmay hnone hfirst hseq, ?_⟩
    rw [takeDesc_of_fault hroom hbad]
    exact ⟨⟨((hends.modSq (by decide) ring _).onHif (by decide) _).endDesc (by decide) (by decide) .., rfl⟩,
      congrArg Sq.next sqOf_listDesc_self⟩
  case mismatch =>
    have hq := sqOf_modSq_self d ring fun q => { q with recheck := true, ahead := kdel q.ahead q.next.toNat }
    exact ⟨_, descriptorFetch_of_mismatch hup hmay hnone hfirst hseq, hhif.modSq (by decide) ring _,
      congrArg Sq.recheck hq, (congrArg Sq.next hq :)⟩
  case again =>
    refine ⟨_, seqMismatchRecheck_of_match hup hmay hagain hseq, ?_⟩
    rw [takeDesc_of_sound hroom hok]
    exact ⟨hlisted entry, congrArg Sq.next sqOf_listDesc_self, congrArg Sq.recheck sqOf_listDesc_self⟩
  case stop =>
    refine ⟨_, seqMismatchRecheck_of_mismatch hup hmay hagain hseq, ?_⟩
    rw [stopRing_of_running (stopped_of_mayFetch hmay)]
    exact ⟨(hevents.modSq (by decide) ring _).raise (by decide) .., d.changesSq_modSq ring _, rfl⟩
  case ahead =>
    exact ⟨_, descriptorRunAhead_of_within hup huse entry hready hrun hin, hhif.modSq (by decide) ring _, d.changesSq_modSq ring _⟩
  case restart =>
    exact ⟨_, kickRestart_of_stopped hup huse pos hstop, hhif.modSq (by decide) ring _, d.changesSq_modSq ring _⟩

end Sys2Proof.Machine
end

section
/-!
PROOF. Completions, coalescing, heads, event records, failed host reads and the share of SC1 (R435, R471 to R473, R478, R611).
-/

namespace Sys2Proof.Machine

/-! ## Fields of a run of bytes -/

/-- Bytes of a number spell it, as far as they go. -/
theorem leNat_leBytes (n v : Nat) : leNat (leBytes n v) = v % 256 ^ n := by
  induction n generalizing v with
  | zero => simp [leBytes, leNat, Nat.mod_one]
  | succ n ih => rw [leBytes, leNat, ih, BitVec.toNat_ofNat, pow_succ' 256 n, Nat.mod_mul]

/-- The field that a run of bytes begins with. -/
theorem fieldAt_leBytes (n v : Nat) (l : List Byte) : fieldAt (leBytes n v ++ l) 0 n = v % 256 ^ n := by
  rw [fieldAt, List.drop_zero, List.take_left' (length_leBytes n v), leNat_leBytes]

/-- A field past the first bytes. -/
theorem fieldAt_of_leBytes_before {n o : Nat} (h : n ≤ o) (v k : Nat) (l : List Byte) :
    fieldAt (leBytes n v ++ l) o k = fieldAt l (o - n) k := by
  rw [fieldAt, List.drop_append, length_leBytes, List.drop_of_length_le (by rw [length_leBytes]; exact h), List.nil_append]
  rfl

theorem descFld_lt (w o n : Nat) : descFld w o n < 2 ^ (8 * n) := Nat.mod_lt _ (Nat.two_pow_pos _)

/-! ## A completion that is written (R469, R472, R473, R476) -/

/-- The bytes of a completion (Table 11.11). -/
def cplBytes (d : Dev) (h : HeldCpl) : List Byte :=
  leBytes 4 h.desc.tag ++ leBytes 1 h.ended.status ++ leBytes 1 h.desc.kind ++ leBytes 1 h.desc.ring
    ++ leBytes 1 (ringPhase (cqOf d h.desc.cq).posted.toNat (cqSize d.base h.desc.cq)) ++ leBytes 4 (sqOf d h.desc.ring).next.toNat
    ++ leBytes 4 (nth 0 h.ended.words 0) ++ leBytes 8 (nth 0 h.ended.words 1)
    ++ leBytes 8 (if h.desc.kind = 1 then latOf d h.desc else nth 0 h.ended.words 2)

section CplBytes

variable (d : Dev) (h : HeldCpl)

theorem length_cplBytes : (cplBytes d h).length = 32 := by simp [cplBytes]

theorem fieldAt_cplBytes_tag : fieldAt (cplBytes d h) 0 4 = h.desc.tag := by
  simp only [cplBytes, List.append_assoc, fieldAt_leBytes]
  exact Nat.mod_eq_of_lt (descFld_lt ..)

theorem fieldAt_cplBytes_status (hlt : h.ended.status < 256) : fieldAt (cplBytes d h) 4 1 = h.ended.status := by
  simp (disch := decide) only [cplBytes, List.append_assoc, fieldAt_of_leBytes_before, Nat.reduceSub, fieldAt_leBytes]
  exact Nat.mod_eq_of_lt hlt

theorem fieldAt_cplBytes_kind : fieldAt (cplBytes d h) 5 1 = h.desc.kind := by
  simp (disch := decide) only [cplBytes, List.append_assoc, fieldAt_of_leBytes_before, Nat.reduceSub, fieldAt_leBytes]
  exact Nat.mod_eq_of_lt (descFld_lt ..)

theorem fieldAt_cplBytes_sqhead : fieldAt (cplBytes d h) 8 4 = (sqOf d h.desc.ring).next.toNat := by
  simp (disch := decide) only [cplBytes, List.append_assoc, fieldAt_of_leBytes_before, Nat.reduceSub, fieldAt_leBytes]
  exact Nat.mod_eq_of_lt (BitVec.isLt _)

end CplBytes

/-- Host address of the next entry of a completion ring. -/
def cplAddr (d : Dev) (n : Nat) : Nat := cfgRingCqBaseBase d.base n * 4096 + 32 * ((cqOf d n).posted.toNat % cqSize d.base n)

/-- A completion is written at the next entry of its ring. -/
def Dev.putCpl (d : Dev) (h : HeldCpl) : Dev :=
  (d.hostWrite (cplAddr d h.desc.cq) (cplBytes d h)).modCq h.desc.cq fun q =>
    { q with posted := q.posted + 1, unsig := q.unsig + 1, first := if q.unsig = 0 then d.base.now else q.first }

/-- An express lookup that took more than 30 µs counts and raises its event (R466, R469). -/
def Dev.noteLate (d : Dev) (h : HeldCpl) (held : Bool) (lat : Nat) : Dev :=
  if h.desc.kind = 1 ∧ 3000 < lat then
    (d.count cExprLate 0 1).raise evExpressLate { t := h.desc.tag, c := lateMask d h.desc.seen.time h.slow held, n := lat }
  else d

/-- A completion ring that is due sends its message (R473). -/
def Dev.signalDue (d : Dev) (n : Nat) : Dev :=
  let cnt := cfgRingCqCfgCoalcnt d.base n
  if (cnt = 0 ∧ cfgRingCqCfgCoalus d.base n = 0) ∨ (cnt ≠ 0 ∧ cnt ≤ (cqOf d n).unsig) then signalCq d n else d

theorem writeCpl_eq (d : Dev) (h : HeldCpl) (held : Bool) :
    writeCpl d h held = ((d.putCpl h).noteLate h held (latOf d h.desc)).signalDue h.desc.cq := rfl

section NoteLate

variable (d : Dev) (h : HeldCpl) (held : Bool) (lat : Nat)

@[simp] theorem Dev.noteLate_hif : (d.noteLate h held lat).hif = d.hif := by
  unfold Dev.noteLate
  split <;> rfl

@[simp] theorem Dev.noteLate_out : (d.noteLate h held lat).base.out = d.base.out := by
  unfold Dev.noteLate
  split <;> simp

@[simp] theorem Dev.noteLate_ended : (d.noteLate h held lat).base.ended = d.base.ended := by
  unfold Dev.noteLate
  split <;> simp

end NoteLate

section SignalDue

variable (d : Dev) (n : Nat)

@[simp] theorem Dev.signalDue_descs : (d.signalDue n).hif.descs = d.hif.descs := by
  unfold Dev.signalDue
  dsimp only
  split <;> rfl

@[simp] theorem posted_signalDue : (cqOf (d.signalDue n) n).posted = (cqOf d n).posted := by
  unfold Dev.signalDue
  dsimp only
  split
  · exact (congrArg Cq.posted (cqOf_modCq_self d n fun q => { q with unsig := 0 }) :)
  · rfl

@[simp] theorem Dev.signalDue_ended : (d.signalDue n).base.ended = d.base.ended := by
  unfold Dev.signalDue
  dsimp only
  split
  · exact BaseState.msixSend_ended ..
  · rfl

theorem Dev.mem_out_signalDue {o : HostOut} (h : o ∈ d.base.out) : o ∈ (d.signalDue n).base.out := by
  unfold Dev.signalDue
  dsimp only
  split
  · exact BaseState.mem_out_msixSend _ h
  · exact h

end SignalDue

section WriteCpl

variable (d : Dev) (h : HeldCpl) (held : Bool)

@[simp] theorem writeCpl_ended : (writeCpl d h held).base.ended = d.base.ended := by
  rw [writeCpl_eq, Dev.signalDue_ended, Dev.noteLate_ended]
  rfl

@[simp] theorem writeCpl_descs : (writeCpl d h held).hif.descs = d.hif.descs := by
  rw [writeCpl_eq, Dev.signalDue_descs, Dev.noteLate_hif]
  rfl

theorem posted_writeCpl : (cqOf (writeCpl d h held) h.desc.cq).posted = (cqOf d h.desc.cq).posted + 1 := by
  rw [writeCpl_eq, posted_signalDue, cqOf, Dev.noteLate_hif]
  exact congrArg Cq.posted (cqOf_modCq_self ..)

theorem mem_out_writeCpl : .write (cplAddr d h.desc.cq) (cplBytes d h) ∈ (writeCpl d h held).base.out := by
  rw [writeCpl_eq]
  refine Dev.mem_out_signalDue _ _ ?_
  rw [Dev.noteLate_out]
  exact List.mem_append_right _ (List.mem_singleton_self _)

end WriteCpl

section Frame

variable {s : State} {d : Dev} {ps : List Part} (h : s.changesOnly (s.withDev d) ps)
include h

theorem State.changesOnly.signalCq (hhif : Part.hif ∈ ps) (hbase : Part.base ∈ ps) (n : Nat) :
    s.changesOnly (s.withDev (signalCq d n)) ps := (h.modCq hhif n _).msixSend hbase _

theorem State.changesOnly.noteLate (hevents : Part.events ∈ ps) (c : HeldCpl) (held : Bool) (lat : Nat) :
    s.changesOnly (s.withDev (d.noteLate c held lat)) ps := by
  unfold Dev.noteLate
  split
  · exact (h.count hevents ..).raise hevents ..
  · exact h

theorem State.changesOnly.signalDue (hhif : Part.hif ∈ ps) (hbase : Part.base ∈ ps) (n : Nat) :
    s.changesOnly (s.withDev (d.signalDue n)) ps := by
  unfold Dev.signalDue
  dsimp only
  split
  · exact h.signalCq hhif hbase n
  · exact h

theorem State.changesOnly.writeCpl (hhif : Part.hif ∈ ps) (hbase : Part.base ∈ ps) (hevents : Part.events ∈ ps) (c : HeldCpl)
    (held : Bool) : s.changesOnly (s.withDev (writeCpl d c held)) ps :=
  (((h.hostWrite hbase ..).modCq hhif ..).noteLate hevents ..).signalDue hhif hbase _

end Frame

/-! ## The oldest completion due (R472, R476) -/

/-- The oldest completion due is taken, and its descriptor is no longer in progress. -/
def Dev.retire (d : Dev) (l : List Ended) (x : Desc) : Dev :=
  (d.onBase fun b => { b with ended := l }).onHif fun h => { h with descs := h.descs.filter fun y => y.id ≠ x.id }

theorem State.changesOnly.retire {s : State} {d : Dev} {ps : List Part} (h : s.changesOnly (s.withDev d) ps) (hhif : Part.hif ∈ ps)
    (hbase : Part.base ∈ ps) (l : List Ended) (x : Desc) : s.changesOnly (s.withDev (d.retire l x)) ps :=
  (h.withBase hbase (b := { d.base with ended := l }) rfl rfl rfl rfl).onHif hhif _

/-- A completion is held for its full ring, whose event is raised once for each filling. -/
def Dev.holdCpl (d : Dev) (c : HeldCpl) : Dev :=
  let d' := (d.modCq c.desc.cq fun q => { q with full := true, held := q.held ++ [c] }).count cCqFull c.desc.cq 1
  if (cqOf d c.desc.cq).full then d' else d'.raise evCqFull {} 0 c.desc.cq

section HoldCpl

variable (d : Dev) (c : HeldCpl)

theorem Dev.holdCpl_hif : (d.holdCpl c).hif =
    (d.modCq c.desc.cq fun q => { q with full := true, held := q.held ++ [c] }).hif := by
  unfold Dev.holdCpl
  dsimp only
  split <;> rfl

theorem cqOf_holdCpl : cqOf (d.holdCpl c) c.desc.cq =
    { cqOf d c.desc.cq with full := true, held := (cqOf d c.desc.cq).held ++ [c] } := by
  rw [cqOf, Dev.holdCpl_hif]
  exact cqOf_modCq_self ..

theorem Dev.holdCpl_out : (d.holdCpl c).base.out = d.base.out := by
  unfold Dev.holdCpl
  dsimp only
  split
  · rfl
  · simp [Dev.modCq]

theorem seq_holdCpl_of_filling (h : (cqOf d c.desc.cq).full = false) : (d.holdCpl c).base.evt.seq = d.base.evt.seq + 1 := by
  rw [Dev.holdCpl, if_neg (ne_true_of_eq_false h), Dev.raise_seq]
  rfl

theorem evt_holdCpl_of_full (h : (cqOf d c.desc.cq).full = true) : (d.holdCpl c).base.evt = d.base.evt := by
  rw [Dev.holdCpl, if_pos h]
  rfl

variable {d}

theorem State.changesOnly.holdCpl {s : State} {ps : List Part} (h : s.changesOnly (s.withDev d) ps) (hhif : Part.hif ∈ ps)
    (hevents : Part.events ∈ ps) : s.changesOnly (s.withDev (d.holdCpl c)) ps := by
  have hheld := (h.modCq hhif c.desc.cq fun q => { q with full := true, held := q.held ++ [c] }).count hevents cCqFull c.desc.cq 1
  unfold Dev.holdCpl
  dsimp only
  split
  · exact hheld
  · exact hheld.raise hevents ..

end HoldCpl

section Post

variable {s : State} (slow : Bool) {e : Ended} {l : List Ended} {x : Desc} (hup : s.mod.dev.hifUp = true)
  (hended : s.mod.dev.base.ended = e :: l) (hdesc : descOf s.mod.dev e.id = some x)
include hup hended hdesc

/-- A QUIET descriptor that has ended well has no completion. -/
theorem completionPost_of_quiet (hquiet : x.quiet = true) (hok : e.status = 0) :
    exec (.completionPost slow) s = .next (s.withDev (s.mod.dev.retire l x)) := by
  have hexec : exec (.completionPost slow) s = execCompletionPost slow s := rfl
  have hdesc' : descOf (s.mod.dev.onBase fun b => { b with ended := l }) e.id = some x := hdesc
  rw [hexec, execCompletionPost, onRing_eq hup]
  simp only [hended, hdesc', hquiet, hok, and_self, if_true]
  rfl

variable (hkept : x.lost = false) (hloud : x.quiet = false ∨ e.status ≠ 0)
include hkept hloud

/-- Any other that no reset has met is held where its ring is full or holds others, and written where it does not. -/
theorem completionPost_of_loud : exec (.completionPost slow) s = .next (s.withDev (
    if (cqOf s.mod.dev x.cq).held != [] || decide (cqFree s.mod.dev x.cq = 0) then (s.mod.dev.retire l x).holdCpl ⟨x, e, slow⟩
    else writeCpl (s.mod.dev.retire l x) ⟨x, e, slow⟩ false)) := by
  have hexec : exec (.completionPost slow) s = execCompletionPost slow s := rfl
  have hdesc' : descOf (s.mod.dev.onBase fun b => { b with ended := l }) e.id = some x := hdesc
  have hnot : ¬(x.quiet = true ∧ e.status = 0) := by rcases hloud with h | h <;> simp [h]
  rw [hexec, execCompletionPost, onRing_eq hup]
  simp only [hended, hdesc', if_neg hnot, hkept, Bool.false_eq_true, if_false]
  rfl

theorem completionPost_of_room (hheld : (cqOf s.mod.dev x.cq).held = []) (hfree : cqFree s.mod.dev x.cq ≠ 0) :
    exec (.completionPost slow) s = .next (s.withDev (writeCpl (s.mod.dev.retire l x) ⟨x, e, slow⟩ false)) := by
  rw [completionPost_of_loud slow hup hended hdesc hkept hloud, if_neg (by simp [hheld, hfree])]

theorem completionPost_of_full (hfull : cqFree s.mod.dev x.cq = 0) :
    exec (.completionPost slow) s = .next (s.withDev ((s.mod.dev.retire l x).holdCpl ⟨x, e, slow⟩)) := by
  rw [completionPost_of_loud slow hup hended hdesc hkept hloud, if_pos (by simp [hfull])]

end Post

/-! ## Coalescing, and a count of consumed completions (R473, R611) -/

/-- CQ_HEAD of a ring is taken as read. -/
def Dev.takeHead (d : Dev) (cq : Nat) (value : Word32) : Dev :=
  d.modCq cq fun q => { q with head := takeCount q.posted q.head value }

/-- A ring with a free entry is full no more. -/
def Dev.noteRoom (d : Dev) (cq : Nat) : Dev := if cqFree d cq = 0 then d else d.modCq cq fun q => { q with full := false }

theorem cqOf_noteRoom (d : Dev) (cq : Nat) : ∃ full, cqOf (d.noteRoom cq) cq = { cqOf d cq with full := full } := by
  unfold Dev.noteRoom
  split
  · exact ⟨_, rfl⟩
  · exact ⟨_, cqOf_modCq_self ..⟩

/-- What a count that has been read leaves of a ring: its head, and whether it is full. -/
theorem cqOf_noteRoom_takeHead (d : Dev) (cq : Nat) (value : Word32) : ∃ full, cqOf ((d.takeHead cq value).noteRoom cq) cq =
    { cqOf d cq with head := takeCount (cqOf d cq).posted (cqOf d cq).head value, full := full } := by
  obtain ⟨full, hfull⟩ := cqOf_noteRoom (d.takeHead cq value) cq
  have hhead : cqOf (d.takeHead cq value) cq = { cqOf d cq with head := takeCount (cqOf d cq).posted (cqOf d cq).head value } :=
    cqOf_modCq_self ..
  exact ⟨full, by rw [hfull, hhead]⟩

/-- Where none is held, none is released. -/
theorem releaseHeld_of_none {d : Dev} {cq : Nat} (h : (cqOf d cq).held = []) (n : Nat) : releaseHeld cq n d = d := by
  cases n with
  | zero => rfl
  | succ n => simp only [releaseHeld, h]

theorem State.changesOnly.noteRoom {s : State} {d : Dev} {ps : List Part} (h : s.changesOnly (s.withDev d) ps) (hp : Part.hif ∈ ps)
    (cq : Nat) : s.changesOnly (s.withDev (d.noteRoom cq)) ps := by
  unfold Dev.noteRoom
  split
  · exact h
  · exact h.modCq hp ..

section Heads

variable {s : State} {cq : Fin 256} (hup : s.mod.dev.hifUp = true)
include hup

theorem cqCoalesceTimer_of_unsignalled (hus : cfgRingCqCfgCoalus s.mod.dev.base cq ≠ 0) (hunsig : (cqOf s.mod.dev cq).unsig ≠ 0) :
    exec (.cqCoalesceTimer cq) s = .next (s.withDev (signalCq s.mod.dev cq)) := by
  have hexec : exec (.cqCoalesceTimer cq) s = execCqCoalesceTimer cq s := rfl
  rw [hexec, execCqCoalesceTimer, onRing_eq hup, if_neg (by simp [hus, hunsig])]

theorem cqHeadReread_of_none_held {value : Word32} (huse : cqUsable s.mod.dev cq = true) (hfree : cqFree s.mod.dev cq < 64)
    (hheld : (cqOf s.mod.dev cq).held = []) :
    exec (.cqHeadReread (.cq cq) value) s = .next (s.withDev ((s.mod.dev.takeHead cq value).noteRoom cq)) := by
  have hexec : exec (.cqHeadReread (.cq cq) value) s = onRing s fun d => rereadCq d cq value := rfl
  obtain ⟨full, hcq⟩ := cqOf_noteRoom_takeHead s.mod.dev cq value
  have hnone : (cqOf ((s.mod.dev.takeHead cq value).noteRoom cq) cq).held = [] := by rw [hcq, hheld]
  rw [hexec, onRing_eq hup, rereadCq, if_neg (by simp [huse, hfree])]
  exact congrArg (fun d => Host.Outcome.next (s.withDev d)) (releaseHeld_of_none hnone _)

end Heads

/-! ## The event ring (R478) -/

/-- Record `e` is posted at the next entry of the event ring, and `l` stay held. -/
def BaseState.postRecord (b : BaseState) (e : Event) (l : List Event) : BaseState :=
  let n := 2 ^ b.evt.log2
  let p := b.evt.posted.toNat
  BaseState.msixSend { b.hostWrite (b.evt.base + 128 * (p % n)) (e.bytes (ringPhase p n) b.evt.lost) with
    evt := { b.evt with held := l, posted := b.evt.posted + 1, lost := 0 } } b.evt.vector

theorem postEvent_of_room {b : BaseState} {e : Event} {l : List Event} (hset : b.evt.ringSet = true) (hheld : b.evt.held = e :: l)
    (hposts : b.posts e = true) (hfree : evFree b ≠ 0) : postEvent b = b.postRecord e l := by
  have hfirst : (e :: l).dropWhile (fun e => !b.posts e) = e :: l := List.dropWhile_cons_of_neg (by simp [hposts])
  simp only [postEvent, hset, hheld, hfirst, Bool.not_true, Bool.false_eq_true, if_false, if_neg hfree]
  rfl

theorem eventRecordPost_of_room {s : State} {e : Event} {l : List Event} (hup : s.mod.dev.hifUp = true)
    (hset : s.mod.dev.base.evt.ringSet = true) (hheld : s.mod.dev.base.evt.held = e :: l) (hposts : s.mod.dev.base.posts e = true)
    (hfree : evFree s.mod.dev.base ≠ 0) :
    exec .eventRecordPost s = .next (s.withDev (s.mod.dev.onBase fun b => b.postRecord e l)) := by
  have hexec : exec .eventRecordPost s = execEventRecordPost s := rfl
  rw [hexec, execEventRecordPost, onRing_eq hup]
  simp only [Dev.onBase, postEvent_of_room hset hheld hposts hfree]

/-! ## Failed host reads (R435) -/

/-- A descriptor that waits for host data ends with HOST_READ_ERROR. -/
def Dev.failRead (d : Dev) (x : Desc) (id addr : Nat) : Dev :=
  ((d.begin id).raise evHostReadError { t := x.tag, d := addr } 0 x.ring).endDesc id 0x13

/-- A ring whose entry or SQ_TAIL cannot be read stops. -/
def Dev.failRing (d : Dev) (ring addr : Nat) : Dev :=
  stopRing (d.raise evHostReadError { d := addr } 0 ring) ring (sqOf d ring).next

theorem failRing_of_running {d : Dev} {ring : Nat} (hrun : (sqOf d ring).stopped = false) (addr : Nat) : d.failRing ring addr =
    ((d.raise evHostReadError { d := addr } 0 ring).modSq ring fun q => { q with stopped := true, recheck := false }).raise
      evRingStopped { n := (sqOf d ring).next.toNat } 0 ring :=
  stopRing_of_running (d := d.raise evHostReadError { d := addr } 0 ring) hrun _

section HostRead

variable {s : State} (addr : Word64) (hup : s.mod.dev.hifUp = true)
include hup

theorem hostReadFailure_of_data {desc : Nat} {x : Desc} (hdesc : descOf s.mod.dev desc = some x) (hnew : x.begun = false)
    (hmay : descMayBegin s.mod.dev x = true) (hkind : x.kind = 1 ∨ x.kind = 9) :
    exec (.hostReadFailure (.data desc) addr) s = .next (s.withDev (s.mod.dev.failRead x desc addr.toNat)) := by
  have hexec : exec (.hostReadFailure (.data desc) addr) s = execHostReadFailure (.data desc) addr s := rfl
  have hwaits : ¬(x.begun = true ∨ descMayBegin s.mod.dev x = false ∨ x.kind = 2 ∨ x.kind = 6 ∨ x.kind = 8 ∨ 10 ≤ x.kind) := by
    rw [hnew, hmay]
    rcases hkind with h | h <;> simp [h]
  rw [hexec, execHostReadFailure, onMod_eq]
  simp only [hup, hostFail, hdesc, if_neg hwaits, Bool.not_true, Bool.false_eq_true, if_false]
  rfl

theorem hostReadFailure_of_ring {ring : Fin 256} {read : HostRead} (hread : read = .descriptor ring ∨ read = .tail ring)
    (huse : sqUsable s.mod.dev ring = true) (hrun : (sqOf s.mod.dev ring).stopped = false) :
    exec (.hostReadFailure read addr) s = .next (s.withDev (s.mod.dev.failRing ring addr.toNat)) := by
  have hexec : exec (.hostReadFailure read addr) s = execHostReadFailure read addr s := rfl
  rw [hexec, execHostReadFailure, onMod_eq]
  rcases hread with rfl | rfl <;>
    simp only [hup, huse, hrun, Mod.onDev, Bool.not_true, Bool.or_self, Bool.false_eq_true, if_false] <;> rfl

theorem hostReadFailure_of_count :
    exec (.hostReadFailure .count addr) s = .next (s.withDev (s.mod.dev.raise evHostReadError { d := addr.toNat })) := by
  have hexec : exec (.hostReadFailure .count addr) s = execHostReadFailure .count addr s := rfl
  rw [hexec, execHostReadFailure, onMod_eq]
  simp only [hup, Bool.not_true, Bool.false_eq_true, if_false]
  rfl

end HostRead

/-! ## The share of SC1 (R471) -/

/-- A spine's shortfall is said in this tick. -/
def Dev.sayShare (d : Dev) (spine : Nat) (shortfall : Nat) : Dev :=
  (d.onHif fun h => { h with shareSaid := kput h.shareSaid spine (tickIdx d.base) }).raise evSc1ShareShort { n := shortfall } spine

theorem sc1ShareCheck_of_short {s : State} {spine : Fin 4} {shortfall : Nat} (hshort : shortfall ≠ 0)
    (hnew : kfind s.mod.dev.hif.shareSaid spine ≠ some (tickIdx s.mod.dev.base)) :
    exec (.sc1ShareCheck spine shortfall) s = .next (s.withDev (s.mod.dev.sayShare spine shortfall)) := by
  have hexec : exec (.sc1ShareCheck spine shortfall) s = execSc1ShareCheck spine shortfall s := rfl
  rw [hexec, execSc1ShareCheck, onDev_eq]
  exact congrArg (fun d => Host.Outcome.next (s.withDev d)) (if_neg (by simp [hshort, hnew]))

theorem kfind_sayShare (d : Dev) (spine shortfall : Nat) :
    kfind (d.sayShare spine shortfall).hif.shareSaid spine = some (tickIdx d.base) := by
  rw [Dev.sayShare, Dev.raise_hif, Dev.onHif_hif, kfind_kput, if_pos rfl]

/-- Settles O31: by one rule for each command and outcome, and by what a completion written, or held, leaves of its ring. -/
theorem completionsAndEventsArePosted : Obligations.CompletionsAndEventsArePosted := by
  unfold Obligations.CompletionsAndEventsArePosted
  intro s hup d
  have hpost : s.changesOnly (s.withDev d) [.hif, .base, .events] := s.changesOnly_refl _
  have hsilent : s.changesOnly (s.withDev d) [.hif, .base] := s.changesOnly_refl _
  have hring : s.changesOnly (s.withDev d) [.hif, .events] := s.changesOnly_refl _
  refine ⟨fun slow e l x hended hdesc hkept hloud => ⟨fun hheld hfree hlt => ?written, fun hfull => ?held⟩,
    fun slow e l x hended hdesc hquiet hok => ?quiet, fun cq hus hunsig => ?timer, fun cq value huse hfree hheld => ?head,
    fun e l hset hheld hposts hfree => ?record, fun desc x addr hdesc hnew hmay hkind => ?data,
    fun ring addr huse hrun => ?ring, fun addr => ?count, fun sp shortfall hshort hnew => ?share⟩
  case written =>
    exact ⟨_, cplBytes (d.retire l x) ⟨x, e, slow⟩, completionPost_of_room slow hup hended hdesc hkept hloud hheld hfree,
      (hpost.retire (by decide) (by decide) l x).writeCpl (by decide) (by decide) (by decide) .., writeCpl_ended .., writeCpl_descs ..,
      posted_writeCpl .., mem_out_writeCpl .., length_cplBytes .., fieldAt_cplBytes_tag .., fieldAt_cplBytes_status _ _ hlt,
      fieldAt_cplBytes_kind .., fieldAt_cplBytes_sqhead ..⟩
  case held =>
    exact ⟨_, completionPost_of_full slow hup hended hdesc hkept hloud hfull,
      (hpost.retire (by decide) (by decide) l x).holdCpl _ (by decide) (by decide), congrArg HifState.descs (Dev.holdCpl_hif ..),
      cqOf_holdCpl .., Dev.holdCpl_out .., seq_holdCpl_of_filling (d.retire l x) ⟨x, e, slow⟩,
      evt_holdCpl_of_full (d.retire l x) ⟨x, e, slow⟩⟩
  case quiet =>
    exact ⟨_, completionPost_of_quiet slow hup hended hdesc hquiet hok, hsilent.retire (by decide) (by decide) l x, rfl, rfl⟩
  case timer =>
    exact ⟨_, cqCoalesceTimer_of_unsignalled hup hus hunsig, hsilent.signalCq (by decide) (by decide) _,
      cqOf_modCq_self d cq fun q => { q with unsig := 0 }, rfl⟩
  case head =>
    obtain ⟨full, hcq⟩ := cqOf_noteRoom_takeHead d cq value
    exact ⟨_, cqHeadReread_of_none_held hup huse hfree hheld,
      ((s.changesOnly_refl [.hif]).modCq (by decide) _ _).noteRoom (by decide) _, congrArg Cq.head hcq, (congrArg Cq.posted hcq :)⟩
  case record =>
    exact ⟨_, eventRecordPost_of_room hup hset hheld hposts hfree,
      (s.changesOnly_refl [.base, .events]).onBase (by decide) (by decide) _,
      BaseState.mem_out_msixSend _ (List.mem_append_right _ (List.mem_singleton_self _)), BaseState.msixSend_evt ..⟩
  case data =>
    exact ⟨_, hostReadFailure_of_data addr hup hdesc hnew hmay hkind,
      (((s.changesOnly_refl [.hif, .base, .fab, .events]).onHif (by decide) _).raise (by decide) ..).endDesc (by decide) (by decide) ..,
      congrArg (· ++ _) (Dev.raise_base_ended ..), rfl⟩
  case ring =>
    have hstop : s.changesOnly (s.withDev (d.failRing ring addr.toNat)) [.hif, .events] ∧
        (sqOf (d.failRing ring addr.toNat) ring).stopped = true ∧ (d.failRing ring addr.toNat).base =
          ((d.raise evHostReadError { d := addr.toNat } 0 ring).raise evRingStopped { n := (sqOf d ring).next.toNat } 0 ring).base := by
      rw [failRing_of_running hrun]
      exact ⟨((hring.raise (by decide) ..).modSq (by decide) ..).raise (by decide) ..,
        congrArg Sq.stopped (sqOf_modSq_self _ _ fun q => { q with stopped := true, recheck := false }), rfl⟩
    exact ⟨⟨_, hostReadFailure_of_ring addr hup (.inl rfl) huse hrun, hstop⟩,
      ⟨_, hostReadFailure_of_ring addr hup (.inr rfl) huse hrun, hstop⟩⟩
  case count => exact ⟨_, hostReadFailure_of_count addr hup, (s.changesOnly_refl [.events]).raise (by decide) .., rfl⟩
  case share =>
    exact ⟨_, sc1ShareCheck_of_short hshort hnew, (hring.onHif (by decide) _).raise (by decide) .., rfl, kfind_sayShare ..⟩

end Sys2Proof.Machine
end

section
/-!
PROOF. Express lookups, STEP_RUN and its input, FENCE and EVENT_RING_SET (R455, R463 to R465, R477, R478, R616).
-/

namespace Sys2Proof.Machine

/-! ## Express lookups (R463 to R465) -/

/-- The step whose rows a lookup reads: the latest APPLIED one or cleared-through, as its doorbell was observed (R463). -/
def Desc.target (x : Desc) : Word32 := if bitOf (x.fld 10 1) 0 then x.seen.applied else x.seen.cleared

/-- The indices of a lookup that has begun: GST and weights of each, and the module after them. -/
abbrev State.lookedUp (s : State) (desc : Nat) (x : Desc) (t : TDesc) (idx : List Word64) (fails : List (Nat × Bool)) :
    List (Nat × List Byte) × Mod :=
  expressRows t x.target fails 0 ((List.range (x.fld 12 2 + 1)).map fun j => (nth 0#64 idx j).toNat) (s.begun desc) []

section Lookup

variable {s : State} {desc : Nat} {x : Desc} (idx : List Word64) (bags weights : List Word32) (fails : List (Nat × Bool))
  (h : s.descReady desc 1 x)
include h

/-- A lookup of no table ends at once. -/
theorem expressLookup_of_no_table (ht : tdescAt s.mod (x.fld 8 2) = none) :
    exec (.expressLookup desc idx bags weights fails) s = s.endsAtOnce desc 0x15 [] := by
  refine (onPlane_runDesc h _).trans ?_
  simp only [tdescAt_begun, ht]

variable {t : TDesc} (ht : tdescAt s.mod (x.fld 8 2) = some t)
include ht

/-- A DENSE table has no rows to look up. -/
theorem expressLookup_of_dense (hkind : t.kind = 1) :
    exec (.expressLookup desc idx bags weights fails) s = s.endsAtOnce desc 0x10 [] := by
  refine (onPlane_runDesc h _).trans ?_
  simp only [tdescAt_begun, ht, hkind, true_or, if_true]

/-- A lookup without bags or a status list writes its slices and ends with the highest status of its indices. -/
theorem expressLookup_of_rows (hkind : t.kind = 0) (hpool : bitsOf (x.fld 10 1) 2 1 = 0)
    (hsize : (x.fld 12 2 + 1) * t.pw ≤ 0x100000) (hlist : x.fld 32 8 = 0) :
    ∃ words, exec (.expressLookup desc idx bags weights fails) s = s.leaves (
      let r := s.lookedUp desc x t idx fails
      r.2.onDev fun d => (d.hostWrite (x.fld 24 8) (r.1.map (·.2)).flatten).endDesc desc
        ((r.1.map (·.1)).foldl (fun a g => max a (gstStatus g)) 0) (x.target.toNat :: words)) := by
  have hran : exec (.expressLookup desc idx bags weights fails) s = _ := onPlane_runDesc h _
  simp only [tdescAt_begun, ht, hkind, hpool, Nat.not_lt.2 hsize, hlist, if_true, if_false, ne_eq, not_true_eq_false, false_and,
    or_self, Nat.zero_ne_one] at hran
  exact ⟨_, hran⟩

end Lookup

/-! ## STEP_RUN (R455) -/

/-- The step that a STEP_RUN names. -/
abbrev Desc.runStep (x : Desc) : Word32 := BitVec.ofNat 32 (x.fld 8 4)

section StepRun

variable {s : State} {desc : Nat} {x : Desc} (h : s.descReady desc 2 x)
include h

theorem stepRun_without_job (hjob : s.mod.dev.ms.noJob = true) :
    exec (.stepRun desc) s = s.endsAtOnce desc 0x14 [x.runStep.toNat, 0, 0] := by
  refine (onPlane_runDesc h _).trans ?_
  simp only [Mod.onDev, State.begun_ms, hjob, if_true]
  rfl

variable (hjob : s.mod.dev.ms.noJob = false)
include hjob

theorem stepRun_while_halted (hhalt : s.mod.dev.ms.halted = true) :
    exec (.stepRun desc) s = s.endsAtOnce desc 0x1C [x.runStep.toNat, 0, 0] := by
  refine (onPlane_runDesc h _).trans ?_
  simp only [Mod.onDev, State.begun_ms, hjob, hhalt, Bool.false_eq_true, if_true, if_false]
  rfl

variable (hrun : s.mod.dev.ms.halted = false)
include hrun

/-- A step other than the next consecutive one is refused. -/
theorem stepRun_of_other_step (hstep : x.runStep ≠ s.mod.dev.hif.stepNext.getD (s.mod.dev.base.applied + 1)) :
    exec (.stepRun desc) s = s.endsAtOnce desc 0x1A [x.runStep.toNat, 0, 0] := by
  refine (onPlane_runDesc h _).trans ?_
  simp only [Mod.onDev, State.begun_ms, hjob, hrun, Bool.false_eq_true, if_false]
  rw [if_pos (.inr hstep)]
  rfl

/-- The next consecutive step is queued, on the ring of the job. -/
theorem stepRun_of_next_step (hstep : x.runStep = s.mod.dev.hif.stepNext.getD (s.mod.dev.base.applied + 1))
    (hring : s.mod.dev.hif.stepRing = none ∨ s.mod.dev.hif.stepRing = some x.ring) (hplan : x.fld 32 8 < 2 ^ 56)
    (hlabel : x.fld 40 8 < 2 ^ 56) (hhost : x.fld 48 1 = 0) :
    exec (.stepRun desc) s = s.leaves ((s.begun desc).onDev fun d =>
      (d.onMs fun k => { k with runs := k.runs ++ [⟨x.ring, desc, x.runStep, none, [], false⟩] }).onHif fun h =>
        { h with stepRing := some x.ring, stepNext := some (x.runStep + 1) }) := by
  have hmine : ¬(((s.begun desc).dev.hif.stepRing.any fun r => decide (r ≠ x.ring)) = true ∨
      x.runStep ≠ (s.begun desc).dev.hif.stepNext.getD ((s.begun desc).dev.base.applied + 1)) := by
    have hnone : (s.mod.dev.hif.stepRing.any fun r => decide (r ≠ x.ring)) = false := by rcases hring with h | h <;> simp [h]
    exact not_or.2 ⟨ne_true_of_eq_false hnone, not_not.2 hstep⟩
  refine (onPlane_runDesc h _).trans ?_
  simp only [Mod.onDev, State.begun_ms, hjob, hrun, Bool.false_eq_true, if_false]
  rw [if_neg hmine, if_neg (by simpa [daOk, hhost] using ⟨hplan, hlabel⟩)]

end StepRun

/-! ## The input of a step (R25, R616) -/

/-- Whether a step's input could be read, and what its plan makes of it, are noted with its STEP_RUN. -/
def Dev.noteInput (d : Dev) (step : Word32) (ok : Bool) (plan : List (Nat × Nat × Nat)) : Dev :=
  d.modRun step fun r => { r with input := some ok, plan := plan, begun := false }

/-- The ARGS of the event of an input that could not be read. -/
def inputArgs (d : Dev) (r : StepRun) : Args := ((descOf d r.id).map fun x => { t := x.tag, d := x.fld 16 8 }).getD {}

theorem raise_inputArgs (d : Dev) (r : StepRun) : d.raise evHostReadError (inputArgs d r) 0 r.ring = match descOf d r.id with
    | some x => d.raise evHostReadError { t := x.tag, d := x.fld 16 8 } 0 r.ring
    | none => d.raise evHostReadError {} 0 r.ring := by
  unfold inputArgs
  cases descOf d r.id <;> rfl

/-- What a read of a step's input does, well or not. -/
def Dev.readInput (d : Dev) (r : StepRun) (step : Word32) (ok : Bool) (plan : List (Nat × Nat × Nat)) : Dev :=
  let d := d.noteInput step ok plan
  if ok then d else d.raise evHostReadError (inputArgs d r) 0 r.ring

/-- Noting the input of one step leaves the STEP_RUN of another. -/
theorem runOf_noteInput {d : Dev} {step n : Word32} (hne : n ≠ step) (ok : Bool) (plan : List (Nat × Nat × Nat)) :
    runOf (d.noteInput step ok plan) n = runOf d n := by
  simp only [runOf, Dev.noteInput, Dev.modRun, Dev.onMs_ms]
  induction d.ms.runs with
  | nil => rfl
  | cons r runs ih =>
    rw [List.map_cons, List.find?_cons, List.find?_cons, ih]
    by_cases hr : r.step = step
    · simp [hr, hne.symm]
    · simp [hr]

@[simp] theorem Dev.readInput_ms (d : Dev) (r : StepRun) (step : Word32) (ok : Bool) (plan : List (Nat × Nat × Nat)) :
    (d.readInput r step ok plan).ms = (d.noteInput step ok plan).ms := by
  cases ok <;> rfl

@[simp] theorem Dev.readInput_applied (d : Dev) (r : StepRun) (step : Word32) (ok : Bool) (plan : List (Nat × Nat × Nat)) :
    (d.readInput r step ok plan).base.applied = d.base.applied := by
  cases ok
  · exact Dev.raise_base_applied ..
  · rfl

/-- No step begins while the one after the latest APPLIED step has begun or has no STEP_RUN. -/
theorem beginStep_of_begun {m : Mod} (h : ∀ r, runOf m.dev (m.dev.base.applied + 1) = some r → r.begun = true) : beginStep m = m := by
  rw [beginStep]
  cases hrun : runOf m.dev (m.dev.base.applied + 1) with
  | none => rfl
  | some r => exact if_pos (.inl (h r hrun))

/-- An input read ahead of its step is noted, and no step begins. -/
theorem stepInputRead_of_ahead {s : State} {step : Word32} {r : StepRun} (ok : Bool) (plan : List (Nat × Nat × Nat))
    (hstop : s.mod.dev.stopped = false) (hr : runOf s.mod.dev step = some r) (hnew : r.input = none)
    (hrun : s.mod.dev.ms.halted = false) (hnear : (step - s.mod.dev.base.applied).toNat ≤ 3)
    (hbegun : ∀ r', runOf s.mod.dev (s.mod.dev.base.applied + 1) = some r' → r'.begun = true)
    (hahead : step ≠ s.mod.dev.base.applied + 1) :
    exec (.stepInputRead step ok plan) s = .next (s.withDev (s.mod.dev.readInput r step ok plan)) := by
  have hexec : exec (.stepInputRead step ok plan) s = execStepInputRead step ok plan s := rfl
  have hstay : beginStep (s.mod.onDev fun d => d.readInput r step ok plan) = s.mod.onDev fun d => d.readInput r step ok plan := by
    refine beginStep_of_begun fun r' hr' => hbegun r' ?_
    rw [Mod.onDev_dev, Dev.readInput_applied, runOf, Dev.readInput_ms] at hr'
    exact (runOf_noteInput hahead.symm ok plan).symm.trans hr'
  rw [hexec, execStepInputRead, onPlane_eq _ _ hstop]
  simp only [hr]
  rw [if_neg (by simpa [hnew, hrun] using hnear)]
  refine (congrArg (fun d => s.leaves (beginStep { s.mod with dev := d })) ?_).trans (congrArg s.leaves hstay)
  cases ok with
  | true => rfl
  | false => exact (raise_inputArgs _ r).symm

/-! ## FENCE (R477) -/

/-- The condition of a FENCE holds. -/
def fenceHolds (d : Dev) (x : Desc) : Prop :=
  (x.fld 8 1 = 0 ∧ earlier d x = []) ∨ (x.fld 8 1 = 1 ∧ ∀ y ∈ d.hif.descs, x.id ≤ y.id) ∨
    (x.fld 8 1 = 2 ∧ stepNewer (BitVec.ofNat 32 (x.fld 12 4)) d.base.applied = false) ∨
    (x.fld 8 1 = 3 ∧ stepNewer (BitVec.ofNat 32 (x.fld 12 4)) d.base.cleared = false)

section Fence

variable {s : State} {desc : Nat} {x : Desc} (hup : s.mod.dev.hifUp = true) (hdesc : descOf s.mod.dev desc = some x)
include hup hdesc

/-- A FENCE whose condition holds ends. -/
theorem fence_of_holding (hkind : x.kind = 10) (hmay : descMayBegin s.mod.dev x = true) (hholds : fenceHolds s.mod.dev x) :
    exec (.fence desc) s = s.endsAtOnce desc 0 [] := by
  have hexec : exec (.fence desc) s = execFence desc s := rfl
  rw [hexec, execFence, onRing_eq hup]
  simp only [hdesc]
  refine congrArg (fun d => Host.Outcome.next (s.withDev d)) (if_pos ⟨hkind, hmay, ?_⟩)
  rcases hholds with ⟨hcond, h⟩ | ⟨hcond, h⟩ | ⟨hcond, h⟩ | ⟨hcond, h⟩
  all_goals simpa [hcond] using h

/-- One whose condition does not hold waits. -/
theorem fence_of_waiting (hwaits : ¬fenceHolds s.mod.dev x) (hlt : x.fld 8 1 < 4) : exec (.fence desc) s = .next s := by
  have hexec : exec (.fence desc) s = execFence desc s := rfl
  rw [hexec, execFence, onRing_eq hup]
  simp only [hdesc]
  refine congrArg (fun d => Host.Outcome.next (s.withDev d)) (if_neg ?_)
  rintro ⟨-, -, hheld⟩
  refine hwaits ?_
  obtain hcond | hcond | hcond | hcond : x.fld 8 1 = 0 ∨ x.fld 8 1 = 1 ∨ x.fld 8 1 = 2 ∨ x.fld 8 1 = 3 := by omega
  all_goals simpa [fenceHolds, hcond] using hheld

end Fence

/-! ## EVENT_RING_SET (R478) -/

/-- The event ring that a descriptor names is in force, and nothing has been posted to it. -/
def EvtState.set (v : EvtState) (x : Desc) : EvtState := { v with
  ringSet := true, base := x.fld 8 8, log2 := x.fld 16 1, minSev := x.fld 17 1, vector := x.fld 18 2, areas := x.fld 20 2
  posted := 0, head := 0 }

theorem eventRingSet_of_kept {s : State} {desc : Nat} {x : Desc} (h : s.descReady desc 12 x) (hkept : x.lost = false) :
    exec (.eventRingSet desc) s = s.leaves ((s.begun desc).onDev fun d =>
      (d.onBase fun b => { b with evt := b.evt.set x }).endDesc desc 0) := by
  have hexec : exec (.eventRingSet desc) s = execEventRingSet desc s := rfl
  rw [hexec, execEventRingSet, onMod_eq]
  refine ((onPlane_eq s _ h.1).symm.trans (onPlane_runDesc h _)).trans ?_
  simp only [hkept, Bool.false_eq_true, if_false]
  rfl

/-- Settles O32: by one rule for each command and outcome. -/
theorem lookupsStepsAndFences : Obligations.LookupsStepsAndFences := by
  unfold Obligations.LookupsStepsAndFences
  intro s desc x d
  have hbegun (ps : List Part) (hp : Part.hif ∈ ps) : s.changesOnly (s.withDev (d.begin desc)) ps := (s.changesOnly_refl ps).onHif hp _
  refine ⟨fun idx bags weights fails h => ⟨fun ht => ?noTable, fun t ht hkind => ?dense, fun t ht hkind hpool hsize hlist => ?rows⟩,
    fun h => ⟨fun hjob => ?noJob, fun hjob hhalt => ?halted, fun hjob hrun hstep => ?other,
      fun hjob hrun hstep hring hplan hlabel hhost => ?next⟩,
    fun step r plan hstop hr hnew hrun hnear hstarted hahead => ⟨?good, ?failed⟩,
    fun hup hdesc hkind hmay => ⟨fun hholds => ?holds, fun hwaits hlt => ?waits⟩, fun h hkept => ?ring⟩
  case noTable => exact ends_at_once (expressLookup_of_no_table idx bags weights fails h ht)
  case dense => exact ends_at_once (expressLookup_of_dense idx bags weights fails h ht hkind)
  case rows =>
    obtain ⟨words, hexec⟩ := expressLookup_of_rows idx bags weights fails h ht hkind hpool hsize hlist
    exact ⟨_, words, hexec, rfl, rfl, rfl⟩
  case noJob => exact ends_at_once (stepRun_without_job h hjob)
  case halted => exact ends_at_once (stepRun_while_halted h hjob hhalt)
  case other => exact ends_at_once (stepRun_of_other_step h hjob hrun hstep)
  case next =>
    exact ⟨_, stepRun_of_next_step h hjob hrun hstep hring hplan hlabel hhost,
      ((hbegun [.hif, .ms] (by decide)).onMs (by decide) _).onHif (by decide) _, rfl, rfl⟩
  case good =>
    exact ⟨_, stepInputRead_of_ahead true plan hstop hr hnew hrun hnear hstarted hahead,
      (s.changesOnly_refl [.ms]).onMs (by decide) _, rfl⟩
  case failed =>
    exact ⟨_, stepInputRead_of_ahead false plan hstop hr hnew hrun hnear hstarted hahead,
      ((s.changesOnly_refl [.ms, .events]).onMs (by decide) _).raise (by decide) .., rfl, Dev.raise_seq ..⟩
  case holds => exact ends_at_once (fence_of_holding hup hdesc hkind hmay hholds)
  case waits => exact fence_of_waiting hup hdesc hwaits hlt
  case ring =>
    exact ⟨_, eventRingSet_of_kept h hkept,
      ((hbegun [.hif, .base, .fab, .events] (by decide)).onBase (by decide) (by decide) _).endDesc (by decide) (by decide) .., rfl, rfl⟩

end Sys2Proof.Machine
end

section
/-!
PROOF. Ports of the fabric: what a command of the fabric does that leaves no window access waiting, and a port that no flow is pinned to
(R482, R493).
-/

namespace Sys2Proof.Machine

/-! ## A command of the fabric -/

section Quiet

variable {s : State} (hquiet : s.quietFabric = true)
include hquiet

/-- A command of the fabric, where it leaves no access to a window waiting. -/
theorem onFabric_eq {f : Mod → Mod} {m : Mod} (hf : f s.mod = m) (hout : m.dev.fab.winOut = s.mod.dev.fab.winOut)
    (hwants : m.dev.fab.wants = s.mod.dev.fab.wants) : onFabric s f = s.leaves m := by
  simp only [State.quietFabric, Bool.and_eq_true, Bool.not_eq_true', List.isEmpty_iff] at hquiet
  obtain ⟨⟨hstop, hnoOut⟩, hnoWants⟩ := hquiet
  have hcarry := carry_of_none (hout.trans hnoOut) (hwants.trans hnoWants)
  simp only [onFabric, onPlane_eq _ _ hstop, hf, Mod.onDev, hcarry]

/-- A command of the fabric that has nothing to do. -/
theorem onFabric_same {f : Mod → Mod} (hf : f s.mod = s.mod) : onFabric s f = .next s := onFabric_eq hquiet hf rfl rfl

end Quiet

/-! ## What leaves the ports, and their frame -/

section Frame

variable {s : State} {d : Dev} {ps : List Part} (h : s.changesOnly (s.withDev d) ps) (hp : Part.fab ∈ ps)
include h hp

theorem State.changesOnly.modPort (p : Nat) (f : Port → Port) : s.changesOnly (s.withDev (d.modPort p f)) ps := h.onFab hp _

theorem State.changesOnly.fabOut (o : FabOut) : s.changesOnly (s.withDev (d.fabOut o)) ps := h.onFab hp _

end Frame

@[simp] theorem portOf_modPort_self (d : Dev) (p : Nat) (f : Port → Port) : portOf (d.modPort p f) p = f (portOf d p) := kget_kmod_self ..

theorem portOf_modPort_ne (d : Dev) {p j : Nat} (f : Port → Port) (h : p ≠ j) : portOf (d.modPort p f) j = portOf d j := kget_kmod_ne _ _ _ h

@[simp] theorem portOf_fabOut (d : Dev) (o : FabOut) (p : Nat) : portOf (d.fabOut o) p = portOf d p := rfl

section PortsOnly

variable {d d' : Dev} (h : d.portsOnly d')
include h

theorem Dev.portsOnly.winOut : d'.fab.winOut = d.fab.winOut := by
  obtain ⟨_, _, _, _, rfl⟩ := h
  rfl

theorem Dev.portsOnly.wants : d'.fab.wants = d.fab.wants := by
  obtain ⟨_, _, _, _, rfl⟩ := h
  rfl

end PortsOnly

/-- Frames that leave one after another. -/
theorem foldl_fabOut {α : Type} (g : α → FabOut) (l : List α) (d : Dev) :
    l.foldl (fun d k => d.fabOut (g k)) d = d.onFab fun x => { x with out := x.out ++ l.map g } := by
  induction l generalizing d with
  | nil => simp [Dev.onFab]
  | cons k l ih => rw [List.foldl_cons, ih]; simp [Dev.fabOut, Dev.onFab]

/-- A port with nothing to send sends nothing. -/
theorem pumpPort_of_nil {d : Dev} {p : Nat} (h : (portOf d p).txq = []) : d.pumpPort p = d := by
  rw [Dev.pumpPort, h]
  rfl

/-! ## A port that carries nothing (R484, R493) -/

/-- Port `p` is in a state, and no flow is pinned to it. -/
def Dev.portIdle (d : Dev) (p : Nat) (st : PortSt) : Prop := (portOf d p).st = st ∧ ∀ e ∈ d.fab.pins, e.2 ≠ p

theorem mem_of_mem_kput {α : Type} {m : KMap α} {k : Nat} {v : α} {e : Nat × α} (h : e ∈ kput m k v) : e = (k, v) ∨ e ∈ m := by
  simp only [kput, List.mem_append, List.mem_filter, List.mem_cons] at h
  tauto

theorem nth_mem {α : Type} (x : α) {l : List α} {i : Nat} (h : i < l.length) : nth x l i ∈ l := by
  induction l generalizing i with
  | nil => exact absurd h (Nat.not_lt_zero _)
  | cons a l ih =>
    cases i with
    | zero => exact List.mem_cons_self
    | succ i => exact List.mem_cons_of_mem _ (ih (Nat.lt_of_succ_lt_succ h))

/-- A flow is hashed to one of the ports offered. -/
theorem hashPort_mem {d : Dev} {src dst cls p : Nat} {l : List Nat} (h : hashPort d src dst cls l = some p) : p ∈ l := by
  unfold hashPort at h
  dsimp only at h
  split at h
  · cases h
  next hsome =>
    cases h
    have hmem := nth_mem 0 (Nat.mod_lt (Config.flowHash src dst cls) (List.length_pos_iff.2 hsome))
    obtain ⟨q, hq, hrep⟩ := List.mem_flatMap.1 hmem
    rwa [List.eq_of_mem_replicate hrep]

/-- Only ports that carry frames are offered. -/
theorem up_of_mem_routePorts {d : Dev} {dst inPort p : Nat} (h : p ∈ routePorts d dst inPort) : (portOf d p).up = true := by
  unfold routePorts at h
  split at h
  · cases h
  · dsimp only at h
    split at h
    · exact (List.mem_filter.1 h).2
    · split at h
      · exact (List.mem_filter.1 h).2
      · cases h

/-- A flow keeps its port, or is pinned to one that carries frames (R493). -/
theorem choosePort_cases {d d' : Dev} {f : Frame} {inPort p : Nat} (h : choosePort d f inPort = some (p, d')) :
    d' = d ∨ (portOf d p).up = true ∧ ∃ key, d' = d.onFab fun x => { x with pins := kput x.pins key p, repin := x.repin.erase key } := by
  have hfresh : ∀ key, (hashPort d f.src f.dst f.cls (routePorts d f.dst inPort)).map (fun p =>
      (p, d.onFab fun x => { x with pins := kput x.pins key p, repin := x.repin.erase key })) = some (p, d') →
      (portOf d p).up = true ∧ ∃ key, d' = d.onFab fun x => { x with pins := kput x.pins key p, repin := x.repin.erase key } := by
    intro key hmap
    obtain ⟨q, hq, heq⟩ := Option.map_eq_some_iff.1 hmap
    cases heq
    exact ⟨up_of_mem_routePorts (hashPort_mem hq), key, rfl⟩
  unfold choosePort at h
  dsimp only at h
  split at h
  · exact .inr (hfresh _ h)
  · split at h
    · exact .inr (hfresh _ h)
    · cases h
      exact .inl rfl

section PortIdle

variable {d : Dev} {p : Nat} {st : PortSt} (h : d.portIdle p st)
include h

/-- A change of a port that keeps its state. -/
theorem Dev.portIdle.modPort (k : Nat) {f : Port → Port} (hf : (f (portOf d k)).st = (portOf d k).st) :
    (d.modPort k f).portIdle p st := by
  obtain ⟨hst, hpins⟩ := h
  refine ⟨?_, hpins⟩
  by_cases hk : k = p
  · subst hk
    rw [portOf_modPort_self, hf, hst]
  · rw [portOf_modPort_ne _ _ hk, hst]

theorem Dev.portIdle.fabOut (o : FabOut) : (d.fabOut o).portIdle p st := h

theorem Dev.portIdle.pump (n k : Nat) : (d.pump n k).portIdle p st := by
  induction n generalizing d with
  | zero => exact h
  | succ n ih =>
    rw [Dev.pump]
    dsimp only
    split
    · exact h
    · split
      · exact h
      · refine ih (Dev.portIdle.fabOut (h.modPort k ?_) _)
        rfl

variable (hdown : st ≠ .up4 ∧ st ≠ .up3)
include hdown

theorem Dev.portIdle.choosePort {f : Frame} {inPort k : Nat} {d' : Dev} (hport : choosePort d f inPort = some (k, d')) :
    d'.portIdle p st := by
  obtain ⟨hst, hpins⟩ := h
  rcases choosePort_cases hport with rfl | ⟨hup, key, rfl⟩
  · exact ⟨hst, hpins⟩
  · refine ⟨hst, fun e he => ?_⟩
    rcases mem_of_mem_kput he with rfl | hold
    · rintro rfl
      simp [Port.up, hst, hdown] at hup
    · exact hpins e hold

theorem Dev.portIdle.place (t : TxFrame) : (d.place t).1.portIdle p st := by
  unfold Dev.place
  split
  · exact h
  next hport => exact ((h.choosePort hdown hport).modPort _ rfl).pump ..

theorem Dev.portIdle.sendFrames (dst cls : Nat) (bytes : List Byte) : (d.sendFrames dst cls bytes).portIdle p st :=
  List.foldlRecOn (motive := fun d : Dev => d.portIdle p st) _ _ h fun _ hd _ _ => hd.place hdown _

theorem Dev.portIdle.resendFlow (dst cls : Nat) : (d.resendFlow dst cls).portIdle p st :=
  List.foldlRecOn (motive := fun d : Dev => d.portIdle p st) _ _ h fun _ hd _ _ =>
    Dev.portIdle.sendFrames (d := (Dev.setFlowOut _ _ _ _).count ..) hd hdown ..

end PortIdle

/-! ## A port that goes down -/

/-- `d'` is `d` but for the ports, the flows and what is under way on them, and the counters. -/
def Dev.linksOnly (d d' : Dev) : Prop := ∃ ports pins repin out transit flows cnt tot,
  d' = { d.onFab fun x => { x with ports := ports, pins := pins, repin := repin, out := out, transit := transit, flowsOut := flows } with
    base := { d.base with cnt := cnt, tot := tot } }

theorem Dev.linksOnly_refl (d : Dev) : d.linksOnly d := ⟨_, _, _, _, _, _, _, _, rfl⟩

section LinksOnly

variable {d d' : Dev} (h : d.linksOnly d')
include h

theorem Dev.linksOnly.portsOnly {d'' : Dev} (hports : d'.portsOnly d'') : d.linksOnly d'' := by
  obtain ⟨_, _, _, _, _, _, _, _, rfl⟩ := h
  obtain ⟨_, _, _, _, rfl⟩ := hports
  exact ⟨_, _, _, _, _, _, _, _, rfl⟩

theorem Dev.linksOnly.winOut : d'.fab.winOut = d.fab.winOut := by
  obtain ⟨_, _, _, _, _, _, _, _, rfl⟩ := h
  rfl

theorem Dev.linksOnly.wants : d'.fab.wants = d.fab.wants := by
  obtain ⟨_, _, _, _, _, _, _, _, rfl⟩ := h
  rfl

theorem Dev.linksOnly.onTransit (f : FabState → KMap Nat) (g : FabState → List TxFrame) :
    d.linksOnly (d'.onFab fun x => { x with pins := f x, transit := g x }) := by
  obtain ⟨_, _, _, _, _, _, _, _, rfl⟩ := h
  exact ⟨_, _, _, _, _, _, _, _, rfl⟩

/-- A message that is sent again is counted (R496). -/
theorem Dev.linksOnly.resent (dst cls : Nat) (f : FlowOut) : d.linksOnly ((d'.setFlowOut dst cls f).count cFabE2eRetry 0 1) := by
  obtain ⟨_, _, _, _, _, _, _, _, rfl⟩ := h
  exact ⟨_, _, _, _, _, _, _, _, rfl⟩

theorem Dev.linksOnly.resendFlow (dst cls : Nat) : d.linksOnly (d'.resendFlow dst cls) :=
  List.foldlRecOn (motive := d.linksOnly) _ _ h fun _ hd _ _ => (hd.resent ..).portsOnly ((Dev.portsOnly_refl _).sendFrames ..)

end LinksOnly

/-- The flows of this module that are pinned to a port, by destination and class. -/
def Dev.flowsOn (d : Dev) (p : Nat) : List Nat :=
  (d.fab.flowsOut.filter fun f => kfind d.fab.pins (flowKey d.fab.modid (f.1 / 8) (f.1 % 8)) == some p).map (·.1)

/-- A port once it carries nothing any more. -/
def Port.cleared (q : Port) (st : PortSt) : Port :=
  { Port.reset with st := st, peer := q.peer, pport := q.pport, margins := q.margins, downSaid := q.downSaid }

/-- A port no longer carries anything, before the messages it had are sent again. -/
def Dev.clearPort (d : Dev) (p : Nat) (st : PortSt) : Dev :=
  (d.modPort p fun q => q.cleared st).onFab fun x => { x with
    pins := x.pins.filter fun e => e.2 ≠ p
    transit := (x.transit.filter fun t => t.owner ≠ p || t.frame.token) ++ (portOf d p).txq.filter fun t => t.frame.token }

theorem portDown_eq (d : Dev) (p : Nat) (st : PortSt) :
    d.portDown p st = (d.flowsOn p).foldl (fun d k => d.resendFlow (k / 8) (k % 8)) (d.clearPort p st) := rfl

theorem linksOnly_clearPort (d : Dev) (p : Nat) (st : PortSt) : d.linksOnly (d.clearPort p st) :=
  (d.linksOnly_refl.portsOnly (d.portsOnly_refl.modPort ..)).onTransit ..

theorem linksOnly_portDown (d : Dev) (p : Nat) (st : PortSt) : d.linksOnly (d.portDown p st) := by
  rw [portDown_eq]
  exact List.foldlRecOn (motive := d.linksOnly) _ _ (linksOnly_clearPort ..) fun _ hd _ _ => hd.resendFlow ..

/-- A port that goes down stays in its state, and no message sent again is pinned to it. -/
theorem portIdle_portDown (d : Dev) (p : Nat) {st : PortSt} (hdown : st ≠ .up4 ∧ st ≠ .up3) : (d.portDown p st).portIdle p st := by
  rw [portDown_eq]
  refine List.foldlRecOn (motive := fun d : Dev => d.portIdle p st) _ _ ⟨?_, fun e he => ?_⟩ fun _ hd _ _ => hd.resendFlow hdown ..
  · exact congrArg Port.st (portOf_modPort_self d p fun q => q.cleared st)
  · simpa using (List.mem_filter.1 he).2

/-- A command of the fabric that takes a port down, after events and counts. -/
theorem onFabric_portDown {s : State} (hquiet : s.quietFabric = true) {f : Mod → Mod} {d : Dev} {p : Nat} {st : PortSt}
    (hf : f s.mod = ⟨s.mod.mem, d.portDown p st⟩) (hfab : d.fab = s.mod.dev.fab) :
    onFabric s f = .next (s.withDev (d.portDown p st)) := by
  have hlinks := linksOnly_portDown d p st
  refine onFabric_eq hquiet hf (hlinks.winOut.trans ?_) (hlinks.wants.trans ?_)
  · rw [hfab]
  · rw [hfab]

theorem State.changesOnly.linksOnly {s : State} {d d' : Dev} {ps : List Part} (h : s.changesOnly (s.withDev d) ps) (hfab : Part.fab ∈ ps)
    (hevents : Part.events ∈ ps) (hd : d.linksOnly d') : s.changesOnly (s.withDev d') ps := by
  obtain ⟨_, _, _, _, _, _, _, _, rfl⟩ := hd
  exact (h.onFab hfab _).withEvents hevents ⟨_, _, _, _, rfl⟩

end Sys2Proof.Machine
end

section
/-!
PROOF. Links (R482 to R484, R493, R495): frames that arrive, credits, replays, and a port that goes down.
-/

namespace Sys2Proof.Machine

/-! ## Frames that arrive (R482, R483) -/

/-- Errors that FEC corrected in a frame are counted. -/
def Dev.countFec (d : Dev) (p fec : Nat) : Dev := if fec = 0 then d else d.count cFabFecCorr p fec

@[simp] theorem Dev.countFec_fab (d : Dev) (p fec : Nat) : (d.countFec p fec).fab = d.fab := by
  unfold Dev.countFec
  split
  · rfl
  · rfl

@[simp] theorem Dev.portOf_countFec (d : Dev) (p fec k : Nat) : portOf (d.countFec p fec) k = portOf d k := by
  rw [portOf, portOf, Dev.countFec_fab]

theorem State.changesOnly.countFec {s : State} {d : Dev} {ps : List Part} (h : s.changesOnly (s.withDev d) ps) (hp : Part.events ∈ ps)
    (p fec : Nat) : s.changesOnly (s.withDev (d.countFec p fec)) ps := by
  unfold Dev.countFec
  split
  · exact h
  · exact h.count hp ..

/-- A port refuses a frame: one negative acknowledgement, counted as a replay. -/
def Dev.nak (d : Dev) (p : Nat) : Dev :=
  ((d.modPort p fun q => { q with discarding := true }).count cFabReplay p 1).fabOut (.nak p (prevSeq (portOf d p).rxSeq))

theorem Dev.nak_out (d : Dev) (p : Nat) : (d.nak p).fab.out = d.fab.out ++ [.nak p (prevSeq (portOf d p).rxSeq)] := rfl

theorem portOf_nak_self (d : Dev) (p : Nat) : portOf (d.nak p) p = { portOf d p with discarding := true } :=
  portOf_modPort_self d p fun q => { q with discarding := true }

/-- Only the first frame refused is answered. -/
theorem refuseFrame_of_first {d : Dev} {p : Nat} (h : (portOf d p).discarding = false) : refuseFrame d p = d.nak p := by
  simp [refuseFrame, h, Dev.nak]

/-- A DATA or TOKEN frame that carries no acknowledgement lies beyond the one a port expects: others before it were lost. -/
abbrev afterGap (q : Port) (bytes : List Byte) : Prop :=
  bitOf (fieldAt bytes 8 2) 15 = false ∧ (fieldAt bytes 0 1 = 1 ∨ fieldAt bytes 0 1 = 2) ∧
    fieldAt bytes 2 2 % 4096 ≠ q.rxSeq ∧ 2048 ≤ seqAfter (prevSeq q.rxSeq) (fieldAt bytes 2 2 % 4096)

section Receive

variable {s : State} {p : Fin 16} (hquiet : s.quietFabric = true)
include hquiet

theorem frameReceive_of_down (bytes : List Byte) (fec : Nat) (hdown : (portOf s.mod.dev p).up = false) :
    exec (.frameReceive p bytes fec) s = .next s := by
  have hexec : exec (.frameReceive p bytes fec) s = execFrameReceive p bytes fec s := rfl
  rw [hexec, execFrameReceive]
  exact onFabric_same hquiet (by simp [hdown])

variable (hup : (portOf s.mod.dev p).up = true)
include hup

/-- A damaged frame, or one after a gap, that is the first to be refused. -/
theorem frameReceive_of_refused {bytes : List Byte} (fec : Nat) (hfirst : (portOf s.mod.dev p).discarding = false)
    (hbad : frameOk bytes = false ∨ afterGap (portOf s.mod.dev p) bytes) :
    exec (.frameReceive p bytes fec) s = .next (s.withDev ((s.mod.dev.countFec p fec).nak p)) := by
  have hexec : exec (.frameReceive p bytes fec) s = execFrameReceive p bytes fec s := rfl
  have hfec : (if fec = 0 then s.mod else s.mod.onDev fun d => d.count cFabFecCorr p fec) = s.mod.onDev fun d => d.countFec p fec := by
    unfold Dev.countFec
    split
    · rfl
    · rfl
  have hport := s.mod.dev.portOf_countFec p fec p
  have hout := congrArg FabState.winOut (s.mod.dev.countFec_fab p fec)
  have hwants := congrArg FabState.wants (s.mod.dev.countFec_fab p fec)
  have hnak : refuseFrame (s.mod.dev.countFec p fec) p = (s.mod.dev.countFec p fec).nak p := refuseFrame_of_first (hport ▸ hfirst)
  rw [hexec, execFrameReceive]
  refine onFabric_eq hquiet (m := s.mod.onDev fun d => (d.countFec p fec).nak p) ?_ hout hwants
  simp only [hup, hfec, Bool.not_true, Bool.false_eq_true, if_false]
  by_cases hok : frameOk bytes = true
  · obtain ⟨hack, htype, hseq, hgap⟩ := hbad.resolve_left (by simp [hok])
    have htype' : ¬(fieldAt bytes 0 1 ≠ 1 ∧ fieldAt bytes 0 1 ≠ 2) := by tauto
    simp only [hok, hack, htype', Mod.onDev, hport, hseq, hnak, Nat.not_lt.2 hgap, Bool.not_true, Bool.false_eq_true, if_false]
  · simp only [hok, Mod.onDev, hnak, Bool.not_false, if_true]

variable {bytes : List Byte} (hok : frameOk bytes = true) (hack : bitOf (fieldAt bytes 8 2) 15 = false)
  (htype : fieldAt bytes 0 1 = 1 ∨ fieldAt bytes 0 1 = 2)
include hok hack htype

/-- What a port does with a sound DATA or TOKEN frame depends on the LSEQ. -/
theorem frameReceive_of_sound {m : Mod}
    (hm : (if fieldAt bytes 2 2 % 4096 = (portOf s.mod.dev p).rxSeq then
        takeFrame (s.mod.onDev fun d => (d.modPort p fun q =>
          { q with rxSeq := (fieldAt bytes 2 2 % 4096 + 1) % 4096, discarding := false }).fabOut (.ack p (fieldAt bytes 2 2 % 4096)))
            p (parseFrame bytes)
      else if seqAfter (prevSeq (portOf s.mod.dev p).rxSeq) (fieldAt bytes 2 2 % 4096) < 2048 then
        s.mod.onDev fun d => d.fabOut (.ack p (prevSeq (portOf s.mod.dev p).rxSeq))
      else s.mod.onDev fun d => refuseFrame d p) = m)
    (hout : m.dev.fab.winOut = s.mod.dev.fab.winOut) (hwants : m.dev.fab.wants = s.mod.dev.fab.wants) :
    exec (.frameReceive p bytes 0) s = s.leaves m := by
  have hexec : exec (.frameReceive p bytes 0) s = execFrameReceive p bytes 0 s := rfl
  have htype' : ¬(fieldAt bytes 0 1 ≠ 1 ∧ fieldAt bytes 0 1 ≠ 2) := by tauto
  rw [hexec, execFrameReceive]
  refine onFabric_eq hquiet (Eq.trans ?_ hm) hout hwants
  simp only [hup, hok, hack, htype', Bool.not_true, Bool.false_eq_true, if_true, if_false]

end Receive

/-- The next frame in order has come in by a port. -/
def Dev.acked (d : Dev) (p n : Nat) : Dev :=
  (d.modPort p fun q => { q with rxSeq := (n + 1) % 4096, discarding := false }).fabOut (.ack p n)

section Sound

variable {s : State} {p : Fin 16} (hquiet : s.quietFabric = true) (hup : (portOf s.mod.dev p).up = true)
  {bytes : List Byte} (hok : frameOk bytes = true) (hack : bitOf (fieldAt bytes 8 2) 15 = false)
  (htype : fieldAt bytes 0 1 = 1 ∨ fieldAt bytes 0 1 = 2)
include hquiet hup hok hack htype

/-- A frame in order for another module waits to go on (R495). -/
theorem frameReceive_of_transit (hseq : fieldAt bytes 2 2 % 4096 = (portOf s.mod.dev p).rxSeq)
    (hdst : (parseFrame bytes).dst ≠ s.mod.dev.fab.modid) :
    exec (.frameReceive p bytes 0) s = .next (s.withDev ((s.mod.dev.acked p (fieldAt bytes 2 2 % 4096)).onFab fun x =>
      { x with transit := x.transit ++ [⟨p, parseFrame bytes⟩] })) :=
  frameReceive_of_sound hquiet hup hok hack htype ((if_pos hseq).trans (if_pos hdst)) rfl rfl

/-- The one frame of a message for this module: its buffer is free again, and the message awaits its end-to-end check. -/
theorem frameReceive_of_message (hseq : fieldAt bytes 2 2 % 4096 = (portOf s.mod.dev p).rxSeq)
    (hdst : (parseFrame bytes).dst = s.mod.dev.fab.modid) (hdata : (parseFrame bytes).token = false)
    (hfirst : kfind (portOf s.mod.dev p).parts (chanNo (parseFrame bytes).cls (parseFrame bytes).dl) = none)
    (hwhole : alignUp 64 (32 + fieldAt (parseFrame bytes).payload 2 2) = (parseFrame bytes).payload.length) :
    exec (.frameReceive p bytes 0) s = .next (s.withDev
      ((((s.mod.dev.acked p (fieldAt bytes 2 2 % 4096)).fabOut (.credit p (parseFrame bytes).cls (parseFrame bytes).dl)).modPort p
        fun q => { q with parts := kdel q.parts (chanNo (parseFrame bytes).cls (parseFrame bytes).dl) }).onFab fun x =>
          { x with arrived := x.arrived ++ [((parseFrame bytes).src, (parseFrame bytes).cls,
            (parseFrame bytes).payload.take (32 + fieldAt (parseFrame bytes).payload 2 2))] })) := by
  refine frameReceive_of_sound hquiet hup hok hack htype ((if_pos hseq).trans ((if_neg (not_not.2 hdst)).trans ?_)) rfl rfl
  simp only [Mod.onDev, hdata, Bool.false_eq_true, if_false, takeData, portOf_fabOut, portOf_modPort_self, kget, hfirst,
    Option.getD_none, List.nil_append, hwhole, Nat.lt_irrefl]
  rfl

/-- A second copy is acknowledged again. -/
theorem frameReceive_of_copy (hseq : fieldAt bytes 2 2 % 4096 ≠ (portOf s.mod.dev p).rxSeq)
    (hcopy : seqAfter (prevSeq (portOf s.mod.dev p).rxSeq) (fieldAt bytes 2 2 % 4096) < 2048) :
    exec (.frameReceive p bytes 0) s = .next (s.withDev (s.mod.dev.fabOut (.ack p (prevSeq (portOf s.mod.dev p).rxSeq)))) :=
  frameReceive_of_sound hquiet hup hok hack htype ((if_neg hseq).trans (if_pos hcopy)) rfl rfl

end Sound

/-! ## Credits (R482) -/

/-- A receiver has given `n` credits of a channel. -/
def Port.credited (q : Port) (cls : Nat) (dl : Bool) (n : Nat) : Port :=
  { q with credits := kset 0 q.credits (chanNo cls dl) (kget 0 q.credits (chanNo cls dl) + n) }

/-- A port once a frame has gone: it is kept until it is acknowledged. -/
def Port.sent (q : Port) (t : TxFrame) (openMsg : KMap (Nat × Nat)) (drr : Nat × Nat) : Port :=
  { q with
    txSeq := (q.txSeq + 1) % 4096
    kept := q.kept ++ [(q.txSeq, t.frame)]
    credits := kset 0 q.credits (chanNo t.frame.cls t.frame.dl) (kget 0 q.credits (chanNo t.frame.cls t.frame.dl) - 1)
    txq := q.txq.erase t
    openMsg := openMsg
    drr := drr }

/-- The only frame that waits is the next to go, where it may go. -/
theorem nextTx_of_single (b : BaseState) {q : Port} {t : TxFrame} (htxq : q.txq = [t]) (hcls : t.frame.cls < 5) (hgo : mayGo q t = true) :
    nextTx b q = some t := by
  obtain h0 | h1 | h2 | h3 | h4 : t.frame.cls = 0 ∨ t.frame.cls = 1 ∨ t.frame.cls = 2 ∨ t.frame.cls = 3 ∨ t.frame.cls = 4 := by omega
  all_goals simp [nextTx, List.range_succ, *]

/-- A frame that may go leaves its port. -/
theorem pump_of_next {d : Dev} {p n : Nat} {t : TxFrame} (hup : (portOf d p).up = true) (hlanes : (portOf d p).nextLanes = none)
    (hroom : (portOf d p).kept.length < 1024) (hnext : nextTx d.base (portOf d p) = some t) :
    ∃ openMsg drr, d.pump (n + 1) p = Dev.pump n p ((d.modPort p fun _ => (portOf d p).sent t openMsg drr).fabOut
      (.frame p (portOf d p).txSeq (prevSeq (portOf d p).rxSeq) t.frame)) := by
  rw [Dev.pump]
  dsimp only
  rw [if_neg (by simp [hup, hlanes, hroom])]
  simp only [hnext]
  exact ⟨_, _, rfl⟩

section Credit

variable {s : State} {p : Fin 16} (hquiet : s.quietFabric = true) (cls : Fin 5) (dl : Bool) (n : Nat)
include hquiet

theorem linkCredit_of_down (hdown : (portOf s.mod.dev p).up = false) : exec (.linkCredit p cls dl n) s = .next s := by
  have hexec : exec (.linkCredit p cls dl n) s = execLinkCredit p cls dl n s := rfl
  rw [hexec, execLinkCredit]
  exact onFabric_same hquiet (by simp [Mod.onDev, hdown])

variable (hup : (portOf s.mod.dev p).up = true)
include hup

theorem linkCredit_of_up : exec (.linkCredit p cls dl n) s =
    .next (s.withDev ((s.mod.dev.modPort p fun q => q.credited cls dl n).pumpPort p)) := by
  have hexec : exec (.linkCredit p cls dl n) s = execLinkCredit p cls dl n s := rfl
  have hports := (Dev.portsOnly_refl (s.mod.dev.modPort p fun q => q.credited cls dl n)).pump
    (portOf (s.mod.dev.modPort p fun q => q.credited cls dl n) p).txq.length p
  rw [hexec, execLinkCredit]
  refine onFabric_eq hquiet (m := s.mod.onDev fun d => (d.modPort p fun q => q.credited cls dl n).pumpPort p) ?_ hports.winOut
    hports.wants
  simp only [Mod.onDev, hup, Bool.not_true, Bool.false_eq_true, if_false]
  rfl

/-- Where no frame waits, the credits are kept. -/
theorem linkCredit_of_idle (htxq : (portOf s.mod.dev p).txq = []) : exec (.linkCredit p cls dl n) s =
    .next (s.withDev (s.mod.dev.modPort p fun q => q.credited cls dl n)) := by
  rw [linkCredit_of_up hquiet cls dl n hup, pumpPort_of_nil]
  rw [portOf_modPort_self]
  exact htxq

/-- The only frame that waits goes with the first of the credits, and is kept. -/
theorem linkCredit_of_waiting {t : TxFrame} (htxq : (portOf s.mod.dev p).txq = [t]) (hcls : t.frame.cls = cls) (hdl : t.frame.dl = dl)
    (hn : 0 < n) (hopen : (portOf s.mod.dev p).openMsg = []) (hlanes : (portOf s.mod.dev p).nextLanes = none)
    (hroom : (portOf s.mod.dev p).kept.length < 1024) :
    ∃ openMsg drr, exec (.linkCredit p cls dl n) s = .next (s.withDev
      (((s.mod.dev.modPort p fun q => q.credited cls dl n).modPort p fun _ =>
        ((portOf s.mod.dev p).credited cls dl n).sent t openMsg drr).fabOut
        (.frame p (portOf s.mod.dev p).txSeq (prevSeq (portOf s.mod.dev p).rxSeq) t.frame))) := by
  have hport : portOf (s.mod.dev.modPort p fun q => q.credited cls dl n) p = (portOf s.mod.dev p).credited cls dl n :=
    portOf_modPort_self ..
  have hgo : mayGo ((portOf s.mod.dev p).credited cls dl n) t = true := by
    simp [mayGo, Port.credited, hcls, hdl, hopen, hn]
  have hnext := nextTx_of_single s.mod.dev.base (q := (portOf s.mod.dev p).credited cls dl n) htxq (hcls ▸ cls.isLt) hgo
  obtain ⟨openMsg, drr, hpump⟩ := pump_of_next (d := s.mod.dev.modPort p fun q => q.credited cls dl n) (p := p) (n := 0)
    (by rw [hport]; exact hup) (by rw [hport]; exact hlanes) (by rw [hport]; exact hroom) (by rw [hport]; exact hnext)
  have hlen : (portOf (s.mod.dev.modPort p fun q => q.credited cls dl n) p).txq.length = 1 := by
    rw [hport]
    exact congrArg List.length htxq
  refine ⟨openMsg, drr, ?_⟩
  rw [linkCredit_of_up hquiet cls dl n hup, Dev.pumpPort, hlen, hpump, hport]
  rfl

end Credit

/-! ## Replays, and a port that goes down (R483, R484, R493) -/

/-- ACKSEQ that covers no frame kept changes nothing. -/
theorem linkAck_of_uncovered {d : Dev} {p ack : Nat} (h : ∀ k ∈ (portOf d p).kept, 2048 ≤ seqAfter ack k.1) : d.linkAck p ack = d := by
  have hall : ((portOf d p).kept.filter fun k => !decide (seqAfter ack k.1 < 2048)) = (portOf d p).kept :=
    List.filter_eq_self.2 fun k hk => by simpa using h k hk
  simp [Dev.linkAck, hall]

section Replay

variable {s : State} {p : Fin 16} (hquiet : s.quietFabric = true) (acked : BitVec 12)
include hquiet

theorem frameReplay_of_down (hdown : (portOf s.mod.dev p).up = false) : exec (.frameReplay p acked) s = .next s := by
  have hexec : exec (.frameReplay p acked) s = execFrameReplay p acked s := rfl
  rw [hexec, execFrameReplay]
  exact onFabric_same hquiet (by simp [Mod.onDev, hdown])

variable {acked} (hup : (portOf s.mod.dev p).up = true) (hkept : (portOf s.mod.dev p).kept ≠ [])
  (hopen : ∀ k ∈ (portOf s.mod.dev p).kept, 2048 ≤ seqAfter acked.toNat k.1)
include hup hkept hopen

theorem frameReplay_of_few (hfew : (portOf s.mod.dev p).replays < 7) : exec (.frameReplay p acked) s =
    .next (s.withDev ((s.mod.dev.modPort p fun q => { q with replays := q.replays + 1 }).onFab fun x => { x with
      out := x.out ++ (portOf s.mod.dev p).kept.map fun k => .frame p k.1 (prevSeq (portOf s.mod.dev p).rxSeq) k.2 })) := by
  have hexec : exec (.frameReplay p acked) s = execFrameReplay p acked s := rfl
  have hmore : ¬8 ≤ (portOf s.mod.dev p).replays + 1 := by omega
  rw [hexec, execFrameReplay]
  refine onFabric_eq hquiet (m := s.mod.onDev fun d => (d.modPort p fun q => { q with replays := q.replays + 1 }).onFab fun x =>
    { x with out := x.out ++ (portOf d p).kept.map fun k => .frame p k.1 (prevSeq (portOf d p).rxSeq) k.2 }) ?_ rfl rfl
  simp only [Mod.onDev, hup, linkAck_of_uncovered hopen, hkept, hmore, foldl_fabOut, Bool.not_true, Bool.false_eq_true, if_false]

theorem frameReplay_of_many (hmany : 7 ≤ (portOf s.mod.dev p).replays) :
    exec (.frameReplay p acked) s = .next (s.withDev (s.mod.dev.portDown p .training)) := by
  have hexec : exec (.frameReplay p acked) s = execFrameReplay p acked s := rfl
  have hmore : 8 ≤ (portOf s.mod.dev p).replays + 1 := by omega
  rw [hexec, execFrameReplay]
  refine onFabric_portDown hquiet ?_ rfl
  simp only [Mod.onDev, hup, linkAck_of_uncovered hopen, hkept, hmore, Bool.not_true, Bool.false_eq_true, if_false, if_true]

end Replay

section PortDown

variable {s : State} {p : Fin 16} (hquiet : s.quietFabric = true)
include hquiet

theorem portDown_of_down (hdown : (portOf s.mod.dev p).up = false) : exec (.portDown p) s = .next s := by
  have hexec : exec (.portDown p) s = execPortDown p s := rfl
  rw [hexec, execPortDown]
  exact onFabric_same hquiet (by simp [hdown])

theorem portDown_of_up (hup : (portOf s.mod.dev p).up = true) : exec (.portDown p) s = .next (s.withDev (s.mod.dev.portDown p .down)) := by
  have hexec : exec (.portDown p) s = execPortDown p s := rfl
  rw [hexec, execPortDown]
  exact onFabric_portDown hquiet (if_pos hup) rfl

end PortDown

/-- Settles O36: by one rule for each command and outcome, and by what a frame sent, and a port that goes down, leave of their port. -/
theorem linksCarryFrames : Obligations.LinksCarryFrames := by
  unfold Obligations.LinksCarryFrames
  intro s p hquiet d q
  refine ⟨fun bytes fec cls dl n acked hdown => ⟨frameReceive_of_down hquiet bytes fec hdown, linkCredit_of_down hquiet cls dl n hdown,
      frameReplay_of_down hquiet acked hdown, portDown_of_down hquiet hdown⟩,
    fun bytes fec hup hfirst hbad => ?refused,
    fun bytes hup hok hack htype => ⟨fun hseq hdst => ?transit, fun hseq hdst hdata hparts hwhole => ?message,
      fun hseq hcopy => ?copy⟩,
    fun cls dl n hup htxq => ?credit,
    fun cls dl n t hup htxq hcls hdl hn hopen hlanes hroom => ?goes,
    fun acked hup hkept hopen => ⟨fun hfew => ?again, fun hmany => ?trains⟩,
    fun hup => ?down⟩
  case refused =>
    refine ⟨_, frameReceive_of_refused hquiet hup fec hfirst hbad, ?_, ?_, ?_, ?_⟩
    · exact ((((s.changesOnly_refl _).countFec (d := d) (by decide) ..).modPort (by decide) ..).count (by decide) ..).fabOut (by decide) _
    · rfl
    · exact (Dev.nak_out ..).trans (by rw [Dev.countFec_fab, Dev.portOf_countFec])
    · exact (portOf_nak_self ..).trans (by rw [Dev.portOf_countFec])
  case transit =>
    refine ⟨_, frameReceive_of_transit hquiet hup hok hack htype hseq hdst, ?_, rfl, rfl, ?_⟩
    · exact (((s.changesOnly_refl _).modPort (d := d) (by decide) ..).fabOut (by decide) _).onFab (by decide) _
    · exact portOf_modPort_self d p fun q => { q with rxSeq := (fieldAt bytes 2 2 % 4096 + 1) % 4096, discarding := false }
  case message =>
    refine ⟨_, frameReceive_of_message hquiet hup hok hack htype hseq hdst hdata hparts hwhole, ?_, ?_, rfl, rfl⟩
    · exact (((((s.changesOnly_refl _).modPort (d := d) (by decide) ..).fabOut (by decide) _).fabOut (by decide) _).modPort
        (by decide) ..).onFab (by decide) _
    · exact List.append_assoc ..
  case copy =>
    exact ⟨_, frameReceive_of_copy hquiet hup hok hack htype hseq hcopy, (s.changesOnly_refl _).fabOut (d := d) (by decide) _, rfl⟩
  case credit =>
    refine ⟨_, linkCredit_of_idle hquiet cls dl n hup htxq, (s.changesOnly_refl _).modPort (d := d) (by decide) .., rfl, ?_⟩
    rw [portOf_modPort_self]
    exact kget_kset_self ..
  case goes =>
    obtain ⟨openMsg, drr, hexec⟩ := linkCredit_of_waiting hquiet cls dl n hup htxq hcls hdl hn hopen hlanes hroom
    have hport := portOf_modPort_self (d.modPort p fun q => q.credited cls dl n) p fun _ => (q.credited cls dl n).sent t openMsg drr
    refine ⟨_, hexec, ?_, rfl, ?_, congrArg Port.kept hport, congrArg Port.txSeq hport, ?_⟩
    · exact (((s.changesOnly_refl _).modPort (d := d) (by decide) ..).modPort (by decide) ..).fabOut (by decide) _
    · exact (congrArg Port.txq hport).trans (by simp [Port.sent, Port.credited, htxq])
    · refine (congrArg (fun q : Port => kget 0 q.credits (chanNo cls dl) + 1) hport).trans ?_
      simp only [Port.sent, Port.credited, hcls, hdl, kget_kset_self]
      omega
  case again =>
    refine ⟨_, frameReplay_of_few hquiet hup hkept hopen hfew, ?_, rfl, ?_⟩
    · exact ((s.changesOnly_refl _).modPort (d := d) (by decide) ..).onFab (by decide) _
    · exact portOf_modPort_self d p fun q => { q with replays := q.replays + 1 }
  case trains =>
    exact ⟨_, frameReplay_of_many hquiet hup hkept hopen hmany,
      (s.changesOnly_refl _).linksOnly (d := d) (by decide) (by decide) (linksOnly_portDown ..), (portIdle_portDown _ _ (by decide)).1⟩
  case down =>
    exact ⟨_, portDown_of_up hquiet hup, (s.changesOnly_refl _).linksOnly (d := d) (by decide) (by decide) (linksOnly_portDown ..),
      portIdle_portDown _ _ (by decide)⟩

end Sys2Proof.Machine
end

section
/-!
PROOF. Training and lanes (R488, R490, R513 to R515): the peer of a port that trains, margins, and lanes that leave and return.
-/

namespace Sys2Proof.Machine

/-! ## Training (R488, R490) -/

/-- Each end says who it is, and the port takes a state with what it has learnt. -/
def Dev.linked (d : Dev) (p : Nat) (lanes : BitVec 4) (peer : BitVec 16) (pport : Fin 16) (st : PortSt) : Dev :=
  (d.fabOut (.ident p d.fab.modid)).modPort p fun q => { Port.reset with
    st := st, lanes := lanes.toNat, peer := peer.toNat, pport := pport, margins := q.margins }

/-- All four lanes are there only where the mask is full. -/
theorem four_lanes_iff (lanes : BitVec 4) : ((List.range 4).filter fun l => bitOf lanes.toNat l).length = 4 ↔ lanes = 15 := by
  revert lanes
  decide

section Ident

variable {s : State} {p : Fin 16} (hquiet : s.quietFabric = true) {lanes : BitVec 4} {peer : BitVec 16} {pport : Fin 16}
include hquiet

theorem identFrame_of_idle (hidle : (portOf s.mod.dev p).st ≠ .training ∨ mayTrain s.mod.dev p = false) :
    exec (.identFrame p lanes peer pport) s = .next s := by
  have hexec : exec (.identFrame p lanes peer pport) s = execIdentFrame p lanes peer pport s := rfl
  rw [hexec, execIdentFrame]
  refine onFabric_same hquiet (congrArg (fun d => (⟨s.mod.mem, d⟩ : Mod)) (if_pos ?_))
  tauto

variable (hst : (portOf s.mod.dev p).st = .training) (hmay : mayTrain s.mod.dev p = true)
  (hlanes : 3 ≤ ((List.range 4).filter fun l => bitOf lanes.toNat l).length)
include hst hmay hlanes

theorem identFrame_of_prescribed (hpeer : peerOf s.mod.dev p = some peer.toNat) (hdim : portDim pport = portDim p)
    (hdir : portPlus pport ≠ portPlus p) : exec (.identFrame p lanes peer pport) s =
      .next (s.withDev (s.mod.dev.linked p lanes peer pport (if lanes = 15 then .up4 else .up3))) := by
  have hexec : exec (.identFrame p lanes peer pport) s = execIdentFrame p lanes peer pport s := rfl
  rw [hexec, execIdentFrame]
  refine onFabric_eq hquiet (m := s.mod.onDev fun d => d.linked p lanes peer pport (if lanes = 15 then .up4 else .up3)) ?_ rfl rfl
  simp only [Mod.onDev, hst, hmay, hpeer, hdim, hdir, four_lanes_iff, Nat.not_lt.2 hlanes, ne_eq, not_true_eq_false, not_false_eq_true,
    Bool.true_eq_false, or_self, and_self, if_false, if_true, Dev.linked]

theorem identFrame_of_other (hpeer : peerOf s.mod.dev p ≠ some peer.toNat) : exec (.identFrame p lanes peer pport) s =
    .next (s.withDev ((s.mod.dev.linked p lanes peer pport .miscabled).raise evFabCableMismatch { n := p })) := by
  have hexec : exec (.identFrame p lanes peer pport) s = execIdentFrame p lanes peer pport s := rfl
  rw [hexec, execIdentFrame]
  refine onFabric_eq hquiet
    (m := s.mod.onDev fun d => (d.linked p lanes peer pport .miscabled).raise evFabCableMismatch { n := p }) ?_ rfl rfl
  simp only [Mod.onDev, hst, hmay, hpeer, Nat.not_lt.2 hlanes, ne_eq, not_true_eq_false, Bool.true_eq_false, or_self, false_and,
    if_false, Dev.linked]

end Ident

/-- A port trains again, and has said that it is down or not. -/
def Dev.retrain (d : Dev) (p : Nat) (say : Bool) : Dev :=
  d.modPort p fun q => { q with st := .training, downSaid := q.downSaid || say }

section Retry

variable {s : State} {p : Fin 16} (hquiet : s.quietFabric = true) (waitOver : Bool)
include hquiet

theorem portTrainRetry_of_down (hmay : mayTrain s.mod.dev p = true)
    (hst : (portOf s.mod.dev p).st = .down ∨ (portOf s.mod.dev p).st = .training) :
    exec (.portTrainRetry p waitOver) s = .next (s.withDev
      (if waitOver && !(portOf s.mod.dev p).downSaid then (s.mod.dev.retrain p true).raise evFabPortDown { n := p }
        else s.mod.dev.retrain p false)) := by
  have hexec : exec (.portTrainRetry p waitOver) s = execPortTrainRetry p waitOver s := rfl
  have htrains : ¬(mayTrain s.mod.dev p = false ∨ (portOf s.mod.dev p).st ≠ .down ∧ (portOf s.mod.dev p).st ≠ .training) := by
    simp only [hmay]
    tauto
  rw [hexec, execPortTrainRetry]
  cases hsay : waitOver && !(portOf s.mod.dev p).downSaid with
  | true =>
    refine onFabric_eq hquiet (m := s.mod.onDev fun d => (d.retrain p true).raise evFabPortDown { n := p }) ?_ rfl rfl
    simp only [Mod.onDev, if_neg htrains, hsay, if_true, Dev.retrain]
  | false =>
    refine onFabric_eq hquiet (m := s.mod.onDev fun d => d.retrain p false) ?_ rfl rfl
    simp only [Mod.onDev, if_neg htrains, hsay, Bool.false_eq_true, if_false, Dev.retrain]

theorem portTrainRetry_of_barred (hbar : mayTrain s.mod.dev p = false ∨ (portOf s.mod.dev p).up = true) :
    exec (.portTrainRetry p waitOver) s = .next s := by
  have hexec : exec (.portTrainRetry p waitOver) s = execPortTrainRetry p waitOver s := rfl
  have hbar' : mayTrain s.mod.dev p = false ∨ (portOf s.mod.dev p).st ≠ .down ∧ (portOf s.mod.dev p).st ≠ .training := by
    refine hbar.imp_right fun hup => ⟨fun hst => ?_, fun hst => ?_⟩
    · simp [Port.up, hst] at hup
    · simp [Port.up, hst] at hup
  rw [hexec, execPortTrainRetry]
  exact onFabric_same hquiet (congrArg (fun d => (⟨s.mod.mem, d⟩ : Mod)) (if_pos hbar'))

end Retry

/-! ## Margins (R513) -/

/-- A lane's margin has been measured. -/
def Dev.measureLane (d : Dev) (p lane margin : Nat) : Dev := d.modPort p fun q => { q with margins := kput q.margins lane margin }

section Calibration

variable {s : State} {p : Fin 16} {lane : Fin 4} {margin : Nat} (hen : cfgFabCalCfgEn s.mod.dev.base = 1)
  (hup : (portOf s.mod.dev p).up = true)
include hen hup

theorem laneCalibration_of_good (hgood : cfgFabCalCfgMinmargin s.mod.dev.base ≤ margin) :
    exec (.laneCalibration p lane margin false) s = .next (s.withDev (s.mod.dev.measureLane p lane margin)) := by
  have hexec : exec (.laneCalibration p lane margin false) s = execLaneCalibration p lane margin false s := rfl
  rw [hexec, execLaneCalibration, onDev_eq]
  simp [hen, hup, Nat.not_lt.2 hgood, Dev.measureLane]

theorem laneCalibration_of_adjust (hgood : cfgFabCalCfgMinmargin s.mod.dev.base ≤ margin) :
    exec (.laneCalibration p lane margin true) s =
      .next (s.withDev (((s.mod.dev.measureLane p lane margin).fabOut (.adjust p lane)).count cFabCalAdj p 1)) := by
  have hexec : exec (.laneCalibration p lane margin true) s = execLaneCalibration p lane margin true s := rfl
  rw [hexec, execLaneCalibration, onDev_eq]
  simp [hen, hup, Nat.not_lt.2 hgood, Dev.measureLane]

/-- The first margin of a lane is a low one. -/
theorem laneCalibration_of_low (hlow : margin < cfgFabCalCfgMinmargin s.mod.dev.base)
    (hfirst : kfind (portOf s.mod.dev p).margins lane = none) :
    exec (.laneCalibration p lane margin false) s =
      .next (s.withDev ((s.mod.dev.measureLane p lane margin).raise evFabLaneMargin { n := 4 * p.val + lane.val })) := by
  have hexec : exec (.laneCalibration p lane margin false) s = execLaneCalibration p lane margin false s := rfl
  rw [hexec, execLaneCalibration, onDev_eq]
  simp [hen, hup, hlow, hfirst, Dev.measureLane]

end Calibration

/-! ## Lanes that leave and return (R514, R515) -/

/-- A lane's loss is counted and said. -/
def Dev.sayLaneOut (d : Dev) (p lane : Nat) : Dev := (d.count cFabLaneDegrade p 1).raise evFabLaneDegraded { n := 4 * p + lane }

/-- The lanes that a mask leaves. -/
abbrev laneCountOf (mask : Nat) : Nat := ((List.range 4).filter fun l => bitOf mask l).length

theorem agreeLanes_out (d : Dev) (p mask : Nat) : (d.agreeLanes p mask).fab.out = d.fab.out ++ [.lanes p mask] := rfl

theorem portOf_agreeLanes_self (d : Dev) (p mask : Nat) : portOf (d.agreeLanes p mask) p = { portOf d p with nextLanes := some mask } :=
  portOf_modPort_self d p fun q => { q with nextLanes := some mask }

section Degrade

variable {s : State} {p : Fin 16} (hquiet : s.quietFabric = true) {lane : Fin 4} {lost : Bool} (hup : (portOf s.mod.dev p).up = true)
  (hstay : (portOf s.mod.dev p).nextLanes = none) (hin : bitOf (portOf s.mod.dev p).lanes lane = true)
  (hbad : lost = true ∨ ∃ m, kfind (portOf s.mod.dev p).margins lane = some m ∧ m < cfgFabCalCfgMinmargin s.mod.dev.base)
include hquiet hup hstay hin hbad

/-- A lane in use that is lost, or whose margin is low, is taken out: its port goes on with the others, or goes down. -/
theorem laneDegrade_of_bad {d : Dev} (hd : (if laneCountOf (withBits (portOf s.mod.dev p).lanes lane lane 0) < 3
      then (s.mod.dev.sayLaneOut p lane).portDown p .down
      else (s.mod.dev.sayLaneOut p lane).agreeLanes p (withBits (portOf s.mod.dev p).lanes lane lane 0)) = d)
    (hout : d.fab.winOut = s.mod.dev.fab.winOut) (hwants : d.fab.wants = s.mod.dev.fab.wants) :
    exec (.laneDegrade p lane lost) s = .next (s.withDev d) := by
  have hexec : exec (.laneDegrade p lane lost) s = execLaneDegrade p lane lost s := rfl
  have hleaves : ¬(lost = false ∧ ((kfind (portOf s.mod.dev p).margins lane).any fun x =>
      decide (x < cfgFabCalCfgMinmargin s.mod.dev.base)) = false) := by
    rintro ⟨hnot, hhigh⟩
    rcases hbad with hlost | ⟨m, hm, hlow⟩
    · rw [hnot] at hlost
      cases hlost
    · simp [hm, hlow] at hhigh
  rw [hexec, execLaneDegrade]
  refine onFabric_eq hquiet (m := ⟨s.mod.mem, d⟩) ?_ hout hwants
  simp only [Mod.onDev, hup, hstay, Option.getD_none, hin, hleaves, Bool.true_eq_false, or_self, if_false]
  exact congrArg (Mod.mk s.mod.mem) hd

theorem laneDegrade_of_enough (hmany : 3 ≤ laneCountOf (withBits (portOf s.mod.dev p).lanes lane lane 0)) :
    exec (.laneDegrade p lane lost) s = .next (s.withDev
      ((s.mod.dev.sayLaneOut p lane).agreeLanes p (withBits (portOf s.mod.dev p).lanes lane lane 0))) :=
  laneDegrade_of_bad hquiet hup hstay hin hbad (if_neg (Nat.not_lt.2 hmany)) rfl rfl

theorem laneDegrade_of_few (hfew : laneCountOf (withBits (portOf s.mod.dev p).lanes lane lane 0) < 3) :
    exec (.laneDegrade p lane lost) s = .next (s.withDev ((s.mod.dev.sayLaneOut p lane).portDown p .down)) := by
  have hlinks := linksOnly_portDown (s.mod.dev.sayLaneOut p lane) p .down
  exact laneDegrade_of_bad hquiet hup hstay hin hbad (if_pos hfew) hlinks.winOut hlinks.wants

end Degrade

section Restore

variable {s : State} {p : Fin 16} (hquiet : s.quietFabric = true) {lane : Fin 4} {margin : Nat}
include hquiet

theorem laneRestore_of_good (hup : (portOf s.mod.dev p).up = true) (hstay : (portOf s.mod.dev p).nextLanes = none)
    (hout : bitOf (portOf s.mod.dev p).lanes lane = false) (hgood : cfgFabCalCfgMinmargin s.mod.dev.base + 2 ≤ margin) :
    exec (.laneRestore p lane margin) s = .next (s.withDev
      (((s.mod.dev.measureLane p lane margin).raise evFabLaneRestored { n := 4 * p.val + lane.val }).agreeLanes p
        (withBits (portOf s.mod.dev p).lanes lane lane 1))) := by
  have hexec : exec (.laneRestore p lane margin) s = execLaneRestore p lane margin s := rfl
  rw [hexec, execLaneRestore]
  refine onFabric_eq hquiet (m := s.mod.onDev fun d => ((d.measureLane p lane margin).raise evFabLaneRestored
    { n := 4 * p.val + lane.val }).agreeLanes p (withBits (portOf d p).lanes lane lane 1)) ?_ rfl rfl
  simp [hup, hstay, hout, Nat.not_lt.2 hgood, Mod.onDev, Dev.measureLane]

theorem laneRestore_of_poor (hpoor : margin < cfgFabCalCfgMinmargin s.mod.dev.base + 2) :
    exec (.laneRestore p lane margin) s = .next s := by
  have hexec : exec (.laneRestore p lane margin) s = execLaneRestore p lane margin s := rfl
  rw [hexec, execLaneRestore]
  exact onFabric_same hquiet (congrArg (fun d => (⟨s.mod.mem, d⟩ : Mod)) (if_pos (.inr (.inr hpoor))))

end Restore

/-- A port runs on the lanes agreed, and the flows of its dimension are to be spread again. -/
def Dev.takeLanes (d : Dev) (p mask : Nat) : Dev :=
  (d.modPort p fun q => { q with st := if mask = 15 then .up4 else .up3, lanes := mask, nextLanes := none }).onFab fun x => { x with
    repin := (x.repin ++ (x.pins.filter fun e => portDim e.2 = portDim p).map (·.1)).eraseDups }

theorem portOf_takeLanes_self (d : Dev) (p mask : Nat) : portOf (d.takeLanes p mask) p =
    { portOf d p with st := if mask = 15 then .up4 else .up3, lanes := mask, nextLanes := none } :=
  portOf_modPort_self d p fun q => { q with st := if mask = 15 then .up4 else .up3, lanes := mask, nextLanes := none }

section CountChange

variable {s : State} {p : Fin 16} (hquiet : s.quietFabric = true)
include hquiet

theorem laneCountChange_of_agreed {mask : Nat} (hnext : (portOf s.mod.dev p).nextLanes = some mask)
    (htxq : (portOf s.mod.dev p).txq = []) : exec (.laneCountChange p) s =
      .next (s.withDev ((s.mod.dev.takeLanes p mask).onFab fun x => { x with
        out := x.out ++ (portOf s.mod.dev p).kept.map fun k => .frame p k.1 (prevSeq (portOf s.mod.dev p).rxSeq) k.2 })) := by
  have hexec : exec (.laneCountChange p) s = execLaneCountChange p s := rfl
  rw [hexec, execLaneCountChange]
  refine onFabric_eq hquiet (m := s.mod.onDev fun d => (d.takeLanes p mask).onFab fun x => { x with
    out := x.out ++ (portOf d p).kept.map fun k => .frame p k.1 (prevSeq (portOf d p).rxSeq) k.2 }) ?_ rfl rfl
  have htxq' : (portOf ((s.mod.dev.takeLanes p mask).onFab fun x => { x with
      out := x.out ++ (portOf s.mod.dev p).kept.map fun k => .frame p k.1 (prevSeq (portOf s.mod.dev p).rxSeq) k.2 }) p).txq = [] :=
    (congrArg Port.txq (portOf_takeLanes_self s.mod.dev p mask)).trans htxq
  simp only [Mod.onDev, hnext, foldl_fabOut]
  exact congrArg (Mod.mk s.mod.mem) (pumpPort_of_nil htxq')

theorem laneCountChange_of_none (hnext : (portOf s.mod.dev p).nextLanes = none) : exec (.laneCountChange p) s = .next s := by
  have hexec : exec (.laneCountChange p) s = execLaneCountChange p s := rfl
  rw [hexec, execLaneCountChange]
  exact onFabric_same hquiet (by simp only [Mod.onDev, hnext])

end CountChange

/-- Settles O37: by one rule for each command and outcome. -/
theorem portsAndLanesFollowTheLinks : Obligations.PortsAndLanesFollowTheLinks := by
  unfold Obligations.PortsAndLanesFollowTheLinks
  intro s p hquiet d q min
  refine ⟨fun lanes peer pport => ⟨identFrame_of_idle hquiet, fun hst hmay hlanes => ⟨fun hpeer hdim hdir => ?prescribed,
      fun hpeer => ?other⟩⟩,
    fun waitOver hmay hst => ?retry, fun waitOver => portTrainRetry_of_barred hquiet waitOver,
    fun lane margin hen hup => ⟨fun hgood => ?good, fun hgood => ?adjust, fun hlow hfirst => ?low⟩,
    fun lane lost hup hstay hin hbad => ⟨fun hmany => ?enough, fun hfew => ?few⟩,
    fun lane margin hup hstay hout => ⟨fun hgood => ?restored, laneRestore_of_poor hquiet⟩,
    fun mask hnext htxq => ?agreed, laneCountChange_of_none hquiet⟩
  case prescribed =>
    have hport := portOf_modPort_self (d.fabOut (.ident p d.fab.modid)) p fun q => { Port.reset with
      st := if lanes = 15 then .up4 else .up3, lanes := lanes.toNat, peer := peer.toNat, pport := pport, margins := q.margins }
    exact ⟨_, identFrame_of_prescribed hquiet hst hmay hlanes hpeer hdim hdir,
      ((s.changesOnly_refl _).fabOut (d := d) (by decide) _).modPort (by decide) .., rfl, congrArg Port.st hport,
      congrArg Port.lanes hport, congrArg Port.peer hport, congrArg Port.pport hport⟩
  case other =>
    exact ⟨_, identFrame_of_other hquiet hst hmay hlanes hpeer,
      (((s.changesOnly_refl _).fabOut (d := d) (by decide) _).modPort (by decide) ..).raise (by decide) ..,
      congrArg Port.st (portOf_modPort_self ..), rfl⟩
  case retry =>
    refine ⟨_, portTrainRetry_of_down hquiet waitOver hmay hst, ?_⟩
    have htrain : ∀ say, (portOf (d.retrain p say) p).st = .training := fun say => congrArg Port.st (portOf_modPort_self ..)
    split
    · exact ⟨((s.changesOnly_refl _).modPort (d := d) (by decide) ..).raise (by decide) .., htrain true, rfl⟩
    · exact ⟨(s.changesOnly_refl _).modPort (d := d) (by decide) .., htrain false, rfl⟩
  case good =>
    exact ⟨_, laneCalibration_of_good hen hup hgood, (s.changesOnly_refl _).modPort (d := d) (by decide) .., portOf_modPort_self ..⟩
  case adjust =>
    exact ⟨_, laneCalibration_of_adjust hen hup hgood,
      (((s.changesOnly_refl _).modPort (d := d) (by decide) ..).fabOut (by decide) _).count (by decide) .., rfl, rfl⟩
  case low =>
    exact ⟨_, laneCalibration_of_low hen hup hlow hfirst,
      ((s.changesOnly_refl _).modPort (d := d) (by decide) ..).raise (by decide) .., rfl⟩
  case enough =>
    refine ⟨_, laneDegrade_of_enough hquiet hup hstay hin hbad hmany, ?_, rfl, portOf_agreeLanes_self .., agreeLanes_out ..⟩
    exact ((((s.changesOnly_refl _).count (d := d) (by decide) ..).raise (by decide) ..).modPort (by decide) ..).fabOut (by decide) _
  case few =>
    refine ⟨_, laneDegrade_of_few hquiet hup hstay hin hbad hfew, ?_, (portIdle_portDown _ _ (by decide)).1⟩
    exact (((s.changesOnly_refl _).count (d := d) (by decide) ..).raise (by decide) ..).linksOnly (by decide) (by decide)
      (linksOnly_portDown ..)
  case restored =>
    refine ⟨_, laneRestore_of_good hquiet hup hstay hout hgood, ?_, rfl, congrArg Port.nextLanes (portOf_agreeLanes_self ..)⟩
    exact ((((s.changesOnly_refl _).modPort (d := d) (by decide) ..).raise (by decide) ..).modPort (by decide) ..).fabOut (by decide) _
  case agreed =>
    refine ⟨_, laneCountChange_of_agreed hquiet hnext htxq, ?_, rfl, portOf_takeLanes_self ..⟩
    exact (((s.changesOnly_refl _).modPort (d := d) (by decide) ..).onFab (by decide) _).onFab (by decide) _

end Sys2Proof.Machine
end

section
/-!
PROOF. Remote READs and WRITEs of a loan and their answers, and a lender that cannot be reached (R497, R499, R501, Tables 12.4, 12.7).
-/

namespace Sys2Proof.Machine

/-! ## What the lender answers (R497, R499) -/

/-- The oldest access of a loan has been served: the loan stays, and an answer goes back. -/
def Dev.answerLoan (d : Dev) (x : InMsg) (op st : Nat) (data : List Byte) : Dev :=
  ((d.dropMsg x).seenLoan x.id).sendMsg x.src x.cls op 0 0 x.rtag st data

section AnswerLoan

variable (d : Dev) (x : InMsg) (op st : Nat) (data : List Byte)

theorem Dev.answerLoan_fab : ∃ ports pins repin out flows loans, (d.answerLoan x op st data).fab = { d.fab with
    ports := ports, pins := pins, repin := repin, out := out, flowsOut := flows, loans := loans, inbox := d.fab.inbox.erase x } := by
  obtain ⟨_, _, _, _, _, hsent⟩ := ((d.dropMsg x).seenLoan x.id).sendMsg_fab x.src x.cls op 0 0 x.rtag st data
  rw [Dev.answerLoan, hsent]
  exact ⟨_, _, _, _, _, _, rfl⟩

@[simp] theorem Dev.answerLoan_inbox : (d.answerLoan x op st data).fab.inbox = d.fab.inbox.erase x := by
  obtain ⟨_, _, _, _, _, _, hfab⟩ := d.answerLoan_fab x op st data
  rw [hfab]

@[simp] theorem Dev.answerLoan_winOut : (d.answerLoan x op st data).fab.winOut = d.fab.winOut := by
  obtain ⟨_, _, _, _, _, _, hfab⟩ := d.answerLoan_fab x op st data
  rw [hfab]

@[simp] theorem Dev.answerLoan_wants : (d.answerLoan x op st data).fab.wants = d.fab.wants := by
  obtain ⟨_, _, _, _, _, _, hfab⟩ := d.answerLoan_fab x op st data
  rw [hfab]

theorem unacked_answerLoan : (flowOut (d.answerLoan x op st data) x.src x.cls).unacked = (flowOut d x.src x.cls).unacked ++
    [⟨(flowOut d x.src x.cls).next, msgBytes op (flowOut d x.src x.cls).next 0 0 x.rtag st data, d.nowNs, d.nowNs⟩] :=
  unacked_sendMsg (d := d) (d' := (d.dropMsg x).seenLoan x.id) rfl rfl x.src x.cls op 0 0 x.rtag st data

theorem State.changesOnly.answerLoan {s : State} {d : Dev} {ps : List Part} (h : s.changesOnly (s.withDev d) ps) (hp : Part.fab ∈ ps) :
    s.changesOnly (s.withDev (d.answerLoan x op st data)) ps :=
  ((h.onFab hp _).onFab hp _).sendMsg hp ..

end AnswerLoan

/-- The bytes a READ of a loan returns: none unless its status is OK. -/
def loanBytes (m : Mod) (l : Option LoanOut) (off n st : Nat) : List Byte :=
  match l with
  | some l => if st = 0 then m.load (l.da off) n else []
  | none => []

/-- A WRITE of a loan is performed where its status is OK. -/
def Mod.writeLoan (m : Mod) (l : Option LoanOut) (off st : Nat) (data : List Byte) : Mod :=
  match l with
  | some l => if st = 0 then m.store (l.da off) data else m
  | none => m

theorem storesOnly_writeLoan (m : Mod) (l : Option LoanOut) (off st : Nat) (data : List Byte) :
    m.storesOnly (m.writeLoan l off st data) := by
  unfold Mod.writeLoan
  split
  · split
    · exact m.storesOnly_store ..
    · exact m.storesOnly_refl
  · exact m.storesOnly_refl

theorem mem_writeLoan_of_bad (m : Mod) (l : Option LoanOut) (off : Nat) {st : Nat} (data : List Byte) (h : st ≠ 0) :
    (m.writeLoan l off st data).mem = m.mem := by
  unfold Mod.writeLoan
  split
  · rw [if_neg h]
  · rfl

theorem mem_writeLoan_of_ok (m : Mod) {l : Option LoanOut} {l0 : LoanOut} (off : Nat) {st : Nat} (data : List Byte) (hl : l = some l0)
    (h : st = 0) : (m.writeLoan l off st data).mem = (m.store (l0.da off) data).mem := by
  subst hl
  exact congrArg Mod.mem (if_pos h)

section Serve

variable {s : State} (hquiet : s.quietFabric = true) (err : Bool)
include hquiet

theorem remoteRead_of_none (hnone : nextMsg s.mod.dev 1 = none) : exec (.remoteRead err) s = .next s := by
  have hexec : exec (.remoteRead err) s = execRemoteRead err s := rfl
  rw [hexec, execRemoteRead]
  exact onFabric_same hquiet (by simp only [hnone])

theorem remoteWrite_of_none (hnone : nextMsg s.mod.dev 3 = none) : exec (.remoteWrite err) s = .next s := by
  have hexec : exec (.remoteWrite err) s = execRemoteWrite err s := rfl
  rw [hexec, execRemoteWrite]
  exact onFabric_same hquiet (by simp only [hnone])

variable {x : InMsg}

/-- A READ that no WRITE of its module precedes is served. -/
theorem remoteRead_of_next (hnext : nextMsg s.mod.dev 1 = some x) (hfirst : ∀ y ∈ s.mod.dev.fab.inbox, y.op = 3 → y.src ≠ x.src)
    {st : Nat} (hst : st = loanStatus (loanTo s.mod.dev x.id x.src) x.addr x.aux err) :
    exec (.remoteRead err) s = .next (s.withDev
      (s.mod.dev.answerLoan x 2 st (loanBytes s.mod (loanTo s.mod.dev x.id x.src) x.addr x.aux st))) := by
  subst hst
  have hexec : exec (.remoteRead err) s = execRemoteRead err s := rfl
  have hnot : ((s.mod.dev.fab.inbox.takeWhile fun y => y ≠ x).any fun y => decide (y.op = 3) && decide (y.src = x.src)) = false := by
    refine List.any_eq_false.2 fun y hy => ?_
    have hne := hfirst y ((List.takeWhile_subset _) hy)
    simpa using hne
  rw [hexec, execRemoteRead]
  refine onFabric_eq hquiet (m := s.mod.onDev fun d => d.answerLoan x 2 _ (loanBytes s.mod (loanTo s.mod.dev x.id x.src) x.addr x.aux _))
    ?_ (Dev.answerLoan_winOut ..) (Dev.answerLoan_wants ..)
  simp only [hnext, hnot, Bool.false_eq_true, if_false]
  rfl

theorem remoteWrite_of_next (hnext : nextMsg s.mod.dev 3 = some x)
    {st : Nat} (hst : st = loanStatus (loanTo s.mod.dev x.id x.src) x.addr x.data.length err) :
    exec (.remoteWrite err) s = s.leaves ((s.mod.writeLoan (loanTo s.mod.dev x.id x.src) x.addr st x.data).onDev fun d =>
      d.answerLoan x 4 st []) := by
  subst hst
  have hexec : exec (.remoteWrite err) s = execRemoteWrite err s := rfl
  obtain ⟨_, _, hstored⟩ := storesOnly_writeLoan s.mod (loanTo s.mod.dev x.id x.src) x.addr
    (loanStatus (loanTo s.mod.dev x.id x.src) x.addr x.data.length err) x.data
  rw [hexec, execRemoteWrite]
  refine onFabric_eq hquiet ?_ ((Dev.answerLoan_winOut ..).trans ?_) ((Dev.answerLoan_wants ..).trans ?_)
  · simp only [hnext]
    rfl
  · rw [hstored]
    rfl
  · rw [hstored]
    rfl

end Serve

theorem State.changesOnly.withMem {s : State} {d : Dev} {ps : List Part} (h : s.changesOnly (s.withDev d) ps) (hp : Part.mem ∈ ps)
    (mem : Memory) : s.changesOnly { s with mod := ⟨mem, d⟩ } ps := by
  obtain ⟨-, -, hsame⟩ := h
  refine ⟨rfl, rfl, fun p hnot => ?_⟩
  have hbefore := hsame p hnot
  cases p with
  | mem => exact absurd hp hnot
  | _ => exact hbefore

/-! ## Answers (R497, R499, Table 12.7) -/

/-- The request an answer is for, and the answer, are done with. -/
def Dev.endRequest (d : Dev) (x : InMsg) (r : InFlightReq) : Dev := (d.dropMsg x).onFab fun f => { f with reqs := f.reqs.erase r }

/-- A thread's store into a window is acknowledged, where more of its stores are posted than still wait. -/
def Dev.ackWindowStore (d : Dev) (i t : Nat) : Dev := if windowStores d i t < (threadOf (d.plot i) t).posted then d.ackStore i t else d

theorem Dev.ackWindowStore_eq (d : Dev) (i t : Nat) : ∃ plots, d.ackWindowStore i t = { d with plots := plots } := by
  unfold Dev.ackWindowStore
  split
  · exact ⟨_, rfl⟩
  · exact ⟨_, rfl⟩

/-- A WRITE that went well and is no thread's only ends its request. -/
theorem endWrite_of_ok (m : Mod) {r : InFlightReq} (hwho : ∀ i t, r.who ≠ .thread i t) :
    endWrite m r 0 = m.onDev fun d => d.onFab fun f => { f with reqs := f.reqs.erase r } := by
  unfold endWrite
  cases hr : r.who with
  | thread i t => exact absurd hr (hwho i t)
  | _ => rfl

section Answers

variable {s : State} (hquiet : s.quietFabric = true)
include hquiet

theorem readRsp_of_none (hnone : nextMsg s.mod.dev 2 = none) : exec .readRsp s = .next s := by
  have hexec : exec .readRsp s = execReadRsp s := rfl
  rw [hexec, execReadRsp]
  exact onFabric_same hquiet (by simp only [Mod.onDev, hnone])

theorem writeAck_of_none (hnone : nextMsg s.mod.dev 4 = none) : exec .writeAck s = .next s := by
  have hexec : exec .writeAck s = execWriteAck s := rfl
  rw [hexec, execWriteAck]
  exact onFabric_same hquiet (by simp only [hnone])

variable {x : InMsg} {r : InFlightReq}

theorem readRsp_of_req (hnext : nextMsg s.mod.dev 2 = some x)
    (hreq : (s.mod.dev.fab.reqs.find? fun r => decide (r.rtag = x.rtag) && decide (r.lender = x.src) && !r.write) = some r) :
    exec .readRsp s = .next (s.withDev ((s.mod.dev.endRequest x r).onFab fun f => { f with
      got := f.got ++ [⟨r.who, r.da, r.n, x.aux % 256, x.data⟩] })) := by
  have hexec : exec .readRsp s = execReadRsp s := rfl
  rw [hexec, execReadRsp]
  refine onFabric_eq hquiet (m := s.mod.onDev fun d => (d.endRequest x r).onFab fun f => { f with
      got := f.got ++ [⟨r.who, r.da, r.n, x.aux % 256, x.data⟩] }) ?_ rfl rfl
  simp only [Mod.onDev, hnext, Dev.dropMsg, Dev.onFab_fab, hreq]
  rfl

section WriteAck

variable (hnext : nextMsg s.mod.dev 4 = some x)
  (hreq : (s.mod.dev.fab.reqs.find? fun r => decide (r.rtag = x.rtag) && decide (r.lender = x.src) && r.write) = some r)
include hnext hreq

theorem writeAck_of_ok (hok : x.aux % 256 = 0) (hwho : ∀ i t, r.who ≠ .thread i t) :
    exec .writeAck s = .next (s.withDev (s.mod.dev.endRequest x r)) := by
  have hexec : exec .writeAck s = execWriteAck s := rfl
  rw [hexec, execWriteAck]
  refine onFabric_eq hquiet (m := s.mod.onDev fun d => d.endRequest x r) ?_ rfl rfl
  simp only [hnext, Mod.onDev, Dev.dropMsg, Dev.onFab_fab, hreq, hok, endWrite_of_ok _ hwho]
  rfl

/-- A thread's WRITE that met an error of the lender's memory: the thread takes an exception. -/
theorem writeAck_of_memoryError {i t : Nat} (hbad : x.aux % 256 = 3) (hwho : r.who = .thread i t) :
    exec .writeAck s = .next (s.withDev (((s.mod.dev.endRequest x r).ackWindowStore i t).except i t exStore r.da)) := by
  have hexec : exec .writeAck s = execWriteAck s := rfl
  obtain ⟨_, hack⟩ := (s.mod.dev.endRequest x r).ackWindowStore_eq i t
  rw [hexec, execWriteAck]
  refine onFabric_eq hquiet (m := s.mod.onDev fun d => ((d.endRequest x r).ackWindowStore i t).except i t exStore r.da) ?_
    (congrArg (fun d => d.fab.winOut) hack) (congrArg (fun d => d.fab.wants) hack)
  simp only [hnext, Mod.onDev, Dev.dropMsg, Dev.onFab_fab, hreq, endWrite, hbad, hwho, storeFault]
  rfl

end WriteAck

end Answers

/-! ## A module that cannot be reached (R496, R501) -/

/-- READs in flight to a module come back as failed, and what it has not acknowledged is dropped. -/
def Dev.cutOff (d : Dev) (id : Nat) : Dev :=
  (d.raise evFabUnreachable { n := id }).onFab fun x => { x with
    flowsOut := x.flowsOut.map fun f => if f.1 / 8 = id then (f.1, { f.2 with unacked := [] }) else f
    reqs := x.reqs.filter fun r => r.lender ≠ id || r.write
    got := x.got ++ ((d.fab.reqs.filter fun r => r.lender = id).filter fun r => !r.write).map fun r => ⟨r.who, r.da, r.n, 0x80, []⟩ }

section CutOff

variable {d : Dev} (hreads : ∀ r ∈ d.fab.reqs, r.write = false) (id : Nat)
include hreads

theorem reqs_cutOff_of_reads : (d.cutOff id).fab.reqs = d.fab.reqs.filter fun r => r.lender ≠ id :=
  List.filter_congr fun r hr => by rw [hreads r hr, Bool.or_false]

theorem got_cutOff_of_reads : (d.cutOff id).fab.got =
    d.fab.got ++ (d.fab.reqs.filter fun r => r.lender = id).map fun r => ⟨r.who, r.da, r.n, 0x80, []⟩ := by
  have hall : ((d.fab.reqs.filter fun r => r.lender = id).filter fun r => !r.write) = d.fab.reqs.filter fun r => r.lender = id :=
    List.filter_eq_self.2 fun r hr => by rw [hreads r (List.mem_filter.1 hr).1, Bool.not_false]
  rw [Dev.cutOff, Dev.onFab_fab, hall, Dev.raise_fab]

theorem writes_of_reads : ((d.fab.reqs.filter fun r => r.lender = id).filter fun r => r.write) = [] :=
  List.filter_eq_nil_iff.2 fun r hr => by rw [hreads r (List.mem_filter.1 hr).1]; exact Bool.false_ne_true

end CutOff

/-- Where no collective has run here, none fails. -/
theorem collsLost_of_none {m : Mod} (id : Nat) (hcolls : m.dev.fab.colls = []) (hlater : m.dev.fab.later = []) : collsLost m id = m := by
  simp [collsLost, hcolls, hlater, collSettle]

section Unreachable

variable {s : State} (hquiet : s.quietFabric = true) {dst : BitVec 16}
include hquiet

theorem destinationUnreachable_of_acked (hacked : ∀ f ∈ s.mod.dev.fab.flowsOut, f.1 / 8 = dst.toNat → f.2.unacked = []) :
    exec (.destinationUnreachable dst) s = .next s := by
  have hexec : exec (.destinationUnreachable dst) s = execDestinationUnreachable dst s := rfl
  have hnone : (s.mod.dev.fab.flowsOut.any fun f => decide (f.1 / 8 = dst.toNat) && f.2.unacked != []) = false := by
    refine List.any_eq_false.2 fun f hf => ?_
    have hempty := hacked f hf
    simpa using hempty
  rw [hexec, execDestinationUnreachable]
  exact onFabric_same hquiet (by simp only [hnone, Bool.not_false, if_true])

theorem destinationUnreachable_of_reads (hwaits : ∃ f ∈ s.mod.dev.fab.flowsOut, f.1 / 8 = dst.toNat ∧ f.2.unacked ≠ [])
    (hreads : ∀ r ∈ s.mod.dev.fab.reqs, r.write = false) (hasks : s.mod.dev.fab.asks = []) (hwindows : s.mod.dev.tier.windows = [])
    (hcolls : s.mod.dev.fab.colls = []) (hlater : s.mod.dev.fab.later = []) :
    exec (.destinationUnreachable dst) s = .next (s.withDev (s.mod.dev.cutOff dst.toNat)) := by
  have hexec : exec (.destinationUnreachable dst) s = execDestinationUnreachable dst s := rfl
  have hsome : (s.mod.dev.fab.flowsOut.any fun f => decide (f.1 / 8 = dst.toNat) && f.2.unacked != []) = true := by
    obtain ⟨f, hf, hdst, hun⟩ := hwaits
    exact List.any_eq_true.2 ⟨f, hf, by simpa [hdst] using hun⟩
  rw [hexec, execDestinationUnreachable]
  refine onFabric_eq hquiet (m := s.mod.onDev fun d => d.cutOff dst.toNat) ?_ rfl rfl
  simp only [hsome, Mod.onDev, writes_of_reads hreads, hasks, hwindows, Dev.onFab_tier, Dev.raise_tier, List.filter_nil,
    List.foldl_nil, Bool.not_true, Bool.false_eq_true, if_false]
  exact collsLost_of_none (m := s.mod.onDev fun d => d.cutOff dst.toNat) _ hcolls hlater

end Unreachable

/-- Settles O39: by one rule for each command and outcome, and the answer kept in its flow. -/
theorem loansAreReadAndWritten : Obligations.LoansAreReadAndWritten := by
  unfold Obligations.LoansAreReadAndWritten
  intro s hquiet m d
  refine ⟨fun x err hnext hfirst => ?read, fun x err hnext => ?write, fun x r hnext hreq => ?readRsp,
    fun x r hnext hreq => ⟨fun hok hwho => ?acked, fun i t hbad hwho => ?failed⟩,
    fun hnone err => remoteRead_of_none hquiet err hnone, fun hnone err => remoteWrite_of_none hquiet err hnone,
    readRsp_of_none hquiet, writeAck_of_none hquiet, fun dst => destinationUnreachable_of_acked hquiet,
    fun dst hwaits hreads hasks hwindows hcolls hlater => ?unreachable⟩
  case read =>
    refine ⟨_, remoteRead_of_next hquiet err hnext hfirst rfl, (s.changesOnly_refl _).answerLoan (d := d) _ _ _ _ (by decide),
      Dev.answerLoan_inbox .., (unacked_answerLoan ..).trans ?_⟩
    rfl
  case write =>
    refine ⟨_, remoteWrite_of_next hquiet err hnext rfl, ?_⟩
    obtain ⟨mem, new, hstored⟩ := storesOnly_writeLoan m (loanTo d x.id x.src) x.addr
      (loanStatus (loanTo d x.id x.src) x.addr x.data.length err) x.data
    refine ⟨?_, ?_, fun hbad => mem_writeLoan_of_bad m _ x.addr x.data hbad, fun l0 hl hok => ?_, ?_⟩
    · rw [hstored]
      exact (((s.changesOnly_refl _).onTier (d := d) (by decide) _).answerLoan _ _ _ _ (by decide)).withMem (by decide) mem
    · refine (Dev.answerLoan_inbox ..).trans ?_
      rw [hstored]
      rfl
    · exact mem_writeLoan_of_ok m x.addr x.data hl hok
    · refine (unacked_answerLoan ..).trans ?_
      rw [hstored]
      rfl
  case readRsp =>
    exact ⟨_, readRsp_of_req hquiet hnext hreq, (((s.changesOnly_refl _).onFab (d := d) (by decide) _).onFab (by decide) _).onFab
      (by decide) _, rfl⟩
  case acked =>
    exact ⟨_, writeAck_of_ok hquiet hnext hreq hok hwho, ((s.changesOnly_refl _).onFab (d := d) (by decide) _).onFab (by decide) _, rfl⟩
  case failed =>
    obtain ⟨plots, hack⟩ := (d.endRequest x r).ackWindowStore_eq i t
    refine ⟨_, writeAck_of_memoryError hquiet hnext hreq hbad hwho, rfl, congrArg (fun d : Dev => d.fab.reqs) hack, ?_⟩
    have hbefore : s.changesOnly (s.withDev (d.endRequest x r)) [.plots, .fab, .base, .events] :=
      ((s.changesOnly_refl _).onFab (d := d) (by decide) _).onFab (by decide) _
    rw [hack]
    exact (hbefore.withPlots (by decide) plots).withPlots (by decide) _
  case unreachable =>
    refine ⟨_, destinationUnreachable_of_reads hquiet hwaits hreads hasks hwindows hcolls hlater, ?_, rfl,
      reqs_cutOff_of_reads hreads _, got_cutOff_of_reads hreads _⟩
    exact ((s.changesOnly_refl _).raise (d := d) (by decide) ..).onFab (by decide) _

end Sys2Proof.Machine
end

section
/-!
PROOF. The mailbox (R534 to R536, R611): a kick, a request that is kept or refused, and a response where the ring has room.
-/

namespace Sys2Proof.Machine

/-! ## Responses (R534) -/

theorem flushRsps_of_none {d : Dev} (h : d.fw.rsps = []) (n : Nat) : flushRsps n d = d := by
  cases n with
  | zero => rfl
  | succ n => simp only [flushRsps, h]

/-- While the host interface is up and responses are served, with none before it, a response is written where the ring has room. -/
theorem answer_of_room {d : Dev} (hkicked : d.fw.kicked = true) (hup : d.hifUp = true) (hrsps : d.fw.rsps = [])
    (hroom : (d.fw.rspPosted - d.fw.rspHead).toNat < 2 ^ cfgMbxCfgRsplog2 d.base) (op status : Nat) (final : Bool) (tag : Nat)
    (payload : List Byte) : d.answer op status final tag payload = writeRsp d ⟨op, status, final, tag, payload⟩ := by
  have hgo : ¬(d.fw.kicked = false ∨ d.hifUp = false ∨ 2 ^ cfgMbxCfgRsplog2 d.base ≤ (d.fw.rspPosted - d.fw.rspHead).toNat) := by
    rintro (hidle | hdown | hfull)
    · exact Bool.false_ne_true (hidle.symm.trans hkicked)
    · exact Bool.false_ne_true (hdown.symm.trans hup)
    · exact absurd hroom (Nat.not_lt.2 hfull)
  have hone : d.answer op status final tag payload =
      (writeRsp (d.onFw fun w => { w with rsps := [⟨op, status, final, tag, payload⟩] }) ⟨op, status, final, tag, payload⟩).onFw
        fun w => { w with rsps := [] } := by
    simp only [Dev.answer, Dev.onFw, hrsps, List.nil_append, List.length_singleton]
    exact if_neg hgo
  have hback : ({ d.fw with rspPosted := d.fw.rspPosted + 1, rsps := [] } : FwState) = { d.fw with rspPosted := d.fw.rspPosted + 1 } := by
    rw [← hrsps]
  exact hone.trans (congrArg (fun w => { writeRsp d ⟨op, status, final, tag, payload⟩ with fw := w }) hback)

/-! ## MAILBOX_KICK (R534, R611) -/

/-- What a write of KICK_MBX leaves: the mailbox serves, and each count is taken as R611 has it. -/
def Dev.kickMbx (d : Dev) (reqTail rspHead : Word32) : Dev := d.onFw fun w => { w with
  kicked := true, reqTail := if stepNewer reqTail w.reqTail then reqTail else w.reqTail
  rspHead := takeCount w.rspPosted w.rspHead rspHead }

theorem mailboxKick_of_none {s : State} (hup : s.mod.dev.hifUp = true) (hrsps : s.mod.dev.fw.rsps = []) (reqTail rspHead : Word32) :
    exec (.mailboxKick reqTail rspHead) s = .next (s.withDev (s.mod.dev.kickMbx reqTail rspHead)) := by
  have hexec : exec (.mailboxKick reqTail rspHead) s = execMailboxKick reqTail rspHead s := rfl
  rw [hexec, execMailboxKick, onDev_eq, hup]
  exact congrArg (fun d => (.next (s.withDev d) : Out)) (flushRsps_of_none (d := s.mod.dev.kickMbx reqTail rspHead) hrsps _)

/-! ## MAILBOX_REQUEST (R534 to R536) -/

/-- A request is taken and kept for its operation. -/
def Dev.keepRequest (d : Dev) (b : List Byte) : Dev := d.onFw fun w => { w with
  reqTaken := w.reqTaken + 1
  reqs := w.reqs ++ [⟨fieldAt b 2 2, fieldAt b 8 4, (b.drop 16).take (fieldAt b 4 2), false⟩] }

/-- A request is taken and answered at once. -/
def Dev.refuseRequest (d : Dev) (b : List Byte) (st : Nat) : Dev :=
  (d.onFw fun w => { w with reqTaken := w.reqTaken + 1 }).answer (fieldAt b 2 2) st true (fieldAt b 8 4) []

theorem Dev.mailOnly_refuseRequest (d : Dev) (b : List Byte) (st : Nat) : d.mailOnly (d.refuseRequest b st) :=
  (d.mailOnly_refl.onFw _).answer ..

section Request

variable {s : State} (msg : BitVec 2048)

theorem mailboxRequest_of_nothing (hidle : mailboxUp s.mod.dev = false ∨ s.mod.dev.fw.reqTaken = s.mod.dev.fw.reqTail) :
    exec (.mailboxRequest msg) s = .next s := by
  have hexec : exec (.mailboxRequest msg) s = execMailboxRequest msg s := rfl
  rw [hexec, execMailboxRequest, onDev_eq]
  rcases hidle with hdown | hnone
  · simp [hdown]
  · simp [hnone]

variable (hup : s.mod.dev.hifUp = true) (hmbx : mailboxUp s.mod.dev = true) (hnew : s.mod.dev.fw.reqTaken ≠ s.mod.dev.fw.reqTail)
include hup hmbx hnew

theorem mailboxRequest_of_good (hgood : requestFault s.mod.dev (leBytes 256 msg.toNat) = none) :
    exec (.mailboxRequest msg) s = .next (s.withDev (s.mod.dev.keepRequest (leBytes 256 msg.toNat))) := by
  have hexec : exec (.mailboxRequest msg) s = execMailboxRequest msg s := rfl
  have htaken : requestFault (s.mod.dev.onFw fun w => { w with reqTaken := w.reqTaken + 1 }) (leBytes 256 msg.toNat) = none := hgood
  rw [hexec, execMailboxRequest, onDev_eq]
  simp only [hup, hmbx, hnew, htaken, Bool.not_true, Bool.false_eq_true, false_or, if_false]
  rfl

theorem mailboxRequest_of_fault {st : Nat} (hfault : requestFault s.mod.dev (leBytes 256 msg.toNat) = some st) :
    exec (.mailboxRequest msg) s = .next (s.withDev (s.mod.dev.refuseRequest (leBytes 256 msg.toNat) st)) := by
  have hexec : exec (.mailboxRequest msg) s = execMailboxRequest msg s := rfl
  have htaken : requestFault (s.mod.dev.onFw fun w => { w with reqTaken := w.reqTaken + 1 }) (leBytes 256 msg.toNat) = some st := hfault
  rw [hexec, execMailboxRequest, onDev_eq]
  simp only [hup, hmbx, hnew, htaken, Bool.not_true, Bool.false_eq_true, false_or, if_false]
  rfl

end Request

/-- A mailbox that serves has been kicked. -/
theorem kicked_of_mailboxUp {d : Dev} (h : mailboxUp d = true) : d.fw.kicked = true := by
  rw [mailboxUp, Bool.and_eq_true] at h
  exact h.1

theorem refuseRequest_of_room {d : Dev} (hmbx : mailboxUp d = true) (hup : d.hifUp = true) (hrsps : d.fw.rsps = [])
    (hroom : (d.fw.rspPosted - d.fw.rspHead).toNat < 2 ^ cfgMbxCfgRsplog2 d.base) (b : List Byte) (st : Nat) :
    d.refuseRequest b st = writeRsp (d.onFw fun w => { w with reqTaken := w.reqTaken + 1 })
      ⟨fieldAt b 2 2, st, true, fieldAt b 8 4, []⟩ :=
  answer_of_room (d := d.onFw fun w => { w with reqTaken := w.reqTaken + 1 }) (kicked_of_mailboxUp hmbx) hup hrsps hroom ..

/-! ## The checks of a request (R535, R536, Table 13.6) -/

/-- The checksum of a request with a payload of `len` bytes. -/
def requestCrc (b : List Byte) (len : Nat) : Nat := crc32c (b.take 12 ++ zeros 4 ++ (b.drop 16).take len)

section RequestFault

variable {d : Dev} {b : List Byte}

theorem requestFault_of_long (hlong : 240 < fieldAt b 4 2) : requestFault d b = some mbBadLength := if_pos hlong

variable (hlen : fieldAt b 4 2 ≤ 240)
include hlen

theorem requestFault_of_crc (hcrc : requestCrc b (fieldAt b 4 2) ≠ fieldAt b 12 4) : requestFault d b = some mbBadCrc :=
  (if_neg (Nat.not_lt.2 hlen)).trans (if_pos hcrc)

variable (hcrc : requestCrc b (fieldAt b 4 2) = fieldAt b 12 4)
include hcrc

theorem requestFault_of_major (hmajor : fieldAt b 0 1 ≠ mbVersion d / 256) : requestFault d b = some mbBadVersion :=
  (if_neg (Nat.not_lt.2 hlen)).trans ((if_neg (not_not.2 hcrc)).trans (if_pos hmajor))

variable (hmajor : fieldAt b 0 1 = mbVersion d / 256) (hminor : fieldAt b 1 1 ≤ mbVersion d % 256)
include hmajor hminor

theorem requestFault_of_unknown (hop : opcodeLen (fieldAt b 2 2) = none) : requestFault d b = some mbBadOpcode := by
  unfold requestCrc at hcrc
  rw [requestFault, if_neg (Nat.not_lt.2 hlen), if_neg (not_not.2 hcrc), if_neg (not_not.2 hmajor)]
  simp [Nat.not_lt.2 hminor, hop]

theorem requestFault_of_known (hop : opcodeLen (fieldAt b 2 2) = some (fieldAt b 4 2)) (hrun : d.fw.run = true) :
    requestFault d b = none := by
  unfold requestCrc at hcrc
  rw [requestFault, if_neg (Nat.not_lt.2 hlen), if_neg (not_not.2 hcrc), if_neg (not_not.2 hmajor)]
  simp [Nat.not_lt.2 hminor, hop, hrun]

end RequestFault

/-- Settles O42: by one rule for a kick and for each fate of a request, and one for each of its checks. -/
theorem mailboxTakesRequests : Obligations.MailboxTakesRequests := by
  unfold Obligations.MailboxTakesRequests
  intro s hup d
  refine ⟨fun reqTail rspHead hrsps => ?kick, fun msg hidle => mailboxRequest_of_nothing msg hidle, fun msg hmbx hnew =>
    ⟨fun hgood => ?kept, fun st hfault hrsps hroom => ?refused, fun hlong => requestFault_of_long hlong,
      fun hlen hcrc => requestFault_of_crc hlen hcrc, fun hlen hcrc => ⟨fun hmajor => requestFault_of_major hlen hcrc hmajor,
        fun hmajor hminor => ⟨fun hop => requestFault_of_unknown hlen hcrc hmajor hminor hop,
          fun hop hrun => requestFault_of_known hlen hcrc hmajor hminor hop hrun⟩⟩⟩⟩
  case kick => exact ⟨_, mailboxKick_of_none hup hrsps .., (s.changesOnly_refl _).onFw (d := d) (by decide) _, rfl⟩
  case kept => exact ⟨_, mailboxRequest_of_good msg hup hmbx hnew hgood, (s.changesOnly_refl _).onFw (d := d) (by decide) _, rfl⟩
  case refused =>
    refine ⟨_, mailboxRequest_of_fault msg hup hmbx hnew hfault,
      (s.changesOnly_refl _).mailOnly (d := d) (by decide) (by decide) (Dev.mailOnly_refuseRequest ..), ?_, ?_⟩
    · rw [refuseRequest_of_room hmbx hup hrsps hroom]
      rfl
    · rw [refuseRequest_of_room hmbx hup hrsps hroom]
      rfl

end Sys2Proof.Machine
end

section
/-!
PROOF. The log ring, the trace ring's head and FW_STATUS (R523, R538, R539, R611): what an entry does at each level and fill, and which
register a write of TRC_HEAD changes.
-/

namespace Sys2Proof.Machine

/-! ## What an answer leaves of the firmware's state (R534, R535) -/

/-- `w'` is `w` but for the requests in hand, the responses that wait, and how many have been written. -/
def FwState.mailboxOnly (w w' : FwState) : Prop :=
  ∃ reqs rsps posted, w' = { w with reqs := reqs, rsps := rsps, rspPosted := posted }

section MailboxOnly

variable {w w' : FwState} (h : w.mailboxOnly w')
include h

theorem FwState.mailboxOnly.procs : w'.procs = w.procs := by
  obtain ⟨_, _, _, rfl⟩ := h
  rfl

theorem FwState.mailboxOnly.run : w'.run = w.run := by
  obtain ⟨_, _, _, rfl⟩ := h
  rfl

theorem FwState.mailboxOnly.active : w'.active = w.active := by
  obtain ⟨_, _, _, rfl⟩ := h
  rfl

theorem FwState.mailboxOnly.bar2Open : w'.bar2Open = w.bar2Open := by
  obtain ⟨_, _, _, rfl⟩ := h
  rfl

theorem FwState.mailboxOnly.store : w'.store = w.store := by
  obtain ⟨_, _, _, rfl⟩ := h
  rfl

theorem FwState.mailboxOnly.update : w'.update = w.update := by
  obtain ⟨_, _, _, rfl⟩ := h
  rfl

theorem FwState.mailboxOnly.log : w'.log = w.log := by
  obtain ⟨_, _, _, rfl⟩ := h
  rfl

end MailboxOnly

theorem flushRsps_mailboxOnly {w : FwState} {d : Dev} (h : w.mailboxOnly d.fw) (n : Nat) : w.mailboxOnly (flushRsps n d).fw := by
  induction n generalizing d with
  | zero => exact h
  | succ n ih =>
    rw [flushRsps]
    split
    next => exact h
    next r rest _ =>
      split
      · exact h
      · obtain ⟨reqs, _, posted, hfw⟩ := h
        exact ih ⟨reqs, rest, posted + 1, congrArg (fun w : FwState => { w with rsps := rest, rspPosted := w.rspPosted + 1 }) hfw⟩

theorem Dev.endReq_mailboxOnly (d : Dev) (r : MbxReq) (status : Nat) (payload : List Byte) :
    d.fw.mailboxOnly (d.endReq r status payload).fw := flushRsps_mailboxOnly ⟨_, _, _, rfl⟩ _

theorem Dev.beginReq_mailboxOnly (d : Dev) (r : MbxReq) : d.fw.mailboxOnly (d.beginReq r).fw := flushRsps_mailboxOnly ⟨_, _, _, rfl⟩ _

/-! ## LOG_SET (R538) -/

/-- The operation of an opcode runs on the request it takes. -/
theorem onReq_eq {s : State} {op : Nat} {r : MbxReq} (h : s.takesReq op r) (f : Mod → MbxReq → Mod) :
    onReq s op f = s.leaves (f s.mod r) := by
  obtain ⟨hup, hnext⟩ := h
  simp only [onReq, onMod_eq, hup, hnext, Bool.not_true, Bool.false_eq_true, if_false]

/-- The arguments of a LOG_SET that is refused. -/
def badLogSet (p : List Byte) : Prop := fieldAt p 8 1 < 6 ∨ 16 < fieldAt p 8 1 ∨ 3 < fieldAt p 9 1 ∨ 1024 ≤ fieldAt p 10 2

/-- The log ring that LOG_SET places. -/
def logRingOf (p : List Byte) : LogRing := ⟨fieldAt p 0 8, fieldAt p 8 1, fieldAt p 9 1, fieldAt p 10 2, 0, 0⟩

section LogSet

variable {s : State} {r : MbxReq} (h : s.takesReq 0x0905 r)
include h

theorem logSet_of_bad (hbad : badLogSet r.payload) : exec .logSet s = .next (s.withDev (s.mod.dev.endReq r mbBadArg)) := by
  have hexec : exec .logSet s = execLogSet s := rfl
  rw [hexec, execLogSet, onReq_eq h]
  exact congrArg (fun d => s.leaves (s.mod.onDev fun _ => d)) (if_pos hbad)

theorem logSet_of_good (hgood : ¬badLogSet r.payload) : exec .logSet s = .next (s.withDev
    ((s.mod.dev.onFw fun w => { w with log := some (logRingOf r.payload) }).endReq r mbOk)) := by
  have hexec : exec .logSet s = execLogSet s := rfl
  rw [hexec, execLogSet, onReq_eq h]
  exact congrArg (fun d => s.leaves (s.mod.onDev fun _ => d)) (if_neg hgood)

end LogSet

/-! ## LOG_ENTRY_WRITE (R538, Table 13.7) -/

/-- A log entry takes the next SEQ, posted or not. -/
def Dev.nextLogSeq (d : Dev) : Dev := d.onFw fun w => { w with logSeq := w.logSeq + 1 }

/-- The 64 bytes of a log entry. -/
def logEntry (d : Dev) (l : LogRing) (proc : BitVec 8) (level : Fin 4) (code : BitVec 16) (args : BitVec 368) : List Byte :=
  leBytes 8 d.base.now.toNat ++ leBytes 4 d.fw.logSeq.toNat ++ leBytes 1 proc.toNat ++ leBytes 1 level.val
    ++ leBytes 1 (ringPhase l.posted (2 ^ l.log2 - 1)) ++ zeros 1 ++ leBytes 2 code.toNat ++ leBytes 46 args.toNat

/-- An entry is written to the log ring, with its MSI-X message. -/
def Dev.postLog (d : Dev) (l : LogRing) (bytes : List Byte) : Dev :=
  ((d.hostWrite (l.base + 64 * (1 + l.posted % (2 ^ l.log2 - 1))) bytes).onFw fun w =>
    { w with log := some { l with posted := l.posted + 1 } }).msixSend l.vector

section LogEntry

variable {s : State} {proc : BitVec 8} (level : Fin 4) (code : BitVec 16) (args : BitVec 368)

theorem logEntryWrite_of_down (hdown : procId proc.toNat = false ∨ procUp s.mod.dev proc.toNat = false) :
    exec (.logEntryWrite proc level code args) s = .next s := by
  have hexec : exec (.logEntryWrite proc level code args) s = execLogEntryWrite proc level code args s := rfl
  have hnot : (procId proc.toNat && procUp s.mod.dev proc.toNat) = false := Bool.and_eq_false_iff.2 hdown
  rw [hexec, execLogEntryWrite, onDev_eq]
  simp only [hnot, Bool.not_false, if_true]

variable {level} {l : LogRing} (hid : procId proc.toNat = true) (hup : procUp s.mod.dev proc.toNat = true)
  (hlog : s.mod.dev.fw.log = some l)
include hid hup hlog

theorem logEntryWrite_of_below (hlow : level.val < l.level) :
    exec (.logEntryWrite proc level code args) s = .next (s.withDev s.mod.dev.nextLogSeq) := by
  have hexec : exec (.logEntryWrite proc level code args) s = execLogEntryWrite proc level code args s := rfl
  rw [hexec, execLogEntryWrite, onDev_eq]
  simp only [hid, hup, hlog, hlow, Dev.onFw_fw, Bool.and_self, Bool.not_true, Bool.false_eq_true, if_false, if_true]
  rfl

variable (hlevel : l.level ≤ level.val)
include hlevel

theorem logEntryWrite_of_full (hfull : 2 ^ l.log2 - 1 ≤ (BitVec.ofNat 32 l.posted - l.head).toNat) :
    exec (.logEntryWrite proc level code args) s = .next (s.withDev (s.mod.dev.nextLogSeq.count cLogDrop 0 1)) := by
  have hexec : exec (.logEntryWrite proc level code args) s = execLogEntryWrite proc level code args s := rfl
  rw [hexec, execLogEntryWrite, onDev_eq]
  simp only [hid, hup, hlog, Nat.not_lt.2 hlevel, hfull, Dev.onFw_fw, Bool.and_self, Bool.not_true, Bool.false_eq_true, if_false, if_true]
  rfl

theorem logEntryWrite_of_room (hroom : (BitVec.ofNat 32 l.posted - l.head).toNat < 2 ^ l.log2 - 1) :
    exec (.logEntryWrite proc level code args) s = .next (s.withDev
      (s.mod.dev.nextLogSeq.postLog l (logEntry s.mod.dev l proc level code args))) := by
  have hexec : exec (.logEntryWrite proc level code args) s = execLogEntryWrite proc level code args s := rfl
  rw [hexec, execLogEntryWrite, onDev_eq]
  simp only [hid, hup, hlog, Nat.not_lt.2 hlevel, Nat.not_le.2 hroom, Dev.onFw_fw, Bool.and_self, Bool.not_true, Bool.false_eq_true,
    if_false]
  rfl

end LogEntry

/-! ## A register that is stored (R436, R600) -/

/-- What a register reads as where none is listed for it. -/
def regDefault (off : Nat) : Nat := match regAt off with
  | some (r, i) => regReset r i
  | none => 0

section RegStore

variable (b : BaseState) (off v : Nat)

theorem regVal_eq : regVal b off = ((kfind b.regs off).map BitVec.toNat).getD (regDefault off) := by
  unfold regVal
  cases kfind b.regs off <;> rfl

theorem regStore_eq : regStore b off v =
    { b with regs := if v = regDefault off then kdel b.regs off else kput b.regs off (BitVec.ofNat 64 v) } := rfl

theorem regVal_regStore_self (hv : v < 2 ^ 64) : regVal (regStore b off v) off = v := by
  rw [regVal_eq, regStore_eq]
  dsimp only
  split
  next hreset =>
    rw [kfind_kdel, if_pos rfl]
    exact hreset.symm
  next =>
    rw [kfind_kput, if_pos rfl]
    exact (BitVec.toNat_ofNat ..).trans (Nat.mod_eq_of_lt hv)

theorem regVal_regStore_ne {o : Nat} (ho : o ≠ off) : regVal (regStore b off v) o = regVal b o := by
  rw [regVal_eq, regVal_eq, regStore_eq]
  dsimp only
  split
  · rw [kfind_kdel, if_neg ho.symm]
  · rw [kfind_kput, if_neg ho.symm]

end RegStore

/-! ## TRC_HEAD_WRITE (R539, R611) -/

/-- HEAD of the trace ring. -/
def trcHead (b : BaseState) : Word32 := BitVec.ofNat 32 (regVal b 0xC00010)

section TrcHead

variable {s : State} {value : Word32}

theorem trcHeadWrite_of_written (hle : value.toNat ≤ (s.mod.dev.base.trcTail - trcHead s.mod.dev.base).toNat) :
    exec (.trcHeadWrite value) s = .next (s.withDev
      (s.mod.dev.onBase fun b => regStore b 0xC00010 (trcHead b + value).toNat)) := by
  have hexec : exec (.trcHeadWrite value) s = execTrcHeadWrite value s := rfl
  rw [hexec, execTrcHeadWrite, onDev_eq]
  exact congrArg (fun b => s.leaves (s.mod.onDev fun d => d.onBase fun _ => b)) (if_pos hle)

theorem trcHeadWrite_of_past (hpast : (s.mod.dev.base.trcTail - trcHead s.mod.dev.base).toNat < value.toNat) :
    exec (.trcHeadWrite value) s = .next s := by
  have hexec : exec (.trcHeadWrite value) s = execTrcHeadWrite value s := rfl
  rw [hexec, execTrcHeadWrite, onDev_eq]
  exact congrArg (fun b => s.leaves (s.mod.onDev fun d => d.onBase fun _ => b)) (if_neg (Nat.not_le.2 hpast))

end TrcHead

/-! ## FW_STATUS (R523) -/

theorem length_padTo (n : Nat) (l : List Byte) : (padTo n l).length = n := by
  rw [padTo, List.length_take, List.length_append, zeros, List.length_replicate]
  omega

/-- What FW_STATUS tells: versions, the active domain, whether each standby runs, restarts. -/
def fwStatusVals (d : Dev) : List Nat :=
  let ids := [0, 1, 2, 4, 5, 6] ++ (List.range 16).map (16 + ·)
  ids.map (fun i => (procOf d i).ver) ++ [d.fw.active] ++ ((List.range 3).map fun k => b2n (procUp d (standbyId d k)))
    ++ ids.map fun i => (procOf d i).restarts

/-- FW_STATUS is answered by the boot ROM where no firmware runs, and by the scheduler core. -/
theorem fwStatus_of_served {s : State} {r : MbxReq} (hnext : nextReq s.mod.dev 0x0903 = some r)
    (hserved : s.mod.dev.fw.run = false ∨ schedUp s.mod.dev = true) : exec .fwStatus s = .next (s.withDev
      (s.mod.dev.endReq r mbOk (padTo 240 (Config.layout 0x0903 (fwStatusVals s.mod.dev))))) := by
  have hexec : exec .fwStatus s = execFwStatus s := rfl
  have hnot : ¬(s.mod.dev.fw.run = true ∧ schedUp s.mod.dev = false) := by
    rcases hserved with hrun | hup
    · simp [hrun]
    · simp [hup]
  rw [hexec, execFwStatus, onDev_eq]
  simp only [if_neg hnot, hnext]
  rfl

/-- Settles O43: by one rule for each command and outcome, and what a stored register reads as. -/
theorem logAndTraceRingsAreKept : Obligations.LogAndTraceRingsAreKept := by
  unfold Obligations.LogAndTraceRingsAreKept
  intro s d
  refine ⟨fun r h => ⟨fun hbad => ?refused, fun hmin hmax hlevel hvector => ?placed⟩,
    fun proc level code args l hid hup hlog => ⟨fun hlow => ?below, fun hlevel hfull => ?full, fun hlevel hroom => ?room⟩,
    fun proc level code args hdown => logEntryWrite_of_down level code args hdown,
    fun value => ⟨fun hle => ?head, fun hpast => trcHeadWrite_of_past hpast⟩, fun r hnext hserved => ?status⟩
  case refused => exact ⟨_, logSet_of_bad h hbad, onlyAnswers_endReq ..⟩
  case placed =>
    have hgood : ¬badLogSet r.payload := by
      unfold badLogSet
      omega
    refine ⟨_, logSet_of_good h hgood,
      ((s.changesOnly_refl _).onFw (d := d) (by decide) _).mailOnly (by decide) (by decide) (Dev.mailOnly_endReq ..), ?_⟩
    exact (Dev.endReq_mailboxOnly ..).log
  case below =>
    exact ⟨_, logEntryWrite_of_below code args hid hup hlog hlow, (s.changesOnly_refl _).onFw (d := d) (by decide) _, rfl⟩
  case full =>
    exact ⟨_, logEntryWrite_of_full code args hid hup hlog hlevel hfull,
      ((s.changesOnly_refl _).onFw (d := d) (by decide) _).count (by decide) .., rfl, rfl⟩
  case room =>
    exact ⟨_, logEntryWrite_of_room code args hid hup hlog hlevel hroom,
      ((((s.changesOnly_refl _).onFw (d := d) (by decide) _).hostWrite (by decide) ..).onFw (by decide) _).msixSend (by decide) _, rfl, rfl⟩
  case head =>
    have hword : (trcHead d.base + value).toNat < 2 ^ 64 := (trcHead d.base + value).isLt.trans (by decide)
    exact ⟨_, trcHeadWrite_of_written hle, (s.changesOnly_refl _).withBase (d := d) (by decide) rfl rfl rfl rfl,
      regVal_regStore_self _ _ _ hword, fun o ho => regVal_regStore_ne _ _ _ ho⟩
  case status =>
    exact ⟨_, _, fwStatus_of_served hnext hserved, length_padTo .., (s.changesOnly_refl _).mailOnly (d := d) (by decide) (by decide)
      (Dev.mailOnly_endReq ..), rfl⟩

end Sys2Proof.Machine
end

section
/-!
PROOF. FW_LOAD, FW_UPDATE and their ends (R520 to R523, R531 to R533, R543): one rule for each outcome, which processors run an image, and
what an update leaves of the plots and of the roles.
-/

namespace Sys2Proof.Machine

/-! ## Measurements (R545) -/

theorem kget_kput_ne {α : Type} (d : α) (m : KMap α) {k j : Nat} (v : α) (h : k ≠ j) : kget d (kput m k v) j = kget d m j := by
  rw [kget, kfind_kput, if_neg h]
  rfl

/-- Measuring images changes the security core only. -/
theorem measureImages_eq (d : Dev) (b : Bundle) (l : List Nat) : ∃ sec, measureImages d b l = d.onSec fun _ => sec := by
  induction l generalizing d with
  | nil => exact ⟨d.sec, rfl⟩
  | cons i l ih => exact ih (d.measure (2 + i) (Config.sha384 (nth [] b.images i)))

@[simp] theorem measureImages_fw (d : Dev) (b : Bundle) (l : List Nat) : (measureImages d b l).fw = d.fw := by
  obtain ⟨_, hmeas⟩ := measureImages_eq d b l
  rw [hmeas, Dev.onSec_fw]

@[simp] theorem measureImages_plots (d : Dev) (b : Bundle) (l : List Nat) : (measureImages d b l).plots = d.plots := by
  obtain ⟨_, hmeas⟩ := measureImages_eq d b l
  rw [hmeas, Dev.onSec_plots]

/-- An image is measured where it is listed, and keeps its measurement. -/
theorem meas_measureImages {d : Dev} {b : Bundle} {l : List Nat} {i : Nat}
    (h : i ∈ l ∨ kget 0 d.sec.meas (2 + i) = Config.sha384 (nth [] b.images i)) :
    kget 0 (measureImages d b l).sec.meas (2 + i) = Config.sha384 (nth [] b.images i) := by
  induction l generalizing d with
  | nil => exact h.resolve_left List.not_mem_nil
  | cons j l ih =>
    refine ih ?_
    by_cases hij : j = i
    · subst hij
      exact .inr (kget_kput_self ..)
    · refine h.imp (fun hmem => (List.mem_cons.1 hmem).resolve_left (Ne.symm hij)) fun hkept => ?_
      exact (kget_kput_ne 0 d.sec.meas _ fun heq => hij (Nat.add_left_cancel heq)).trans hkept

/-! ## What an answer leaves (R535) -/

section Answer

variable (d : Dev) (r : MbxReq) (status : Nat) (payload : List Byte)

@[simp] theorem Dev.endReq_plots : (d.endReq r status payload).plots = d.plots := by
  obtain ⟨_, _, _, hd⟩ := d.mailOnly_endReq r status payload
  rw [hd]

@[simp] theorem Dev.endReq_pwr : (d.endReq r status payload).pwr = d.pwr := by
  obtain ⟨_, _, _, hd⟩ := d.mailOnly_endReq r status payload
  rw [hd]

theorem procOf_endReq (i : Nat) : procOf (d.endReq r status payload) i = procOf d i := by
  rw [procOf, (d.endReq_mailboxOnly r status payload).procs, procOf]

@[simp] theorem Dev.beginReq_sec : (d.beginReq r).sec = d.sec := by
  obtain ⟨_, _, _, hd⟩ := d.mailOnly_beginReq r
  rw [hd]

end Answer

/-! ## FW_LOAD (R519 to R522) -/

/-- A bundle's images are placed in the image store and measured, and so is its header. -/
def Dev.placeBundle (d : Dev) (b : List Byte) : Dev :=
  (measureImages (d.onFw fun w => { w with store := some (parseBundle b) }) (parseBundle b) [0, 1, 2, 3]).measure 6
    (Config.sha384 (b.take 128))

theorem fw_placeBundle (d : Dev) (b : List Byte) : (d.placeBundle b).fw = { d.fw with store := some (parseBundle b) } :=
  measureImages_fw ..

theorem State.changesOnly.placeBundle {s : State} {d : Dev} {ps : List Part} (h : s.changesOnly (s.withDev d) ps) (hfw : Part.fw ∈ ps)
    (hsec : Part.sec ∈ ps) (b : List Byte) : s.changesOnly (s.withDev (d.placeBundle b)) ps := by
  obtain ⟨_, hmeas⟩ := measureImages_eq (d.onFw fun w => { w with store := some (parseBundle b) }) (parseBundle b) [0, 1, 2, 3]
  rw [Dev.placeBundle, hmeas]
  exact ((h.onFw hfw _).onSec hsec _).onSec hsec _

theorem meas_placeBundle (d : Dev) (b : List Byte) {i : Nat} (hi : i < 4) :
    kget 0 (d.placeBundle b).sec.meas (2 + i) = Config.sha384 (nth [] (parseBundle b).images i) :=
  (kget_kput_ne 0 _ _ (by omega)).trans (meas_measureImages (.inl (List.mem_range.2 hi)))

section FwLoad

variable {s : State} {r : MbxReq} (hnext : nextReq s.mod.dev 0x0901 = some r)
include hnext

theorem fwLoad_of_running (hrun : s.mod.dev.fw.run = true) (hup : schedUp s.mod.dev = true) :
    exec .fwLoad s = .next (s.withDev (s.mod.dev.endReq r mbNotAllowed)) := by
  have hexec : exec .fwLoad s = execFwLoad s := rfl
  rw [hexec, execFwLoad, onDev_eq]
  simp only [hrun, hup, hnext, Bool.true_eq_false, and_false, if_false, if_true]

variable (hrun : s.mod.dev.fw.run = false) (hstore : s.mod.dev.fw.store = none) (hlen : fieldAt r.payload 0 4 ≤ 0x2000000)
include hrun hstore hlen

theorem fwLoad_of_fault {st : Nat} (hfault : bundleFault s.fuses (readRun s.mod.dev.fw.staging 0 (fieldAt r.payload 0 4)) = some st) :
    exec .fwLoad s = .next (s.withDev (s.mod.dev.endReq r st)) := by
  have hexec : exec .fwLoad s = execFwLoad s := rfl
  rw [hexec, execFwLoad, onDev_eq]
  simp only [hrun, hnext, hstore, Nat.min_eq_left hlen, length_readRun, hfault, Option.isSome_none, Bool.false_eq_true, false_and,
    ne_eq, not_true_eq_false, if_false]

theorem fwLoad_of_good (hgood : bundleFault s.fuses (readRun s.mod.dev.fw.staging 0 (fieldAt r.payload 0 4)) = none) :
    exec .fwLoad s = .next (s.withDev
      ((s.mod.dev.placeBundle (readRun s.mod.dev.fw.staging 0 (fieldAt r.payload 0 4))).beginReq r)) := by
  have hexec : exec .fwLoad s = execFwLoad s := rfl
  rw [hexec, execFwLoad, onDev_eq]
  simp only [hrun, hnext, hstore, Nat.min_eq_left hlen, length_readRun, hgood, Option.isSome_none, Bool.false_eq_true, false_and,
    ne_eq, not_true_eq_false, if_false]
  rfl

end FwLoad

/-! ## A processor that is changed -/

section ModProc

variable (d : Dev) (id : Nat) (f : Proc → Proc)

@[simp] theorem procOf_modProc_self : procOf (d.modProc id f) id = f (procOf d id) := kget_kmod_self ..

theorem procOf_modProc_ne {j : Nat} (h : j ≠ id) : procOf (d.modProc id f) j = procOf d j := kget_kmod_ne _ _ _ h.symm

end ModProc

/-- Processors run a bundle's image. -/
def Dev.runImages (d : Dev) (l : List Nat) (b : Bundle) : Dev := l.foldl (fun d i => d.runImage i b) d

/-- A processor runs, and its image is of version `ver`. -/
def Proc.upWith (p : Proc) (ver : Nat) : Prop := (p.run && !p.restarting && !p.failed) = true ∧ p.ver = ver

@[simp] theorem procOf_runImage_self (d : Dev) (id : Nat) (b : Bundle) : procOf (d.runImage id b) id =
    { procOf d id with run := true, restarting := false, failed := false, ver := b.ver, secver := b.secver, mbx := b.mbx } :=
  procOf_modProc_self ..

theorem procOf_runImage_ne (d : Dev) {id j : Nat} (b : Bundle) (h : j ≠ id) : procOf (d.runImage id b) j = procOf d j :=
  procOf_modProc_ne _ _ _ h

section RunImages

variable {d : Dev} {l : List Nat} {b : Bundle} {i : Nat}

theorem upWith_runImages (h : i ∈ l ∨ (procOf d i).upWith b.ver) : (procOf (d.runImages l b) i).upWith b.ver := by
  induction l generalizing d with
  | nil => exact h.resolve_left List.not_mem_nil
  | cons j l ih =>
    refine ih ?_
    by_cases hij : i = j
    · subst hij
      refine .inr ?_
      rw [procOf_runImage_self]
      exact ⟨rfl, rfl⟩
    · refine h.imp (fun hmem => (List.mem_cons.1 hmem).resolve_left hij) fun hup => ?_
      rwa [procOf_runImage_ne _ _ hij]

theorem procOf_runImages_of_notMem (h : i ∉ l) : procOf (d.runImages l b) i = procOf d i := by
  induction l generalizing d with
  | nil => rfl
  | cons j l ih =>
    obtain ⟨hij, hil⟩ := not_or.1 (mt List.mem_cons.2 h)
    exact (ih hil).trans (procOf_runImage_ne _ _ hij)

theorem State.changesOnly.runImages {s : State} {ps : List Part} (h : s.changesOnly (s.withDev d) ps) (hp : Part.fw ∈ ps) :
    s.changesOnly (s.withDev (d.runImages l b)) ps := by
  induction l generalizing d with
  | nil => exact h
  | cons j l ih => exact ih (h.onFw hp _)

end RunImages

/-! ## FW_LOAD_COMPLETE (R522, R523) -/

/-- A load whose processors of domain A do not start leaves no image behind. -/
def Dev.failLoad (d : Dev) : Dev := (d.onFw fun w => { w with store := none }).onPwr fun p => { p with startBad := true }

/-- The six management cores run the bundle, and BAR2 opens. -/
def Dev.startLoaded (d : Dev) (b : Bundle) : Dev :=
  (d.runImages [0, 1, 2, 4, 5, 6] b).onFw fun w => { w with run := true, bar2Open := true, active := 0 }

theorem procOf_startLoaded (d : Dev) (b : Bundle) (i : Nat) :
    procOf (d.startLoaded b) i = procOf (d.runImages [0, 1, 2, 4, 5, 6] b) i := rfl

section FwLoadComplete

variable {s : State} {failed : List (Fin 8)}

theorem fwLoadComplete_of_nothing (hnone : s.mod.dev.fw.store = none ∨ begunReq s.mod.dev 0x0901 = none) :
    exec (.fwLoadComplete failed) s = .next s := by
  have hexec : exec (.fwLoadComplete failed) s = execFwLoadComplete failed s := rfl
  rw [hexec, execFwLoadComplete, onDev_eq]
  rcases hnone with hstore | hreq
  · simp only [hstore]
  · simp only [hreq]
    cases s.mod.dev.fw.store <;> rfl

variable {b : Bundle} {r : MbxReq} (hstore : s.mod.dev.fw.store = some b) (hreq : begunReq s.mod.dev 0x0901 = some r)
include hstore hreq

theorem fwLoadComplete_of_failed (hbad : 0 ∈ failed ∨ 1 ∈ failed ∨ 2 ∈ failed) :
    exec (.fwLoadComplete failed) s = .next (s.withDev (s.mod.dev.failLoad.endReq r mbProcFailed)) := by
  have hexec : exec (.fwLoadComplete failed) s = execFwLoadComplete failed s := rfl
  have hany : ([0, 1, 2].any fun i => (failed.map (·.val)).contains i) = true := by
    rcases hbad with h | h | h <;> have hval := List.mem_map_of_mem (f := Fin.val) h
    · exact List.any_eq_true.2 ⟨0, by decide, List.contains_iff_mem.2 hval⟩
    · exact List.any_eq_true.2 ⟨1, by decide, List.contains_iff_mem.2 hval⟩
    · exact List.any_eq_true.2 ⟨2, by decide, List.contains_iff_mem.2 hval⟩
  rw [hexec, execFwLoadComplete, onDev_eq]
  simp only [hstore, hreq, hany, if_true]
  rfl

theorem fwLoadComplete_of_started : exec (.fwLoadComplete []) s = .next (s.withDev ((s.mod.dev.startLoaded b).endReq r mbOk)) := by
  have hexec : exec (.fwLoadComplete []) s = execFwLoadComplete [] s := rfl
  rw [hexec, execFwLoadComplete, onDev_eq]
  simp only [hstore, hreq]
  rfl

end FwLoadComplete

/-! ## FW_UPDATE (R531, R533, R558) -/

section FwUpdate

variable {s : State} {r : MbxReq} (h : s.roleTakes 0 0x0902 r)
include h

theorem fwUpdate_of_unread (hnone : namedBytes s.mod r.payload = none) :
    exec .fwUpdate s = .next (s.withDev (s.mod.dev.endReq r mbBadArg)) := by
  have hexec : exec .fwUpdate s = execFwUpdate s := rfl
  rw [hexec, execFwUpdate, onRole_eq h]
  simp only [hnone, Mod.onDev]

variable {b : List Byte} (hb : namedBytes s.mod r.payload = some b)
include hb

theorem fwUpdate_of_debug (hdbg : dbgOver s.mod.dev = true) :
    exec .fwUpdate s = .next (s.withDev (s.mod.dev.endReq r mbNotAllowed)) := by
  have hexec : exec .fwUpdate s = execFwUpdate s := rfl
  rw [hexec, execFwUpdate, onRole_eq h]
  simp only [hb, Mod.onDev, hdbg, if_true]

variable (hdbg : dbgOver s.mod.dev = false) (hidle : s.mod.dev.fw.update = none)
include hdbg hidle

theorem fwUpdate_of_fault {st : Nat} (hfault : bundleFault s.fuses b = some st) :
    exec .fwUpdate s = .next (s.withDev (s.mod.dev.endReq r st)) := by
  have hexec : exec .fwUpdate s = execFwUpdate s := rfl
  rw [hexec, execFwUpdate, onRole_eq h]
  simp only [hb, Mod.onDev, hdbg, hidle, hfault, Option.isSome_none, Bool.false_eq_true, if_false]

variable (hgood : bundleFault s.fuses b = none)
include hgood

theorem fwUpdate_of_version (hmajor : (parseBundle b).mbx / 256 ≠ mbVersion s.mod.dev / 256) :
    exec .fwUpdate s = .next (s.withDev (s.mod.dev.endReq r mbBadVersion)) := by
  have hexec : exec .fwUpdate s = execFwUpdate s := rfl
  rw [hexec, execFwUpdate, onRole_eq h]
  simp only [hb, Mod.onDev, hdbg, hidle, hgood, if_pos hmajor, Option.isSome_none, Bool.false_eq_true, if_false]

theorem fwUpdate_of_good (hmajor : (parseBundle b).mbx / 256 = mbVersion s.mod.dev / 256) : exec .fwUpdate s = .next (s.withDev
    ((s.mod.dev.onFw fun w => { w with update := some (parseBundle b) }).beginReq r)) := by
  have hexec : exec .fwUpdate s = execFwUpdate s := rfl
  rw [hexec, execFwUpdate, onRole_eq h]
  simp only [hb, Mod.onDev, hdbg, hidle, hgood, hmajor, ne_eq, not_true_eq_false, Option.isSome_none, Bool.false_eq_true, if_false]

end FwUpdate

/-! ## What an update leaves of the plots -/

@[simp] theorem nogoReady_plots (d : Dev) (n : Word32) (a : Nat) : (nogoReady d n a).plots = d.plots := by
  unfold nogoReady
  split <;> rfl

@[simp] theorem Dev.loseRole_plots (d : Dev) (role : Nat) : (d.loseRole role).plots = d.plots := by
  unfold Dev.loseRole
  dsimp only
  split
  · exact nogoReady_plots ..
  · rfl

@[simp] theorem Dev.handover_plots (d : Dev) (role : Nat) : (d.handover role).plots = d.plots := by
  unfold Dev.handover
  dsimp only
  split <;> rfl

@[simp] theorem Dev.askCycle_plots (d : Dev) (dom : Nat) (tag : Option Nat) : (d.askCycle dom tag).plots = d.plots := rfl

@[simp] theorem Dev.modProc_plots (d : Dev) (id : Nat) (f : Proc → Proc) : (d.modProc id f).plots = d.plots := rfl

@[simp] theorem Dev.failProc_plots (d : Dev) (id : Nat) : (d.failProc id).plots = d.plots := by
  unfold Dev.failProc
  cases roleOf id with
  | none => rfl
  | some r => simp [apply_ite Dev.plots]

@[simp] theorem Dev.updateProc_plots (d : Dev) (b : Bundle) (id : Nat) : (d.updateProc b id).plots = d.plots := by
  unfold Dev.updateProc
  dsimp only
  split
  · rfl
  · split
    · exact Dev.failProc_plots ..
    · rfl

/-- Processors take a new image in turn. -/
def Dev.updateProcs (d : Dev) (b : Bundle) (l : List Nat) : Dev := l.foldl (fun d i => d.updateProc b i) d

@[simp] theorem Dev.updateProcs_plots (d : Dev) (b : Bundle) (l : List Nat) : (d.updateProcs b l).plots = d.plots := by
  induction l generalizing d with
  | nil => rfl
  | cons i l ih => exact (ih _).trans (d.updateProc_plots b i)

/-! ## What an update leaves of the roles -/

/-- A processor that has not restarted takes its image: no role moves, and no other processor changes. -/
theorem updateProc_of_fresh {d : Dev} (b : Bundle) {id : Nat} (hfresh : (procOf d id).times = []) :
    (d.updateProc b id).fw.active = d.fw.active ∧ ∀ j, j ≠ id → procOf (d.updateProc b id) j = procOf d j := by
  unfold Dev.updateProc
  dsimp only
  split
  · exact ⟨rfl, fun _ _ => rfl⟩
  · have honce : restartsTooOften (d.modProc id fun p => { p with times := p.times ++ [d.nowNs], restarts := p.restarts + 1 }) id
        = false := by
      refine decide_eq_false (Nat.not_lt.2 ((List.length_filter_le ..).trans ?_))
      rw [procOf_modProc_self, hfresh]
      exact Nat.le_add_left 1 2
    rw [honce]
    exact ⟨rfl, fun j hj => (procOf_runImage_ne _ _ hj).trans (procOf_modProc_ne _ _ _ hj)⟩

theorem updateProcs_of_fresh {d : Dev} (b : Bundle) {l : List Nat} (hdistinct : l.Nodup) (hfresh : ∀ i ∈ l, (procOf d i).times = []) :
    (d.updateProcs b l).fw.active = d.fw.active ∧ ∀ j, j ∉ l → procOf (d.updateProcs b l) j = procOf d j := by
  induction l generalizing d with
  | nil => exact ⟨rfl, fun _ _ => rfl⟩
  | cons i l ih =>
    obtain ⟨hnot, hrest⟩ := List.nodup_cons.1 hdistinct
    obtain ⟨hactive, hother⟩ := updateProc_of_fresh b (hfresh i List.mem_cons_self)
    obtain ⟨hactive', hother'⟩ := ih (d := d.updateProc b i) hrest fun j hj => by
      rw [hother j (ne_of_mem_of_not_mem hj hnot)]
      exact hfresh j (List.mem_cons_of_mem i hj)
    refine ⟨hactive'.trans hactive, fun j hj => ?_⟩
    obtain ⟨hji, hjl⟩ := not_or.1 (mt List.mem_cons.2 hj)
    exact (hother' j hjl).trans (hother j hji)

/-! ## FW_UPDATE_COMPLETE (R531, R532) -/

/-- The quadrant controllers. -/
def quadControllers : List Nat := (List.range 16).map (16 + ·)

/-- The part of an update that every module takes: the quadrant controllers, then the standby and the active power core. -/
def Dev.updateWithoutStandby (d : Dev) (b : Bundle) : Dev :=
  let d := d.updateProcs b quadControllers
  measureImages (d.updateProcs b [standbyId d 1, activeId d 1]) b [1, 3]

/-- The rest of an update: the standbys of scheduler and security core, a handover of both roles, the standbys again. -/
def Dev.updateByHandover (d : Dev) (b : Bundle) : Dev :=
  let d := d.updateProcs b [standbyId d 2, standbyId d 0]
  let d := (d.handover 2).handover 0
  (measureImages (d.updateProcs b [standbyId d 2, standbyId d 0]) b [0, 2]).measure 6 (Config.sha384 b.header)

/-- The update is over, and its bundle is the one in the image store. -/
def Dev.endUpdate (d : Dev) (b : Bundle) : Dev := d.onFw fun w => { w with update := none, store := some b }

theorem Dev.updateWithoutStandby_plots (d : Dev) (b : Bundle) : (d.updateWithoutStandby b).plots = d.plots := by
  simp [Dev.updateWithoutStandby]

theorem Dev.updateByHandover_plots (d : Dev) (b : Bundle) : (d.updateByHandover b).plots = d.plots := by
  simp [Dev.updateByHandover, Dev.measure]

theorem standbyId_ne_activeId (d : Dev) (role : Nat) : standbyId d role ≠ activeId d role := by
  unfold standbyId activeId
  split <;> omega

theorem standbyId_notMem_quadControllers (d : Dev) {role : Nat} (h : role < 3) : standbyId d role ∉ quadControllers := by
  rw [quadControllers, List.mem_map]
  rintro ⟨i, -, heq⟩
  unfold standbyId at heq
  split at heq <;> omega

theorem activeId_notMem_quadControllers (d : Dev) {role : Nat} (h : role < 3) : activeId d role ∉ quadControllers := by
  rw [quadControllers, List.mem_map]
  rintro ⟨i, -, heq⟩
  unfold activeId at heq
  split at heq <;> omega

/-- Where no processor has restarted, an update without a standby moves no role. -/
theorem active_updateWithoutStandby {d : Dev} (b : Bundle) (hfresh : ∀ i, (procOf d i).times = []) :
    (d.updateWithoutStandby b).fw.active = d.fw.active := by
  obtain ⟨hquads, hothers⟩ := updateProcs_of_fresh b (l := quadControllers) (by decide) fun i _ => hfresh i
  have hpower : ∀ i ∈ [standbyId (d.updateProcs b quadControllers) 1, activeId (d.updateProcs b quadControllers) 1],
      (procOf (d.updateProcs b quadControllers) i).times = [] := by
    intro i hi
    have hnot : i ∉ quadControllers := by
      rcases List.mem_pair.1 hi with rfl | rfl
      · exact standbyId_notMem_quadControllers _ (by decide)
      · exact activeId_notMem_quadControllers _ (by decide)
    rw [hothers i hnot]
    exact hfresh i
  obtain ⟨hcores, -⟩ := updateProcs_of_fresh b (by simp [standbyId_ne_activeId]) hpower
  rw [Dev.updateWithoutStandby, measureImages_fw]
  exact hcores.trans hquads

section FwUpdateComplete

variable {s : State}

theorem fwUpdateComplete_of_nothing (hnone : s.mod.dev.fw.update = none) : exec .fwUpdateComplete s = .next s := by
  have hexec : exec .fwUpdateComplete s = execFwUpdateComplete s := rfl
  rw [hexec, execFwUpdateComplete, onDev_eq]
  simp only [hnone]

variable {b : Bundle} {r : MbxReq} (hupdate : s.mod.dev.fw.update = some b) (hreq : begunReq s.mod.dev 0x0902 = some r)
include hupdate hreq

theorem fwUpdateComplete_of_alone (halone : ∃ k < 3, procUp s.mod.dev (standbyId s.mod.dev k) = false) :
    exec .fwUpdateComplete s = .next (s.withDev (((s.mod.dev.updateWithoutStandby b).endUpdate b).endReq r mbDeferred)) := by
  have hexec : exec .fwUpdateComplete s = execFwUpdateComplete s := rfl
  have hnot : ((List.range 3).all fun k => procUp s.mod.dev (standbyId s.mod.dev k)) = false := by
    obtain ⟨k, hk, hdown⟩ := halone
    exact List.all_eq_false.2 ⟨k, List.mem_range.2 hk, by simp [hdown]⟩
  rw [hexec, execFwUpdateComplete, onDev_eq]
  simp only [hupdate, hreq, hnot, Bool.not_false, if_true, Dev.updateWithoutStandby, Dev.updateProcs, quadControllers, Dev.endUpdate,
    List.foldl_cons, List.foldl_nil]

theorem fwUpdateComplete_of_standby (hall : ∀ k < 3, procUp s.mod.dev (standbyId s.mod.dev k) = true) :
    exec .fwUpdateComplete s = .next (s.withDev
      ((((s.mod.dev.updateWithoutStandby b).updateByHandover b).endUpdate b).endReq r mbOk)) := by
  have hexec : exec .fwUpdateComplete s = execFwUpdateComplete s := rfl
  have hyes : ((List.range 3).all fun k => procUp s.mod.dev (standbyId s.mod.dev k)) = true :=
    List.all_eq_true.2 fun k hk => hall k (List.mem_range.1 hk)
  rw [hexec, execFwUpdateComplete, onDev_eq]
  simp only [hupdate, hreq, hyes, Bool.not_true, Bool.false_eq_true, if_false, Dev.updateWithoutStandby, Dev.updateByHandover,
    Dev.updateProcs, quadControllers, Dev.endUpdate, List.foldl_cons, List.foldl_nil]

end FwUpdateComplete

/-- An update that is answered, whatever came before: it is over, its bundle is kept, and the answer leaves roles and plots alone. -/
theorem update_answered (s : State) (d : Dev) (b : Bundle) (r : MbxReq) (status : Nat) {s' : State}
    (hs : s' = s.withDev ((d.endUpdate b).endReq r status)) :
    (s'.pending = s.pending ∧ s'.fuses = s.fuses ∧ s'.mod.mem = s.mod.mem ∧ s'.mod.dev.fw.update = none ∧
      s'.mod.dev.fw.store = some b ∧ s'.mod.dev.plots = d.plots) ∧ s'.mod.dev.fw.active = d.fw.active ∧
      ∃ d0 : Dev, d0.fw.update = none ∧ d0.fw.store = some b ∧ s'.mod.dev = d0.endReq r status := by
  have hfw := (d.endUpdate b).endReq_mailboxOnly r status []
  subst hs
  exact ⟨⟨rfl, rfl, rfl, hfw.update, hfw.store, Dev.endReq_plots ..⟩, hfw.active, d.endUpdate b, rfl, rfl, rfl⟩

/-- Settles O44: by one rule for each command and outcome, and by what images started, or replaced in service, leave of processors, roles
and plots. -/
theorem firmwareIsLoadedAndUpdated : Obligations.FirmwareIsLoadedAndUpdated := by
  unfold Obligations.FirmwareIsLoadedAndUpdated
  intro s m d
  refine ⟨fun r hnext => ⟨fun hrun hup => ⟨_, fwLoad_of_running hnext hrun hup, onlyAnswers_endReq ..⟩,
      fun hrun hstore => ⟨fun st hlen hfault => ⟨_, fwLoad_of_fault hnext hrun hstore hlen hfault, onlyAnswers_endReq ..⟩,
        fun hlen hgood => ?load⟩⟩,
    fun b r failed hstore hreq => ⟨fun hbad => ?failed, fun hnone => ?started⟩, fun failed hnone => fwLoadComplete_of_nothing hnone,
    fun r h => ⟨fun hnone => ⟨_, fwUpdate_of_unread h hnone, onlyAnswers_endReq ..⟩,
      fun b hb => ⟨fun hdbg => ⟨_, fwUpdate_of_debug h hb hdbg, onlyAnswers_endReq ..⟩,
        fun hdbg hidle => ⟨fun st hfault => ⟨_, fwUpdate_of_fault h hb hdbg hidle hfault, onlyAnswers_endReq ..⟩,
          fun hgood hmajor => ⟨_, fwUpdate_of_version h hb hdbg hidle hgood hmajor, onlyAnswers_endReq ..⟩,
          fun hgood hmajor => ?update⟩⟩⟩,
    fwUpdateComplete_of_nothing, fun b r hupdate hreq => ?complete⟩
  case load =>
    have hfw := (d.placeBundle (readRun d.fw.staging 0 (fieldAt r.payload 0 4))).beginReq_mailboxOnly r
    refine ⟨_, fwLoad_of_good hnext hrun hstore hlen hgood, ?_, ?_, ?_, ?_, fun i hi => ?_, ?_⟩
    · exact ((s.changesOnly_refl _).placeBundle (d := d) (by decide) (by decide) _).mailOnly (by decide) (by decide)
        (Dev.mailOnly_beginReq ..)
    · rw [hfw.store, fw_placeBundle]
    · rw [hfw.procs, fw_placeBundle]
    · rw [hfw.run, fw_placeBundle]
      exact hrun
    · rw [Dev.beginReq_sec]
      exact meas_placeBundle d _ hi
    · rw [Dev.beginReq_sec]
      exact kget_kput_self ..
  case failed =>
    have hfw := d.failLoad.endReq_mailboxOnly r mbProcFailed []
    refine ⟨_, fwLoadComplete_of_failed hstore hreq hbad, ?_, hfw.run, hfw.procs,
      hfw.store, ?_⟩
    · exact (((s.changesOnly_refl _).onFw (d := d) (by decide) _).onPwr (by decide) _).mailOnly (by decide) (by decide)
        (Dev.mailOnly_endReq ..)
    · rw [Dev.endReq_pwr]
      rfl
  case started =>
    subst hnone
    have hfw := (d.startLoaded b).endReq_mailboxOnly r mbOk []
    refine ⟨_, fwLoadComplete_of_started hstore hreq, ?_, hfw.run, hfw.bar2Open,
      hfw.active, fun i hi => ?_, fun i hi => ?_⟩
    · exact (((s.changesOnly_refl _).runImages (d := d) (by decide)).onFw (by decide) _).mailOnly (by decide) (by decide)
        (Dev.mailOnly_endReq ..)
    · rw [procUp, procOf_endReq, procOf_startLoaded]
      exact upWith_runImages (.inl hi)
    · rw [procOf_endReq, procOf_startLoaded]
      exact procOf_runImages_of_notMem hi
  case update =>
    have hfw := (d.onFw fun w => { w with update := some (parseBundle b) }).beginReq_mailboxOnly r
    exact ⟨_, fwUpdate_of_good h hb hdbg hidle hgood hmajor,
      ((s.changesOnly_refl _).onFw (d := d) (by decide) _).mailOnly (by decide) (by decide) (Dev.mailOnly_beginReq ..),
      hfw.update, hfw.procs⟩
  case complete =>
    by_cases halone : ∃ k < 3, procUp d (standbyId d k) = false
    · obtain ⟨⟨hpending, hfuses, hmem, hupd, hstore, hplots⟩, hactive, hanswer⟩ :=
        update_answered s (s.mod.dev.updateWithoutStandby b) b r mbDeferred rfl
      refine ⟨_, fwUpdateComplete_of_alone hupdate hreq halone, hpending, hfuses, hmem, hupd, hstore,
        hplots.trans (Dev.updateWithoutStandby_plots ..),
        fun _ => ⟨hanswer, fun hfresh => hactive.trans (active_updateWithoutStandby b hfresh)⟩, fun hall => ?_⟩
      obtain ⟨k, hk, hdown⟩ := halone
      exact absurd ((hall k hk).symm.trans hdown) (by decide)
    · have hall : ∀ k < 3, procUp d (standbyId d k) = true := fun k hk =>
        Bool.eq_true_of_not_eq_false fun hdown => halone ⟨k, hk, hdown⟩
      obtain ⟨⟨hpending, hfuses, hmem, hupd, hstore, hplots⟩, -, hanswer⟩ :=
        update_answered s ((s.mod.dev.updateWithoutStandby b).updateByHandover b) b r mbOk rfl
      exact ⟨_, fwUpdateComplete_of_standby hupdate hreq hall, hpending, hfuses, hmem, hupd, hstore,
        hplots.trans ((Dev.updateByHandover_plots ..).trans (Dev.updateWithoutStandby_plots ..)),
        fun hsome => absurd hsome halone, fun _ => hanswer⟩

end Sys2Proof.Machine
end

section
/-!
PROOF. What any command does to queue and fuses (R540, R544, R554): it leaves the queue alone, and the fuses too but for bits that the
security core blows.
-/

namespace Sys2Proof.Machine

/-! ## What a command can make of the fuses -/

/-- Fuses `f` and what a command of the security core can make of them: a security version raised (R544), LIFECYCLE advanced to RMA or
SCRAPPED, or key slots revoked, never all four (R554). -/
inductive Fuses.BlownBy (f : Fuses) : Instr → Fuses → Prop where
  | secverFw (v : Nat) : f.BlownBy .secverCommit { f with secverFw := thermometer 64 v f.secverFw }
  | secverPack (v : Nat) : f.BlownBy .secverCommit { f with secverPack := thermometer 64 v f.secverPack }
  | lifecycle (arg : Nat) (h : arg = 2 ∨ arg = 3) : f.BlownBy .lifecycleAdvance { f with lifecycle := thermometer 8 (arg + 1) f.lifecycle }
  | fwRevoke (arg : Nat) (h : f.fwRevoke ||| BitVec.ofNat 4 arg ≠ 15) :
    f.BlownBy .keyRevoke { f with fwRevoke := f.fwRevoke ||| BitVec.ofNat 4 arg }

/-- A command that acts on fuses, `x` its result: it either keeps them or blows them as it may. -/
def Fuses.keptOrBlown (f : Fuses) (c : Instr) (x : Fuses × Mod) : Prop := x.1 = f ∨ f.BlownBy c x.1

/-- A token that is refused changes no fuse. -/
theorem keptOrBlown_withToken {f : Fuses} {c : Instr} (m : Mod) (r : MbxReq) (op : Nat) (a : Authority)
    {g : Mod → Nat → List Byte → Fuses × Mod} (hg : ∀ m arg b, f.keptOrBlown c (g m arg b)) :
    f.keptOrBlown c (withToken f m r op a g) := by
  unfold withToken
  split
  · exact .inl rfl
  · dsimp only
    split
    · exact .inl rfl
    · exact hg ..

/-- What a command answers: the queue as it was, and the fuses too but for those it blows while the security core runs. -/
def State.answersFuses (s : State) (c : Instr) (o : Out) : Prop :=
  ∃ f m, o = .next ⟨s.pending, f, m⟩ ∧ (f = s.fuses ∨ s.fuses.BlownBy c f ∧ roleUp s.mod.dev 0 = true)

/-- An operation on fuses answers; what it makes of them it makes while the security core runs. -/
theorem onFuses_answers (s : State) (op : Nat) {c : Instr} {g : Fuses → Mod → MbxReq → Fuses × Mod}
    (hg : ∀ r, s.fuses.keptOrBlown c (g s.fuses s.mod r)) : s.answersFuses c (onFuses s op g) := by
  unfold onFuses
  split
  next r _ =>
    split
    next hup => exact ⟨_, _, rfl, (hg r).imp_right fun hblown => ⟨hblown, (Bool.and_eq_true_iff.1 hup).2⟩⟩
    next => exact ⟨_, _, rfl, .inl rfl⟩
  next => exact ⟨_, _, rfl, .inl rfl⟩

theorem secverCommit_answers (s : State) : s.answersFuses .secverCommit (execSecverCommit s) := by
  refine onFuses_answers s _ fun r => ?_
  dsimp only
  split
  · exact .inl rfl
  split
  · exact .inl rfl
  split
  · exact .inl rfl
  split
  · exact .inl rfl
  split <;> split
  · exact .inl rfl
  · exact .inr (.secverFw _)
  · exact .inl rfl
  · exact .inr (.secverPack _)

theorem lifecycleAdvance_answers (s : State) : s.answersFuses .lifecycleAdvance (execLifecycleAdvance s) := by
  refine onFuses_answers s _ fun r => ?_
  split
  · exact .inl rfl
  refine keptOrBlown_withToken _ _ _ _ fun m arg _ => ?_
  split
  next => exact .inl rfl
  next harg => exact .inr (.lifecycle arg (by omega))

theorem keyRevoke_answers (s : State) : s.answersFuses .keyRevoke (execKeyRevoke s) := by
  refine onFuses_answers s _ fun r => ?_
  dsimp only
  split
  · exact .inl rfl
  refine keptOrBlown_withToken _ _ _ _ fun m arg _ => ?_
  split
  next => exact .inl rfl
  next hnot => exact .inr (.fwRevoke arg fun hall => hnot (.inr (.inr hall)))

/-- DEBUG_UNLOCK takes a token and blows no fuse. -/
theorem debugUnlock_answers (s : State) : s.answersFuses .debugUnlock (execDebugUnlock s) := by
  refine onFuses_answers s _ fun r => ?_
  dsimp only
  split
  · exact .inl rfl
  split
  · exact .inl rfl
  refine keptOrBlown_withToken _ _ _ _ fun m arg _ => ?_
  split <;> exact .inl rfl

/-- What every command answers. But for the four that take a token or commit a version, a command acts on the module without its fuses. -/
theorem exec_answers (c : Instr) (s : State) : s.answersFuses c (exec c s) := by
  cases c with
  | secverCommit => exact secverCommit_answers s
  | lifecycleAdvance => exact lifecycleAdvance_answers s
  | keyRevoke => exact keyRevoke_answers s
  | debugUnlock => exact debugUnlock_answers s
  | _ => exact ⟨_, _, rfl, .inl rfl⟩

/-! ## What is blown stays blown (R540) -/

theorem blownIn_refl {w : Nat} (v : BitVec w) : blownIn v v = true := by simp [blownIn]

theorem blownIn_or {w : Nat} (v x : BitVec w) : blownIn v (v ||| x) = true := by
  simp only [blownIn, beq_iff_eq]
  ext i hi
  simp
  intro h
  simp [h]

theorem blownIn_thermometer {w : Nat} (n : Nat) (v : BitVec w) : blownIn v (thermometer w n v) = true := blownIn_or ..

theorem Fuses.keptIn_iff {a b : Fuses} : a.keptIn b = true ↔ blownIn a.devid b.devid = true ∧ blownIn a.seed b.seed = true ∧
    blownIn a.lifecycle b.lifecycle = true ∧ blownIn a.fwKey b.fwKey = true ∧ blownIn a.fwRevoke b.fwRevoke = true ∧
    blownIn a.dbgKey b.dbgKey = true ∧ blownIn a.dbgRevoke b.dbgRevoke = true ∧ blownIn a.secverFw b.secverFw = true ∧
    blownIn a.secverPack b.secverPack = true := by
  simp only [Fuses.keptIn, Bool.and_eq_true, and_assoc]

theorem Fuses.keptIn_refl (f : Fuses) : f.keptIn f = true := by simp only [keptIn_iff, blownIn_refl, and_self]

theorem Fuses.BlownBy.keptIn {f g : Fuses} {c : Instr} (h : f.BlownBy c g) : f.keptIn g = true := by
  cases h <;> simp only [keptIn_iff, blownIn_refl, blownIn_thermometer, blownIn_or, and_self]

theorem Fuses.BlownBy.command {f g : Fuses} {c : Instr} (h : f.BlownBy c g) :
    c = .secverCommit ∨ c = .lifecycleAdvance ∨ c = .keyRevoke := by
  cases h with
  | secverFw | secverPack => exact .inl rfl
  | lifecycle => exact .inr (.inl rfl)
  | fwRevoke => exact .inr (.inr rfl)

/-! ## Thermometers (Table 14.1) -/

/-- A thermometer of `k` bits is 2^k − 1. -/
theorem thermo_iff {w : Nat} {v : BitVec w} : thermo v = true ↔ ∃ k ≤ w, v.toNat = 2 ^ k - 1 := by
  have hbits : thermo v = true ↔ v.toNat &&& (v.toNat + 1) % 2 ^ w = 0 := by
    rw [thermo, beq_iff_eq, ← BitVec.toNat_inj, BitVec.toNat_and, BitVec.toNat_add]
    simp
  have hpow (k : Nat) : 2 ^ k - 1 + 1 = 2 ^ k := Nat.sub_add_cancel Nat.one_le_two_pow
  rw [hbits]
  constructor
  · intro hzero
    rcases Nat.lt_or_ge (v.toNat + 1) (2 ^ w) with hlt | hge
    · rw [Nat.mod_eq_of_lt hlt, Nat.and_comm] at hzero
      obtain ⟨k, hk⟩ := (Nat.and_sub_one_eq_zero_iff_isPowerOfTwo (Nat.succ_ne_zero _)).1 hzero
      have hlt' : 2 ^ k < 2 ^ w := by omega
      exact ⟨k, ((Nat.pow_lt_pow_iff_right one_lt_two).1 hlt').le, by omega⟩
    · exact ⟨w, le_rfl, by have := v.isLt; omega⟩
  · rintro ⟨k, hk, hv⟩
    rw [hv, hpow]
    rcases hk.lt_or_eq with hlt | rfl
    · rw [Nat.mod_eq_of_lt (Nat.pow_lt_pow_right (by decide) hlt), Nat.and_comm]
      exact (Nat.and_sub_one_eq_zero_iff_isPowerOfTwo (by positivity)).2 ⟨k, rfl⟩
    · rw [Nat.mod_self, Nat.and_zero]

theorem two_pow_sub_one_or (a b : Nat) : (2 ^ a - 1) ||| (2 ^ b - 1) = 2 ^ max a b - 1 := by
  apply Nat.eq_of_testBit_eq
  intro i
  simp [Nat.testBit_two_pow_sub_one]

/-- Raising a thermometer leaves a thermometer. -/
theorem thermo_thermometer {w : Nat} (n : Nat) {v : BitVec w} (h : thermo v = true) : thermo (thermometer w n v) = true := by
  obtain ⟨k, hk, hv⟩ := thermo_iff.1 h
  have hlt : 2 ^ min n w - 1 < 2 ^ w :=
    (Nat.sub_lt (by positivity) one_pos).trans_le (Nat.pow_le_pow_right (by decide) (min_le_right ..))
  refine thermo_iff.2 ⟨max k (min n w), max_le hk (min_le_right ..), ?_⟩
  rw [thermometer, BitVec.toNat_or, BitVec.toNat_ofNat, Nat.mod_eq_of_lt hlt, hv, two_pow_sub_one_or]

/-- A fuse with more bits blown counts no fewer. -/
theorem blown_le {w n : Nat} {a b : BitVec w} (h : blownIn a b = true) : blown n a.toNat ≤ blown n b.toNat := by
  have hor : a &&& b = a := eq_of_beq h
  rw [blown, blown, ← List.countP_eq_length_filter, ← List.countP_eq_length_filter]
  refine List.countP_mono_left fun i _ hi => ?_
  have hbit : (a &&& b).toNat.testBit i = true := hor.symm ▸ hi
  rw [BitVec.toNat_and, Nat.testBit_and, Bool.and_eq_true] at hbit
  exact hbit.2

/-! ## The fuses as a module may have them (R554) -/

theorem Fuses.legal_iff {f : Fuses} : f.legal = true ↔
    (f.lifecycle = 1 ∨ f.lifecycle = 3 ∨ f.lifecycle = 7 ∨ f.lifecycle = 15) ∧ thermo f.secverFw = true ∧
      thermo f.secverPack = true ∧ f.fwRevoke ≠ 15 := by
  simp only [Fuses.legal, Bool.and_eq_true, Bool.or_eq_true, beq_iff_eq, bne_iff_ne, or_assoc, and_assoc]

/-- LIFECYCLE is advanced to RMA or SCRAPPED from any of its four states, to one of them. -/
theorem lifecycle_legal_thermometer {v : BitVec 8} (h : v = 1 ∨ v = 3 ∨ v = 7 ∨ v = 15) {arg : Nat} (harg : arg = 2 ∨ arg = 3) :
    thermometer 8 (arg + 1) v = 1 ∨ thermometer 8 (arg + 1) v = 3 ∨ thermometer 8 (arg + 1) v = 7 ∨ thermometer 8 (arg + 1) v = 15 := by
  rcases harg with rfl | rfl <;> rcases h with rfl | rfl | rfl | rfl <;> decide

theorem Fuses.BlownBy.legal {f g : Fuses} {c : Instr} (h : f.BlownBy c g) (hf : f.legal = true) : g.legal = true := by
  obtain ⟨hlc, hfw, hpack, hrev⟩ := legal_iff.1 hf
  cases h with
  | secverFw v => exact legal_iff.2 ⟨hlc, thermo_thermometer v hfw, hpack, hrev⟩
  | secverPack v => exact legal_iff.2 ⟨hlc, hfw, thermo_thermometer v hpack, hrev⟩
  | lifecycle arg harg => exact legal_iff.2 ⟨lifecycle_legal_thermometer hlc harg, hfw, hpack, hrev⟩
  | fwRevoke arg hnew => exact legal_iff.2 ⟨hlc, hfw, hpack, hnew⟩

/-- Fuses that only blow take no security version and no life-cycle state back. -/
theorem Fuses.versions_le {f g : Fuses} (h : f.keptIn g = true) : f.svFw ≤ g.svFw ∧ f.svPack ≤ g.svPack ∧ f.lc ≤ g.lc := by
  obtain ⟨-, -, hlc, -, -, -, -, hfw, hpack⟩ := keptIn_iff.1 h
  exact ⟨blown_le hfw, blown_le hpack, Nat.sub_le_sub_right (blown_le hlc) 1⟩

/-! ## The statements -/

/-- Settles O59: every command answers, its queue kept. -/
theorem everyCommandAnswers : Obligations.EveryCommandAnswers := by
  unfold Obligations.EveryCommandAnswers
  intro c s
  obtain ⟨_, _, hexec, -⟩ := exec_answers c s
  exact ⟨_, hexec, rfl⟩

/-- Settles O56: what a command makes of the fuses is what they were, or what it may blow. -/
theorem fusesOnlyBlow : Obligations.FusesOnlyBlow := by
  unfold Obligations.FusesOnlyBlow
  intro c s s' hnext
  obtain ⟨f, m, hexec, hfuses⟩ := exec_answers c s
  obtain rfl : ⟨s.pending, f, m⟩ = s' := Host.Outcome.next.inj (hexec.symm.trans hnext)
  rcases hfuses with rfl | ⟨hblown, hup⟩
  · exact ⟨s.fuses.keptIn_refl, fun hne => absurd rfl hne⟩
  · exact ⟨hblown.keptIn, fun _ => ⟨hblown.command, hup⟩⟩

/-- A command keeps the fuses legal. -/
theorem exec_legal {c : Instr} {s s' : State} (hnext : exec c s = .next s') (hlegal : s.fuses.legal = true) : s'.fuses.legal = true := by
  obtain ⟨f, m, hexec, hfuses⟩ := exec_answers c s
  obtain rfl : ⟨s.pending, f, m⟩ = s' := Host.Outcome.next.inj (hexec.symm.trans hnext)
  rcases hfuses with rfl | ⟨hblown, -⟩
  · exact hlegal
  · exact hblown.legal hlegal

/-- Settles O57: a step is a command, or leaves the fuses alone. -/
theorem stepsKeepFusesLegal : Obligations.StepsKeepFusesLegal := by
  unfold Obligations.StepsKeepFusesLegal
  intro s s' hstep hlegal
  unfold step at hstep
  split at hstep
  next =>
    obtain rfl : idle s = s' := Host.Outcome.next.inj hstep
    exact ⟨hlegal, le_rfl, le_rfl, le_rfl⟩
  next c rest _ =>
    exact ⟨exec_legal hstep hlegal, Fuses.versions_le (fusesOnlyBlow c _ s' hstep).1⟩

/-- Settles O58: the state after reset is one state, and the model computes each fact. -/
theorem resetIsLegal : Obligations.ResetIsLegal := by
  unfold Obligations.ResetIsLegal
  decide

/-- Settles O1: by what a step does with a command waiting. -/
theorem stepTakesFront : Obligations.StepTakesFront := by
  unfold Obligations.StepTakesFront
  intro s c rest hqueue
  rw [step, hqueue]

end Sys2Proof.Machine
end

section
/-!
PROOF. Counters (R604): an increment keeps every module total the sum of its instances.
-/

namespace Sys2Proof.Machine

/-! ## The numbers that a canonical map lists -/

theorem le_of_mem_kwfFrom {α : Type} [DecidableEq α] {d : α} {m : KMap α} {lo : Nat} (hm : kwfFrom d lo m = true) :
    ∀ e ∈ m, lo ≤ e.1 := by
  induction m generalizing lo with
  | nil => simp
  | cons e m ih =>
    obtain ⟨k, v⟩ := e
    simp only [kwfFrom, Bool.and_eq_true, decide_eq_true_eq] at hm
    intro e he
    rcases List.mem_cons.1 he with rfl | he
    · exact hm.1.1
    · exact (hm.1.1.trans k.le_succ).trans (ih hm.2 e he)

theorem kfind_eq_none {α : Type} {m : KMap α} {k : Nat} (h : ∀ e ∈ m, e.1 ≠ k) : kfind m k = none := by
  induction m with
  | nil => rfl
  | cons e m ih =>
    rw [kfind_cons, if_neg (h e List.mem_cons_self)]
    exact ih fun e he => h e (List.mem_cons_of_mem _ he)

/-! ## The sum of a counter's instances -/

/-- The sum of the values that a map lists under some numbers. -/
def sumOver {w : Nat} (p : Nat → Bool) (m : KMap (BitVec w)) : BitVec w := ((m.filter fun e => p e.1).map (·.2)).sum

section SumOver

variable {w : Nat} (p : Nat → Bool)

theorem sumOver_append (a b : KMap (BitVec w)) : sumOver p (a ++ b) = sumOver p a + sumOver p b := by
  simp [sumOver]

theorem sumOver_cons (k : Nat) (v : BitVec w) (m : KMap (BitVec w)) :
    sumOver p ((k, v) :: m) = (if p k then v else 0) + sumOver p m := by
  by_cases hk : p k = true <;> simp [sumOver, hk]

/-- The sum over a canonical map, taken apart at a number: what lies below it, its own value, what lies above it. -/
theorem sumOver_eq {m : KMap (BitVec w)} {lo : Nat} (hm : kwfFrom 0 lo m = true) (k : Nat) : sumOver p m =
    sumOver p (m.filter fun e => e.1 < k) + ((if p k then kget 0 m k else 0) + sumOver p (m.filter fun e => k < e.1)) := by
  induction m generalizing lo with
  | nil => simp [sumOver, kget]
  | cons e m ih =>
    obtain ⟨j, v⟩ := e
    simp only [kwfFrom, Bool.and_eq_true, decide_eq_true_eq] at hm
    have habove := le_of_mem_kwfFrom hm.2
    have hlow (hk : k ≤ j) : m.filter (fun e => e.1 < k) = [] :=
      List.filter_eq_nil_iff.2 fun e he => by have := habove e he; simp; omega
    have hhigh (hk : k ≤ j) : m.filter (fun e => k < e.1) = m :=
      List.filter_eq_self.2 fun e he => by have := habove e he; simp; omega
    rcases Nat.lt_trichotomy j k with hlt | rfl | hgt
    · rw [List.filter_cons_of_pos (by simpa using hlt), List.filter_cons_of_neg (by simpa using hlt.le), sumOver_cons, sumOver_cons,
        ih hm.2, kget, kget, kfind_cons, if_neg hlt.ne, add_assoc]
    · rw [List.filter_cons_of_neg (by simp), List.filter_cons_of_neg (by simp), hlow le_rfl, hhigh le_rfl, sumOver_cons, kget,
        kfind_cons, if_pos rfl]
      exact (zero_add _).symm
    · have hnone : kfind ((j, v) :: m) k = none := by
        rw [kfind_cons, if_neg hgt.ne']
        exact kfind_eq_none fun e he => by have := habove e he; omega
      rw [List.filter_cons_of_neg (by simpa using hgt.le), List.filter_cons_of_pos (by simpa using hgt), hlow hgt.le, hhigh hgt.le,
        kget, hnone]
      simp [sumOver]

/-- What a number's new value changes of the sum. -/
theorem sumOver_kset {m : KMap (BitVec w)} (hm : kwf 0 m = true) (k : Nat) (n : BitVec w) :
    sumOver p (kset 0 m k (kget 0 m k + n)) = sumOver p m + if p k then n else 0 := by
  have hset : ∀ v, sumOver p (kset 0 m k v) =
      sumOver p (m.filter fun e => e.1 < k) + ((if p k then v else 0) + sumOver p (m.filter fun e => k < e.1)) := by
    intro v
    rw [kset]
    split
    next hzero => rw [kdel, sumOver_append, hzero, ite_self, zero_add]
    next => rw [kput, sumOver_append, sumOver_cons]
  rw [hset, sumOver_eq p hm k]
  split <;> ring

end SumOver

theorem addsUp_iff (b : BaseState) (c : Nat) :
    b.addsUp c ↔ (kget 0 b.tot c).setWidth 32 = sumOver (fun j => decide (j / 8192 = c)) b.cnt := by
  rw [BaseState.addsUp, sumOver, List.sum_eq_foldl]

theorem addsUp_count {b : BaseState} {c inst n k : Nat} (hinst : inst < 8192) (hcnt : kwf 0 b.cnt = true) (h : b.addsUp k) :
    (b.count c inst n).addsUp k := by
  have hclass : (8192 * c + inst) / 8192 = c := by omega
  rw [addsUp_iff] at h ⊢
  rw [BaseState.count]
  dsimp only
  rw [sumOver_kset _ hcnt, hclass, ← h, kget_kset]
  by_cases hk : c = k
  · subst hk
    simp [BitVec.setWidth_add]
  · simp [hk]

/-- Settles O60: what an increment adds to the instance it adds to its counter's total, and to no other. -/
theorem countsAddUp : Obligations.CountsAddUp := by
  unfold Obligations.CountsAddUp
  intro b c inst n k hinst hcnt hsum
  exact ⟨addsUp_count hinst hcnt hsum, kwf_kset _ _ hcnt, kget_kset_self .., kget_kset_self ..⟩

end Sys2Proof.Machine
end

section
/-!
PROOF. The run-time power limit and the effecters (R569, R593): one rule for each command and outcome.
-/

namespace Sys2Proof.Machine

/-! ## The run-time limit (R569) -/

/-- The run-time limit is set. -/
def Dev.limitTo (d : Dev) (w : Nat) : Dev := d.onPwr fun p => { p with limit := some w }

/-- Watts that the run-time limit may take. -/
abbrev Dev.limitFits (d : Dev) (w : Nat) : Prop := 1200 ≤ w ∧ w ≤ cfgPwrCapCfgLimit d.base

theorem Dev.not_limitFits {d : Dev} {w : Nat} (h : w < 1200 ∨ cfgPwrCapCfgLimit d.base < w) : ¬d.limitFits w := by
  unfold Dev.limitFits
  omega

theorem setLimit_of_fits {d : Dev} {w : Nat} (h : d.limitFits w) : setLimit d w = some (d.limitTo w) := if_pos h

theorem setLimit_of_not_fits {d : Dev} {w : Nat} (h : ¬d.limitFits w) : setLimit d w = none := if_neg h

@[simp] theorem Dev.endReq_hw (d : Dev) (r : MbxReq) (status : Nat) (payload : List Byte) : (d.endReq r status payload).hw = d.hw := by
  obtain ⟨_, _, _, hd⟩ := d.mailOnly_endReq r status payload
  rw [hd]

section CapSet

variable {s : State} {r : MbxReq} (h : s.roleTakes 1 0x0B02 r)
include h

theorem capSet_of_fits (hfits : s.mod.dev.limitFits (fieldAt r.payload 0 2)) :
    exec .capSet s = .next (s.withDev ((s.mod.dev.limitTo (fieldAt r.payload 0 2)).endReq r mbOk)) := by
  have hexec : exec .capSet s = execCapSet s := rfl
  rw [hexec, execCapSet, onRole_eq h]
  simp only [Mod.onDev, setLimit_of_fits hfits]

theorem capSet_of_not_fits (hnot : ¬s.mod.dev.limitFits (fieldAt r.payload 0 2)) :
    exec .capSet s = .next (s.withDev (s.mod.dev.endReq r mbBadArg)) := by
  have hexec : exec .capSet s = execCapSet s := rfl
  rw [hexec, execCapSet, onRole_eq h]
  simp only [Mod.onDev, setLimit_of_not_fits hnot]

/-- CAP_SET takes the run-time limit over, whatever it was, where the watts fit. -/
theorem capSet_sets_limit (hfits : s.mod.dev.limitFits (fieldAt r.payload 0 2)) : ∃ s', exec .capSet s = .next s' ∧
    s.changesOnly s' [.pwr, .fw, .base] ∧ s'.mod.dev.pwr = { s.mod.dev.pwr with limit := some (fieldAt r.payload 0 2) } :=
  ⟨_, capSet_of_fits h hfits, ((s.changesOnly_refl _).onPwr (d := s.mod.dev) (by decide) _).mailOnly (by decide) (by decide)
    (Dev.mailOnly_endReq ..), Dev.endReq_pwr ..⟩

/-- Watts that do not fit are answered BAD_ARG. -/
theorem capSet_refuses (hnot : ¬s.mod.dev.limitFits (fieldAt r.payload 0 2)) : ∃ s', exec .capSet s = .next s' ∧
    s.onlyAnswers s' r mbBadArg [] :=
  ⟨_, capSet_of_not_fits h hnot, onlyAnswers_endReq ..⟩

end CapSet

/-! ## What a unit's indicator shows (Table 16.12) -/

/-- The indicator depends on the unit's LOCATE, its latch and its state. -/
theorem shownState_congr {d d' : Dev} {u : Nat} (hlocate : kfind d'.hw.locate u = kfind d.hw.locate u) (hlatch : d'.hw.latch = d.hw.latch)
    (htier : d'.tier = d.tier) : shownState d' u = shownState d u := by
  rw [shownState, shownState, latchOpen, latchOpen, slotSt, slotSt, hlocate, hlatch, htier]

theorem shownState_of_locate {d : Dev} {u t : Nat} (h : kfind d.hw.locate u = some t) : shownState d u = 6 := by
  rw [shownState, h]
  rfl

theorem shownState_of_no_locate {d : Dev} {u : Nat} (h : kfind d.hw.locate u = none) :
    shownState d u = if latchOpen d u then 7 else slotStateNo (slotSt d u) := by
  rw [shownState, h]
  rfl

/-! ## The effecters (R593) -/

theorem State.changesOnly.mgmt {s : State} {d : Dev} {ps : List Part} (h : s.changesOnly (s.withDev d) ps) (hp : Part.hw ∈ ps)
    (type : Nat) (b : List Byte) : s.changesOnly (s.withDev (d.mgmt type b)) ps := h.onHw hp _

/-- A unit shows LOCATE for the next 60 s. -/
def Dev.locate (d : Dev) (u : Nat) : Dev := d.onHw fun h => { h with locate := kput h.locate u (d.nowNs + 60000000000) }

/-- A unit shows LOCATE no more. -/
def Dev.locateOver (d : Dev) (u : Nat) : Dev := d.onHw fun h => { h with locate := kdel h.locate u }

theorem kfind_locate_self (d : Dev) (u : Nat) : kfind (d.locate u).hw.locate u = some (d.nowNs + 60000000000) :=
  (kfind_kput ..).trans (if_pos rfl)

theorem kfind_locate_ne (d : Dev) {u v : Nat} (h : v ≠ u) : kfind (d.locate u).hw.locate v = kfind d.hw.locate v :=
  (kfind_kput ..).trans (if_neg h.symm)

theorem kfind_locateOver_self (d : Dev) (u : Nat) : kfind (d.locateOver u).hw.locate u = none := (kfind_kdel ..).trans (if_pos rfl)

section Effecters

variable {s : State} (hstage : 1 ∈ s.mod.dev.pwr.stages) (hrun : s.mod.dev.fw.run = true) (hsched : schedUp s.mod.dev = true)
include hstage hrun hsched

theorem powerLimitEffecter_of_fits {w : BitVec 16} (hfits : s.mod.dev.limitFits w.toNat) :
    exec (.powerLimitEffecter w) s = .next (s.withDev ((s.mod.dev.limitTo w.toNat).mgmt 1 [0x00])) := by
  have hexec : exec (.powerLimitEffecter w) s = execPowerLimitEffecter w s := rfl
  rw [hexec, execPowerLimitEffecter, onDev_eq]
  simp only [List.contains_iff_mem.2 hstage, hrun, hsched, setLimit_of_fits hfits, Bool.not_true, Bool.and_false, Bool.or_self,
    Bool.false_eq_true, if_false]
  rfl

theorem powerLimitEffecter_of_not_fits {w : BitVec 16} (hnot : ¬s.mod.dev.limitFits w.toNat) :
    exec (.powerLimitEffecter w) s = .next (s.withDev (s.mod.dev.mgmt 1 [BitVec.ofNat 8 mbBadArg])) := by
  have hexec : exec (.powerLimitEffecter w) s = execPowerLimitEffecter w s := rfl
  rw [hexec, execPowerLimitEffecter, onDev_eq]
  simp only [List.contains_iff_mem.2 hstage, hrun, hsched, setLimit_of_not_fits hnot, Bool.not_true, Bool.and_false, Bool.or_self,
    Bool.false_eq_true, if_false]

theorem locateEffecter_eq (u : Fin 20) : exec (.locateEffecter u) s = .next (s.withDev ((s.mod.dev.locate u).mgmt 1 [0x00])) := by
  have hexec : exec (.locateEffecter u) s = execLocateEffecter u s := rfl
  rw [hexec, execLocateEffecter, onDev_eq]
  simp only [List.contains_iff_mem.2 hstage, hrun, hsched, Bool.not_true, Bool.and_false, Bool.or_self, Bool.false_eq_true, if_false]
  rfl

end Effecters

theorem locateExpiry_eq (s : State) (u : Fin 20) : exec (.locateExpiry u) s = .next (s.withDev (s.mod.dev.locateOver u)) := rfl

/-- Settles O54: by one rule for each command and outcome, and what each leaves of the indicators. -/
theorem effectersActAsR593Says : Obligations.EffectersActAsR593Says := by
  unfold Obligations.EffectersActAsR593Says
  intro s hstage hrun hsched d
  refine ⟨fun w => ⟨fun hlow hhigh => ?limit, fun hout => ?refused⟩, fun r h => ⟨fun hlow hhigh => capSet_sets_limit h ⟨hlow, hhigh⟩,
    fun hout => capSet_refuses h (Dev.not_limitFits hout)⟩, fun u => ?locate, fun u => ?expiry⟩
  case limit =>
    exact ⟨_, _, powerLimitEffecter_of_fits hstage hrun hsched ⟨hlow, hhigh⟩,
      ((s.changesOnly_refl _).onPwr (d := d) (by decide) _).mgmt (by decide) .., rfl, rfl⟩
  case refused =>
    exact ⟨_, powerLimitEffecter_of_not_fits hstage hrun hsched (Dev.not_limitFits hout),
      (s.changesOnly_refl _).mgmt (d := d) (by decide) .., rfl⟩
  case locate =>
    exact ⟨_, locateEffecter_eq hstage hrun hsched u, ((s.changesOnly_refl _).onHw (d := d) (by decide) _).mgmt (by decide) ..,
      shownState_of_locate (kfind_locate_self d u), kfind_locate_self d u,
      fun v hne => shownState_congr (kfind_locate_ne d hne) rfl rfl⟩
  case expiry =>
    exact ⟨_, locateExpiry_eq s u, (s.changesOnly_refl _).onHw (d := d) (by decide) _, rfl,
      shownState_of_no_locate (kfind_locateOver_self d u)⟩

end Sys2Proof.Machine
end

section
/-!
PROOF. The management bus (R591, R592, R594) and counter snapshots (R603, R607): one rule for each command and outcome.
-/

namespace Sys2Proof.Machine

/-! ## Control and PLDM requests (R591, R592) -/

theorem mctpControl_before_stage {s : State} (hstage : 1 ∉ s.mod.dev.pwr.stages) (req : List Byte) :
    exec (.mctpControl req) s = .next s := by
  have hexec : exec (.mctpControl req) s = execMctpControl req s := rfl
  have hnot : s.mod.dev.pwr.stages.contains 1 = false := by simpa using hstage
  rw [hexec, execMctpControl, onDev_eq]
  simp only [hnot, Bool.not_false, if_true]

theorem pldmRequest_before_stage {s : State} (hstage : 1 ∉ s.mod.dev.pwr.stages) (req : List Byte) :
    exec (.pldmRequest req) s = .next s := by
  have hexec : exec (.pldmRequest req) s = execPldmRequest req s := rfl
  have hnot : s.mod.dev.pwr.stages.contains 1 = false := by simpa using hstage
  rw [hexec, execPldmRequest, onDev_eq]
  simp only [hnot, Bool.not_false, Bool.true_or, if_true]

section Requests

variable {s : State} (hstage : 1 ∈ s.mod.dev.pwr.stages)
include hstage

/-- A control command that is not supported is answered with ERROR_UNSUPPORTED_CMD. -/
theorem mctpControl_of_unknown {req : List Byte} (hcmd : fieldAt req 1 1 = 0 ∨ 5 < fieldAt req 1 1) : exec (.mctpControl req) s =
    .next (s.withDev (s.mod.dev.mgmt 0 (leBytes 1 (fieldAt req 0 1) ++ leBytes 1 (fieldAt req 1 1) ++ [0x05]))) := by
  have hexec : exec (.mctpControl req) s = execMctpControl req s := rfl
  rw [hexec, execMctpControl, onDev_eq]
  simp only [List.contains_iff_mem.2 hstage, hcmd, Bool.not_true, Bool.false_eq_true, if_false, if_true]
  rfl

/-- A control command that is supported is answered; Set Endpoint ID sets the endpoint id. -/
theorem mctpControl_of_known {req : List Byte} (hlow : 1 ≤ fieldAt req 1 1) (hhigh : fieldAt req 1 1 ≤ 5) : ∃ b,
    exec (.mctpControl req) s = .next (s.withDev ((s.mod.dev.onHw fun h =>
      { h with eid := if fieldAt req 1 1 = 1 then fieldAt req 3 1 else h.eid }).mgmt 0 b)) := by
  have hexec : exec (.mctpControl req) s = execMctpControl req s := rfl
  have hcmd : ¬(fieldAt req 1 1 = 0 ∨ 5 < fieldAt req 1 1) := by omega
  rw [hexec, execMctpControl, onDev_eq]
  simp only [List.contains_iff_mem.2 hstage, hcmd, Bool.not_true, Bool.false_eq_true, if_false]
  split <;> exact ⟨_, rfl⟩

/-- Type 2 commands are not ready until loaded firmware runs. -/
theorem pldmRequest_of_not_ready {req : List Byte} (hrun : s.mod.dev.fw.run = false) (htype : fieldAt req 1 1 % 64 = 2) :
    exec (.pldmRequest req) s = .next (s.withDev (s.mod.dev.mgmt 1 (pldmHead req 4))) := by
  have hexec : exec (.pldmRequest req) s = execPldmRequest req s := rfl
  rw [hexec, execPldmRequest, onDev_eq]
  simp only [List.contains_iff_mem.2 hstage, hrun, htype, Bool.not_true, Bool.false_and, Bool.or_self, Bool.false_eq_true, and_self,
    if_false, if_true]

section Loaded

variable {req : List Byte} (hrun : s.mod.dev.fw.run = true) (hsched : schedUp s.mod.dev = true)
include hrun hsched

theorem pldmRequest_of_unknown (hcmd : pldmKnown (fieldAt req 1 1 % 64) (fieldAt req 2 1) = false) :
    exec (.pldmRequest req) s = .next (s.withDev (s.mod.dev.mgmt 1 (pldmHead req 5))) := by
  have hexec : exec (.pldmRequest req) s = execPldmRequest req s := rfl
  rw [hexec, execPldmRequest, onDev_eq]
  simp only [List.contains_iff_mem.2 hstage, hrun, hsched, hcmd, Bool.not_true, Bool.not_false, Bool.and_false, Bool.or_self,
    Bool.false_eq_true, Bool.true_eq_false, and_false, if_false, if_true]

/-- PollForPlatformEventMessage takes the oldest event queued. -/
theorem pldmRequest_of_poll (htype : fieldAt req 1 1 % 64 = 2) (hcmd : fieldAt req 2 1 = 0x0B) (hnone : s.mod.dev.hw.receiver = none) :
    ∃ b, exec (.pldmRequest req) s = .next (s.withDev ((s.mod.dev.onHw fun h => { h with events := h.events.tail }).mgmt 1 b)) := by
  have hexec : exec (.pldmRequest req) s = execPldmRequest req s := rfl
  have hknown : pldmKnown 2 0x0B = true := rfl
  rw [hexec, execPldmRequest, onDev_eq]
  simp only [List.contains_iff_mem.2 hstage, hrun, hsched, htype, hcmd, hnone, hknown, Bool.not_true, Bool.and_false, Bool.or_self,
    Bool.false_eq_true, Bool.true_eq_false, and_false, if_false, if_true, OfNat.ofNat_ne_zero, Nat.reduceEqDiff, and_true]
  exact ⟨_, rfl⟩

end Loaded

end Requests

/-! ## Platform events (R594) -/

/-- A sensor's band or state is noted as reported. -/
def Dev.noteBand (d : Dev) (sensor st : Nat) : Dev := d.onHw fun h => { h with bands := kset 0 h.bands sensor st }

/-- An event is queued. -/
def Dev.queueEvent (d : Dev) (e : PlatEvent) : Dev := d.onHw fun h => { h with events := h.events ++ [e] }

section PlatformEvent

variable {s : State} {sensor : BitVec 8} {value st : Nat} (hst : sensorState s.mod.dev sensor.toNat value = some st)
include hst

theorem platformEventMessage_of_same (hsame : kget 0 s.mod.dev.hw.bands sensor.toNat = st) :
    exec (.platformEventMessage sensor value) s = .next s := by
  have hexec : exec (.platformEventMessage sensor value) s = execPlatformEventMessage sensor value s := rfl
  rw [hexec, execPlatformEventMessage, onDev_eq]
  simp only [hst, hsame, BEq.rfl, Bool.or_true, if_true]

variable (hrun : s.mod.dev.fw.run = true) (hsched : schedUp s.mod.dev = true) (hnew : kget 0 s.mod.dev.hw.bands sensor.toNat ≠ st)
include hrun hsched hnew

theorem platformEventMessage_of_receiver {r : Nat} (hrec : s.mod.dev.hw.receiver = some r) : ∃ b,
    exec (.platformEventMessage sensor value) s = .next (s.withDev
      (((s.mod.dev.noteBand sensor.toNat st).queueEvent ⟨sensor.toNat, st, value⟩).mgmt 1 b)) := by
  have hexec : exec (.platformEventMessage sensor value) s = execPlatformEventMessage sensor value s := rfl
  rw [hexec, execPlatformEventMessage, onDev_eq]
  simp only [hst, hrun, hsched, beq_false_of_ne hnew, Dev.onHw_hw, hrec, Option.isSome_some, Bool.not_true, Bool.or_self,
    Bool.false_eq_true, if_false, if_true]
  exact ⟨_, rfl⟩

variable (hnone : s.mod.dev.hw.receiver = none)
include hnone

theorem platformEventMessage_of_room (hroom : s.mod.dev.hw.events.length < 64) :
    exec (.platformEventMessage sensor value) s = .next (s.withDev
      ((s.mod.dev.noteBand sensor.toNat st).queueEvent ⟨sensor.toNat, st, value⟩)) := by
  have hexec : exec (.platformEventMessage sensor value) s = execPlatformEventMessage sensor value s := rfl
  rw [hexec, execPlatformEventMessage, onDev_eq]
  simp only [hst, hrun, hsched, beq_false_of_ne hnew, Dev.onHw_hw, hnone, Option.isSome_none, Bool.not_true, Bool.or_self,
    Bool.false_eq_true, if_false]
  cases hevents : s.mod.dev.hw.events with
  | nil => simp only [Dev.queueEvent, Dev.noteBand, Dev.onHw, hevents, List.nil_append]
  | cons x l =>
    rw [hevents, List.length_cons] at hroom
    simp only [if_pos hroom, Dev.queueEvent, Dev.noteBand, Dev.onHw, hevents]

/-- A full queue drops its oldest event. -/
theorem platformEventMessage_of_full {x : PlatEvent} {l : List PlatEvent} (hevents : s.mod.dev.hw.events = x :: l) (hfull : 63 ≤ l.length) :
    exec (.platformEventMessage sensor value) s = .next (s.withDev
      (((s.mod.dev.noteBand sensor.toNat st).onHw fun h => { h with events := l ++ [⟨sensor.toNat, st, value⟩] }).raise evPldmEventDrop
        { n := x.sensor })) := by
  have hexec : exec (.platformEventMessage sensor value) s = execPlatformEventMessage sensor value s := rfl
  have hlong : ¬l.length + 1 < 64 := by omega
  rw [hexec, execPlatformEventMessage, onDev_eq]
  simp only [hst, hrun, hsched, beq_false_of_ne hnew, Dev.onHw_hw, hnone, hevents, hlong, Option.isSome_none, Bool.not_true, Bool.or_self,
    Bool.false_eq_true, if_false]
  rfl

end PlatformEvent

theorem eventReceiverAck_of_receiver {s : State} {r : Nat} (hrec : s.mod.dev.hw.receiver = some r) :
    exec .eventReceiverAck s = .next (s.withDev (s.mod.dev.onHw fun h => { h with events := h.events.tail })) := by
  have hexec : exec .eventReceiverAck s = execEventReceiverAck s := rfl
  rw [hexec, execEventReceiverAck, onDev_eq]
  simp only [hrec, Option.isNone_some, Bool.false_eq_true, if_false]

/-! ## Runs of bytes in a map that need not be canonical -/

theorem filter_filter_of_imp {α : Type} {p q : α → Bool} (l : List α) (h : ∀ e, p e = true → q e = true) :
    (l.filter q).filter p = l.filter p := by
  rw [List.filter_filter]
  exact List.filter_congr fun e _ => Bool.and_eq_left_iff_imp.2 (h e)

theorem filter_filter_of_disjoint {α : Type} {p q : α → Bool} (l : List α) (h : ∀ e, p e = true → q e = false) :
    (l.filter q).filter p = [] := by
  rw [List.filter_filter]
  exact List.filter_eq_nil_iff.2 fun e _ => by cases hp : p e <;> simp [h e, hp]

/-- A run depends on what the map lists within it. -/
theorem readRun_congr {m m' : KMap Byte} {b n : Nat}
    (h : (m.filter fun e => b ≤ e.1 ∧ e.1 < b + n) = m'.filter fun e => b ≤ e.1 ∧ e.1 < b + n) : readRun m b n = readRun m' b n := by
  rw [readRun, readRun, h]

/-- A write leaves the bytes that lie apart from it. -/
theorem readRun_writeRun_outside (m : KMap Byte) (a b n : Nat) (bs : List Byte) (h : b + n ≤ a ∨ a + bs.length ≤ b) :
    readRun (writeRun m a bs) b n = readRun m b n := by
  have hcells : (writeRun.runCells a bs).filter (fun e => b ≤ e.1 ∧ e.1 < b + n) = [] :=
    List.filter_eq_nil_iff.2 fun e he => by have := mem_runCells he; simp only [decide_eq_true_eq]; omega
  apply readRun_congr
  rw [writeRun, List.filter_append, List.filter_append, hcells, List.append_nil]
  rcases h with hbelow | habove
  · rw [filter_filter_of_imp m fun e he => by simp at he ⊢; omega, filter_filter_of_disjoint m fun e he => by simp at he ⊢; omega,
      List.append_nil]
  · rw [filter_filter_of_disjoint m fun e he => by simp at he ⊢; omega, filter_filter_of_imp m fun e he => by simp at he ⊢; omega,
      List.nil_append]

/-- What is written is what is read, up to where it ends. -/
theorem readRun_writeRun_take (m : KMap Byte) (a : Nat) {n : Nat} {bs : List Byte} (h : n ≤ bs.length) :
    readRun (writeRun m a bs) a n = bs.take n := by
  have halone : readRun (writeRun m a bs) a n = readRun (writeRun [] a bs) a n := by
    apply readRun_congr
    rw [writeRun, writeRun, List.filter_append, List.filter_append, List.filter_append, List.filter_append,
      filter_filter_of_disjoint m fun e he => by simp at he ⊢; omega, filter_filter_of_disjoint m fun e he => by simp at he ⊢; omega]
    rfl
  rw [halone, readRun_eq _ _ (kwf_writeRun a bs rfl)]
  apply List.ext_getElem
  · simp [h]
  · intro i hi _
    simp only [List.length_map, List.length_range] at hi
    simp [kget_writeRun, show i < bs.length by omega]

/-! ## Snapshots (R607) -/

theorem length_snapHeader (b : BaseState) (tick : Nat) : (snapHeader b tick).length = 64 := length_padTo ..

theorem length_counterBytes (b : BaseState) (c : Nat) : (counterBytes b c).length = alignUp 64 (4 * instances c) := length_padTo ..

/-- The bytes of a snapshot. -/
def snapBytes (b : BaseState) (tick : Nat) : List Byte := snapHeader b tick ++ (List.range 69).flatMap (counterBytes b)

/-- A snapshot is 404,672 bytes. -/
theorem length_snapBytes (b : BaseState) (tick : Nat) : (snapBytes b tick).length = 404672 := by
  rw [snapBytes, List.length_append, length_snapHeader, List.length_flatMap, funext (length_counterBytes b)]
  decide

/-- The end of a management tick is counted. -/
def Dev.nextTick (d : Dev) : Dev := d.onPwr fun p => { p with ticks := p.ticks + 1 }

section Snapshot

variable {s : State} (hstop : s.mod.dev.stopped = false)
include hstop

theorem evtSnapshot_of_disabled (hoff : s.mod.dev.base.lockAll = false ∨ cfgEvtSnapBaseEn s.mod.dev.base = 0 ∨
    inHotSoft s.mod.dev.base s.mod.dev.tier (cfgEvtSnapBaseBase s.mod.dev.base * 0x100000) 0x100000 = false) :
    exec .evtSnapshot s = .next (s.withDev s.mod.dev.nextTick) := by
  have hexec : exec .evtSnapshot s = execEvtSnapshot s := rfl
  have hnone : (!s.mod.dev.base.lockAll || decide (cfgEvtSnapBaseEn s.mod.dev.base = 0) ||
      !inHotSoft s.mod.dev.base s.mod.dev.tier (cfgEvtSnapBaseBase s.mod.dev.base * 0x100000) 0x100000) = true := by
    simpa only [Bool.or_eq_true, Bool.not_eq_true', decide_eq_true_eq, or_assoc] using hoff
  rw [hexec, execEvtSnapshot, onPlane_eq _ _ hstop]
  exact congrArg s.leaves (if_pos hnone)

/-- A snapshot is stored in the half of the area that the tick's number names. -/
theorem evtSnapshot_of_enabled (hlock : s.mod.dev.base.lockAll = true) (hen : cfgEvtSnapBaseEn s.mod.dev.base = 1)
    (hsoft : inHotSoft s.mod.dev.base s.mod.dev.tier (cfgEvtSnapBaseBase s.mod.dev.base * 0x100000) 0x100000 = true)
    (hlost : s.mod.dev.tier.softLost = []) :
    exec .evtSnapshot s = s.leaves ⟨writeRun s.mod.mem
      (cfgEvtSnapBaseBase s.mod.dev.base * 0x100000 + (s.mod.dev.pwr.ticks + 1) % 2 * 0x80000)
      (snapBytes s.mod.dev.base (s.mod.dev.pwr.ticks + 1)), s.mod.dev.nextTick⟩ := by
  have hexec : exec .evtSnapshot s = execEvtSnapshot s := rfl
  have hkept (da : Nat) : inLostSoft s.mod.dev.nextTick da = false := by
    have htier : s.mod.dev.nextTick.tier.softLost = [] := hlost
    rw [inLostSoft, htier]
    rfl
  have hsome : ¬(!s.mod.dev.base.lockAll || decide (cfgEvtSnapBaseEn s.mod.dev.base = 0) ||
      !inHotSoft s.mod.dev.base s.mod.dev.tier (cfgEvtSnapBaseBase s.mod.dev.base * 0x100000) 0x100000) = true := by
    simp [hlock, hen, hsoft]
  rw [hexec, execEvtSnapshot, onPlane_eq _ _ hstop]
  exact congrArg s.leaves ((if_neg hsome).trans (if_neg (Bool.not_eq_true _ ▸ hkept _)))

end Snapshot

/-- Settles O55: by one rule for each command and outcome, and what a snapshot leaves of memory. -/
theorem managementBusAndSnapshots : Obligations.ManagementBusAndSnapshots := by
  unfold Obligations.ManagementBusAndSnapshots
  intro s m d
  have hhw : s.changesOnly (s.withDev d) [.hw] := s.changesOnly_refl _
  refine ⟨fun hstage => ⟨mctpControl_before_stage hstage, pldmRequest_before_stage hstage⟩,
    fun req hstage => ⟨fun hcmd => ⟨_, mctpControl_of_unknown hstage hcmd, hhw.mgmt (by decide) .., rfl⟩, fun hlow hhigh => ?control⟩,
    fun req hstage hrun htype => ⟨_, pldmRequest_of_not_ready hstage hrun htype, hhw.mgmt (by decide) .., rfl⟩,
    fun req hstage hrun hsched hcmd => ⟨_, pldmRequest_of_unknown hstage hrun hsched hcmd, hhw.mgmt (by decide) .., rfl⟩,
    fun req hstage hrun hsched htype hcmd hnone => ?poll,
    fun sensor value st hst hrun hsched => ?event,
    fun r hrec => ⟨_, eventReceiverAck_of_receiver hrec, hhw.onHw (by decide) _, rfl⟩, fun hstop => ?tick⟩
  case control =>
    obtain ⟨b, hexec⟩ := mctpControl_of_known hstage hlow hhigh
    exact ⟨_, b, hexec, (hhw.onHw (by decide) _).mgmt (by decide) .., rfl⟩
  case poll =>
    obtain ⟨b, hexec⟩ := pldmRequest_of_poll hstage hrun hsched htype hcmd hnone
    exact ⟨_, b, hexec, (hhw.onHw (by decide) _).mgmt (by decide) .., rfl⟩
  case event =>
    intro e
    refine ⟨platformEventMessage_of_same hst, fun hnew => ⟨fun r hrec => ?sent, fun hnone hroom => ?queued,
      fun x l hnone hevents hfull => ?dropped⟩⟩
    case sent =>
      obtain ⟨b, hexec⟩ := platformEventMessage_of_receiver hst hrun hsched hnew hrec
      refine ⟨_, hexec, ((hhw.onHw (by decide) _).onHw (by decide) _).mgmt (by decide) .., rfl, kget_kset_self .., ?_⟩
      simp [alertLow, Dev.mgmt, Dev.queueEvent]
    case queued =>
      exact ⟨_, platformEventMessage_of_room hst hrun hsched hnew hnone hroom, (hhw.onHw (by decide) _).onHw (by decide) _, rfl⟩
    case dropped =>
      have hall : s.changesOnly (s.withDev d) [.hw, .base, .events] := s.changesOnly_refl _
      exact ⟨_, platformEventMessage_of_full hst hrun hsched hnew hnone hevents hfull,
        ((hall.onHw (by decide) _).onHw (by decide) _).raise (by decide) .., rfl, rfl⟩
  case tick =>
    intro i area
    refine ⟨fun hoff => ⟨_, evtSnapshot_of_disabled hstop hoff, (s.changesOnly_refl _).onPwr (d := d) (by decide) _, rfl⟩,
      fun hlock hen hsoft hlost => ⟨_, evtSnapshot_of_enabled hstop hlock hen hsoft hlost,
        ((s.changesOnly_refl _).onPwr (d := d) (by decide) _).withMem (by decide) _, rfl, ?_, fun a hout => ?_⟩⟩
    · rw [readRun_writeRun_take _ _ (by rw [length_snapBytes]; decide), snapBytes, List.take_left' (length_snapHeader ..)]
    · refine readRun_writeRun_outside _ _ _ _ _ ?_
      rw [length_snapBytes]
      exact hout

end Sys2Proof.Machine
end

section
/-!
PROOF. The capping fraction, the throttle and brown-out (R569 to R571, Tables 15.4, 15.9): one rule for each command and outcome, and what
a capping fraction and a throttle fraction given leave of the module.
-/

namespace Sys2Proof.Machine

/-! ## The next capping fraction (R569) -/

section NextCap

variable {limit mw : Nat} (f : Nat)

theorem nextCap_of_far_over (h : 1000 * (limit + 100) < mw) : nextCap limit f mw = min (f + 2) 56 := if_pos h

theorem nextCap_of_over (h : 1000 * limit < mw) (hnear : mw ≤ 1000 * (limit + 100)) : nextCap limit f mw = min (f + 1) 56 := by
  rw [nextCap, if_neg hnear.not_gt, if_pos h]

theorem nextCap_of_far_under (h : mw + 50000 < 1000 * limit) : nextCap limit f mw = f - 1 := by
  rw [nextCap, if_neg (by omega), if_neg (by omega), if_pos h]

theorem nextCap_of_under (h : mw ≤ 1000 * limit) (hnear : 1000 * limit ≤ mw + 50000) : nextCap limit f mw = f := by
  rw [nextCap, if_neg (by omega), if_neg h.not_gt, if_neg hnear.not_gt]

end NextCap

/-! ## A capping fraction that is given (R569) -/

/-- The capping fraction leaves 0 or returns to it. -/
abbrev capTurns (f f' : Nat) : Prop := (f = 0 ∧ f' ≠ 0) ∨ (f ≠ 0 ∧ f' = 0)

section SetCap

variable (d : Dev) (f : Nat)

theorem setCap_eq : d.setCap f = if capTurns d.pwr.f f then (d.onPwr fun p => { p with f := f }).raise evPwrCapping { n := f }
    else d.onPwr fun p => { p with f := f } := by
  unfold Dev.setCap
  by_cases hold : d.pwr.f = 0 <;> by_cases hnew : f = 0 <;> simp [capTurns, hold, hnew]

theorem pwr_setCap : (d.setCap f).pwr = { d.pwr with f := f } := by
  rw [setCap_eq]
  split <;> rfl

theorem base_setCap : (d.setCap f).base = (if capTurns d.pwr.f f then d.raise evPwrCapping { n := f } else d).base := by
  rw [setCap_eq]
  split <;> rfl

theorem State.changesOnly.setCap {s : State} {d : Dev} {ps : List Part} (h : s.changesOnly (s.withDev d) ps) (hpwr : Part.pwr ∈ ps)
    (hevents : Part.events ∈ ps) (f : Nat) : s.changesOnly (s.withDev (d.setCap f)) ps := by
  rw [setCap_eq]
  split
  · exact (h.onPwr hpwr _).raise hevents ..
  · exact h.onPwr hpwr _

end SetCap

/-! ## POWER_CAP_TICK and FAST_POWER_LIMIT (R569, Table 15.4) -/

/-- The readings of a management tick are taken. -/
def Dev.readPower (d : Dev) (mw vin : Nat) : Dev := d.onPwr fun p => { p with pin := mw / 1000, vin := vin, capTicks := p.capTicks + 1 }

/-- A management tick that ends: its readings, and a count where the module is capped. -/
def Dev.capTick (d : Dev) (mw vin : Nat) : Dev :=
  if 0 < d.pwr.f then (d.readPower mw vin).count cPwrCapTick 0 1 else d.readPower mw vin

section CapTick

variable (d : Dev) (mw vin : Nat)

theorem pwr_capTick : (d.capTick mw vin).pwr = { d.pwr with pin := mw / 1000, vin := vin, capTicks := d.pwr.capTicks + 1 } := by
  unfold Dev.capTick
  split <;> rfl

theorem base_capTick : (d.capTick mw vin).base = (if 0 < d.pwr.f then d.count cPwrCapTick 0 1 else d).base := by
  rw [Dev.capTick, apply_ite Dev.base, apply_ite Dev.base]
  rfl

theorem powerUp_capTick : powerUp (d.capTick mw vin) = powerUp d := by
  unfold Dev.capTick
  split <;> rfl

theorem powerLimit_capTick : powerLimit (d.capTick mw vin) = powerLimit d := by
  have hcfg : cfgPwrCapCfgLimit (d.capTick mw vin).base = cfgPwrCapCfgLimit d.base := by
    rw [base_capTick]
    split <;> rfl
  rw [powerLimit, powerLimit, hcfg, pwr_capTick]

theorem State.changesOnly.capTick {s : State} {d : Dev} {ps : List Part} (h : s.changesOnly (s.withDev d) ps) (hpwr : Part.pwr ∈ ps)
    (hevents : Part.events ∈ ps) (mw vin : Nat) : s.changesOnly (s.withDev (d.capTick mw vin)) ps := by
  unfold Dev.capTick
  split
  · exact (h.onPwr hpwr _).count hevents ..
  · exact h.onPwr hpwr _

end CapTick

section Tick

variable {s : State} (hstop : s.mod.dev.stopped = false)
include hstop

theorem powerCapTick_of_up (mw vin : Nat) (hup : powerUp s.mod.dev = true) : exec (.powerCapTick mw vin) s =
    .next (s.withDev ((s.mod.dev.capTick mw vin).setCap (nextCap (powerLimit s.mod.dev) s.mod.dev.pwr.f mw))) := by
  have hexec : exec (.powerCapTick mw vin) s = onPlaneDev s fun d => if powerUp (d.capTick mw vin) then
    (d.capTick mw vin).setCap (nextCap (powerLimit (d.capTick mw vin)) (d.capTick mw vin).pwr.f mw) else d.capTick mw vin := rfl
  rw [hexec, onPlaneDev_eq _ _ hstop]
  simp only [powerUp_capTick, hup, powerLimit_capTick, pwr_capTick, if_true]

/-- The last rate holds while the power core restarts. -/
theorem powerCapTick_of_down (mw vin : Nat) (hdown : powerUp s.mod.dev = false) :
    exec (.powerCapTick mw vin) s = .next (s.withDev (s.mod.dev.capTick mw vin)) := by
  have hexec : exec (.powerCapTick mw vin) s = onPlaneDev s fun d => if powerUp (d.capTick mw vin) then
    (d.capTick mw vin).setCap (nextCap (powerLimit (d.capTick mw vin)) (d.capTick mw vin).pwr.f mw) else d.capTick mw vin := rfl
  rw [hexec, onPlaneDev_eq _ _ hstop]
  simp only [powerUp_capTick, hdown, Bool.false_eq_true, if_false]

theorem fastPowerLimit_eq : exec .fastPowerLimit s = .next (s.withDev
    ((s.mod.dev.setCap (max s.mod.dev.pwr.f 32)).raise evPwrFastLimit { n := max s.mod.dev.pwr.f 32 })) := by
  have hexec : exec .fastPowerLimit s = execFastPowerLimit s := rfl
  rw [hexec, execFastPowerLimit, onPlaneDev_eq _ _ hstop]

end Tick

/-! ## PWR_STATUS (Table 15.9) -/

/-- A request answered with bytes is all that happens. -/
theorem onlyAnswers_endReq_payload (s : State) (r : MbxReq) (status : Nat) (b : List Byte) :
    s.onlyAnswers (s.withDev (s.mod.dev.endReq r status b)) r status b :=
  ⟨(s.changesOnly_refl _).mailOnly (d := s.mod.dev) (by decide) (by decide) (Dev.mailOnly_endReq ..), rfl⟩

theorem pwrStatus_eq {s : State} {r : MbxReq} (h : s.roleTakes 1 0x0B01 r) : ∃ b, b.length = 240 ∧
    exec .pwrStatus s = .next (s.withDev (s.mod.dev.endReq r mbOk b)) := by
  have hexec : exec .pwrStatus s = execPwrStatus s := rfl
  rw [hexec, execPwrStatus, onRole_eq h]
  exact ⟨_, length_padTo .., rfl⟩

/-! ## The throttle (R570) -/

section NextThrottle

variable {throttle temp : Nat} (t : Nat)

theorem nextThrottle_of_hot (h : throttle ≤ temp) : nextThrottle throttle t temp = min (t + 1) 56 := if_pos h

theorem nextThrottle_of_cool (h : temp + 3 < throttle) : nextThrottle throttle t temp = t - 1 := by
  rw [nextThrottle, if_neg (by omega), if_pos h]

theorem nextThrottle_of_near (h : temp < throttle) (hnear : throttle ≤ temp + 3) : nextThrottle throttle t temp = t := by
  rw [nextThrottle, if_neg h.not_ge, if_neg hnear.not_gt]

end NextThrottle

/-- The throttle fraction that a die takes at a tick. -/
def Dev.throttleOf (d : Dev) (die : Nat) : Nat :=
  nextThrottle (cfgPwrThermCfgThrottle d.base) (kget 0 d.pwr.t die) (kget 0 d.pwr.temps die)

theorem throttle_raise (d : Dev) (ev : Nat × Nat) (a : Args) (die unit : Nat) :
    cfgPwrThermCfgThrottle (d.raise ev a die unit).base = cfgPwrThermCfgThrottle d.base := by
  rw [cfgPwrThermCfgThrottle, cfgPwrThermCfgThrottle, regField, regField, regForce_raise]

/-- `d'` is `d` but for throttle fractions, events and counters; what the registers put in force is the same. -/
def Dev.throttleOnly (d d' : Dev) : Prop :=
  (∃ t, d'.pwr = { d.pwr with t := t }) ∧ cfgPwrThermCfgThrottle d'.base = cfgPwrThermCfgThrottle d.base

section ThrottleDie

variable (d : Dev) (die : Nat)

theorem throttleDie_throttleOnly : d.throttleOnly (throttleDie d die) := by
  unfold throttleDie
  dsimp only
  split
  · exact ⟨⟨_, rfl⟩, rfl⟩
  · exact ⟨⟨_, rfl⟩, throttle_raise ..⟩

theorem t_throttleDie : (throttleDie d die).pwr.t = kset 0 d.pwr.t die (d.throttleOf die) := by
  unfold throttleDie
  dsimp only
  split <;> rfl

theorem State.changesOnly.throttleDie {s : State} {d : Dev} {ps : List Part} (h : s.changesOnly (s.withDev d) ps) (hpwr : Part.pwr ∈ ps)
    (hevents : Part.events ∈ ps) (die : Nat) : s.changesOnly (s.withDev (Machine.throttleDie d die)) ps := by
  unfold Machine.throttleDie
  dsimp only
  split
  · exact h.onPwr hpwr _
  · exact (h.onPwr hpwr _).raise hevents ..

end ThrottleDie

section ThrottleDies

variable (l : List Nat)

theorem throttleDies_throttleOnly (d : Dev) : d.throttleOnly (l.foldl throttleDie d) := by
  induction l generalizing d with
  | nil => exact ⟨⟨_, rfl⟩, rfl⟩
  | cons die l ih =>
    obtain ⟨⟨t, hpwr⟩, hcfg⟩ := throttleDie_throttleOnly d die
    obtain ⟨⟨t', hpwr'⟩, hcfg'⟩ := ih (throttleDie d die)
    exact ⟨⟨t', hpwr'.trans (by rw [hpwr])⟩, hcfg'.trans hcfg⟩

/-- Each die that is throttled takes its own next fraction, whatever is done to the others. -/
theorem t_throttleDies (hl : l.Nodup) (d : Dev) (i : Nat) :
    kget 0 (l.foldl throttleDie d).pwr.t i = if i ∈ l then d.throttleOf i else kget 0 d.pwr.t i := by
  induction l generalizing d with
  | nil => rfl
  | cons die l ih =>
    obtain ⟨hnot, hl⟩ := List.nodup_cons.1 hl
    obtain ⟨⟨t, hpwr⟩, hcfg⟩ := throttleDie_throttleOnly d die
    have ht := t_throttleDie d die
    rw [List.foldl_cons, ih hl]
    by_cases hi : i = die
    · subst hi
      rw [if_neg hnot, if_pos List.mem_cons_self, ht, kget_kset_self]
    · have hsame : (throttleDie d die).throttleOf i = d.throttleOf i := by
        rw [Dev.throttleOf, Dev.throttleOf, hcfg, ht, kget_kset_ne _ _ _ (Ne.symm hi), hpwr]
      simp only [List.mem_cons, hi, false_or, hsame, ht, kget_kset_ne _ _ _ (Ne.symm hi)]

theorem State.changesOnly.throttleDies {s : State} {d : Dev} {ps : List Part} (h : s.changesOnly (s.withDev d) ps)
    (hpwr : Part.pwr ∈ ps) (hevents : Part.events ∈ ps) : s.changesOnly (s.withDev (l.foldl Machine.throttleDie d)) ps := by
  induction l generalizing d with
  | nil => exact h
  | cons die l ih => exact ih (h.throttleDie hpwr hevents die)

end ThrottleDies

/-! ## THERMAL_THROTTLE_TICK (R570, Table 15.4) -/

/-- Values given one after the other to numbers that follow each other. -/
theorem kget_foldl_zipIdx (l : List Nat) (n : Nat) (k : KMap Nat) (i : Nat) :
    kget 0 ((l.zipIdx n).foldl (fun k x => kset 0 k x.2 x.1) k) i = if n ≤ i ∧ i < n + l.length then nth 0 l (i - n) else kget 0 k i := by
  induction l generalizing n k with
  | nil => rw [if_neg (by simp)]; rfl
  | cons v l ih =>
    rw [List.zipIdx_cons, List.foldl_cons, ih, kget_kset]
    rcases Nat.lt_trichotomy i n with hlt | rfl | hgt
    · rw [if_neg (by omega), if_neg (by omega), if_neg (by omega)]
    · rw [if_neg (by omega), if_pos rfl, if_pos (by simp), Nat.sub_self]
      rfl
    · have hidx : i - n = (i - (n + 1)) + 1 := by omega
      rw [hidx, nth, if_neg hgt.ne]
      exact if_congr (by simp only [List.length_cons]; omega) rfl rfl

/-- The junctions of a management tick are read. -/
def Dev.readTemps (d : Dev) (temps : List Nat) : Dev :=
  d.onPwr fun p => { p with temps := (temps.take 9).zipIdx.foldl (fun k x => kset 0 k x.2 x.1) p.temps }

/-- A tick's junctions are read, and the tick is counted where a die is throttled. -/
def Dev.thermTick (d : Dev) (temps : List Nat) : Dev :=
  if d.pwr.t ≠ [] then (d.readTemps temps).count cThermThrottleTick 0 1 else d.readTemps temps

/-- The field dies at THROTTLE + 5 °C or above are noted. -/
def Dev.noteHottest (d : Dev) : Dev :=
  d.onPwr fun p => { p with hotDies := (List.range 4).filter fun k => cfgPwrThermCfgThrottle d.base + 5 ≤ kget 0 p.temps k }

/-- The field dies are throttled, and the hottest of them noted. -/
def Dev.throttled (d : Dev) : Dev := ((List.range 4).foldl throttleDie d).noteHottest

section ThermTick

variable (d : Dev) (temps : List Nat)

theorem pwr_thermTick : (d.thermTick temps).pwr = { d.pwr with
    temps := (temps.take 9).zipIdx.foldl (fun k x => kset 0 k x.2 x.1) d.pwr.temps } := by
  unfold Dev.thermTick
  split <;> rfl

theorem powerUp_thermTick : powerUp (d.thermTick temps) = powerUp d := by
  unfold Dev.thermTick
  split <;> rfl

theorem throttle_thermTick : cfgPwrThermCfgThrottle (d.thermTick temps).base = cfgPwrThermCfgThrottle d.base := by
  unfold Dev.thermTick
  split <;> rfl

theorem State.changesOnly.thermTick {s : State} {d : Dev} {ps : List Part} (h : s.changesOnly (s.withDev d) ps) (hpwr : Part.pwr ∈ ps)
    (hevents : Part.events ∈ ps) (temps : List Nat) : s.changesOnly (s.withDev (d.thermTick temps)) ps := by
  unfold Dev.thermTick
  split
  · exact (h.onPwr hpwr _).count hevents ..
  · exact h.onPwr hpwr _

theorem State.changesOnly.throttled {s : State} {d : Dev} {ps : List Part} (h : s.changesOnly (s.withDev d) ps) (hpwr : Part.pwr ∈ ps)
    (hevents : Part.events ∈ ps) : s.changesOnly (s.withDev d.throttled) ps := by
  unfold Dev.throttled Dev.noteHottest
  exact (h.throttleDies _ hpwr hevents).onPwr hpwr _

theorem temp_thermTick {temps : List Nat} (hlen : temps.length = 9) {i : Nat} (hi : i < 9) :
    kget 0 (d.thermTick temps).pwr.temps i = nth 0 temps i := by
  rw [pwr_thermTick, List.take_of_length_le hlen.le]
  dsimp only
  rw [kget_foldl_zipIdx, if_pos (by omega), Nat.sub_zero]

end ThermTick

section Throttled

variable (d : Dev)

theorem t_noteHottest : d.noteHottest.pwr.t = d.pwr.t := rfl

theorem pwr_noteHottest : ∃ hot, d.noteHottest.pwr = { d.pwr with hotDies := hot } := ⟨_, rfl⟩

theorem mem_hotDies_noteHottest {i : Nat} (hi : i < 4) :
    i ∈ d.noteHottest.pwr.hotDies ↔ cfgPwrThermCfgThrottle d.base + 5 ≤ kget 0 d.pwr.temps i := by
  simp [Dev.noteHottest, hi]

/-- Beside the throttle fractions and the hottest dies, power is as it was. -/
theorem pwr_throttled : ∃ t hot, d.throttled.pwr = { d.pwr with t := t, hotDies := hot } := by
  obtain ⟨⟨t, hpwr⟩, -⟩ := throttleDies_throttleOnly (List.range 4) d
  obtain ⟨hot, hnoted⟩ := pwr_noteHottest ((List.range 4).foldl throttleDie d)
  exact ⟨t, hot, by rw [Dev.throttled, hnoted, hpwr]⟩

theorem t_throttled {i : Nat} (hi : i < 4) : kget 0 d.throttled.pwr.t i = d.throttleOf i := by
  rw [Dev.throttled, t_noteHottest, t_throttleDies _ List.nodup_range, if_pos (List.mem_range.2 hi)]

theorem mem_hotDies_throttled {i : Nat} (hi : i < 4) :
    i ∈ d.throttled.pwr.hotDies ↔ cfgPwrThermCfgThrottle d.base + 5 ≤ kget 0 d.pwr.temps i := by
  obtain ⟨⟨t, hpwr⟩, hcfg⟩ := throttleDies_throttleOnly (List.range 4) d
  rw [Dev.throttled, mem_hotDies_noteHottest _ hi, hcfg, hpwr]

end Throttled

theorem thermalThrottleTick_of_up {s : State} (hstop : s.mod.dev.stopped = false) (hup : powerUp s.mod.dev = true) (temps : List Nat) :
    exec (.thermalThrottleTick temps) s = .next (s.withDev (s.mod.dev.thermTick temps).throttled) := by
  have hexec : exec (.thermalThrottleTick temps) s = onPlaneDev s fun d => if !powerUp (d.thermTick temps) then d.thermTick temps
    else (d.thermTick temps).throttled := rfl
  rw [hexec, onPlaneDev_eq _ _ hstop]
  simp only [powerUp_thermTick, hup, Bool.not_true, Bool.false_eq_true, if_false]

/-! ## Stacks and brown-out (R571, Table 15.4) -/

/-- A stack's sensor is read. -/
def Dev.readStack (d : Dev) (stack temp : Nat) : Dev := d.onPwr fun p => { p with
  stackTemps := kset 0 p.stackTemps stack temp
  hotStacks := (p.hotStacks.filter fun x => x ≠ stack) ++ (if 95 ≤ temp then [stack] else []) }

theorem mem_hotStacks_self (d : Dev) (stack temp : Nat) : stack ∈ (d.readStack stack temp).pwr.hotStacks ↔ 95 ≤ temp := by
  rw [Dev.readStack, Dev.onPwr_pwr]
  by_cases h : 95 ≤ temp <;> simp [h]

theorem mem_hotStacks_ne (d : Dev) {stack k : Nat} (temp : Nat) (hne : k ≠ stack) :
    k ∈ (d.readStack stack temp).pwr.hotStacks ↔ k ∈ d.pwr.hotStacks := by
  rw [Dev.readStack, Dev.onPwr_pwr]
  by_cases h : 95 ≤ temp <;> simp [h, hne]

/-- Brown-out begins. -/
def Dev.brownIn (d : Dev) (vin : Nat) : Dev :=
  ((d.onPwr fun p => { p with brown := true, vin := vin }).raise evBrownoutEnter { n := vin }).count cBrownout 0 1

/-- Brown-out ends. -/
def Dev.brownOut (d : Dev) (vin : Nat) : Dev := (d.onPwr fun p => { p with brown := false, vin := vin }).raise evBrownoutExit { n := vin }

section Brownout

variable {s : State} {vin : Nat} (hstop : s.mod.dev.stopped = false)
include hstop

theorem hbmStackHot_eq (stack : Fin 12) (temp : Nat) :
    exec (.hbmStackHot stack temp) s = .next (s.withDev (s.mod.dev.readStack stack temp)) := by
  have hexec : exec (.hbmStackHot stack temp) s = onPlaneDev s fun d => d.readStack stack temp := rfl
  rw [hexec, onPlaneDev_eq _ _ hstop]

theorem brownoutEnter_of_low (hbrown : s.mod.dev.pwr.brown = false) (hlow : vin < cfgPwrVoltCfgBrownv s.mod.dev.base) :
    exec (.brownoutEnter vin) s = .next (s.withDev (s.mod.dev.brownIn vin)) := by
  have hexec : exec (.brownoutEnter vin) s = execBrownoutEnter vin s := rfl
  rw [hexec, execBrownoutEnter, onPlaneDev_eq _ _ hstop]
  simp only [hbrown, hlow.not_ge, Bool.false_eq_true, or_self, if_false]
  rfl

theorem brownoutEnter_of_no_change (h : s.mod.dev.pwr.brown = true ∨ cfgPwrVoltCfgBrownv s.mod.dev.base ≤ vin) :
    exec (.brownoutEnter vin) s = .next s := by
  have hexec : exec (.brownoutEnter vin) s = execBrownoutEnter vin s := rfl
  rw [hexec, execBrownoutEnter, onPlaneDev_eq _ _ hstop]
  simp only [h, if_true]

theorem brownoutExit_of_high (hbrown : s.mod.dev.pwr.brown = true) (hhigh : cfgPwrVoltCfgBrownv s.mod.dev.base + 10 ≤ vin) :
    exec (.brownoutExit vin) s = .next (s.withDev (s.mod.dev.brownOut vin)) := by
  have hexec : exec (.brownoutExit vin) s = execBrownoutExit vin s := rfl
  rw [hexec, execBrownoutExit, onPlaneDev_eq _ _ hstop]
  simp only [hbrown, hhigh.not_gt, Bool.not_true, Bool.false_eq_true, or_self, if_false]
  rfl

theorem brownoutExit_of_no_change (h : s.mod.dev.pwr.brown = false ∨ vin < cfgPwrVoltCfgBrownv s.mod.dev.base + 10) :
    exec (.brownoutExit vin) s = .next s := by
  have hexec : exec (.brownoutExit vin) s = execBrownoutExit vin s := rfl
  have h' : (!s.mod.dev.pwr.brown) = true ∨ vin < cfgPwrVoltCfgBrownv s.mod.dev.base + 10 := by simpa using h
  rw [hexec, execBrownoutExit, onPlaneDev_eq _ _ hstop]
  simp only [h', if_true]

end Brownout

/-- Settles O49: by one rule for each command and outcome, and what ticks leave of the fractions. -/
theorem powerAndHeatAreHeldBack : Obligations.PowerAndHeatAreHeldBack := by
  unfold Obligations.PowerAndHeatAreHeldBack
  intro s hstop d lim f
  have hframe : s.changesOnly (s.withDev d) [.pwr, .base, .events] := s.changesOnly_refl _
  refine ⟨fun mw vin hup => ?capped, fun mw vin hdown => ?held, ?fast, fun r h => ?limit,
    fun r h => ?status, fun temps hup hlen => ?throttle, fun stack temp => ?stack, fun vin => ?brown⟩
  case capped =>
    refine ⟨_, nextCap lim f mw, powerCapTick_of_up hstop mw vin hup,
      (hframe.capTick (by decide) (by decide) mw vin).setCap (by decide) (by decide) _, nextCap_of_far_over f, nextCap_of_over f,
      fun _ => nextCap_of_far_under f, nextCap_of_under f, ?_, ?_⟩
    · rw [pwr_setCap, pwr_capTick]
      rfl
    · dsimp only
      rw [base_setCap, pwr_capTick, apply_ite Dev.base, apply_ite Dev.base, Dev.raise_base, Dev.raise_base, base_capTick]
      rfl
  case held =>
    refine ⟨_, powerCapTick_of_down hstop mw vin hdown, (s.changesOnly_refl _).capTick (d := d) (by decide) (by decide) mw vin, ?_⟩
    rw [pwr_capTick]
  case fast =>
    refine ⟨_, fastPowerLimit_eq hstop, (hframe.setCap (by decide) (by decide) _).raise (by decide) .., ?_⟩
    rw [Dev.raise_pwr, pwr_setCap]
  case limit =>
    intro w
    exact ⟨fun hlow hhigh => capSet_sets_limit h ⟨hlow, hhigh⟩, fun hout => capSet_refuses h (Dev.not_limitFits hout)⟩
  case status =>
    obtain ⟨b, hlen, hexec⟩ := pwrStatus_eq h
    exact ⟨_, b, hexec, hlen, onlyAnswers_endReq_payload ..⟩
  case throttle =>
    intro th
    obtain ⟨t, hot, hpwr⟩ := pwr_throttled (d.thermTick temps)
    have htemp (i : Nat) (hi : i < 9) : kget 0 (d.thermTick temps).pwr.temps i = nth 0 temps i := temp_thermTick d hlen hi
    have hnext (i : Nat) (hi : i < 4) :
        kget 0 (d.thermTick temps).throttled.pwr.t i = nextThrottle th (kget 0 d.pwr.t i) (nth 0 temps i) := by
      rw [t_throttled _ hi, Dev.throttleOf, throttle_thermTick, htemp i (by omega), pwr_thermTick]
    refine ⟨_, thermalThrottleTick_of_up hstop hup temps,
      (hframe.thermTick (by decide) (by decide) temps).throttled (by decide) (by decide), fun i hi => ?_, fun i hi => ⟨fun hhot => ?_,
      fun hcool => ?_, fun hlow hnear => ?_, ?_⟩, ?_, ?_⟩
    · rw [hpwr]
      exact htemp i hi
    · rw [hnext i hi, nextThrottle_of_hot _ hhot]
    · rw [hnext i hi, nextThrottle_of_cool _ hcool]
    · rw [hnext i hi, nextThrottle_of_near _ hlow hnear]
    · rw [mem_hotDies_throttled _ hi, throttle_thermTick, htemp i (by omega)]
    · rw [hpwr, pwr_thermTick]
    · rw [hpwr, pwr_thermTick]
  case stack =>
    exact ⟨_, hbmStackHot_eq hstop stack temp, (s.changesOnly_refl _).onPwr (d := d) (by decide) _, kget_kset_self ..,
      mem_hotStacks_self .., fun k hne => mem_hotStacks_ne d temp hne⟩
  case brown =>
    intro brownv
    exact ⟨fun hbrown hlow => ⟨_, brownoutEnter_of_low hstop hbrown hlow,
        ((hframe.onPwr (by decide) _).raise (by decide) ..).count (by decide) .., rfl, rfl⟩,
      brownoutEnter_of_no_change hstop, fun hbrown hhigh => ⟨_, brownoutExit_of_high hstop hbrown hhigh,
        (hframe.onPwr (by decide) _).raise (by decide) .., rfl, rfl⟩, brownoutExit_of_no_change hstop⟩

end Sys2Proof.Machine
end

section
/-!
PROOF. The security core (R544, R545, R550 to R552, R587, Table 14.7): one rule for each command and outcome.
-/

namespace Sys2Proof.Machine

/-! ## SECVER_COMMIT (R544) -/

/-- The security core takes a request that may blow fuses. -/
theorem onFuses_eq {s : State} {op : Nat} {r : MbxReq} (h : s.roleTakes 0 op r) (f : Fuses → Mod → MbxReq → Fuses × Mod) :
    onFuses s op f = .next { s with fuses := (f s.fuses s.mod r).1, mod := (f s.fuses s.mod r).2 } := by
  obtain ⟨⟨hup, hnext⟩, hrole⟩ := h
  simp only [onFuses, hnext, hup, hrole, Bool.and_self, if_true]

/-- The module once a security version has been committed. -/
def Dev.committed (d : Dev) (v : Nat) (r : MbxReq) : Dev := (d.raise evSecverCommitted { n := v }).endReq r mbOk

section SecverCommit

variable {s : State} {r : MbxReq} (h : s.roleTakes 0 0x0A03 r)
include h

theorem secverCommit_of_bad (hbad : 1 < fieldAt r.payload 0 1) :
    exec .secverCommit s = .next (s.withDev (s.mod.dev.endReq r mbBadArg)) := by
  have hexec : exec .secverCommit s = execSecverCommit s := rfl
  rw [hexec, execSecverCommit, onFuses_eq h]
  simp only [hbad, if_true]
  rfl

variable (hfuse : fieldAt r.payload 0 1 ≤ 1)
include hfuse

theorem secverCommit_of_tokens_off (hoff : tokensOff s.mod.dev = true) :
    exec .secverCommit s = .next (s.withDev (s.mod.dev.endReq r mbNotAllowed)) := by
  have hexec : exec .secverCommit s = execSecverCommit s := rfl
  rw [hexec, execSecverCommit, onFuses_eq h]
  simp only [hfuse.not_gt, hoff, if_false, if_true]
  rfl

variable (hon : tokensOff s.mod.dev = false)
include hon

theorem secverCommit_during_update (hupdate : s.mod.dev.fw.update ≠ none) :
    exec .secverCommit s = .next (s.withDev (s.mod.dev.endReq r mbBusy)) := by
  have hexec : exec .secverCommit s = execSecverCommit s := rfl
  rw [hexec, execSecverCommit, onFuses_eq h]
  simp only [hfuse.not_gt, hon, Option.isSome_iff_ne_none.2 hupdate, Bool.false_eq_true, if_false, if_true]
  rfl

end SecverCommit

section Commit

variable {s : State} {r : MbxReq} (h : s.roleTakes 0 0x0A03 r) (hon : tokensOff s.mod.dev = false) (hidle : s.mod.dev.fw.update = none)
include h hon hidle

section Firmware

variable {v : Nat} (hfuse : fieldAt r.payload 0 1 = 0) (hrun : runningSecver s.mod.dev = some v)
include hfuse hrun

theorem secverCommit_firmware_of_there (hv : v ≤ s.fuses.svFw) :
    exec .secverCommit s = .next (s.withDev (s.mod.dev.endReq r mbOk)) := by
  have hexec : exec .secverCommit s = execSecverCommit s := rfl
  rw [hexec, execSecverCommit, onFuses_eq h]
  simp only [hfuse, hon, hidle, hrun, hv, Nat.not_lt_zero, Option.isSome_none, Bool.false_eq_true, if_false, if_true]
  rfl

theorem secverCommit_firmware_of_newer (hv : s.fuses.svFw < v) : exec .secverCommit s = .next
    ⟨s.pending, { s.fuses with secverFw := thermometer 64 v s.fuses.secverFw }, ⟨s.mod.mem, s.mod.dev.committed v r⟩⟩ := by
  have hexec : exec .secverCommit s = execSecverCommit s := rfl
  rw [hexec, execSecverCommit, onFuses_eq h]
  simp only [hfuse, hon, hidle, hrun, hv.not_ge, Nat.not_lt_zero, Option.isSome_none, Bool.false_eq_true, if_false, if_true]
  rfl

end Firmware

section Pack

variable {p : Pack} (hfuse : fieldAt r.payload 0 1 = 1) (hpack : s.mod.dev.chk.pack = some p)
include hfuse hpack

theorem secverCommit_pack_of_there (hv : p.secver ≤ s.fuses.svPack) :
    exec .secverCommit s = .next (s.withDev (s.mod.dev.endReq r mbOk)) := by
  have hexec : exec .secverCommit s = execSecverCommit s := rfl
  rw [hexec, execSecverCommit, onFuses_eq h]
  simp only [hfuse, hon, hidle, hpack, hv, lt_irrefl, one_ne_zero, Option.map_some, Option.isSome_none, Bool.false_eq_true, if_false,
    if_true]
  rfl

theorem secverCommit_pack_of_newer (hv : s.fuses.svPack < p.secver) : exec .secverCommit s = .next
    ⟨s.pending, { s.fuses with secverPack := thermometer 64 p.secver s.fuses.secverPack }, ⟨s.mod.mem, s.mod.dev.committed p.secver r⟩⟩ := by
  have hexec : exec .secverCommit s = execSecverCommit s := rfl
  rw [hexec, execSecverCommit, onFuses_eq h]
  simp only [hfuse, hon, hidle, hpack, hv.not_ge, lt_irrefl, one_ne_zero, Option.map_some, Option.isSome_none, Bool.false_eq_true,
    if_false]
  rfl

end Pack

end Commit

/-! ## Certificates, measurements, locks (R545, R550, Table 14.7) -/

/-- A certificate chain is installed. -/
def Dev.installCert (d : Dev) (b : List Byte) : Dev := d.onSec fun x => { x with cert := some b }

section CertSet

variable {s : State} {r : MbxReq} (h : s.roleTakes 0 0x0A06 r)
include h

theorem certSet_of_locked (hlock : s.mod.dev.sec.locks.getLsbD 1 = true) :
    exec .certSet s = .next (s.withDev (s.mod.dev.endReq r mbNotAllowed)) := by
  have hexec : exec .certSet s = execCertSet s := rfl
  rw [hexec, execCertSet, onRole_eq h]
  simp only [hlock, if_true]
  rfl

variable {b : List Byte} (hopen : s.mod.dev.sec.locks.getLsbD 1 = false) (hlen : fieldAt r.payload 8 4 ≤ 0x10000)
  (hb : namedBytes s.mod r.payload = some b)
include hopen hlen hb

theorem certSet_of_bad (hbad : Config.certOk s.fuses.fwKey b = false) :
    exec .certSet s = .next (s.withDev (s.mod.dev.endReq r mbBadArg)) := by
  have hexec : exec .certSet s = execCertSet s := rfl
  rw [hexec, execCertSet, onRole_eq h]
  simp only [hopen, hlen.not_gt, hb, hbad, Bool.false_eq_true, if_false]
  rfl

theorem certSet_of_good (hgood : Config.certOk s.fuses.fwKey b = true) :
    exec .certSet s = .next (s.withDev ((s.mod.dev.installCert b).endReq r mbOk)) := by
  have hexec : exec .certSet s = execCertSet s := rfl
  rw [hexec, execCertSet, onRole_eq h]
  simp only [hopen, hlen.not_gt, hb, hgood, Bool.false_eq_true, if_false, if_true]
  rfl

end CertSet

section MeasGet

variable {s : State} {r : MbxReq} (h : s.roleTakes 0 0x0A07 r)
include h

theorem measGet_of_bad (hbad : fieldAt r.payload 0 1 = 0 ∨ 9 < fieldAt r.payload 0 1) :
    exec .measGet s = .next (s.withDev (s.mod.dev.endReq r mbBadArg)) := by
  have hexec : exec .measGet s = execMeasGet s := rfl
  rw [hexec, execMeasGet, onRole_eq h]
  simp only [hbad, if_true]
  rfl

theorem measGet_of_index (hlow : 1 ≤ fieldAt r.payload 0 1) (hhigh : fieldAt r.payload 0 1 ≤ 9) : exec .measGet s = .next
    (s.withDev (s.mod.dev.endReq r mbOk (leBytes 48 (measurement s.fuses s.mod.dev (fieldAt r.payload 0 1)).toNat))) := by
  have hexec : exec .measGet s = execMeasGet s := rfl
  have hgood : ¬(fieldAt r.payload 0 1 = 0 ∨ 9 < fieldAt r.payload 0 1) := by omega
  rw [hexec, execMeasGet, onRole_eq h]
  simp only [hgood, if_false]
  rfl

end MeasGet

/-- A lock bit is set, and stays as it was where it was set. -/
def Dev.lockSec (d : Dev) (bit : Nat) : Dev := d.onSec fun x => { x with locks := x.locks ||| BitVec.ofNat 3 (2 ^ bit) }

theorem setLock_eq {s : State} (hup : s.mod.dev.hifUp = true) (bit : Nat) : setLock s bit = .next (s.withDev (s.mod.dev.lockSec bit)) :=
  onRing_eq hup _

/-! ## SPDM (R551, R552) -/

/-- An SPDM request is answered with an error, and what was signed before it is forgotten. -/
def Dev.spdmFail (d : Dev) (tr code data : Nat) : Dev :=
  d.onSec fun x => { x with answers := x.answers ++ [(tr, spdmError code data)], signed := kdel x.signed tr }

section Spdm

variable {s : State} {req : List Byte} (hup : secUp s.mod.dev = true)
include hup

theorem spdmRequest_of_no_chain (hcert : s.mod.dev.sec.cert = none)
    (hcode : fieldAt req 1 1 = 0x82 ∨ fieldAt req 1 1 = 0x83 ∨ fieldAt req 1 1 = 0xE4) :
    exec (.spdmRequest true none req) s = .next (s.withDev (s.mod.dev.spdmFail 1 5 0)) := by
  have hexec : exec (.spdmRequest true none req) s = execSpdmRequest true none req s := rfl
  have hknown : spdmUnsupported (fieldAt req 1 1) = false := by rcases hcode with hc | hc | hc <;> rw [hc] <;> rfl
  rw [hexec, execSpdmRequest, onDev_eq]
  simp only [hup, hknown, hcert, hcode, Option.any_none, Option.isNone_none, Bool.not_true, Bool.true_eq_false, Bool.false_eq_true,
    false_and, or_self, and_self, if_false, if_true]
  rfl

variable (hcert : s.mod.dev.sec.cert ≠ none)
include hcert

/-- A fifth session is refused. -/
theorem spdmRequest_of_full (hcode : fieldAt req 1 1 = 0xE4) (hfull : 4 ≤ s.mod.dev.sec.sessions.length) :
    exec (.spdmRequest true none req) s = .next (s.withDev (s.mod.dev.spdmFail 1 10 0)) := by
  have hexec : exec (.spdmRequest true none req) s = execSpdmRequest true none req s := rfl
  have hknown : spdmUnsupported 0xE4 = false := rfl
  have hchain : s.mod.dev.sec.cert.isNone = false := by
    rwa [Option.isNone_eq_false_iff, Option.isSome_iff_ne_none]
  rw [hexec, execSpdmRequest, onDev_eq]
  simp only [hup, hcode, hknown, hchain, hfull, Option.any_none, Bool.not_true, Bool.true_eq_false, Bool.false_eq_true,
    false_and, or_self, and_self, if_false, if_true]
  rfl

/-- A request that is supported is answered; the sessions are what it makes of them. -/
theorem spdmRequest_answers (hknown : spdmUnsupported (fieldAt req 1 1) = false)
    (hroom : ¬(fieldAt req 1 1 = 0xE4 ∧ 4 ≤ s.mod.dev.sec.sessions.length)) : ∃ b x,
    exec (.spdmRequest true none req) s = .next (s.withDev (s.mod.dev.onSec fun _ => x)) ∧
      x.answers = s.mod.dev.sec.answers ++ [(1, b)] ∧ x.sessions = spdmSessions s.mod.dev.sec true none (fieldAt req 1 1) := by
  have hexec : exec (.spdmRequest true none req) s = execSpdmRequest true none req s := rfl
  have hchain : s.mod.dev.sec.cert.isNone = false := by
    rwa [Option.isNone_eq_false_iff, Option.isSome_iff_ne_none]
  rw [hexec, execSpdmRequest, onDev_eq]
  simp only [hup, hknown, hchain, hroom, Option.any_none, Bool.not_true, Bool.true_eq_false, Bool.false_eq_true,
    false_and, or_self, if_false]
  exact ⟨_, _, rfl, rfl, rfl⟩

end Spdm

/-- A key exchange begins a session. -/
theorem length_spdmSessions_of_exchange (x : SecState) (mctp : Bool) (session : Option Nat) :
    (spdmSessions x mctp session 0xE4).length = x.sessions.length + 1 := by
  simp [spdmSessions]

/-- No other request begins one. -/
theorem length_spdmSessions_le (x : SecState) (mctp : Bool) (session : Option Nat) {code : Nat} (hcode : code ≠ 0xE4) :
    (spdmSessions x mctp session code).length ≤ x.sessions.length := by
  simp only [spdmSessions, hcode, if_false]
  split
  · exact (List.length_map ..).le
  · split
    · exact List.length_filter_le ..
    · exact le_rfl

/-- An SLH-DSA answer goes out, and what was signed is done with. -/
def Dev.slhAnswer (d : Dev) (b : List Byte) : Dev :=
  d.onSec fun x => { x with answers := x.answers ++ [(1, b)], signed := kdel x.signed 1 }

section Slh

variable {s : State} (hup : secUp s.mod.dev = true)
include hup

theorem slhSignatureRequest_of_signed {i : List Byte} (hsigned : kfind s.mod.dev.sec.signed 1 = some i) : ∃ sig, sig.length = 16224 ∧
    exec (.slhSignatureRequest true) s = .next (s.withDev (s.mod.dev.slhAnswer ([0x81, 0x00, 0x00, 0x00] ++ sig))) := by
  have hexec : exec (.slhSignatureRequest true) s = execSlhSignatureRequest true s := rfl
  have htr : b2n true = 1 := rfl
  refine ⟨padTo 16224 (Config.deviceSign 1 i), length_padTo .., ?_⟩
  rw [hexec, execSlhSignatureRequest, onDev_eq]
  simp only [hup, htr, hsigned, Bool.not_true, Bool.true_eq_false, Bool.false_eq_true, false_and, or_self, if_false]
  rfl

theorem slhSignatureRequest_of_none (hnone : kfind s.mod.dev.sec.signed 1 = none) :
    exec (.slhSignatureRequest true) s = .next (s.withDev (s.mod.dev.slhAnswer [0x81, 0x01, 0x00, 0x00])) := by
  have hexec : exec (.slhSignatureRequest true) s = execSlhSignatureRequest true s := rfl
  have htr : b2n true = 1 := rfl
  rw [hexec, execSlhSignatureRequest, onDev_eq]
  simp only [hup, htr, hnone, Bool.not_true, Bool.true_eq_false, Bool.false_eq_true, false_and, or_self, if_false]
  rfl

end Slh

/-! ## The debug port (R587, Table 16.8) -/

section DebugPort

variable {s : State} (scope : Fin 4) (word : Word64)

theorem debugPortAccess_of_dead (hdead : s.mod.dev.sec.dbg ≠ 2 ∨ bitOf s.mod.dev.sec.scope scope = false) :
    exec (.debugPortAccess scope word) s = .next s := by
  have hexec : exec (.debugPortAccess scope word) s = execDebugPortAccess scope word s := rfl
  rw [hexec, execDebugPortAccess, onDev_eq]
  simp only [hdead, if_true]

/-- A word reaches the unit. -/
def Dev.debugWord (d : Dev) (scope : Nat) (word : Word64) : Dev := d.onSec fun x => { x with dbgOut := x.dbgOut ++ [(scope, word)] }

theorem debugPortAccess_of_open (hopened : s.mod.dev.sec.dbg = 2) (hscope : bitOf s.mod.dev.sec.scope scope = true) :
    exec (.debugPortAccess scope word) s = .next (s.withDev (s.mod.dev.debugWord scope word)) := by
  have hexec : exec (.debugPortAccess scope word) s = execDebugPortAccess scope word s := rfl
  rw [hexec, execDebugPortAccess, onDev_eq]
  simp only [hopened, hscope, ne_eq, not_true_eq_false, Bool.true_eq_false, or_self, if_false]
  rfl

end DebugPort

/-- Settles O48: by one rule for each command and outcome. -/
theorem securityOperationsAnswer : Obligations.SecurityOperationsAnswer := by
  unfold Obligations.SecurityOperationsAnswer
  intro s m d
  have hsec : s.changesOnly (s.withDev d) [.sec] := s.changesOnly_refl _
  refine ⟨fun r h => ?secver, fun r h => ?cert, fun r h => ?meas, fun hup => ?locks, fun req hup => ?spdm,
    fun req hup hcert hcode => ?exchange, fun hup => ?slh, fun scope word => ?port⟩
  case secver =>
    refine ⟨fun hbad => ⟨_, secverCommit_of_bad h hbad, onlyAnswers_endReq ..⟩,
      fun hfuse hoff => ⟨_, secverCommit_of_tokens_off h hfuse hoff, onlyAnswers_endReq ..⟩,
      fun hfuse hon hupdate => ⟨_, secverCommit_during_update h hfuse hon hupdate, onlyAnswers_endReq ..⟩,
      fun v hfuse hon hidle hrun => ⟨fun hv => ?_, fun hv => ?_⟩, fun p hfuse hon hidle hpack => ⟨fun hv => ?_, fun hv => ?_⟩⟩
    · exact ⟨_, secverCommit_firmware_of_there h hon hidle hfuse hrun hv, onlyAnswers_endReq ..⟩
    · exact ⟨_, secverCommit_firmware_of_newer h hon hidle hfuse hrun hv, rfl, rfl, rfl, rfl⟩
    · exact ⟨_, secverCommit_pack_of_there h hon hidle hfuse hpack hv, onlyAnswers_endReq ..⟩
    · exact ⟨_, secverCommit_pack_of_newer h hon hidle hfuse hpack hv, rfl, rfl, rfl, rfl⟩
  case cert =>
    refine ⟨fun hlock => ⟨_, certSet_of_locked h hlock, onlyAnswers_endReq ..⟩, fun b hopen hlen hb =>
      ⟨fun hbad => ⟨_, certSet_of_bad h hopen hlen hb hbad, onlyAnswers_endReq ..⟩, fun hgood =>
        ⟨_, certSet_of_good h hopen hlen hb hgood, ?_, ?_⟩⟩⟩
    · exact ((s.changesOnly_refl _).onSec (d := d) (by decide) _).mailOnly (by decide) (by decide) (Dev.mailOnly_endReq ..)
    · rw [Dev.endReq_sec]
      rfl
  case meas =>
    exact ⟨fun hbad => ⟨_, measGet_of_bad h hbad, onlyAnswers_endReq ..⟩,
      fun hlow hhigh => ⟨_, measGet_of_index h hlow hhigh, onlyAnswers_endReq_payload ..⟩⟩
  case locks =>
    exact ⟨⟨_, setLock_eq hup 0, hsec.onSec (by decide) _, rfl⟩, ⟨_, setLock_eq hup 1, hsec.onSec (by decide) _, rfl⟩,
      ⟨_, setLock_eq hup 2, hsec.onSec (by decide) _, rfl⟩⟩
  case spdm =>
    refine ⟨fun hcert hcode => ⟨_, spdmRequest_of_no_chain hup hcert hcode, hsec.onSec (by decide) _, rfl, rfl⟩,
      fun hcert hknown hcode => ?_⟩
    obtain ⟨b, x, hexec, hanswers, hsessions⟩ := spdmRequest_answers hup hcert hknown fun hboth => hcode hboth.1
    exact ⟨_, b, hexec, hsec.onSec (by decide) _, hanswers,
      (congrArg List.length hsessions).trans_le (length_spdmSessions_le _ _ _ hcode)⟩
  case exchange =>
    refine ⟨fun hfull => ⟨_, spdmRequest_of_full hup hcert hcode hfull, hsec.onSec (by decide) _, rfl⟩, fun hroom => ?_⟩
    have hknown : spdmUnsupported (fieldAt req 1 1) = false := by rw [hcode]; rfl
    obtain ⟨b, x, hexec, -, hsessions⟩ := spdmRequest_answers hup hcert hknown fun hboth => hroom.not_ge hboth.2
    rw [hcode] at hsessions
    exact ⟨_, hexec, hsec.onSec (by decide) _, (congrArg List.length hsessions).trans (length_spdmSessions_of_exchange ..)⟩
  case slh =>
    refine ⟨fun i hsigned => ?_, fun hnone => ⟨_, slhSignatureRequest_of_none hup hnone, hsec.onSec (by decide) _, rfl⟩⟩
    obtain ⟨sig, hlen, hexec⟩ := slhSignatureRequest_of_signed hup hsigned
    exact ⟨_, sig, hexec, hlen, hsec.onSec (by decide) _, rfl⟩
  case port =>
    exact ⟨debugPortAccess_of_dead scope word, fun hopened hscope => ⟨_, debugPortAccess_of_open scope word hopened hscope,
      hsec.onSec (by decide) _, rfl⟩⟩

end Sys2Proof.Machine
end

section
/-!
PROOF. Coolant, slots and bays (R584, R596 to R598, Table 16.12): what the restoring of rows leaves of the parts, then one rule for each
command and outcome.
-/

namespace Sys2Proof.Machine

/-! ## Coolant (R584) -/

/-- Ticks on end with the coolant hot. -/
def Dev.hotTicks (d : Dev) (inlet outlet : Nat) : Nat := if inlet + 200 < outlet then d.hw.coolHot + 1 else 0

/-- The coolant is to be warned of. -/
def Dev.coolantWarns (d : Dev) (inlet outlet : Nat) : Bool := decide (inlet < 150 ∨ 450 < inlet ∨ 10 ≤ d.hotTicks inlet outlet)

/-- The coolant's temperatures are taken. -/
def Dev.readCoolant (d : Dev) (inlet outlet : Nat) : Dev := d.onHw fun h => { h with
  coolant := (inlet, outlet), coolHot := d.hotTicks inlet outlet, coolWarn := d.coolantWarns inlet outlet }

theorem coolantCheck_of_power {s : State} (hpow : s.mod.dev.pwr.powered = true) (inlet outlet : Nat) :
    exec (.coolantCheck inlet outlet) s = .next (s.withDev
      (if s.mod.dev.coolantWarns inlet outlet = s.mod.dev.hw.coolWarn then s.mod.dev.readCoolant inlet outlet
        else (s.mod.dev.readCoolant inlet outlet).raise evCoolantWarn { n := if s.mod.dev.coolantWarns inlet outlet then 1 else 0 })) := by
  have hexec : exec (.coolantCheck inlet outlet) s = execCoolantCheck inlet outlet s := rfl
  have hwarn : (decide (inlet < 150) || decide (450 < inlet) || decide (10 ≤ s.mod.dev.hotTicks inlet outlet)) =
      s.mod.dev.coolantWarns inlet outlet := by
    simp only [Dev.coolantWarns, Bool.decide_or, Bool.or_assoc]
  unfold Dev.hotTicks at hwarn
  rw [hexec, execCoolantCheck, onDev_eq]
  simp only [hpow, hwarn, Bool.not_true, Bool.false_eq_true, if_false]
  rfl

/-! ## A slot or bay that is given a state (Table 16.12) -/

@[simp] theorem cartOf_modCart_self (d : Dev) (bay : Nat) (f : Cart → Cart) : cartOf (d.modCart bay f).tier bay = f (cartOf d.tier bay) :=
  kget_kmod_self ..

theorem slotSt_setSlot (d : Dev) (u : Nat) (st : UnitSt) : slotSt (d.setSlot u st) u = st := by
  unfold slotSt Dev.setSlot
  split
  · rw [ddrOf_modDdr_self]
  · rw [cartOf_modCart_self]

@[simp] theorem Dev.setSlot_hw (d : Dev) (u : Nat) (st : UnitSt) : (d.setSlot u st).hw = d.hw := by
  unfold Dev.setSlot
  split <;> rfl

@[simp] theorem Dev.setSlot_base (d : Dev) (u : Nat) (st : UnitSt) : (d.setSlot u st).base = d.base := by
  unfold Dev.setSlot
  split <;> rfl

/-- The state of a slot or bay is a part of the tiers. -/
theorem slotSt_congr {d d' : Dev} (hddr : d'.tier.ddr = d.tier.ddr) (hcarts : d'.tier.carts = d.tier.carts) (u : Nat) :
    slotSt d' u = slotSt d u := by
  rw [slotSt, slotSt, ddrOf, ddrOf, cartOf, cartOf, hddr, hcarts]

theorem State.changesOnly.setSlot {s : State} {d : Dev} {ps : List Part} (h : s.changesOnly (s.withDev d) ps) (hp : Part.tier ∈ ps)
    (u : Nat) (st : UnitSt) : s.changesOnly (s.withDev (d.setSlot u st)) ps := by
  unfold Dev.setSlot
  split
  · exact h.onTier hp _
  · exact h.onTier hp _

/-! ## A part that is put in (R598) -/

/-- A part is found in a slot or bay. -/
def Dev.partIn (d : Dev) (u size : Nat) (genuine : Bool) : Dev := d.onHw fun h => { h with
  present := kput h.present u size, found := h.found ++ [(u, size, genuine)] }

/-- A part no longer waits to be returned. -/
def Dev.dropFound (d : Dev) (u : Nat) : Dev := d.onHw fun h => { h with found := h.found.filter fun x => x.1 ≠ u }

/-- A part that fails its checks is refused. -/
def Dev.refusePart (d : Dev) (u : Nat) (ev : Nat × Nat) (n : Nat) : Dev := ((d.setSlot u .refused).dropFound u).raise ev { n := n }

theorem slotSt_refusePart (d : Dev) (u : Nat) (ev : Nat × Nat) (n : Nat) : slotSt (d.refusePart u ev n) u = .refused :=
  slotSt_setSlot d u .refused

theorem base_refusePart (d : Dev) (u : Nat) (ev : Nat × Nat) (n : Nat) : (d.refusePart u ev n).base = (d.raise ev { n := n }).base := by
  rw [Dev.refusePart, Dev.raise_base, Dev.raise_base, Dev.dropFound, Dev.onHw_base, Dev.setSlot_base]

theorem State.changesOnly.refusePart {s : State} {d : Dev} {ps : List Part} (h : s.changesOnly (s.withDev d) ps) (hhw : Part.hw ∈ ps)
    (htier : Part.tier ∈ ps) (hevents : Part.events ∈ ps) (u : Nat) (ev : Nat × Nat) (n : Nat) :
    s.changesOnly (s.withDev (d.refusePart u ev n)) ps := ((h.setSlot htier u _).onHw hhw _).raise hevents ..

/-- No part is returned while the module takes none. -/
theorem beginReturn_of_not {d : Dev} {u : Nat} (hnot : mayReturn d u = false) : beginReturn d u = d := by
  unfold beginReturn
  split
  · rfl
  · simp only [hnot, Bool.not_false, if_true]

section BeginReturn

variable {d : Dev} {u size : Nat} {genuine : Bool} (hfound : d.hw.found.find? (fun x => x.1 = u) = some (u, size, genuine))
  (hmay : mayReturn d u = true)
include hfound hmay

theorem beginReturn_of_dimm (hu : u < 16) (hsize : d.tier.capCh ≤ size) : beginReturn d u = d.setSlot u .returning := by
  rw [beginReturn, hfound]
  simp only [hmay, hu, hsize.not_gt, Bool.not_true, Bool.false_eq_true, if_false, if_true]

theorem beginReturn_of_small_dimm (hu : u < 16) (hsize : size < d.tier.capCh) : beginReturn d u = d.refusePart u evDimmRefused u := by
  rw [beginReturn, hfound]
  simp only [hmay, hu, hsize, Bool.not_true, Bool.false_eq_true, if_false, if_true]
  rfl

theorem beginReturn_of_genuine (hu : 16 ≤ u) (hgenuine : genuine = true) : beginReturn d u = d.setSlot u .returning := by
  rw [beginReturn, hfound]
  simp only [hmay, hu.not_gt, hgenuine, Bool.not_true, Bool.false_eq_true, if_false]

theorem beginReturn_of_other (hu : 16 ≤ u) (hother : genuine = false) : beginReturn d u = d.refusePart u evCartRefused (u - 16) := by
  rw [beginReturn, hfound]
  simp only [hmay, hu.not_gt, hother, Bool.not_true, Bool.not_false, Bool.false_eq_true, if_false, if_true]
  rfl

end BeginReturn

section PartIn

variable {d : Dev} {u : Nat} (size : Nat) (genuine : Bool)

/-- A part put in is the first that waits for its slot, where none waits there. -/
theorem find_partIn (hnew : ∀ x ∈ d.hw.found, x.1 ≠ u) :
    (d.partIn u size genuine).hw.found.find? (fun x => x.1 = u) = some (u, size, genuine) := by
  have hnone : d.hw.found.find? (fun x => x.1 = u) = none := List.find?_eq_none.2 fun x hx => by simpa using hnew x hx
  rw [Dev.partIn, Dev.onHw_hw, List.find?_append, hnone]
  simp

theorem mayReturn_partIn : mayReturn (d.partIn u size genuine) u = mayReturn d u := rfl

/-- A module that is READY returns a part to a slot that is empty or fallow, its latch closed. -/
theorem mayReturn_of_ready (hready : d.hif.ready = true) (hstop : d.stopped = false) (hdbg : d.sec.dbg = 0) (hlatch : latchOpen d u = false)
    (hst : slotSt d u = .empty ∨ slotSt d u = .fallowOff) : mayReturn d u = true := by
  rcases hst with hst | hst <;> simp [mayReturn, hready, hstop, hdbg, hlatch, hst]

theorem mayReturn_of_not_ready (hready : d.hif.ready = false) : mayReturn d u = false := by simp [mayReturn, hready]

end PartIn

section PresenceChange

variable {s : State} (u : Fin 20) (size : Nat) (genuine : Bool)

theorem presenceChange_of_new (hpow : s.mod.dev.pwr.powered = true) (hnone : kfind s.mod.dev.hw.present u = none) :
    exec (.presenceChange u size genuine) s = .next (s.withDev (beginReturn (s.mod.dev.partIn u size genuine) u)) := by
  have hexec : exec (.presenceChange u size genuine) s = execPresenceChange u size genuine s := rfl
  rw [hexec, execPresenceChange, onDev_eq]
  simp only [hpow, hnone, Option.isSome_none, Bool.not_true, Bool.false_eq_true, or_self, if_false]
  rfl

theorem presenceChange_of_no_change (h : s.mod.dev.pwr.powered = false ∨ kfind s.mod.dev.hw.present u ≠ none) :
    exec (.presenceChange u size genuine) s = .next s := by
  have hexec : exec (.presenceChange u size genuine) s = execPresenceChange u size genuine s := rfl
  have h' : (!s.mod.dev.pwr.powered) = true ∨ (kfind s.mod.dev.hw.present u).isSome = true :=
    h.imp (fun hpow => by rw [hpow]; rfl) Option.isSome_iff_ne_none.2
  rw [hexec, execPresenceChange, onDev_eq]
  simp only [h', if_true]

end PresenceChange

/-! ## A part that is pulled out (R596, R598) -/

/-- A part is gone from a slot or bay. -/
def Dev.partOut (d : Dev) (u : Nat) : Dev := d.onHw fun h => { h with
  present := kdel h.present u, found := h.found.filter fun x => x.1 ≠ u }

theorem present_partOut (d : Dev) (u : Nat) : kfind (d.partOut u).hw.present u = none := (kfind_kdel ..).trans (if_pos rfl)

/-- `m'` has the parts, and the evacuations under way, as `m` has them. -/
def Mod.sameParts (m m' : Mod) : Prop :=
  m'.dev.hw = m.dev.hw ∧ m'.dev.tier.ddr = m.dev.tier.ddr ∧ m'.dev.tier.carts = m.dev.tier.carts ∧ m'.dev.tier.evacs = m.dev.tier.evacs

section SameParts

variable {m m' : Mod}

theorem Mod.sameParts_refl (m : Mod) : m.sameParts m := ⟨rfl, rfl, rfl, rfl⟩

theorem Mod.sameParts.trans {m'' : Mod} (h : m.sameParts m') (g : m'.sameParts m'') : m.sameParts m'' := by
  obtain ⟨hhw, hddr, hcarts, hevacs⟩ := h
  obtain ⟨ghw, gddr, gcarts, gevacs⟩ := g
  exact ⟨ghw.trans hhw, gddr.trans hddr, gcarts.trans hcarts, gevacs.trans hevacs⟩

theorem Mod.updatesRow.sameParts (h : m.updatesRow m') : m.sameParts m' := by
  obtain ⟨_, _, _, _, _, _, _, _, rfl⟩ := h
  exact ⟨rfl, rfl, rfl, rfl⟩

theorem sameParts_restoreRow {t : TDesc} {v : TabVer} {row : Nat} (h : restoreRow m t v row = some m') : m.sameParts m' := by
  unfold restoreRow at h
  dsimp only at h
  split at h
  · cases h
  · split at h
    · cases h
    · cases h
      exact (((Mod.updatesRow_store ..).trans (updatesRow_writeReplicas ..)).sameParts).trans ⟨rfl, rfl, rfl, rfl⟩

/-- Rows restored one after the other. -/
theorem sameParts_foldl {α : Type} {f : Mod → α → Mod} (hf : ∀ (m : Mod) a, m.sameParts (f m a)) (l : List α) (m : Mod) :
    m.sameParts (l.foldl f m) := by
  induction l generalizing m with
  | nil => exact m.sameParts_refl
  | cons a l ih => exact (hf m a).trans (ih _)

theorem sameParts_restoreAll (m : Mod) (slots : List Slot) : m.sameParts (restoreAll m slots) := by
  refine sameParts_foldl (fun m s => ?_) slots m
  split
  · exact m.sameParts_refl
  · split
    next hrow => exact sameParts_restoreRow hrow
    next => exact ⟨rfl, rfl, rfl, rfl⟩

/-- Counting changes the shared state alone. -/
theorem counts_fields {α : Type} (c : Nat) (inst : α → Nat) (n : Nat) (l : List α) (d : Dev) :
    ∃ b, l.foldl (fun d a => d.count c (inst a) n) d = { d with base := b } := by
  induction l generalizing d with
  | nil => exact ⟨_, rfl⟩
  | cons a l ih =>
    obtain ⟨b, h⟩ := ih (d.count c (inst a) n)
    exact ⟨b, h⟩

theorem sameParts_channelDead (m : Mod) (ch : Nat) : m.sameParts (channelDead m ch) := by
  unfold channelDead
  refine Mod.sameParts.trans ?_ (sameParts_restoreAll _ _)
  rw [Mod.onDev]
  obtain ⟨b, h⟩ := counts_fields cTierError (fun x : Slot => spineOf x.table x.row) 1
    (((slotsIn m.dev.tier (4 + ch / 4)).filter fun s =>
      !s.2.copy && decide (extentChan m.dev.tier (ch / 4) ((64 * s.1 - warmBase (ch / 4)) / 0x1000000) = ch % 4)).map (·.2)) m.dev
  rw [h]
  exact ⟨rfl, rfl, rfl, rfl⟩

theorem setPage_fields (b : BaseState) (t : TierState) (i : Nat) (w : Word64) : ∃ pages, setPage b t i w = { t with pages := pages } :=
  ⟨_, rfl⟩

theorem bumpFree_fields (b : BaseState) (t : TierState) (page : Nat) (up : Bool) :
    ∃ pages, bumpFree b t page up = { t with pages := pages } := setPage_fields ..

/-- A record slot that is taken is listed, and its page counted. -/
theorem allocSlot_fields {u loc : Nat} {s : Slot} (h : allocSlot m u s = some (loc, m')) :
    ∃ pages slots, m' = m.onDev fun d => d.onTier fun t => { t with pages := pages, slots := slots } := by
  unfold allocSlot at h
  dsimp only at h
  split at h
  · obtain ⟨l, -, hput⟩ := Option.map_eq_some_iff.1 h
    obtain ⟨pages, hpages⟩ := bumpFree_fields m.dev.base m.dev.tier _ false
    rw [hpages] at hput
    exact ⟨_, _, (Prod.mk.inj hput).2.symm⟩
  · split at h
    · obtain ⟨l, -, hput⟩ := Option.map_eq_some_iff.1 h
      generalize recordPage s.table s.gran s.version (slotsPerPage s.gran) = w at hput
      obtain ⟨pages, hpages⟩ := setPage_fields m.dev.base m.dev.tier _ w
      rw [hpages] at hput
      obtain ⟨pages', hpages'⟩ := bumpFree_fields m.dev.base { m.dev.tier with pages := pages } _ false
      rw [hpages'] at hput
      exact ⟨_, _, (Prod.mk.inj hput).2.symm⟩
    · cases h


/-- A place taken is one of the unit that has room. The definition is opened as a function, before its arguments: the
kernel would otherwise compute the pools of a state it does not know. -/
theorem placeIn_eq_some {warm : Bool} {x : Nat × Mod} {s : Slot} (h : placeIn m warm s = some x) :
    ∃ u, allocSlot m u s = some x := by
  generalize hf : placeIn = f at h
  delta placeIn at hf
  subst hf
  beta_reduce at h
  cases hu : placeUnit m.dev.base m.dev.tier warm s.table s.row with
  | none => rw [hu] at h; cases h
  | some u => rw [hu] at h; exact ⟨u, h⟩

theorem sameParts_placeIn {warm : Bool} {x : Nat × Mod} {s : Slot} (h : placeIn m warm s = some x) : m.sameParts x.2 := by
  obtain ⟨u, hu⟩ := placeIn_eq_some h
  obtain ⟨_, _, hx⟩ := allocSlot_fields (m' := x.2) hu
  rw [hx]
  exact ⟨rfl, rfl, rfl, rfl⟩


theorem sameParts_restoreFromCairn (m : Mod) (s : Slot) : m.sameParts (restoreFromCairn m s) := by
  have hplace : ∀ warm slot x, placeIn m warm slot = some x → m.sameParts x.2 := fun _ _ _ h => sameParts_placeIn h
  generalize hf : restoreFromCairn = f
  delta restoreFromCairn at hf
  subst hf
  beta_reduce
  generalize placeIn m = place at hplace ⊢
  generalize fromCairn m s.table s.row = source
  rcases slotVer m s with - | ⟨t, v⟩
  · exact m.sameParts_refl
  · dsimp -zeta only
    extract_lets +onlyGivenNames slot target
    have htarget : ∀ x, target = some x → m.sameParts x.2.2 := by
      intro x hx
      cases hwarm : place true slot with
      | some y =>
        simp only [target, hwarm, Option.some.injEq] at hx
        rw [← hx]
        exact hplace _ _ _ hwarm
      | none =>
        simp only [target, hwarm, Option.map_eq_some_iff] at hx
        obtain ⟨y, hy, rfl⟩ := hx
        exact hplace _ _ _ hy
    clear_value target
    have hput : ∀ tier (x : Nat × Mod) (r : List Byte) (e : RowEnt), m.sameParts x.2 → m.sameParts
        (((x.2.store (64 * x.1) (padTo (64 * t.granRec) r)).putRow v.rowmap s.row ⟨tier, 0, e.hotdir, x.1⟩).onDev fun d =>
          d.raise evRowRestored { hasS := true, s := (recTag r).toNat, row := s.row, table := s.table, c := 2 }) :=
      fun _ _ _ _ hx =>
        (hx.trans ((Mod.updatesRow_store ..).trans (Mod.updatesRow_store ..)).sameParts).trans ⟨rfl, rfl, rfl, rfl⟩
    rcases source with - | r
    · exact ⟨rfl, rfl, rfl, rfl⟩
    · rcases target with - | ⟨tier, x⟩
      · exact ⟨rfl, rfl, rfl, rfl⟩
      · exact hput tier x r _ (htarget _ rfl)

/-- A cartridge that is lost leaves its bay empty; the records it held are restored, the parts being as they were. -/
theorem loseCart_parts (m : Mod) (bay : Nat) :
    (loseCart m bay).dev.hw = m.dev.hw ∧ (loseCart m bay).dev.tier.carts = kdel m.dev.tier.carts bay := by
  have hfold : ∃ m1 : Mod, m1.sameParts (loseCart m bay) ∧ m1.dev.hw = m.dev.hw ∧ m1.dev.tier.carts = kdel m.dev.tier.carts bay := by
    unfold loseCart
    exact ⟨_, sameParts_foldl sameParts_restoreFromCairn _ _, rfl, rfl⟩
  obtain ⟨m1, ⟨hhw, -, hcarts, -⟩, hhw1, hcarts1⟩ := hfold
  exact ⟨hhw.trans hhw1, hcarts.trans hcarts1⟩

theorem cartOf_loseCart (m : Mod) (bay : Nat) : cartOf (loseCart m bay).dev.tier bay = Cart.reset := by
  rw [cartOf, (loseCart_parts m bay).2, kget, kfind_kdel, if_pos rfl]
  rfl

end SameParts

theorem partRemoved_of_dead {s : State} (u : Fin 20) (hpow : s.mod.dev.pwr.powered = true) (hdead : slotLive s.mod.dev u = false) :
    exec (.partRemoved u) s = .next (s.withDev ((s.mod.dev.setSlot u .empty).partOut u)) := by
  have hexec : exec (.partRemoved u) s = execPartRemoved u s := rfl
  rw [hexec, execPartRemoved, onDev_eq]
  simp only [hpow, hdead, Bool.not_true, Bool.or_self, Bool.false_eq_true, if_false]
  rfl

theorem partRemoved_of_live {s : State} (u : Fin 20) (hlive : slotLive s.mod.dev u = true) : exec (.partRemoved u) s = .next s := by
  have hexec : exec (.partRemoved u) s = execPartRemoved u s := rfl
  rw [hexec, execPartRemoved, onDev_eq]
  simp only [hlive, Bool.or_true, if_true]

/-- A part is gone from a slot whose supply is on: an error of the unit. -/
def Mod.partLost (m : Mod) (u : Nat) : Mod := m.onDev fun d => (d.partOut u).raise evSlotRemovedLive { n := u }

theorem present_partLost (m : Mod) (u : Nat) : kfind (m.partLost u).dev.hw.present u = none := present_partOut m.dev u

section SlotRemovedLive

variable {s : State} {u : Fin 20}

theorem slotRemovedLive_of_dead (hdead : slotLive s.mod.dev u = false) : exec (.slotRemovedLive u) s = .next s := by
  have hexec : exec (.slotRemovedLive u) s = execSlotRemovedLive u s := rfl
  rw [hexec, execSlotRemovedLive, onPlane, onMod]
  simp only [hdead, Bool.not_false, if_true, ite_self]

theorem slotRemovedLive_of_returning (hstop : s.mod.dev.stopped = false) (hst : slotSt s.mod.dev u = .returning) :
    exec (.slotRemovedLive u) s = .next { s with mod := (s.mod.partLost u).onDev fun d => d.setSlot u .empty } := by
  have hexec : exec (.slotRemovedLive u) s = execSlotRemovedLive u s := rfl
  have hlive : slotLive s.mod.dev u = true := by rw [slotLive, hst]; rfl
  rw [hexec, execSlotRemovedLive, onPlane_eq _ _ hstop]
  simp only [hlive, hst, Bool.not_true, Bool.false_eq_true, if_false, if_true]
  rfl

theorem slotRemovedLive_of_channel (hstop : s.mod.dev.stopped = false) (hst : slotSt s.mod.dev u = .inService) (hu : u.val < 16) :
    exec (.slotRemovedLive u) s =
      .next { s with mod := (channelDead (s.mod.partLost u) u).onDev fun d => startEvac d 1 u none } := by
  have hexec : exec (.slotRemovedLive u) s = execSlotRemovedLive u s := rfl
  have hlive : slotLive s.mod.dev u = true := by rw [slotLive, hst]; rfl
  rw [hexec, execSlotRemovedLive, onPlane_eq _ _ hstop]
  simp only [hlive, hst, hu, Bool.not_true, Bool.false_eq_true, reduceCtorEq, if_false, if_true]
  rfl

theorem slotRemovedLive_of_bay (hstop : s.mod.dev.stopped = false) (hst : slotSt s.mod.dev u = .inService) (hu : 16 ≤ u.val) :
    exec (.slotRemovedLive u) s = .next { s with mod := loseCart (s.mod.partLost u) (u - 16) } := by
  have hexec : exec (.slotRemovedLive u) s = execSlotRemovedLive u s := rfl
  have hlive : slotLive s.mod.dev u = true := by rw [slotLive, hst]; rfl
  rw [hexec, execSlotRemovedLive, onPlane_eq _ _ hstop]
  simp only [hlive, hst, hu.not_gt, Bool.not_true, Bool.false_eq_true, reduceCtorEq, if_false]
  rfl

/-- A channel whose DIMM is gone is evacuated, the parts being found as before. -/
theorem channelDead_evacuated (m : Mod) {ch : Nat} (hch : ch < 16) (hnew : ∀ e ∈ m.dev.tier.evacs, e.unit ≠ ch) :
    (startEvac (channelDead m ch).dev 1 ch none).hw = m.dev.hw ∧
      slotSt (startEvac (channelDead m ch).dev 1 ch none) ch = .evacuating := by
  obtain ⟨hhw, -, -, hevacs⟩ := sameParts_channelDead m ch
  have hnone : ((channelDead m ch).dev.tier.evacs.any fun e => e.kind = 1 && e.unit = ch) = false := by
    rw [hevacs, List.any_eq_false]
    intro e he
    simp [hnew e he]
  rw [startEvac_of_channel hnone]
  refine ⟨hhw, ?_⟩
  rw [slotSt, if_pos hch, ddrOf_modDdr_self]

end SlotRemovedLive

/-! ## The latch of a bay (R597) -/

/-- A bay's latch is found open. -/
def Dev.openLatch (d : Dev) (bay : Nat) : Dev := d.onHw fun h => { h with latch := h.latch ++ [bay] }

/-- An evacuation that starts is a matter of the tiers. -/
theorem State.changesOnly.startEvac {s : State} {d : Dev} {ps : List Part} (h : s.changesOnly (s.withDev d) ps) (hp : Part.tier ∈ ps)
    (kind unit : Nat) (tag : Option Nat) : s.changesOnly (s.withDev (startEvac d kind unit tag)) ps := by
  unfold Machine.startEvac
  split
  · exact h
  · exact h.onTier hp _

section BayLatch

variable {s : State} {bay : Fin 4}

theorem bayLatchOpen_of_shut (hpow : s.mod.dev.pwr.powered = true) (hshut : bay.val ∉ s.mod.dev.hw.latch) :
    exec (.bayLatchOpen bay) s = .next (s.withDev
      (if (cartOf s.mod.dev.tier bay).st ≠ .inService ∨ s.mod.dev.stopped = true then s.mod.dev.openLatch bay
        else (startEvac (s.mod.dev.openLatch bay) 2 bay none).raise evCartLatchOpen { n := bay } bay)) := by
  have hexec : exec (.bayLatchOpen bay) s = execBayLatchOpen bay s := rfl
  have hlatch : s.mod.dev.hw.latch.contains bay.val = false := by simpa using hshut
  rw [hexec, execBayLatchOpen, onDev_eq]
  simp only [hpow, hlatch, Bool.not_true, Bool.false_eq_true, or_self, if_false]
  rfl

/-- The evacuation of a bay that its latch began. -/
def Evac.ofLatch (bay : Nat) (e : Evac) : Bool := decide (e.kind = 2 ∧ e.unit = bay ∧ e.tag = none)

/-- An evacuation that its latch began stops. -/
def Dev.stopLatchEvac (d : Dev) (bay : Nat) : Dev :=
  (d.onTier fun t => { t with evacs := t.evacs.filter fun e => !e.ofLatch bay }).modCart bay fun c => { c with st := .inService }

theorem bayLatchClose_of_evacuated (hevac : (s.mod.dev.tier.evacs.any (Evac.ofLatch bay)) = true) :
    exec (.bayLatchClose bay) s = .next (s.withDev
      ((s.mod.dev.onHw fun h => { h with latch := h.latch.filter fun x => x ≠ bay.val }).stopLatchEvac bay)) := by
  have hexec : exec (.bayLatchClose bay) s = execBayLatchClose bay s := rfl
  unfold Evac.ofLatch at hevac
  rw [hexec, execBayLatchClose, onDev_eq]
  simp only [Dev.onHw_tier, hevac, if_true]
  rfl

end BayLatch

/-- Settles O53: by one rule for each command and outcome. -/
theorem slotsAndBaysFollowTheirParts : Obligations.SlotsAndBaysFollowTheirParts := by
  unfold Obligations.SlotsAndBaysFollowTheirParts
  intro s m d
  have hsame : ∀ ps, s.changesOnly (s.withDev d) ps := fun ps => s.changesOnly_refl ps
  refine ⟨?coolant, ?putIn, fun u size genuine h => presenceChange_of_no_change u size genuine h, fun u hpow hdead => ?pulled,
    fun u => partRemoved_of_live u, fun u => slotRemovedLive_of_dead, fun u hstop hst => ?returning, fun u hstop hst hnew => ?inService,
    fun bay hpow hshut => ?opened, fun bay hevac => ?closed⟩
  case coolant =>
    intro inlet outlet hpow hot warn
    have hread := (hsame [.hw, .base, .events]).onHw (by decide) fun h => { h with
      coolant := (inlet, outlet), coolHot := d.hotTicks inlet outlet, coolWarn := d.coolantWarns inlet outlet }
    have hexec := coolantCheck_of_power hpow inlet outlet
    by_cases hwarn : warn = d.hw.coolWarn
    · rw [if_pos (c := d.coolantWarns inlet outlet = d.hw.coolWarn) hwarn] at hexec
      refine ⟨_, hexec, hread, rfl, ?_⟩
      rw [if_pos hwarn]
      rfl
    · rw [if_neg (c := d.coolantWarns inlet outlet = d.hw.coolWarn) hwarn] at hexec
      refine ⟨_, hexec, hread.raise (by decide) .., rfl, ?_⟩
      rw [if_neg hwarn]
      rfl
  case putIn =>
    intro u size genuine hpow hnone
    have hexec := presenceChange_of_new u size genuine hpow hnone
    have hin : ∀ ps, Part.hw ∈ ps → s.changesOnly (s.withDev (d.partIn u size genuine)) ps := fun ps hp => (hsame ps).onHw hp _
    refine ⟨fun hready => ?_, fun hready hstop hdbg hlatch hst hnew => ?_⟩
    · rw [beginReturn_of_not ((mayReturn_partIn size genuine).trans (mayReturn_of_not_ready hready))] at hexec
      exact ⟨_, hexec, hin _ (by decide), rfl⟩
    · have hfound := find_partIn size genuine hnew
      have hmay := (mayReturn_partIn size genuine).trans (mayReturn_of_ready hready hstop hdbg hlatch hst)
      refine ⟨fun hu hsize => ?_, fun hu hsize => ?_, fun hu hgenuine => ?_, fun hu hother => ?_⟩
      · rw [beginReturn_of_dimm hfound hmay hu hsize] at hexec
        exact ⟨_, hexec, (hin _ (by decide)).setSlot (by decide) .., slotSt_setSlot ..⟩
      · rw [beginReturn_of_small_dimm hfound hmay hu hsize] at hexec
        exact ⟨_, hexec, (hin _ (by decide)).refusePart (by decide) (by decide) (by decide) .., slotSt_refusePart .., base_refusePart ..⟩
      · rw [beginReturn_of_genuine hfound hmay hu hgenuine] at hexec
        exact ⟨_, hexec, (hin _ (by decide)).setSlot (by decide) .., slotSt_setSlot ..⟩
      · rw [beginReturn_of_other hfound hmay hu hother] at hexec
        exact ⟨_, hexec, (hin _ (by decide)).refusePart (by decide) (by decide) (by decide) .., slotSt_refusePart .., base_refusePart ..⟩
  case pulled =>
    exact ⟨_, partRemoved_of_dead u hpow hdead, ((hsame _).setSlot (by decide) ..).onHw (by decide) _, slotSt_setSlot ..,
      present_partOut ..⟩
  case returning =>
    refine ⟨_, slotRemovedLive_of_returning hstop hst,
      (((hsame _).onHw (by decide) _).raise (by decide) ..).setSlot (by decide) .., slotSt_setSlot .., ?_, ?_⟩
    · exact Dev.setSlot_base ..
    · exact (congrArg (kfind ·.present u) (Dev.setSlot_hw ..)).trans (present_partLost s.mod u)
  case inService =>
    rcases Nat.lt_or_ge u 16 with hu | hu
    · obtain ⟨hhw, hev⟩ := channelDead_evacuated (s.mod.partLost u) hu hnew
      refine ⟨_, slotRemovedLive_of_channel hstop hst hu, rfl, rfl, ?_, ?_⟩
      · exact (congrArg (kfind ·.present u) hhw).trans (present_partLost ..)
      · exact hev.symm ▸ (by decide : UnitSt.evacuating ≠ .inService)
    · refine ⟨_, slotRemovedLive_of_bay hstop hst hu, rfl, rfl, ?_, ?_⟩
      · exact (congrArg (kfind ·.present u) (loseCart_parts ..).1).trans (present_partLost ..)
      · rw [slotSt, if_neg hu.not_gt, cartOf_loseCart]
        decide
  case opened =>
    have hopen : ∀ ps, Part.hw ∈ ps → s.changesOnly (s.withDev (d.openLatch bay)) ps := fun ps hp => (hsame ps).onHw hp _
    have hexec := bayLatchOpen_of_shut hpow hshut
    refine ⟨fun hst hstop => ?_, fun hst => ?_⟩
    · rw [if_neg (not_or.2 ⟨not_not.2 hst, Bool.eq_false_iff.1 hstop⟩)] at hexec
      exact ⟨_, hexec, ((hopen _ (by decide)).startEvac (by decide) ..).raise (by decide) .., rfl⟩
    · rw [if_pos (.inl hst)] at hexec
      exact ⟨_, hexec, hopen _ (by decide), rfl⟩
  case closed =>
    refine ⟨_, bayLatchClose_of_evacuated hevac, (((hsame _).onHw (by decide) _).onTier (by decide) _).onTier (by decide) _, rfl, ?_, ?_⟩
    · rw [Dev.stopLatchEvac, cartOf_modCart_self]
    · intro e he hmine
      obtain ⟨-, hnot⟩ := List.mem_filter.1 he
      simp [Evac.ofLatch, hmine] at hnot

end Sys2Proof.Machine
end
